-- ==== Sys2Proof/Word.lean ====
section
/-! DEFINITION. Words of the model and the plain shapes of what a command carries from outside. -/
namespace Sys2Proof

/-- A 64-bit register value (02 R31, 16 R480). -/
abbrev Word := BitVec 64

/-- A byte. -/
abbrev Byte := BitVec 8

/-- A string of bytes, first byte first. -/
abbrev Bytes := List (BitVec 8)

/-- What the boot flash holds of the identity (12 R361). -/
structure WrappedKeys where
  /-- helper data for the physical unclonable function -/
  helper : Bytes := []
  /-- the DeviceID private keys as wrapped at manufacture: nonce of 12 bytes, ciphertext, tag of 16 bytes (log 139) -/
  wrapRsa : Bytes := []
  wrapSlh : Bytes := []
deriving DecidableEq, Repr

/-- The SPDM certificate chains of slots 0 and 1 (12 R361, R377). -/
structure CertChains where
  chain0 : Bytes := []
  chain1 : Bytes := []
deriving DecidableEq, Repr

/-- The configuration record and its two signatures (12 R362). -/
structure SignedRecord where
  record : Bytes := []
  recordRsa : Bytes := []
  recordSlh : Bytes := []
deriving DecidableEq, Repr

/-- What the boot flash holds for the Colophon ROM below its images (12 R361, R362; 14 R434). -/
structure BootFlash extends WrappedKeys, CertChains, SignedRecord
deriving DecidableEq, Repr

/-- What a RoCE v2 packet carries (10 R301, R306). -/
structure Packet where
  /-- BTH opcode: 0x00 to 0x04 Send, 0x06 to 0x0A Write, 0x0C Read Request, 0x0D to 0x10 Read Response, 0x11 Acknowledge, 0xC0 to 0xC4 multipath -/
  op : Nat := 0
  /-- packet sequence number, 24 bits -/
  psn : Nat := 0
  /-- placement extension: message number or cumulative PSN, path, payload offset, message length, time -/
  msn : Nat := 0
  path : Nat := 0
  offset : Nat := 0
  mlen : Nat := 0
  ts : Nat := 0
  /-- RETH or placement extension: address and remote key; mlen is also the RETH's length -/
  va : Nat := 0
  rkey : Nat := 0
  /-- received bitmap of a Multipath Acknowledge -/
  bitmap : Nat := 0
  /-- AETH of an Acknowledge: 0 acknowledge, 1 NAK sequence error, 2 NAK invalid request, 3 NAK remote access, 4 NAK remote operational -/
  nak : Nat := 0
  payload : Bytes := []
deriving DecidableEq, Repr

/-- What a frame received on an Ethernet port shows the checks of 10 R300 and the meters of 11 R339. -/
structure Rx where
  /-- frame length in bytes, FCS included (11 R336) -/
  len : Nat := 0
  /-- an encapsulation of 10 R300 -/
  encapOk : Bool := true
  /-- the FCS is good -/
  fcsOk : Bool := true
  /-- a pause or priority flow control frame, or a congestion notification packet -/
  control : Bool := false
  /-- a CE mark -/
  ce : Bool := false
  /-- DSCP -/
  dscp : Nat := 0
  /-- destination queue pair number -/
  qpn : Nat := 0
  pkt : Packet := {}
deriving DecidableEq, Repr

/-- What an IEEE 1588 message carries (11 R353, R354). Times are ns from the epoch of network time. -/
structure PtpMsg where
  port : Nat := 0
  /-- 0 IEEE 802.3, 1 UDP over IPv4, 2 UDP over IPv6 -/
  transport : Nat := 0
  domain : Nat := 0
  /-- sourcePortIdentity -/
  clockId : BitVec 64 := 0
  portNum : Nat := 0
  seq : Nat := 0
  /-- two-step flag of a Sync -/
  twoStep : Bool := false
  /-- correctionField, ns -/
  correction : Int := 0
  /-- originTimestamp, preciseOriginTimestamp or receiveTimestamp, ns -/
  origin : Int := 0
  /-- Announce: data set of the grandmaster -/
  prio1 : Nat := 0
  cls : Nat := 0
  accuracy : Nat := 0
  variance : Nat := 0
  prio2 : Nat := 0
  gmId : BitVec 64 := 0
  steps : Nat := 0
  /-- log2 of the Announce interval in s, signed -/
  logInterval : Int := 0
deriving DecidableEq, Repr

/-- What service processor 2 finds of a device behind a downstream port (14 R439, 05 R154). -/
structure PortFound where
  /-- CXL: it is a Type-3 device, needs CXL.cache, offers dynamic capacity -/
  type3 : Bool := true
  needsCache : Bool := false
  dynamic : Bool := false
  /-- NVMe: bytes of a logical block of namespace 1, and of its metadata -/
  block : Nat := 4096
  metadata : Nat := 0
  /-- NVMe: the first admin command that did not complete (1 Identify Controller, 2 Identify Namespace 1, 3 Set Features, 4 the creation of the I/O
  queues), and whether it timed out after 1 s -/
  stuck : Option (Nat × Bool) := none
deriving DecidableEq, Repr

end Sys2Proof
end

