-- ==== Sys2Proof/Syntax.lean ====
section
/-! DEFINITION. The commands of the block: one constructor for each row of spec/opcode_table.json, with its operands.
Each docstring ends with the row's rule number R<n>. -/
namespace Sys2Proof

/-- The commands (95, opcode_table.json). -/
inductive Instr where
  /-- COMMAND_RING_TAIL_DOORBELL: A doorbell write with KIND 0 is checked under R42 and, if accepted, sets TAIL_n of the named command ring and invalidates its fetch buffer. (R41) -/
  | commandRingTailDoorbell (fn ctx ring index rsv bytes : Nat)
  /-- COMPLETION_HEAD_DOORBELL: A doorbell write with KIND 1 is checked and, if accepted, sets CHEAD of the completion ring, which returns completion credits. (R42) -/
  | completionHeadDoorbell (fn ctx ring index rsv bytes : Nat)
  /-- INSTRUCTION_FETCH: The context engine reads up to 4 ring entries of a resident context from the ring or the fetch buffer. (R44) -/
  | instructionFetch (ctx ring : Nat)
  /-- INSTRUCTION_DISPATCH: Once its fences, interlocks, credits and slot allow, a fetched instruction gets the common and per-opcode range checks and is dispatched, or ends with OPCODE, RANGE or PERMISSION. (R48) -/
  | instructionDispatch (ctx ring : Nat)
  /-- INSTRUCTION_COMPLETE: When an instruction has ended and all its effects are visible, its completion entry, and its seal entry for a confidential context, is written and its interrupt is signalled. (R57) -/
  | instructionComplete (f : Nat)
  /-- NOP: Does nothing and ends with OK. (R77) -/
  | nop (f : Nat)
  /-- FENCE: Holds later instructions of the ring until the named earlier instructions have completed. (R55) -/
  | fence (f : Nat)
  /-- WAIT: Waits until a signal counter or a gathering step counter reaches TARGET, within an optional time limit. (R78) -/
  | wait (f : Nat)
  /-- WAIT_SATISFIED: The watched value reaches TARGET and the WAIT ends with OK, or ends when its context is next resident. (R78) -/
  | waitSatisfied (f : Nat)
  /-- WAIT_TIMEOUT: A WAIT still unsatisfied at its LIMIT ends with TIMEOUT. (R78) -/
  | waitTimeout (f : Nat)
  /-- SIGNAL: Adds INCREMENT to a signal counter once every earlier instruction of its ring has completed. (R78) -/
  | signal (f : Nat)
  /-- SET: Writes VALUE to the destination register. (R77) -/
  | set (f : Nat)
  /-- ADDX: Writes the sum of two operands to the destination register. (R77) -/
  | addx (f : Nat)
  /-- BRANCH: Tests a condition, or the refusal latch after the earlier instructions of its ring, and redirects fetch by the signed offset. (R79) -/
  | branch (f : Nat)
  /-- LOOP: Decrements the counter register and branches while the result is nonzero. (R80) -/
  | loop (f : Nat)
  /-- LOOKUP: Streams a chain-hash list into a lookup sequencer, runs the binary descent of probes and writes the lookup record of the longest stored prefix. (R195) -/
  | lookup (f : Nat)
  /-- LOOKUP_RECORD_READ: The row slot of the winning match is read back and the LOOKUP writes its record, ends with MISS or POISONED, or runs its descent again. (R197) -/
  | lookupRecordRead (f : Nat)
  /-- OVERFLOW_WALK: With a walk-queue credit, the overflow walker reads up to four buckets of a key and returns the best match. (R200) -/
  | overflowWalk (f : Nat)
  /-- ATTACH: Copies entries of a committed region snapshot into a sequence table as one copy-on-write edit and raises the reference counts of the pages. (R84) -/
  | attach (f : Nat)
  /-- FORK: Creates a new sequence that shares the sealed blocks of a source and copies any open block. (R86) -/
  | fork (f : Nat)
  /-- RELEASE: Drops blocks from a sequence, or deletes the sequence, and lowers the reference counts of the dropped pages. (R87) -/
  | release (f : Nat)
  /-- PUBLISH: Checks scope, range, sealing and fencing, then commits a region version through carries, insertions and withdrawals. (R88) -/
  | publish (f : Nat)
  /-- RETRACT: Withdraws the Spine entries of a committed region version and releases its snapshot. (R90) -/
  | retract (f : Nat)
  /-- APPEND: Writes tokens to the open pages of a sequence or gathering, allocates blocks, queues token IDs to the Awl and sends full pages to the seal queue. (R92) -/
  | append (f : Nat)
  /-- SEQ_APPEND_AT_STEP_BOUNDARY: At a gathering's step boundary, the waiting SEQ-mode APPENDs to its members are applied whole, in dispatch order, before the new step snapshot is taken. (R140) -/
  | seqAppendAtStepBoundary (g : Nat)
  /-- SEAL: Waits until the pages of a block range are sealed and, with FINAL, seals the open block and closes the sequence. (R96) -/
  | seal (f : Nat)
  /-- STAGE: Brings the named sealed pages into T0 at once and refreshes their age stamps. (R97) -/
  | stage (f : Nat)
  /-- HINT: Sets this sequence's hint, and optionally its requested class, for the named pages. (R97) -/
  | hint (f : Nat)
  /-- DEMOTE: Moves the named sealed pages out of T0 now, by a drop or by a write to the named tier. (R98) -/
  | demote (f : Nat)
  /-- DELIVER: Writes the named pages, stored or expanded, to the output buffer, a remote address or upstream memory. (R99) -/
  | deliver (f : Nat)
  /-- GSET_CREATE: Creates a gathering from a gathering record and a member list and takes its first step snapshot. (R102) -/
  | gsetCreate (f : Nat)
  /-- GSET_UPDATE: Replaces the record and member list of an existing gathering and keeps its counters. (R102) -/
  | gsetUpdate (f : Nat)
  /-- GSET_DISSOLVE: Deletes a gathering, ending its counters, its step hold and its weight reservation. (R102) -/
  | gsetDissolve (f : Nat)
  /-- STEP: Sets a gathering's position to (STEPV, LAYERV), taking a new step snapshot when the step counter changes. (R103) -/
  | step (f : Nat)
  /-- ATTEND: Computes attention for one layer of every member from the step snapshot, with page selection, stacking and the combine tree, and writes the output. (R104) -/
  | attend (f : Nat)
  /-- COMBINE: Merges p partial sets in fixed order and writes the output and its catchword. (R105) -/
  | combine (f : Nat)
  /-- LOADW: Records the weight image of a range of layers of a model with a Colophon key slot. (R106) -/
  | loadw (f : Nat)
  /-- DIGEST: Computes chain hashes (CHAIN) or a SHA-384 digest (SHA384) on a Press pipeline and writes them to the output buffer. (R107) -/
  | digest (f : Nat)
  /-- AWAIT_LANDING: The last landing flag of an awaited range is set, and the waiting instruction clears the flags and reads. (R73) -/
  | awaitLanding (f : Nat)
  /-- AWAIT_TIMEOUT: An AWAIT wait whose flags are not all set MSG_US after it began ends its instruction with TIMEOUT. (R313) -/
  | awaitTimeout (f : Nat)
  /-- CONTEXT_ENABLE: A write of ENABLE = 1 to a DISABLED context checks the descriptor and moves it to IDLE, or refuses and sets CFG_ERR. (R29) -/
  | contextEnable (ctx : Nat)
  /-- CONTEXT_RESET: A write of ENABLE = 0, or a larger reset, moves the context to RESETTING, aborts its unbegun instructions and releases its objects. (R405) -/
  | contextReset (ctx : Nat)
  /-- CONTEXT_RESET_FINISHED: Once begun instructions have stopped at safe points and the context's objects are released, the context becomes DISABLED. (R405) -/
  | contextResetFinished (ctx : Nat)
  /-- RESUME: A write of RESUME = 1 to a STOPPED context restarts fetching at FETCH_n and clears FAULT_MORE. (R34) -/
  | resume (bar fn ctx : Nat)
  /-- SLOT_GRANT: The context scheduler gives a free resident slot to the wanting context with the lowest VTIME and swaps it in. (R396) -/
  | slotGrant
  /-- CONTEXT_SWAP_OUT: The scheduler swaps out a resident context that R37 allows to leave, to free a slot. (R396) -/
  | contextSwapOut (slot : Nat)
  /-- SCHEDULER_TICK: Every 1,024 fabric cycles, the VTIME of each resident context rises by its share. (R395) -/
  | schedulerTick
  /-- CREDIT_GRANT: A returned credit goes to the waiting instruction whose context has the lowest VTIME. (R397) -/
  | creditGrant (pool : Nat)
  /-- QUIRE_GRANT: A freed Quire set goes to the first waiter in scheduler order, and that instruction begins. (R397) -/
  | quireGrant
  /-- HEARTBEAT: A 64-bit write to HEARTBEAT records a beat of the function and restarts AGE_MS. (R400) -/
  | heartbeat (fn bytes : Nat)
  /-- HEARTBEAT_TIMEOUT: AGE_MS reaching HB_MS orphans the function and every IDLE, ACTIVE or STOPPED context it owns. (R400) -/
  | heartbeatTimeout (fn : Nat)
  /-- ORPHAN_HOLD_EXPIRED: When the lease of an orphaned context expires, its holder tallies and hints become T0-with-spill and cold. (R402) -/
  | orphanHoldExpired (ctx : Nat)
  /-- LEASE_EXPIRED: A lease whose holder has made no progress for LOCK_US expires, the object is released and the holder's instruction ends with ABORTED. (R410) -/
  | leaseExpired (f kind : Nat)
  /-- STEP_HOLD_EXPIRED: A step hold that has lasted PS_HOLD_LIMIT µs expires, which forms a step boundary and raises STEP_HOLD_EXPIRED. (R141) -/
  | stepHoldExpired (g : Nat)
  /-- KETTLE_DOORBELL: A write to the function's Kettle doorbell applies the checks of STEP and sets the gathering's position, or is ignored and raises KETTLE_IGNORED. (R168) -/
  | kettleDoorbell (fn : Nat) (v : BitVec 64) (bytes : Nat)
  /-- GATHERER_MOVE_START: The Gatherer starts the next waiting move in priority order, taking its port credit and any Press pass. (R165) -/
  | gathererMoveStart
  /-- INWARD_MOVE_LANDED: A demand, prefetch, stage or class move completes, the descriptor names T0, and any stalled reader resumes. (R166) -/
  | inwardMoveLanded (page : Nat) (data : List (BitVec 8))
  /-- INWARD_MOVE_FAILED: A CXL or NVMe read fails or its tag mismatches, and the page is left unchanged or poisoned while the needing instruction ends. (R167) -/
  | inwardMoveFailed (page cause : Nat)
  /-- TIER_READ_TIMEOUT: An inward read without data or completion within T1_US or T2_US fails the move. (R167) -/
  | tierReadTimeout (page : Nat)
  /-- OUTWARD_MOVE_DONE: A placement, spill or demote write completes, the home copy is recorded and any dropped T0 copy is retired. (R165) -/
  | outwardMoveDone (page : Nat)
  /-- OUTWARD_WRITE_FAIL: An outward write fails, the page stays in T0, the port's WRITE_ERR is set and an error record is written. (R166) -/
  | outwardWriteFail (page : Nat)
  /-- RECLAIM_PASS: When FREE_SHEETS falls below LOW, the Gatherer drops cached copies and then spills pages, in order key, until HIGH is reached. (R161) -/
  | reclaimPass
  /-- PRESS_SEAL: A Press pipeline takes a page from the seal queue and computes its chain hash, summary, coded form and sheet digests. (R281) -/
  | pressSeal (pipe : Nat)
  /-- PAGE_SEALED: The Press writes the sealed descriptor, returns the seal-queue credit and retires the raw sheets. (R281) -/
  | pageSealed (pipe : Nat)
  /-- CHAIN_HASH_FORMED: Once HASHED is set for block b − 1, the Press forms block b's chain hash and stores it in the record header and LASTHASH. (R130) -/
  | chainHashFormed
  /-- WEIGHT_PASS: A Press pipeline checks, authenticates and decrypts one weight page into the layer's clear copy. (R293) -/
  | weightPass (wrec page : Nat)
  /-- RETIREMENT_FREE: When PS_OLDEST passes a retirement's tag, its objects are freed and their page IDs return to FREE. (R138) -/
  | retirementFree
  /-- AWL_TOKEN_SCAN: An Awl engine runs each bound automaton on one queued token and fences the sequence on a match. (R226) -/
  | awlTokenScan (engine : Nat)
  /-- AWL_LOAD: Checks an automaton image in a policy context's input buffer and copies it into POOL sheets. (R221) -/
  | awlLoad (ctx auto offset : Nat)
  /-- AWL_UNLOAD: Unloads an automaton that no binding set or stream record names. (R225) -/
  | awlUnload (ctx auto : Nat)
  /-- AWL_BIND: Writes an automaton into an entry of a context's binding set. (R223) -/
  | awlBind (ctx auto target entry : Nat)
  /-- AWL_UNBIND: Clears an entry of a context's binding set and leaves the automaton loaded. (R225) -/
  | awlUnbind (ctx auto target entry : Nat)
  /-- SPINE_INSERTION: The update engine places one new entry in the CAM, shifting a segment, or in the overflow table. (R203) -/
  | spineInsertion
  /-- SPINE_CARRY: The update engine rewrites a slot's VERSION, HANDLE and RINDEX in place. (R206) -/
  | spineCarry
  /-- SPINE_WITHDRAWAL: The update engine clears one entry found through the region's position list and sets its match latch. (R207) -/
  | spineWithdrawal
  /-- SCRUB_ROW: Every SCRUB_INTERVAL cycles, the scrubber compares one row with its shadow copy and makes it suspect on a difference. (R210) -/
  | scrubRow
  /-- PROBE_SEARCH: A write of GO to SP_PROBE_CTL runs one CAM search with any key and mask and reports the winner. (R213) -/
  | probeSearch (v : BitVec 64)
  /-- SP_BANK_WRITE: A write that changes WIDTH or ROLE of an empty bank reconfigures it, or is refused and sets CFG_ERR. (R216) -/
  | spBankWrite (bank : Nat) (v : BitVec 64)
  /-- SP_OVF_WRITE: A write of K while the overflow table is empty reinitialises the table at the new size. (R215) -/
  | spOvfWrite (v : BitVec 64)
  /-- DIR_KEY_FLUSH: Within 1,000 c, or at 256 queued keys, a worker sends its queued directory additions and deletions. (R331) -/
  | dirKeyFlush (qp : Nat)
  /-- DIR_KEY_MESSAGE: The directory applies one worker's key additions and deletions, in message order, to its slice. (R332) -/
  | dirKeyMessage (qp : Nat)
  /-- DIR_LOOKUP: The directory runs the descent over its entries for a worker's consultation and answers with m_d and WORKERS. (R333) -/
  | dirLookup (qp : Nat)
  /-- DIR_LOOKUP_RESPONSE: A worker receives the directory's answer and writes the directory record of its LOOKUP. (R333) -/
  | dirLookupResponse (qp : Nat)
  /-- DIR_LOOKUP_TIMEOUT: A consultation unanswered after MSG_US writes a directory record with STATUS TIMEOUT. (R333) -/
  | dirLookupTimeout (f : Nat)
  /-- COMMIT: A write of COMMIT to PS_CONTROL checks the pending page-space layout and starts its initialisation, or refuses it. (R119) -/
  | commit (v : BitVec 64)
  /-- LAYOUT_INIT_DONE: Initialisation of an accepted layout ends and LAYOUT_VALID becomes 1. (R119) -/
  | layoutInitDone
  /-- GOVERNOR_INTERVAL: At the end of each governor interval the level rises, falls or stays, from power and temperature. (R261) -/
  | governorInterval (power temp : Nat)
  /-- LOAD_INTERVAL: Every 65,536 fabric cycles the four load gauges and the load byte are recomputed. (R320) -/
  | loadInterval (folio read written : Nat)
  /-- FRAME_RX: A received frame is checked for encapsulation, length and FCS and metered, or dropped and counted. (R300) -/
  | frameRx (port : Nat) (fr : Rx)
  /-- INBOUND_RDMA_WRITE: An RDMA Write packet is checked for its PSN, admitted under R314 at the first packet and placed, or held until the first packet arrives. (R311) -/
  | inboundRdmaWrite (qp : Nat)
  /-- INBOUND_SEND: A Send packet is placed into a Vanged receive slot of its queue pair. (R317) -/
  | inboundSend (qp : Nat)
  /-- INBOUND_RDMA_READ_REQUEST: An RDMA Read Request is admitted against a registration and answered with read responses. (R314) -/
  | inboundRdmaReadRequest (qp : Nat)
  /-- INBOUND_ACKNOWLEDGE: An acknowledgement or Multipath Acknowledge retires sent packets and updates the path window from its round-trip sample. (R309) -/
  | inboundAcknowledge (qp : Nat)
  /-- INBOUND_NAK: A NAK sequence error causes retransmission, and a NAK access or invalid-request error puts the queue pair into ERROR. (R307) -/
  | inboundNak (qp : Nat)
  /-- INBOUND_READ_RESPONSE: An RDMA Read Response delivers data for an outstanding read of the device, such as PUT_PAGES. (R301) -/
  | inboundReadResponse (qp : Nat)
  /-- RETRANSMIT_TIMEOUT: A packet unacknowledged after ACK_US is retransmitted and its path window is set to w_min. (R307) -/
  | retransmitTimeout (qp psn : Nat)
  /-- REORDER_GAP_TIMEOUT: A receive gap that lasts REORDER_US sends a NAK sequence error or a bitmap acknowledgement, and triggers multipath retransmission. (R308) -/
  | reorderGapTimeout (qp : Nat)
  /-- MESSAGE_TIMEOUT: A message not complete MSG_US after its first packet puts its queue pair into ERROR with cause 0x06. (R310) -/
  | messageTimeout (qp msg : Nat)
  /-- VANGED_LOOKUP: The executor runs a mirrored LOOKUP for the owner context and sends the response. (R318) -/
  | vangedLookup (qp : Nat)
  /-- VANGED_GET_PAGES: The executor runs a mirrored DELIVER to the requester by RDMA Write. (R318) -/
  | vangedGetPages (qp : Nat)
  /-- PUT_PAGES: The device reads pages by RDMA Read from the source, seals them and adds the blocks to a sequence within an extent. (R324) -/
  | putPages (qp : Nat)
  /-- VANGED_PUBLISH: The executor runs a mirrored PUBLISH for the owner context. (R318) -/
  | vangedPublish (qp : Nat)
  /-- VANGED_ATTEND: The executor runs a mirrored ATTEND for the owner context. (R318) -/
  | vangedAttend (qp : Nat)
  /-- VANGED_STEP: A STEP request acts as a Kettle doorbell for a gathering of the queue pair's function. (R322) -/
  | vangedStep (qp : Nat)
  /-- EXTENT_GRANT: Reserves POOL sheets for a subscriber and returns the extent ID. (R326) -/
  | extentGrant (qp : Nat)
  /-- EXTENT_RETURN: Begins the withdrawal of an extent and answers once its unconsumed sheets have returned. (R327) -/
  | extentReturn (qp : Nat)
  /-- EXTENT_WITHDRAWN: After the last begun request naming the extent ends, its sheets return to POOL and its generation rises. (R327) -/
  | extentWithdrawn (e : Nat)
  /-- VANGED_LOAD: Returns the four gauges, multipath capability and interface version. (R320) -/
  | vangedLoad (qp : Nat)
  /-- FRAME_TX: At a frame boundary the port sends a bypass frame or the frame that the three levels of arbitration, shapers and gate select. (R344) -/
  | frameTx (port : Nat)
  /-- METER_TICK: At each tick, each meter bucket gains its rate. (R340) -/
  | meterTick
  /-- SHAPER_REFILL: At each tick, each shaper adopts written settings and gains RATE ÷ 256 tokens up to BURST. (R346) -/
  | shaperRefill
  /-- HIST_SAMPLE: Every INTERVAL ticks, the depth and delay of every queue increment a histogram bin. (R356) -/
  | histSample
  /-- HIST_COPY: A write of EG_HIST_CMD copies one queue's bins into EG_HIST_DATA and optionally clears them. (R356) -/
  | histCopy (v : BitVec 64)
  /-- GCL_COMMIT: A write of COMMIT to GCL_CTL checks the admin gate schedule and makes it the pending change with its change time. (R351) -/
  | gclCommit (port : Nat) (v : BitVec 64)
  /-- GCL_CHANGE_TIME: When network time reaches T, the pending gate list becomes the operational list. (R351) -/
  | gclChangeTime (port : Nat)
  /-- GCL_ENTRY_CHANGE: The gate states move to the next entry of the operational list as its interval ends. (R349) -/
  | gclEntryChange (port : Nat)
  /-- PTP_ANNOUNCE: An Announce message feeds parent selection by the best master clock algorithm. (R353) -/
  | ptpAnnounce (m : PtpMsg)
  /-- PTP_SYNC: A Sync from the parent gives an offset that the servo steps or slews on, and sends one Delay_Req. (R354) -/
  | ptpSync (m : PtpMsg)
  /-- PTP_FOLLOW_UP: A Follow_Up carries the precise time of a two-step Sync. (R353) -/
  | ptpFollowUp (m : PtpMsg)
  /-- PTP_DELAY_RESP: A Delay_Resp completes a delay exchange and updates the mean path delay. (R354) -/
  | ptpDelayResp (m : PtpMsg)
  /-- SYNC_TIMEOUT: No Sync for SYNC_TIMEOUT ms moves the time unit to HOLDOVER. (R355) -/
  | syncTimeout
  /-- ANNOUNCE_TIMEOUT: The parent's Announce times out with no other parent, and the time unit returns to LISTENING. (R355) -/
  | announceTimeout
  /-- PTP_ENABLE_WRITE: A write of PTP_CONTROL.EN moves the time unit to LISTENING or DISABLED. (R355) -/
  | ptpEnableWrite (v : BitVec 64)
  /-- PTP_TIME_SEC_READ: A read of PTP_TIME_SEC returns the seconds and latches PTP_TIME_NS. (R358) -/
  | ptpTimeSecRead
  /-- PPS_EDGE: At each whole second of network time, PTP_PPS rises for 100 ms. (R466) -/
  | ppsEdge
  /-- QP_READ: Fills NET_QP_DATA from a queue pair context. (R334) -/
  | qpRead (bar fn qp : Nat)
  /-- QP_WRITE: Replaces a queue pair context that is in RESET from NET_QP_DATA. (R303) -/
  | qpWrite (bar fn qp : Nat)
  /-- TO_INIT: Checks a queue pair context and moves it from RESET to INIT. (R303) -/
  | toInit (bar fn qp : Nat)
  /-- TO_RTR: Moves a queue pair from INIT to RTR. (R303) -/
  | toRtr (bar fn qp : Nat)
  /-- TO_RTS: Moves a queue pair from RTR to RTS and initialises its windows, EXPECT and CREDIT. (R303) -/
  | toRts (bar fn qp : Nat)
  /-- TO_RESET: Moves a queue pair from INIT or ERROR to RESET. (R303) -/
  | toReset (bar fn qp : Nat)
  /-- TO_ERROR: Moves a queue pair to ERROR with cause 0x08. (R304) -/
  | toError (bar fn qp : Nat)
  /-- CREATE: Creates a registration over a context's buffer, ring or doorbell and returns its remote key. (R315) -/
  | create (bar fn : Nat)
  /-- REVOKE: Marks a registration REVOKING, fencing every later message. (R316) -/
  | revoke (bar fn reg : Nat)
  /-- REVOCATION_END: When the last admitted message has ended, the registration becomes free and its GEN rises. (R316) -/
  | revocationEnd (reg : Nat)
  /-- EXTENT_REVOKE: NET_EXT_CMD REVOKE begins withdrawal of a granted extent. (R327) -/
  | extentRevoke (bar fn e : Nat)
  /-- NET_MODE_WRITE: A write of NET_CONTROL.MODE regroups the lanes into ports while every link is disabled, or is refused. (R299) -/
  | netModeWrite (v : BitVec 64)
  /-- DIR_ROLE_WRITE: A write of ROLE = 1 enables the directory role when every partition has a directory bank, or is refused. (R329) -/
  | dirRoleWrite (v : BitVec 64)
  /-- SPDM_GET_MEASUREMENTS: The Colophon returns the measurement blocks from one instant, signed with the DeviceID RSA key. (R365) -/
  | spdmGetMeasurements (transport : Nat) (msg : List (BitVec 8))
  /-- SPDM_CHALLENGE: The Colophon answers CHALLENGE with a CHALLENGE_AUTH signed with the DeviceID RSA key. (R379) -/
  | spdmChallenge (transport : Nat) (msg : List (BitVec 8))
  /-- SPDM_KEY_EXCHANGE: The Colophon runs the hybrid secp384r1 and ML-KEM-1024 key exchange and opens a session. (R380) -/
  | spdmKeyExchange (transport : Nat) (msg : List (BitVec 8))
  /-- SPDM_REQUEST: The Colophon answers any other supported SPDM 1.3 request, or returns an SPDM error. (R378) -/
  | spdmRequest (transport session : Nat) (msg : List (BitVec 8))
  /-- GET_PQ_SIGNATURE: Returns the SLH-DSA signature over the last signed message of the connection. (R379) -/
  | getPqSignature (transport : Nat) (msg : List (BitVec 8))
  /-- KEY_RELEASE: Installs a weight key into an authorised slot, which becomes ACTIVATING and raises KEYGEN. (R382) -/
  | keyRelease (session : Nat) (msg : List (BitVec 8))
  /-- SLOT_LOADED: Within 50 µs of a KEY_RELEASE, the slot becomes LOADED. (R382) -/
  | slotLoaded (slot : Nat)
  /-- KEY_ERASE: Erases the key of an authorised slot. (R381) -/
  | keyErase (session : Nat) (msg : List (BitVec 8))
  /-- GET_CONTEXT_KEY: Exports an authorised context's key, encrypted under the session's response key, and sets EXPORTED. (R382) -/
  | getContextKey (session : Nat) (msg : List (BitVec 8))
  /-- SPDM_SESSION_TIMEOUT: An SPDM session whose heartbeat period lapses ends and its keys are erased. (R369) -/
  | spdmSessionTimeout (session : Nat)
  /-- AUTH_SLOT: Authorises a session to fill a key slot for a named function. (R382) -/
  | authSlot (slot session fn : Nat)
  /-- AUTH_CTX: Authorises a session to learn a context's key. (R382) -/
  | authCtx (ctx session : Nat)
  /-- ERASE_SLOT: Sets a key slot to EMPTY and keeps its KEYGEN. (R391) -/
  | eraseSlot (slot : Nat)
  /-- DEBUG1: Enters debug level 1, granting JTAG access to the service processors. (R384) -/
  | debug1
  /-- DEBUG2: Checks a signed debug token and enters debug level 2 under its conditions. (R384) -/
  | debug2
  /-- COLOPHON_ACTIVATION_END: Activation of new Colophon firmware completes, block 2 changes, ACTIVATIONS rises and STALE is set in LOADED slots. (R388) -/
  | colophonActivationEnd
  /-- DRBG_RESEED: After 2^20 requests the DRBG is reseeded and health-tested. (R368) -/
  | drbgReseed (ok : Bool)
  /-- FN_VEC_WRITE: A write of a function's vector range is applied or refused with CFG_ERR. (R394) -/
  | fnVecWrite (fn : Nat) (v : BitVec 64)
  /-- VF_CONFIG_WRITE: A write that clears VF Enable or lowers NumVFs runs a function-level reset of each vanishing virtual function. (R393) -/
  | vfConfigWrite (enable : Bool) (num : Nat)
  /-- FUNCTION_LEVEL_RESET: A PCIe FLR resets a function's configuration space and windows and resets each of its contexts. (R407) -/
  | functionLevelReset (fn : Nat)
  /-- DEV_RESET: A write of 0x5A and 1 to DEV_RESET starts a warm device reset. (R404) -/
  | devReset (v : BitVec 64)
  /-- UPSTREAM_LINK_DOWN: Hot reset or link-down of the link that carries function 0 starts a warm device reset, and of the other link a function-level reset of its functions. (R404) -/
  | upstreamLinkDown (link : Nat)
  /-- WARM_START: After a warm device reset has drained, the device relocks, zeroes T0, verifies images and reaches MANAGEMENT_ONLY. (R458) -/
  | warmStart (puf : List (BitVec 8)) (entropy : Bool)
  /-- RESET_N_ASSERT: Recognised assertion of RESET_N stops everything. (R460) -/
  | resetNAssert
  /-- COLD_START: Recognised deassertion of RESET_N latches straps and begins the cold start sequence. (R458) -/
  | coldStart (bifPin : Bool) (clkMode smb : Nat) (i3c : Bool) (keys : WrappedKeys) (certs : CertChains) (record : SignedRecord)
      (puf : List (BitVec 8)) (entropy : Bool)
  /-- PERST_N_CHANGE: A change of PERST_N starts link training, or is a link-down once the link has reached DL_Active. (R460) -/
  | perstNChange (link : Nat) (asserted : Bool)
  /-- HBM_TRAINING_DONE: HBM4 training ends, failed stacks are marked unavailable, the layout is scaled and T0 zeroing begins. (R460) -/
  | hbmTrainingDone (failed : List Nat)
  /-- T0_ZEROING_DONE: T0 and every store have been zeroed, allowing the mailbox and window to be served. (R409) -/
  | t0ZeroingDone
  /-- IMAGE_VERIFIED: A firmware image has been read and verified, and it is measured and started, or left stopped. (R364) -/
  | imageVerified (image : Nat) (ok : Bool) (hash : BitVec 384) (version : Nat)
  /-- CONFIGURATION_READY: The upstream link reaches DL_Active and the device stops answering configuration requests with Retry Status. (R459) -/
  | configurationReady (link : Nat)
  /-- BROWN_OUT: A rail below threshold for more than 2 µs, or loss of fabric PLL lock, holds every block in reset and asserts FAULT_N. (R451) -/
  | brownOut
  /-- PORT_RESET: A write of PORT_RESET resets one downstream port and enumerates it again. (R439) -/
  | portReset (port : Nat)
  /-- DOWNSTREAM_LINK_EVENT: A downstream link coming up, or a change of DS_PRSNT_N, starts the port's enumeration or marks it link down. (R439) -/
  | downstreamLinkEvent (port : Nat) (up : Bool)
  /-- ENUMERATION_DONE: Service processor 2 finishes enumerating a port and accepts it or rejects it. (R439) -/
  | enumerationDone (port kind width : Nat) (found : PortFound) (vendor : Nat) (serial : BitVec 160) (capacity : Nat)
  /-- PCH_FAILED: A pseudo-channel fails after start-up and is marked unavailable in place. (R117) -/
  | pchFailed (pch : Nat)
  /-- UPSTREAM_READ_COMPLETION: A completion of an upstream read, for a ring fetch or a swap-area read, delivers data or a fault. (R416) -/
  | upstreamReadCompletion (swap : Bool) (ctx ring page result : Nat) (data : List (BitVec 8))
  /-- WATCHDOG_EXPIRY: A service processor's watchdog expires and the processor alone is restarted. (R426) -/
  | watchdogExpiry (n : Nat)
  /-- SP_RESTART_WRITE: A write of 0x5A to FW_SP_n.RESTART restarts service processor n. (R426) -/
  | spRestartWrite (n : Nat) (v : BitVec 64)
  /-- SP_READY: A restarting service processor reports ready and resumes deferred duties. (R427) -/
  | spReady (n : Nat)
  /-- HELLO: Exchanges interface versions and moves the device to OPERATIONAL when majors match and nothing holds it. (R432) -/
  | hello (src : Nat) (msg : List (BitVec 8))
  /-- GET_INFO: Returns the version, active bank and STAGED flag of each image. (R431) -/
  | getInfo (src : Nat) (msg : List (BitVec 8))
  /-- FW_STAGE: Writes a chunk of an image into its inactive flash bank. (R436) -/
  | fwStage (src : Nat) (msg : List (BitVec 8))
  /-- FW_VERIFY: The Colophon checks the staged image's signatures, returns its digest and sets STAGED. (R436) -/
  | fwVerify (src : Nat) (msg : List (BitVec 8))
  /-- FW_ACTIVATE: Flips the active bank of a staged image and starts it by a processor restart or a Colophon activation. (R436) -/
  | fwActivate (src : Nat) (msg : List (BitVec 8))
  /-- PORT_INFO: Returns the 64-byte record of a downstream port. (R440) -/
  | portInfo (src : Nat) (msg : List (BitVec 8))
  /-- TRACE_SET: Writes the trace mask. (R442) -/
  | traceSet (src : Nat) (msg : List (BitVec 8))
  /-- SENSORS: Returns the sensor readings of the PLDM table. (R431) -/
  | sensors (src : Nat) (msg : List (BitVec 8))
  /-- MAILBOX_TIMEOUT: A mailbox request not done within 2 s ends with TIMEOUT and restarts service processor 2. (R433) -/
  | mailboxTimeout
  /-- MCTP_CONTROL: An MCTP control message, such as Set Endpoint ID, is served. (R443) -/
  | mctpControl (binding : Nat) (msg : List (BitVec 8))
  /-- PLDM_REQUEST: A PLDM Type 0, 2 or 4 command returns sensor readings, PDRs or FRU data. (R445) -/
  | pldmRequest (binding : Nat) (msg : List (BitVec 8))
  /-- SENSOR_SAMPLE: Each millisecond the sensor hub samples, and service processor 0 applies the thermal policy to the thermal ceiling. (R471) -/
  | sensorSample (die : Int) (temps : List Int) (currents : List (Option Nat))
  /-- OPERATING_POINT_CHANGE: A change of active point sequences the voltage command and the Folio clock pause. (R456) -/
  | operatingPointChange (avsOk : Bool)
  /-- VOLTAGE_IN_REGULATION: The regulator reports the new voltage, and a faster change pauses and switches the Folio clocks. (R456) -/
  | voltageInRegulation
  /-- REGULATION_TIMEOUT: A faster change not in regulation within 200 µs is abandoned and sets CHANGE_FAIL. (R456) -/
  | regulationTimeout
  /-- PM_CTL_WRITE: A write of REQUEST or AUTO_IDLE changes the operating point ceiling or leaves P3. (R455) -/
  | pmCtlWrite (v : BitVec 64)
  /-- IDLE_ENTRY: No Quire held for IDLE_US µs gates the Folio clocks and enters P3. (R457) -/
  | idleEntry
  /-- MSIX_HOLDOFF_EXPIRY: A vector's effective holdoff elapses and it sends one message, clearing PENDING. (R399) -/
  | msixHoldoffExpiry (vm : Nat)
  /-- MSIX_UNMASK: Unmasking a vector with a pending request sends its message once. (R398) -/
  | msixUnmask (fn entry : Nat)
  /-- CNT_CMD: A write of CNT_CMD zeroes a counter and its overflow bit. (R421) -/
  | cntCmd (v : BitVec 64)
  /-- SIG_CLEAR: A write of SIG_CLEAR zeroes the masked signal counters and their overflow bits. (R486) -/
  | sigClear (fn : Nat) (v : BitVec 64)
  /-- ERR_HEAD_WRITE: A write of ERR_HEAD frees error-ring records, unless it lies beyond TAIL. (R424) -/
  | errHeadWrite (v : BitVec 64)
  /-- BUFFER_WINDOW_ACCESS: A read or write through a function's buffer window reaches its contexts' buffers in T0, or is refused and counted. (R479) -/
  | bufferWindowAccess (fn offset : Nat) (write : Bool) (data : List (Option (BitVec 8)))
  /-- REGISTER_WRITE: A write to a register that has no row of its own sets its RW fields, clears RW1C bits and ignores the rest. (R9) -/
  | registerWrite (bar fn offset : Nat) (v : List (BitVec 64)) (bytes : Nat)
  /-- DEMAND_LANDING_TIMEOUT: A demand landing that has waited for a landing run longer than the source tier's read timeout ends its instruction with TIMEOUT. (R164) -/
  | demandLandingTimeout (page : Nat)
  /-- TIER_WRITE_TIMEOUT: An outward NVMe write with no completion within TIER_TIMEOUT.T2_US fails, leaving the page in T0 and setting the port's WRITE_ERR. (R181) -/
  | tierWriteTimeout (page : Nat)
  /-- UNIT_MARKED_UNAVAILABLE: A Folio, Press pipeline, Awl engine, Ethernet lane or engine that fails, or loses internal state, is marked unavailable with its error record, and later instructions that need it end with UNIT_UNAVAILABLE. (R412) -/
  | unitMarkedUnavailable (kind index : Nat)
  /-- IDE_KM: The root port programs upstream Link IDE keys by IDE_KM, which brings the link to the secure state and sets IDE in CO_STATUS and block 7. (R369) -/
  | ideKm (session : Nat) (msg : List (BitVec 8))
  /-- WATCHDOG_COUNT_RESTART: A service processor's firmware restarts its watchdog count by writing its own watchdog register. (R426) -/
  | watchdogCountRestart (n : Nat)
  /-- ETHERNET_LINK_CHANGE: An Ethernet port's link comes up after 802.3dj training or goes down, which changes NET_PORT_p.LINK_UP. (R299) -/
  | ethernetLinkChange (port : Nat) (up : Bool)
deriving DecidableEq, Repr

end Sys2Proof
end

