-- ==== Sys2Proof/Decode.lean ====
section
/-! DEFINITION. The command that a word of the opcode table spells. The table gives no row any bits: its commands are the steps of the
block, each given with its operands, and no word spells one (log 49). -/
namespace Sys2Proof

/-- No row of the table has bits, so a word of `_nbits` bits spells no command. -/
def decodeTableWord (_nbits _w : Nat) : Option Instr := none

end Sys2Proof
end

