-- ==== Sys2Proof/Machine/Bits.lean ====
section
/-! DEFINITION. Bit fields, byte order and small arithmetic (00 R8). -/
namespace Sys2Proof.Machine
open Sys2Proof

/-- Field of `n` bits whose lowest bit is `lo` (00 R8, bit numbering). -/
def fld (v lo n : Nat) : Nat := v / 2 ^ lo % 2 ^ n

/-- Bit `i` of `v`. -/
def bit (v i : Nat) : Bool := fld v i 1 == 1

/-- A Bool as a one-bit number. -/
def b2n (b : Bool) : Nat := if b then 1 else 0

/-- Division rounding up. -/
def cdiv (a b : Nat) : Nat := (a + b - 1) / b

/-- `(a - b) mod 2^16`, the distance of two ring indices (02 R42). -/
def sub16 (a b : Nat) : Nat := (a + 65536 - b % 65536) % 65536

/-- `n` bytes of `v`, lowest byte first (00 R8, little-endian). -/
def leBytes (n v : Nat) : Bytes :=
  match n with
  | 0 => []
  | n + 1 => BitVec.ofNat 8 v :: leBytes n (v / 256)

/-- The number that bytes spell, lowest byte first. -/
def ofLe : Bytes → Nat
  | [] => 0
  | b :: r => b.toNat + 256 * ofLe r

/-- `n` bytes of `v`, highest byte first. -/
def beBytes (n v : Nat) : Bytes := (leBytes n v).reverse

/-- The number that bytes spell, highest byte first. -/
def ofBe (b : Bytes) : Nat := ofLe b.reverse

/-- `n` zero bytes. -/
def zeros (n : Nat) : Bytes := List.replicate n 0

/-- Cuts bytes into pieces of `n`, at most `k` of them. -/
def chunks {α : Type} (n : Nat) : Nat → List α → List (List α)
  | 0, _ => []
  | k + 1, l => if l.isEmpty then [] else l.take n :: chunks n k (l.drop n)

/-- A signed field of `n` bits as an integer (two's complement). -/
def signed (n v : Nat) : Int := if v % 2 ^ n < 2 ^ (n - 1) then Int.ofNat (v % 2 ^ n) else Int.ofNat (v % 2 ^ n) - Int.ofNat (2 ^ n)

/-- Floor division of an integer by a positive number. -/
def floorDiv (a : Int) (b : Nat) : Int := Int.fdiv a (Int.ofNat b)

/-- A 64-bit word from fields given as (lowest bit, value). -/
def mkWord (fs : List (Nat × Nat)) : BitVec 64 :=
  BitVec.ofNat 64 (fs.foldl (fun a p => a + p.2 * 2 ^ p.1) 0)

end Sys2Proof.Machine
end

