-- ==== Sys2Proof/Machine/Hash.lean ====
section
/-! DEFINITION. SHA-384, HMAC and HKDF-Expand over it (FIPS 180-4, RFC 5869; 04 R129, 12 R370), and the CRC-64 of the catchword (08). -/
namespace Sys2Proof.Machine
open Sys2Proof

/-- Whether `n` is prime, by trial division below 20: all that the primes up to 409 need. -/
def smallPrime (n : Nat) : Bool := decide (2 ≤ n) && (List.range 20).all fun d => d < 2 || d * d > n || n % d != 0

/-- The largest `r` below `r0 + 2^bits` whose `k`-th power is at most `n`, one bit at a time. -/
def rootBits (k n : Nat) : Nat → Nat → Nat
  | 0, r => r
  | bits + 1, r => rootBits k n bits (if (r + 2 ^ bits) ^ k ≤ n then r + 2 ^ bits else r)

/-- First 64 bits of the fraction of the `k`-th root of `p` (FIPS 180-4 defines its constants so). -/
def rootFraction (k p : Nat) : BitVec 64 := BitVec.ofNat 64 (rootBits k (p * 2 ^ (64 * k)) 69 0)

/-- The constants of the 80 rounds: the cube roots of the first 80 primes. -/
def roundConstants : List (BitVec 64) := ((List.range 410).filter smallPrime).map (rootFraction 3)

/-- SHA-384 starts from the square roots of the 9th to the 16th prime. -/
def sha384Start : List (BitVec 64) := ((List.range 54).filter fun n => smallPrime n && decide (23 ≤ n)).map (rootFraction 2)

/-- A word turned right by each of two amounts and by a third (or, with `drop`, shifted by it), the three combined: the four sigma
functions of FIPS 180-4. -/
def sigma (a b c : Nat) (drop : Bool) (x : BitVec 64) : BitVec 64 :=
  [x.rotateRight a, x.rotateRight b, if drop then x >>> c else x.rotateRight c].foldl (· ^^^ ·) 0

/-- Eight working variables and the last 16 schedule words, oldest first. -/
structure Digest where
  vars : List (BitVec 64) := []
  window : List (BitVec 64) := []
deriving DecidableEq, Repr

/-- One round with constant `k`: the oldest schedule word enters it, and the word 16 places on takes its place. -/
def Digest.round (d : Digest) (k : BitVec 64) : Digest :=
  let v := fun i => d.vars.getD i 0
  let w := fun i => d.window.getD i 0
  let pick := (v 4 &&& v 5) ||| (~~~(v 4) &&& v 6)
  let most := (v 0 &&& v 1) ||| (v 2 &&& (v 0 ||| v 1))
  let into := [v 7, sigma 14 18 41 false (v 4), pick, k, w 0].foldl (· + ·) 0
  { vars := (into + sigma 28 34 39 false (v 0) + most) :: (d.vars.take 3 ++ [v 3 + into] ++ (d.vars.drop 4).take 3)
    window := d.window.drop 1 ++ [w 0 + sigma 1 8 7 true (w 1) + w 9 + sigma 19 61 6 true (w 14)] }

/-- The compression function over one block of 128 bytes. -/
def shaBlock (h : List (BitVec 64)) (block : Bytes) : List (BitVec 64) :=
  let d := roundConstants.foldl Digest.round ⟨h, (chunks 8 16 block).map fun b => BitVec.ofNat 64 (ofBe b)⟩
  (h.zip d.vars).map fun p => p.1 + p.2

/-- SHA-384: 48 bytes. -/
def sha384 (m : Bytes) : Bytes :=
  let closed := m ++ 0x80 :: zeros ((239 - m.length % 128) % 128) ++ beBytes 16 (8 * m.length)
  let h := (chunks 128 (closed.length / 128) closed).foldl shaBlock sha384Start
  (h.flatMap fun x => beBytes 8 x.toNat).take 48

/-- XOR of two byte strings. -/
def xorBytes (a b : Bytes) : Bytes := List.zipWith (· ^^^ ·) a b

/-- HMAC-SHA-384 (RFC 2104, block 128 bytes). -/
def hmac384 (key m : Bytes) : Bytes :=
  let k := if key.length ≤ 128 then key else sha384 key
  let k := k ++ zeros (128 - k.length)
  sha384 (k.map (· ^^^ 0x5c) ++ sha384 (k.map (· ^^^ 0x36) ++ m))

/-- HKDF-Expand with SHA-384, at most 255 blocks: `n` blocks from block `i`. -/
def hkdfBlocks (prk info : Bytes) : Nat → Nat → Bytes → Bytes
  | 0, _, _ => []
  | n + 1, i, t =>
    let t' := hmac384 prk (t ++ info ++ [BitVec.ofNat 8 i])
    t' ++ hkdfBlocks prk info n (i + 1) t'

/-- HKDF-Expand (12 R370): `len` bytes. -/
def hkdfExpand (prk info : Bytes) (len : Nat) : Bytes := (hkdfBlocks prk info (cdiv len 48) 1 []).take len

/-- CRC-64, ECMA-182 polynomial, one bit, most significant bit first. -/
def crcBit : Nat → BitVec 64 → BitVec 64
  | 0, c => c
  | n + 1, c => crcBit n (if c.msb then (c <<< 1) ^^^ 0x42f0e1eba9ea3693 else c <<< 1)

/-- One byte into the CRC-64. -/
def crcByte (c : BitVec 64) (b : Byte) : BitVec 64 := crcBit 8 (c ^^^ (b.zeroExtend 64 <<< 56))

/-- The catchword's CRC-64 over bytes (08 R270): initial value and final exclusive or 0. -/
def crc64 (m : Bytes) : BitVec 64 := m.foldl crcByte 0

end Sys2Proof.Machine
end

