-- ==== Sys2Proof/Machine/Codec.lean ====
section
/-! DEFINITION. The exponent-coded form of a page: the Press's code and the expander's checks (09 R276 to R279, R285). -/
namespace Sys2Proof.Machine
open Sys2Proof

/-- Element width of a FORMAT in bytes (09 R275); weight tensors that are coded are BF16. -/
def formatWidth (f : Nat) : Nat := if f = 1 ∨ f = 4 then 1 else 2
/-- Exponent of an element. -/
def elExp (w e : Nat) : Nat := if w = 1 then fld e 3 4 else fld e 7 8
/-- Sign and mantissa of an element, as one number. -/
def elSm (w e : Nat) : Nat := if w = 1 then fld e 7 1 * 8 + fld e 0 3 else fld e 15 1 * 128 + fld e 0 7
/-- An element from its exponent and its sign and mantissa. -/
def elOf (w exp sm : Nat) : Nat := if w = 1 then sm / 8 * 128 + exp * 8 + sm % 8 else sm / 128 * 32768 + exp * 128 + sm % 128
/-- Largest K, largest exponent, largest code bits of a group (09 R277). -/
def kMax (w : Nat) : Nat := if w = 1 then 3 else 7
def expMax (w : Nat) : Nat := if w = 1 then 15 else 255
def bitsMax (w : Nat) : Nat := if w = 1 then 319 else 575

/-- The elements of a payload. -/
def elements (w : Nat) (b : Bytes) : List Nat := (chunks w (b.length + 1) b).map ofLe
/-- The payload of elements. -/
def unelements (w : Nat) (es : List Nat) : Bytes := es.flatMap (leBytes w)

/-- Code bits of a group at parameter `k` (09 R278). -/
def codeCost (ds : List Nat) (k : Nat) : Nat := ds.foldl (fun a d => a + d / 2 ^ k + 1 + k) 0
/-- The K of fewest code bits; on a tie the smaller (09 R279). -/
def bestK (w : Nat) (ds : List Nat) : Nat :=
  (List.range (kMax w + 1)).foldl (fun b k => if codeCost ds k < codeCost ds b then k else b) 0
/-- The low `k` bits of `d`, most significant first. -/
def bitsDown : Nat → Nat → List Bool
  | 0, _ => []
  | k + 1, d => bit d k :: bitsDown k d
/-- The code of one element (09 R278). -/
def codeOf (k d : Nat) : List Bool := List.replicate (d / 2 ^ k) true ++ false :: bitsDown k d
/-- Bits to bytes, bit 7 first, padded with zero bits. -/
def packBits (b : List Bool) : Bytes :=
  (chunks 8 (b.length + 1) b).map fun c => BitVec.ofNat 8 ((c ++ List.replicate (8 - c.length) false).foldl (fun a x => 2 * a + b2n x) 0)
/-- Bytes to bits, bit 7 first. -/
def unpackBits (b : Bytes) : List Bool := b.flatMap fun x => bitsDown 8 x.toNat

/-- A coded group (09 R277, R279). -/
def encodeGroup (w : Nat) (es : List Nat) : Bytes :=
  if es.all (· == 0) then (if w = 1 then [0x80] else leBytes 2 0x1000)
  else
    let exps := es.map (elExp w)
    let base := exps.foldl min (expMax w)
    let ds := exps.map (· - base)
    let k := bestK w ds
    let sms := es.map (elSm w)
    let desc := if w = 1 then leBytes 1 (base + k * 16) else leBytes 2 (base + k * 256)
    let sm := if w = 1 then (chunks 2 (sms.length + 1) sms).map fun c => BitVec.ofNat 8 (c.getD 0 0 + 16 * c.getD 1 0) else sms.map (BitVec.ofNat 8)
    desc ++ sm ++ packBits (ds.flatMap (codeOf k))

/-- The groups of a payload. -/
def groupsOf (w : Nat) (b : Bytes) : List (List Nat) := let es := elements w b; chunks 64 (es.length + 1) es

/-- The sheet digests: low 32 bits of the CRC-64, for 16 sheets (09 R276). -/
def digests (payload : Bytes) : List Nat :=
  (List.range 16).map fun i => let c := (payload.drop (4096 * i)).take 4096; if c.isEmpty then 0 else (crc64 c).toNat % 2 ^ 32

/-- The coded form: 96-byte header and groups (09 R276). -/
def encodeForm (format : Nat) (payload : Bytes) : Bytes :=
  let w := formatWidth format
  let gs := groupsOf w payload
  let body := gs.flatMap (encodeGroup w)
  let len := 96 + body.length
  leBytes 8 (format + 2 ^ 8 + gs.length * 2 ^ 16 + payload.length * 2 ^ 32) ++ leBytes 8 len ++ zeros 16 ++
    (digests payload).flatMap (leBytes 4) ++ body

/-- The stored form of a sealed payload, and whether it is the raw escape (09 R280). -/
def storedForm (format : Nat) (payload : Bytes) (forceRaw : Bool) : Bytes × Bool :=
  let f := encodeForm format payload
  if forceRaw || decide (payload.length ≤ f.length) then (payload, true) else (f, false)

/-! ## The expander -/

/-- Leading one bits, and what follows the zero that ends them. -/
def unary : List Bool → Nat → Option (Nat × List Bool)
  | [], _ => none
  | true :: r, n => unary r (n + 1)
  | false :: r, n => some (n, r)
/-- A number of `k` bits, most significant first. -/
def takeBits : Nat → List Bool → Nat → Option (Nat × List Bool)
  | 0, b, a => some (a, b)
  | _ + 1, [], _ => none
  | k + 1, x :: r, a => takeBits k r (2 * a + b2n x)
/-- Decodes `n` offsets from bits. -/
def takeCodes (k : Nat) : Nat → List Bool → Option (List Nat × List Bool)
  | 0, b => some ([], b)
  | n + 1, b =>
    match unary b 0 with
    | none => none
    | some (q, b) =>
      match takeBits k b 0 with
      | none => none
      | some (r, b) =>
        match takeCodes k n b with
        | some (l, b) => some ((q * 2 ^ k + r) :: l, b)
        | none => none

/-- Result of expanding: the row of 09 R285 that failed (0 none) and the payload. -/
abbrev Expanded := Nat × Bytes

/-- Decodes one group of `n` elements: row that failed, elements, bytes left (09 R277, R285). -/
def decodeGroup (w n : Nat) (b : Bytes) : Nat × List Nat × Bytes :=
  let dl := w
  if b.length < dl then (6, [], [])
  else
    let d := ofLe (b.take dl)
    let base := if w = 1 then fld d 0 4 else fld d 0 8
    let k := if w = 1 then fld d 4 2 else fld d 8 3
    let rsv := if w = 1 then fld d 6 1 else fld d 11 1 + fld d 13 3
    let zero := if w = 1 then bit d 7 else bit d 12
    let b := b.drop dl
    if rsv ≠ 0 ∨ (zero = true ∧ (base ≠ 0 ∨ k ≠ 0)) then (5, [], [])
    else if zero then (0, List.replicate n 0, b)
    else
      let sl := if w = 1 then cdiv n 2 else n
      if b.length < sl then (6, [], [])
      else
        let sms := (b.take sl).flatMap fun x => if w = 1 then [x.toNat % 16, x.toNat / 16] else [x.toNat]
        let b := b.drop sl
        let window := b.take 80
        match takeCodes k n (unpackBits window) with
        | none => if b.length ≤ 80 ∧ b.length * 8 ≤ bitsMax w then (6, [], []) else (5, [], [])
        | some (ds, rest) =>
          let used := window.length * 8 - rest.length
          if bitsMax w < used then (5, [], [])
          else if ds.any fun d => decide (expMax w < base + d) then (5, [], [])
          else (0, List.zipWith (fun d sm => elOf w (base + d) sm) ds sms, b.drop (cdiv used 8))

/-- Decodes groups until `n` elements are produced. -/
def decodeGroups (w : Nat) : Nat → Nat → Bytes → Nat × List Nat × Bytes
  | 0, _, b => (0, [], b)
  | g + 1, n, b =>
    match decodeGroup w (min n 64) b with
    | (0, es, b) =>
      match decodeGroups w g (n - 64) b with
      | (r, l, b) => (r, es ++ l, b)
    | (r, _, _) => (r, [], [])

/-- Expands a coded form with the checks of 09 R285: its format, declared length and expected payload. A tensor body longer than the header's
fields can say declares the low bits of its lengths, and its first 16 sheets have digests (09 R291; log 135). -/
def expandForm (format length expected : Nat) (b : Bytes) : Expanded :=
  let w := formatWidth format
  let h0 := ofLe (b.take 8)
  let h1 := ofLe ((b.drop 8).take 8)
  let h2 := ofLe ((b.drop 16).take 16)
  let payload := if 2 ^ 17 ≤ expected ∧ fld h0 32 17 = expected % 2 ^ 17 then expected else fld h0 32 17
  let groups := fld h0 16 16
  if b.length < 96 then (6, [])
  else if fld h0 0 6 ≠ format ∨ fld h0 8 8 ≠ 1 ∨ fld h0 6 2 ≠ 0 ∨ fld h0 49 15 ≠ 0 ∨ fld h1 17 47 ≠ 0 ∨ h2 ≠ 0 then (1, [])
  else if fld h1 0 17 ≠ length % 2 ^ 17 ∨ payload ≤ length then (2, [])
  else if payload ≠ expected then (3, [])
  else if groups ≠ cdiv payload (64 * w) % 2 ^ 16 then (4, [])
  else
    match decodeGroups w (cdiv payload (64 * w)) (payload / w) (b.drop 96) with
    | (0, es, rest) =>
      let p := unelements w es
      if rest ≠ [] ∨ p.length ≠ payload then (6, [])
      else if ((digests p).take (cdiv payload 4096)).flatMap (leBytes 4) ≠ (b.drop 32).take (4 * min 16 (cdiv payload 4096)) then (7, [])
      else (0, p)
    | (r, _, _) => (r, [])

/-- Cycles that an expander spends on a group of `n` elements: one for a ZERO group, else 16 elements or 64 code bits each (09 R282). -/
def groupTime (w n : Nat) (b : Bytes) : Nat :=
  let d := ofLe (b.take w)
  let k := if w = 1 then fld d 4 2 else fld d 8 3
  if (if w = 1 then bit d 7 else bit d 12) then 1
  else
    match takeCodes k n (unpackBits ((b.drop (w + if w = 1 then cdiv n 2 else n)).take 80)) with
    | some (ds, _) => max (cdiv n 16) (cdiv (codeCost ds k) 64)
    | none => cdiv n 16
/-- The same for the groups of a coded form, its header apart. -/
def groupsTime (w : Nat) : Nat → Nat → Bytes → Nat
  | 0, _, _ => 0
  | g + 1, n, b => groupTime w (min n 64) b + groupsTime w g (n - 64) (decodeGroup w (min n 64) b).2.2
/-- Cycles that an expander spends on `n` elements stored as `b`: a raw escape or an open page costs one for 16 of them (09 R282). -/
def expanderTime (w n : Nat) (coded : Bool) (b : Bytes) : Nat := if coded then groupsTime w (cdiv n 64) n (b.drop 96) else cdiv n 16

/-- Status of a failed row of 09 R285. -/
def expandStatus (row : Nat) : BitVec 16 := if row = 0 then 0 else if row ≥ 7 then 0x0303 else 0x0304

end Sys2Proof.Machine
end

