-- ==== Sys2Proof/Machine/Aes.lean ====
section
/-! DEFINITION. AES-256 and its modes GCM and XTS (FIPS 197, SP 800-38D, IEEE 1619; 12 R372, R373, R375), and the granule code (13 R413). -/
namespace Sys2Proof.Machine
open Sys2Proof

/-- Multiplication by x in the field of AES. -/
def xtime (b : Byte) : Byte := if b.msb then (b <<< 1) ^^^ 0x1b else b <<< 1

/-- Product in the field of AES, over the bits of the second factor. -/
def aesMul (a : Byte) : Nat → Nat → Byte
  | 0, _ => 0
  | n + 1, k => (if k % 2 = 1 then a else 0) ^^^ aesMul (xtime a) n (k / 2)

/-- The S-box as one number: the substitute of `n` is its byte `n`. -/
def aesBox : BitVec 2048 :=
  0x16bb54b00f2d99416842e6bf0d89a18cdf2855cee9871e9b948ed9691198f8e19e1dc186b95735610ef6034866b53e708a8bbd4b1f74dde8c6b4a61c2e2578ba#512 ++
  0x08ae7a65eaf4566ca94ed58d6d37c8e779e4959162acd3c25c2406490a3a32e0db0b5ede14b8ee4688902a22dc4f816073195d643d7ea7c41744975fec130ccd#512 ++
  0xd2f3ff1021dab6bcf5389d928f40a351a89f3c507f02f94585334d43fbaaefd0cf584c4a39becb6a5bb1fc20ed00d153842fe329b3d63b52a05a6e1b1a2c8309#512 ++
  0x75b227ebe28012079a059618c323c7041531d871f1e5a534ccf73f362693fdb7c072a49cafa2d4adf04759fa7dc982ca76abd7fe2b670130c56f6bf27b777c63#512

/-- The inverse of the S-box in the same form. -/
def aesUnbox : BitVec 2048 :=
  0x7d0c2155631469e126d677ba7e042b17619953833cbbebc8b0f52aae4d3be0a0ef9cc9939f7ae52d0d4ab519a97f51605fec8027591012b131c7078833a8dd1f#512 ++
  0xf45acd78fec0db9a2079d2c64b3e56fc1bbe18aa0e62b76f89c5291d711af1476edf751ce837f9e28535ade72274ac9673e6b4f0cecff297eadc674f4111913a#512 ++
  0x6b8a130103bdafc1020f3fca8f1e2cd00645b3b80558e4f70ad3bc8c00abd890849d8da75746155edab9edfd5048706c92b6655dcc5ca4d41698688664f6f872#512 ++
  0x25d18b6d49a25b76b224d92866a12e084ec3fa420b954cee3d23c2a632947b54cbe9dec444438e3487ff2f9b8239e37cfbd7f3819ea340bf38a53630d56a0952#512

/-- The AES S-box. -/
def aesSub (b : Byte) : Byte := aesBox.extractLsb' (8 * b.toNat) 8

/-- The byte that the S-box takes to `b`. -/
def aesInvSub (b : Byte) : Byte := aesUnbox.extractLsb' (8 * b.toNat) 8

/-- Expanded key of AES-256: words of 4 bytes, newest first. -/
def aesExpand : Nat → Nat → Byte → List Bytes → List Bytes
  | 0, _, _, w => w
  | n + 1, i, rc, w =>
    let t := w.getD 0 []
    let t' := if i % 8 = 0 then
        (match (t.drop 1 ++ t.take 1).map aesSub with
         | a :: r => (a ^^^ rc) :: r
         | [] => [])
      else if i % 8 = 4 then t.map aesSub else t
    aesExpand n (i + 1) (if i % 8 = 0 then xtime rc else rc) (xorBytes (w.getD 7 []) t' :: w)

/-- The 15 round keys of a 32-byte key. -/
def aesKeys (key : Bytes) : List Bytes :=
  let w := (aesExpand 52 8 1 ((chunks 4 8 key).reverse)).reverse
  (chunks 4 15 w).map List.flatten

/-- ShiftRows by the index each byte comes from. -/
def shiftRows (s : Bytes) : Bytes := [0, 5, 10, 15, 4, 9, 14, 3, 8, 13, 2, 7, 12, 1, 6, 11].map fun i => s.getD i 0

/-- The inverse of ShiftRows. -/
def invShiftRows (s : Bytes) : Bytes := [0, 13, 10, 7, 4, 1, 14, 11, 8, 5, 2, 15, 12, 9, 6, 3].map fun i => s.getD i 0

/-- One column times the circulant matrix of `m`. -/
def mixColumn (m : List Nat) (c : Bytes) : Bytes :=
  (List.range 4).map fun r =>
    (List.range 4).foldl (fun a j => a ^^^ aesMul (c.getD j 0) 4 (m.getD ((j + 4 - r) % 4) 0)) 0

/-- MixColumns with the matrix of `m`. -/
def mixColumns (m : List Nat) (s : Bytes) : Bytes := ((chunks 4 4 s).map (mixColumn m)).flatten

/-- AES-256 on one block of 16 bytes with its round keys. -/
def aesEnc (ks : List Bytes) (b : Bytes) : Bytes :=
  let s := xorBytes b (ks.getD 0 [])
  let s := (ks.drop 1).take 13 |>.foldl (fun s k => xorBytes (mixColumns [2, 3, 1, 1] (shiftRows (s.map aesSub))) k) s
  xorBytes (shiftRows (s.map aesSub)) (ks.getD 14 [])

/-- The inverse of AES-256 on one block. -/
def aesDec (ks : List Bytes) (b : Bytes) : Bytes :=
  let s := (invShiftRows (xorBytes b (ks.getD 14 []))).map aesInvSub
  let s := ((ks.drop 1).take 13).reverse.foldl
    (fun s k => (invShiftRows (mixColumns [14, 11, 13, 9] (xorBytes s k))).map aesInvSub) s
  xorBytes s (ks.getD 0 [])

/-- Product in the field of GHASH: both factors with the first bit of a block highest. -/
def ghashMul : Nat → BitVec 128 → BitVec 128 → BitVec 128 → BitVec 128
  | 0, _, _, z => z
  | n + 1, x, v, z =>
    ghashMul n (x <<< 1) (if v.getLsbD 0 then (v >>> 1) ^^^ 0xe1000000000000000000000000000000 else v >>> 1)
      (if x.msb then z ^^^ v else z)

/-- A block of 16 bytes, first byte highest. -/
def blockNum (b : Bytes) : BitVec 128 := BitVec.ofNat 128 (ofBe (b ++ zeros (16 - b.length)))

/-- GHASH of blocks under the hash key. -/
def ghash (h : BitVec 128) (m : List Bytes) : BitVec 128 :=
  m.foldl (fun y b => ghashMul 128 (y ^^^ blockNum b) h 0) 0

/-- Bytes cut into blocks of 16. -/
def blocks16 (m : Bytes) : List Bytes := chunks 16 (m.length / 16 + 1) m

/-- The key stream of AES-256-GCM: block `i` enciphers the counter `i`. -/
def gcmStream (ks : List Bytes) (iv : Bytes) : Nat → Nat → Bytes
  | 0, _ => []
  | n + 1, i => aesEnc ks (iv ++ beBytes 4 i) ++ gcmStream ks iv n (i + 1)

/-- AES-256-GCM: what the message becomes under the key stream (both directions). -/
def gcmCrypt (key iv m : Bytes) : Bytes := xorBytes m (gcmStream (aesKeys key) iv (cdiv m.length 16) 2)

/-- AES-256-GCM: the tag over additional data and ciphertext. -/
def gcmTag (key iv aad c : Bytes) : Bytes :=
  let ks := aesKeys key
  let h := blockNum (aesEnc ks (zeros 16))
  let y := ghash h (blocks16 aad ++ blocks16 c ++ [beBytes 8 (8 * aad.length) ++ beBytes 8 (8 * c.length)])
  xorBytes (beBytes 16 y.toNat) (aesEnc ks (iv ++ beBytes 4 1))

/-- The tweak of the next block of an XTS data unit (IEEE 1619). -/
def xtsNext (t : Bytes) : Bytes :=
  let n := BitVec.ofNat 128 (ofLe t)
  leBytes 16 (if n.msb then (n <<< 1) ^^^ 0x87 else n <<< 1).toNat

/-- AES-256-XTS over whole blocks of one data unit, with the block cipher's direction given. -/
def xtsBlocks (f : Bytes → Bytes) : Bytes → List Bytes → List Bytes
  | _, [] => []
  | t, b :: r => xorBytes (f (xorBytes b t)) t :: xtsBlocks f (xtsNext t) r

/-- Enciphers (or deciphers) one data unit with a key of 64 bytes and the tweak value. -/
def xts (enc : Bool) (key tweak m : Bytes) : Bytes :=
  let k1 := aesKeys (key.take 32)
  let k2 := aesKeys (key.drop 32)
  (xtsBlocks (if enc then aesEnc k1 else aesDec k1) (aesEnc k2 tweak) (blocks16 m)).flatten

/-! ## CTR_DRBG with AES-256, no derivation function (NIST SP 800-90A; 12 R368, log 138) -/

/-- Key and V of the generator. -/
abbrev Drbg := BitVec 256 × BitVec 128
/-- `n` blocks of output: AES of V + 1, V + 2, … -/
def Drbg.blocks (g : Drbg) (n : Nat) : Bytes :=
  let ks := aesKeys (beBytes 32 g.1.toNat)
  (List.range n).flatMap fun i => aesEnc ks (beBytes 16 (g.2 + BitVec.ofNat 128 (i + 1)).toNat)
/-- The update with 48 bytes of provided data: the next key and V. -/
def Drbg.update (g : Drbg) (data : Bytes) : Drbg :=
  let t := xorBytes (g.blocks 3) data
  (BitVec.ofNat 256 (ofBe (t.take 32)), BitVec.ofNat 128 (ofBe (t.drop 32)))
/-- `n` bytes of output, and the generator after them. -/
def Drbg.generate (g : Drbg) (n : Nat) : Bytes × Drbg :=
  let k := cdiv n 16
  ((g.blocks k).take n, Drbg.update (g.1, g.2 + BitVec.ofNat 128 k) (zeros 48))
/-- AES-256-GCM unwrapping of a nonce of 12 bytes, a ciphertext and a tag of 16 bytes; none when the tag does not verify. -/
def gcmUnwrap (key b : Bytes) : Option Bytes :=
  let iv := b.take 12
  let c := (b.drop 12).take (b.length - 28)
  if 28 ≤ b.length ∧ gcmTag key iv [] c = b.drop (b.length - 16) then some (gcmCrypt key iv c) else none

/-- Product in the field of the granule code, polynomial x^8 + x^4 + x^3 + x^2 + 1 (13 R413). -/
def rsMul (a : Byte) : Nat → Nat → Byte
  | 0, _ => 0
  | n + 1, k => (if k % 2 = 1 then a else 0) ^^^ rsMul (if a.msb then (a <<< 1) ^^^ 0x1d else a <<< 1) n (k / 2)

/-- g(x) below its leading term, from the constant term: (x+1)(x+2)(x+4)(x+8). -/
def rsGen : List Nat := [0x40, 0x78, 0x36, 0x0f]

/-- The four check bytes of a granule, c_0 first: data byte 31 enters the division first. -/
def granuleCheck (data : Bytes) : Bytes :=
  data.reverse.foldl (fun c b =>
    let q := b ^^^ c.getD 3 0
    List.zipWith (fun x g => x ^^^ rsMul q 8 g) ([0] ++ c.take 3) rsGen) [0, 0, 0, 0]

/-- A syndrome of a stored granule: the polynomial of check and data bytes at a point. -/
def syndrome (pt : Nat) (code : Bytes) : Byte :=
  code.reverse.foldl (fun a b => rsMul a 8 pt ^^^ b) 0

/-- What the decoder makes of a stored granule: clean, corrected data, or uncorrectable (13 R413). -/
inductive Granule where
  | clean
  | corrected (data : Bytes)
  | bad
deriving DecidableEq, Repr

/-- The decoder: one symbol error is found by trying each place. -/
def granuleDecode (data check : Bytes) : Granule :=
  let code := check ++ data
  let syn := [1, 2, 4, 8].map fun p => syndrome p code
  if syn.all (· == 0) then .clean
  else
    let e := syn.getD 0 0
    let fix := (List.range 36).map fun i => code.set i (code.getD i 0 ^^^ e)
    match fix.find? fun c => ([1, 2, 4, 8].map fun p => syndrome p c).all (· == 0) with
    | some c => .corrected (c.drop 4)
    | none => .bad

end Sys2Proof.Machine
end

