-- ==== Sys2Proof/Config.lean ====
section
/-! DEFINITION. What the spec leaves open: free values without a body, and the public-key algorithms that the model does not compute. -/
namespace Sys2Proof

/-- A free value, applied to a counter that each use advances (log 3): page IDs and sheets of an allocation (04 R114),
DRBG output (12 R368), values the spec does not state. -/
opaque Config.freeValue : Nat → BitVec 64

/-- RSA-3072 PSS with SHA-384 under a private key (12 R379): key, message to 384 bytes (log 10). -/
opaque Config.rsaSign : List (BitVec 8) → List (BitVec 8) → List (BitVec 8)

/-- Pure SLH-DSA-SHA2-192s with an empty context string under a private key (12 R379): key, message to 16,224 bytes (log 10). -/
opaque Config.slhSign : List (BitVec 8) → List (BitVec 8) → List (BitVec 8)

/-- The identity seed that the correction of the array's power-up state by the helper data gives, none when it fails (12 R361), and the key that is
derived from a seed to wrap the DeviceID keys (log 139). -/
opaque Config.identitySeed : List (BitVec 8) → List (BitVec 8) → Option (BitVec 256)
opaque Config.wrapKey : BitVec 256 → BitVec 256

/-- The public key of a private key, RSA-3072 and SLH-DSA-SHA2-192s, and the DeviceID public key that a certificate chain names (12 R361; log 10). -/
opaque Config.rsaPublic : List (BitVec 8) → List (BitVec 8)
opaque Config.slhPublic : List (BitVec 8) → List (BitVec 8)
opaque Config.certKey : List (BitVec 8) → List (BitVec 8)

/-- The SHA-384 digests of Oserzen's two configuration-signing public keys in the ROM, and whether the RSA and the SLH-DSA signature over a record
verify under the keys of those digests (12 R362, R363): digests, record, signatures (log 10). -/
opaque Config.configKeys : BitVec 384 × BitVec 384
opaque Config.recordSigned : BitVec 384 × BitVec 384 → List (BitVec 8) → List (BitVec 8) → List (BitVec 8) → Bool

/-- Whether both of Oserzen's firmware-signing signatures over a signed body verify (12 R364, 14 R436): body, signatures (log 10). -/
opaque Config.imageSigned : List (BitVec 8) → List (BitVec 8) → Bool

/-- Whether a debug token's two signatures verify (12 R384): token body, signatures (log 10). -/
opaque Config.tokenSigned : List (BitVec 8) → List (BitVec 8) → Bool

/-- The two halves of the hybrid key exchange (12 R380; log 10). secp384r1: the requester's share and the randomness drawn, to the 96-byte share of the
answer and the 48-byte shared secret. ML-KEM-1024: the encapsulation key and the randomness, to the 1,568-byte ciphertext and the 32-byte secret. -/
opaque Config.ecdh : List (BitVec 8) → List (BitVec 8) → BitVec 768 × BitVec 384
opaque Config.mlKem : List (BitVec 8) → List (BitVec 8) → BitVec 12544 × BitVec 256

/-- The SPDM key schedule (12 R369, R380; DSP0274; log 10): request and response key of the handshake, from the DHE secret and the messages exchanged;
the verify data of a KEY_EXCHANGE_RSP, from its response key and the messages; the keys of the session, from the handshake's; the next key of a key
update; and whether the verify data of a FINISH hold under the request key. -/
opaque Config.sessionKeys : List (BitVec 8) → List (BitVec 8) → BitVec 256 × BitVec 256
opaque Config.verifyData : BitVec 256 → List (BitVec 8) → BitVec 384
opaque Config.dataKeys : BitVec 256 × BitVec 256 → BitVec 256 × BitVec 256
opaque Config.nextKey : BitVec 256 → BitVec 256
opaque Config.finishOk : BitVec 256 → List (BitVec 8) → Bool

/-- Whether a measurement block counts for the trusted computing base in a measurement summary (DSP0274; log 10). -/
opaque Config.tcbBlock : Nat → Bool

/-- What a session's response key makes of a plaintext, and what its request key makes of a secured message, none when it does not authenticate (DSP0277;
12 R378, R382): key, message number, bytes (log 10). -/
opaque Config.sessionSeal : BitVec 256 → Nat → List (BitVec 8) → List (BitVec 8)
opaque Config.sessionOpen : BitVec 256 → List (BitVec 8) → Option (List (BitVec 8))

/-- SHA-384 digest of the Colophon ROM, measurement block 1, which never changes (12 R365), and the DMTF value type of a block without its
raw-bit-stream bit (DSP0274; log 10). -/
opaque Config.romDigest : BitVec 384
opaque Config.measType : Nat → BitVec 7

/-- Oserzen's enterprise number, CO_CAPS.PEN (12 R381, R391): the spec gives no value (log 10). -/
opaque Config.pen : BitVec 32

/-- Oserzen's PCI-SIG vendor ID (16 R476): the spec gives no value (log 137). -/
opaque Config.vendorId : BitVec 16

/-- What a bank of the boot flash held before the model's first start: whether its signatures verify, digest of its signed body, VERSION; none when
its header is invalid (14 R434; log 48). -/
opaque Config.flashImage : Nat → Nat → Option (Bool × BitVec 384 × Nat)

/-- The bytes that a bank of the boot flash held before FW_STAGE erased their sectors: image, bank B, offset (14 R434; log 48). -/
opaque Config.flashByte : Nat → Bool → Nat → BitVec 8

/-- The body of a PLDM response (DSP0240, DSP0248, DSP0257), from the request and the readings and FRU data of the moment, and of an MCTP control
response (DSP0236), from the request and the binding's endpoint ID (14 R443, R445; log 10). -/
opaque Config.pldmResponse : List (BitVec 8) → List (BitVec 8) → List (BitVec 8)
opaque Config.mctpResponse : List (BitVec 8) → Nat → List (BitVec 8)

/-- The 4-byte reading of a state sensor in a state, and of a numeric sensor that is absent (14 R431, R445): the spec gives no number (log 10). -/
opaque Config.stateReading : Nat → Nat → BitVec 32
opaque Config.absentReading : Nat → BitVec 32

/-- The hash that selects 16 places of the region table, from scope, region ID and, for scope 0, the owning context (06 R206; log 13). -/
opaque Config.regionHash : Nat → Nat → Nat → Nat

end Sys2Proof
end

