-- ==== Sys2Proof/Machine/Tbl.lean ====
section
/-! DEFINITION. Sparse tables of state: a list of key and value pairs in one canonical form, keys strictly rising
and no entry equal to what an absent key reads as. -/
namespace Sys2Proof.Machine

/-- A table of `α` by number. -/
abbrev Tbl (α : Type) := List (Nat × α)

/-- What key `k` reads as: its entry, or `d` when none is listed. -/
def Tbl.get {α : Type} (t : Tbl α) (k : Nat) (d : α) : α :=
  match t with
  | [] => d
  | (k', v) :: r => if k' = k then v else Tbl.get r k d

/-- Removes the entry of key `k`. -/
def Tbl.del {α : Type} (t : Tbl α) (k : Nat) : Tbl α := t.filter fun (p : Nat × α) => p.1 != k

/-- Lists `v` at key `k`, in rising order of the keys. -/
def Tbl.put {α : Type} (t : Tbl α) (k : Nat) (v : α) : Tbl α :=
  match t with
  | [] => [(k, v)]
  | (k', v') :: r =>
    if k' = k then (k, v) :: r
    else if k < k' then (k, v) :: (k', v') :: r
    else (k', v') :: Tbl.put r k v

/-- Makes key `k` read as `v`, where an absent key reads as `d`. -/
def Tbl.set {α : Type} [DecidableEq α] (t : Tbl α) (k : Nat) (v d : α) : Tbl α :=
  if v = d then Tbl.del t k else Tbl.put t k v

/-- Changes what key `k` reads as by `f`. -/
def Tbl.upd {α : Type} [DecidableEq α] (t : Tbl α) (k : Nat) (d : α) (f : α → α) : Tbl α :=
  Tbl.set t k (f (Tbl.get t k d)) d

/-- The listed keys. -/
def Tbl.keys {α : Type} (t : Tbl α) : List Nat := t.map (·.1)

/-- The canonical form: keys strictly rising, no listed value equal to the default. -/
def Tbl.wf {α : Type} [DecidableEq α] (d : α) : Tbl α → Bool
  | [] => true
  | [(_, v)] => decide (v ≠ d)
  | (k, v) :: (k', v') :: r => decide (v ≠ d) && decide (k < k') && Tbl.wf d ((k', v') :: r)

end Sys2Proof.Machine
end

