-- ==== Sys2Proof/Machine/Mem.lean ====
section
/-! DEFINITION. T0 as a list of bytes in one canonical form: addresses strictly rising, no listed byte 0 (an unlisted
byte reads 0: 13 R409 zeroes T0 at every start). -/
namespace Sys2Proof.Machine
open Sys2Proof

/-- The byte at an address. -/
def memRead (m : List Host.Cell) (a : Nat) : Byte := Tbl.get m a 0

/-- Writes one byte, keeping the canonical form. -/
def memWrite1 (m : List Host.Cell) (a : Nat) (b : Byte) : List Host.Cell := Tbl.set m a b 0

/-- Writes bytes from an address upwards. -/
def memWrite (m : List Host.Cell) (a : Nat) : Bytes → List Host.Cell
  | [] => m
  | b :: r => memWrite (memWrite1 m a b) (a + 1) r

/-- The `n` bytes from an address upwards. -/
def memReadN (m : List Host.Cell) (a n : Nat) : Bytes := (List.range n).map fun i => memRead m (a + i)

/-- The canonical form. -/
def Memory.wf (m : List Host.Cell) : Bool := Tbl.wf (0 : Byte) m

end Sys2Proof.Machine
end

