-- ==== Sys2Proof/Machine/State.lean ====
section
/-! DEFINITION. The state of the machine: every register, table, queue, counter, mode and pin the spec gives it, plain data.
A field's docstring gives its width, the chapter and rule that name it, the register field's name, and its reset value. -/
namespace Sys2Proof.Machine
open Sys2Proof

/-- Variant of the part (00 R3). -/
inductive Variant where
  | lg8160 | lg4080
deriving DecidableEq, Repr

/-- Context states, 02 R32. -/
inductive CtxState where
  | disabled | idle | active | stopped | orphaned | resetting
deriving DecidableEq, Repr

/-- Page states, 04 R121. -/
inductive PageState where
  | free | openP | sealing | sealed | retiring
deriving DecidableEq, Repr

/-- Queue pair states, 10 R302. -/
inductive QpState where
  | reset | init | rtr | rts | error
deriving DecidableEq, Repr

/-- Life of a dispatched instruction: dispatched, begun (it holds what it needs), ended (02, "Ordering and fences"). -/
inductive Phase where
  | dispatched | begun | ended
deriving DecidableEq, Repr

/-- Stall causes, 05 R179. -/
inductive Cause where
  | t1Late | t2Late | t1Fail | t2Fail | linkLate | weightLate | expander | spineOvf
deriving DecidableEq, Repr

/-- The Gatherer's moves, 05 R165 (a drop is no move of its own: it writes nothing). -/
inductive MoveKind where
  | demand | prefetch | stage | cls | placement | spill | demote
deriving DecidableEq, Repr

/-- States of the network time unit, 11 R355. -/
inductive PtpState where
  | disabled | listening | uncalibrated | locked | holdover
deriving DecidableEq, Repr

/-- States of a service processor, 14 R446. -/
inductive SpState where
  | stopped | restarting | ready
deriving DecidableEq, Repr

/-- CO_STATUS.STATE, 12 R391. -/
inductive CoState where
  | reset | rom | running | activating
deriving DecidableEq, Repr

/-- States of a weight key slot, 12 R391. -/
inductive SlotState where
  | empty | activating | loaded
deriving DecidableEq, Repr

/-- DS_PORT_p.ENUM, 14 R446. -/
inductive EnumState where
  | idle | training | enumerating | accepted | rejected | linkDown
deriving DecidableEq, Repr

/-- A ring entry fetched and not yet dispatched (02 R34). -/
structure Fetched where
  index : Nat := 0
  granule : BitVec 256 := 0
deriving DecidableEq, Repr

/-- Command ring n of a context. -/
structure Ring where
  /-- 4; 02 R27 SIZE_n; depth is 2^(6+SIZE); reset 0 -/
  size : Nat := 0
  /-- 4; 02 R27 LOC_n; 0 upstream memory, 1 T0; reset 0 -/
  loc : Nat := 0
  /-- 1; 02 R27 RENABLE_n; ring in use; reset 0 -/
  enable : Bool := false
  /-- 52; 02 R27 BASE_n; bits 63:12 of the base; reset 0 -/
  base : Nat := 0
  /-- 16; 02 R27 FETCH_n; next entry fetched; reset 0 -/
  fetch : Nat := 0
  /-- 16; 02 R27 TAIL_n; tail of the last accepted doorbell; reset 0 -/
  tail : Nat := 0
  /-- entries; 02 R52 (model's own: entries posted from FETCH_n on, below 0 while FETCH_n lies beyond TAIL_n; log 123); reset 0 -/
  left : Int := 0
  /-- 16; 02 R31, R53 LATCHn; refusal latch; reset 0 -/
  latch : BitVec 16 := 0
  /-- 16 entries; 02 R39; fetch buffer; reset empty (log 9) -/
  buf : List Fetched := []
  /-- list; 02 R34, R44; entries fetched, not dispatched, oldest first; reset empty (log 9) -/
  fetched : List Fetched := []
  /-- count; 02 R44, 13 R416; entries asked of upstream memory and not yet returned; reset 0 (log 9) -/
  reading : Nat := 0
  /-- list; 02 R30, 13 R416; indices of the first entries of reads that were cancelled before they returned, oldest first; reset empty (log 9) -/
  stray : List Nat := []
deriving DecidableEq, Repr

/-- A context: descriptor (02 R27), state record (02 R31), scheduler state (13 R395). -/
structure Ctx where
  /-- 4; 02 R27, R32 STATE; context state; reset 0 DISABLED -/
  state : CtxState := .disabled
  /-- 1; 02 R27 POLICY; policy context; reset 0 -/
  policy : Bool := false
  /-- 1; 02 R27 CONFIDENTIAL; confidential context; reset 0 -/
  conf : Bool := false
  /-- 8; 02 R27 FUNCTION; owning function; reset 0 -/
  function : Nat := 0
  /-- 8; 02 R27 SHARE; scheduling weight; reset 0x10 -/
  share : Nat := 16
  /-- 8; 02 R27 SLOT; resident slot; reset 0 -/
  slot : Nat := 0
  /-- 1; 02 R27 RESIDENT; holds a slot; reset 0 -/
  resident : Bool := false
  /-- 1; 02 R27 CFG_ERR; an enable was refused; reset 0 -/
  cfgErr : Bool := false
  /-- 11; 02 R27 VECTOR; function vector; reset 0 -/
  vector : Nat := 0
  /-- 4; 02 R27 CSIZE; completion ring depth 2^(6+CSIZE); reset 0 -/
  csize : Nat := 0
  /-- 4; 02 R27 CLOC; completion ring location; reset 0 -/
  cloc : Nat := 0
  /-- 52; 02 R27 CBASE; bits 63:12 of its base; reset 0 -/
  cbase : Nat := 0
  /-- 16; 02 R27 CTAIL; next completion entry written; reset 0 -/
  ctail : Nat := 0
  /-- 16; 02 R27 CHEAD; completion head; reset 0 -/
  chead : Nat := 0
  /-- entries; 02 R61 (model's own: completion entries written and not yet freed, which CTAIL - CHEAD alone cannot tell from 0 where the ring of 65,536
  is full; log 142); reset 0 -/
  cused : Nat := 0
  /-- 1; 02 R59 PHASE; phase of the present pass; reset 1 -/
  cphase : Bool := true
  /-- 8 rings; 02 R27; command rings; reset all at Ring's reset -/
  rings : Tbl Ring := []
  /-- 4x16; 02 R27 SCOPE_k; sharing scopes; reset 0 -/
  scopes : Tbl Nat := []
  /-- 40; 02 R27 QUOTA_PAGES; soft page quota; reset 0 -/
  quota : Nat := 0
  /-- 27; 02 R27 INBUF_SHEET; first sheet of the input buffer; reset 0 -/
  inSheet : Nat := 0
  /-- 16; 02 R27 INBUF_SHEETS; its length; reset 0 -/
  inSheets : Nat := 0
  /-- 27; 02 R27 OUTBUF_SHEET; first sheet of the output buffer; reset 0 -/
  outSheet : Nat := 0
  /-- 16; 02 R27 OUTBUF_SHEETS; its length; reset 0 -/
  outSheets : Nat := 0
  /-- 16; 02 R27 FAULT_STATUS; status that stopped the context; reset 0 -/
  faultStatus : BitVec 16 := 0
  /-- 16; 02 R27 FAULT_TAG; its tag; reset 0 -/
  faultTag : BitVec 16 := 0
  /-- 3; 02 R27 FAULT_RING; its ring; reset 0 -/
  faultRing : Nat := 0
  /-- 8; 02 R27, R61 FAULT_MORE; further fault endings, saturating at 255; reset 0 -/
  faultMore : Nat := 0
  /-- 16x64; 02 R31 X0-X15; registers; reset 0 -/
  x : Tbl (BitVec 64) := []
  /-- per sheet; 03 R73; landing flags of the input buffer; reset clear (log 9) -/
  landing : Tbl Bool := []
  /-- count; 13 R395 VTIME; virtual time; reset 0 (set by every context reset) -/
  vtime : Nat := 0
  /-- 1; 13 R395; the context wanted a slot at the last look; reset 0 (log 9) -/
  wanting : Bool := false
  /-- cycle; 13 R396; when it took its slot; reset 0 (log 9) -/
  slotSince : Nat := 0
  /-- cycle; 13 R402; entry to ORPHANED, start of the orphan hold; reset none -/
  orphanAt : Option Nat := none
  /-- cycle; 13 R405, R407; start of the context reset that runs; reset none -/
  resetAt : Option Nat := none
deriving DecidableEq, Repr

/-- A token queued to an Awl engine, 07 R226: sequence, position, token ID. -/
structure Token where
  seq : Nat := 0
  pos : Nat := 0
  id : Nat := 0
deriving DecidableEq, Repr

/-- Gathering record, 03 R101. -/
structure GRec where
  model : Nat := 0
  layers : Nat := 0
  latent : Bool := false
  qheads : Nat := 0
  kvheads : Nat := 0
  headdim : Nat := 0
  latentW : Nat := 0
  rope : Nat := 0
  tpp : Nat := 0
  kvfmt : Nat := 0
  qmask : BitVec 16 := 0
  budget : Nat := 0
  sink : Nat := 0
  recent : Nat := 0
  adaptive : Bool := false
  wahead : Nat := 0
  wbehind : Nat := 0
  scale : BitVec 32 := 0
  members : Nat := 0
  odest : Nat := 0
  qp : Nat := 0
  rkey : BitVec 32 := 0
  oaddr : Nat := 0
  ostride : Nat := 0
  bias : Nat := 0
deriving DecidableEq, Repr

/-- A member as an ATTEND attends it (08 R241, R242): token count, the snapshot's entries, and once selection has run the blocks attended. -/
structure AttMember where
  seq : Nat := 0
  tokens : Nat := 0
  /-- block, page of the layer, SHARED -/
  blocks : List (Nat × Nat × Bool) := []
  /-- pages of the layer that were not sealed in the snapshot (04 R143) -/
  unsealed : List Nat := []
  /-- the pages among them that selection chose -/
  chosen : List Nat := []
deriving DecidableEq, Repr

/-- What an ATTEND fixed at its start (03 R104; 08 R246, R260), and what its selection then chose (08 R258). -/
structure Attending where
  /-- the gathering record it began under -/
  grec : GRec := {}
  queries : List (BitVec 8) := []
  bias : List (BitVec 8) := []
  members : List AttMember := []
  /-- 2; 08 R260; governor level read -/
  level : Nat := 0
  /-- 09 R294; first sheet of the layer's clear copy and its pages, once found -/
  copy : Option (Nat × Nat) := none
  /-- 09 R294; the superseded record it keeps using, while LOADW has replaced the layer's record since it began (key of Fq.past) -/
  past : Option Nat := none
  /-- selection has run -/
  selected : Bool := false
  reduced : Bool := false
  /-- 08 R246; the host has written its bias table while it ran: its output is undefined -/
  spoiled : Bool := false
deriving DecidableEq, Repr

/-- A LOOKUP at its lookup sequencer (06 R193 to R197). -/
structure Looking where
  /-- list; 06 R193; the chain hashes in the hash store -/
  hashes : List (BitVec 96) := []
  /-- matched blocks so far -/
  m : Nat := 0
  /-- next exponent of the descent + 1; 0: the descent has ended -/
  i : Nat := 0
  /-- place and scope of the winner of the last hit; a place is a row, or 2^20 + an overflow place -/
  win : Option (Nat × Nat) := none
  /-- descents run -/
  descents : Nat := 1
  /-- 06 R194; walk outcomes of the present and the previous probe: block, scope, place -/
  walked : List (Nat × Nat × Option Nat) := []
  /-- 06 R200; the walk it waits for: block, scope -/
  walk : Option (Nat × Nat) := none
  /-- 06 R197; places that the present probe has hit so far, while another search of it still walks -/
  hits : List Nat := []
deriving DecidableEq, Repr

/-- A PUT_PAGES that has begun (10 R323, R324). -/
structure Putting where
  /-- the body's fields -/
  seq : Nat := 0
  weight : Bool := false
  cls : Nat := 0
  model : Nat := 0
  blocks : Nat := 0
  rkey : Nat := 0
  addr : Nat := 0
  taddr : Nat := 0
  /-- the sequence did not exist; the gathering record whose shape it then takes -/
  fresh : Bool := false
  grec : GRec := {}
  /-- extent index -/
  ext : Nat := 0
  /-- 10 R324; first page ID taken, pages in all, pages created so far -/
  base : Nat := 0
  total : Nat := 0
  made : Nat := 0
  /-- token IDs of the block, or the envelope header of the page, whose pages are being read -/
  head : List (BitVec 8) := []
deriving DecidableEq, Repr

/-- A DELIVER that holds its walker slot (03 R99): the pages it took from its sequence's table, and where they go. -/
structure Delivering where
  seq : Nat := 0
  pages : List Nat := []
  form : Nat := 0
  kind : Nat := 0
  qp : Nat := 0
  rkey : Nat := 0
  addr : Nat := 0
deriving DecidableEq, Repr

/-- Work of an instruction between its steps (model's own form of what its engine holds: 06 R195 to R200, 06 R206, 05 R165, 03 R96). -/
inductive Job where
  /-- nothing held -/
  | none
  /-- a LOOKUP's descent (06 R195) -/
  | lookup (l : Looking)
  /-- a LOOKUP that waits for the directory's answer (10 R333): local status and result, lookup record, cycle and REQ_SEQ of the request -/
  | dirWait (status : BitVec 16) (result : BitVec 64) (record : List (BitVec 8)) (since reqSeq : Nat)
  /-- a PUBLISH (06 R206): region record; stage 0 carries and inserts, 1 withdraws the old version's blocks, 2 undoes itself; operations still to
  queue: kind (0 carry, 1 insert, 2 withdraw) and block -/
  | publish (rindex stage : Nat) (todo : List (Nat × Nat))
  /-- a RETRACT (06 R207): region record and blocks still to queue -/
  | retract (rindex : Nat) (todo : List Nat)
  /-- a SEAL (03 R96): pages of the range not sealed when it began, open ones among them -/
  | sealing (pages : List Nat)
  /-- a STAGE that waits for pages (05 R166): pages still waited for, pages moved so far -/
  | pages (waiting : List Nat) (moved : Nat)
  /-- a DELIVER (03 R99): pages still waited for, and what it took when it took its walker slot -/
  | deliver (waiting : List Nat) (d : Delivering)
  /-- a DEMOTE (03 R98): outward moves in progress; moved, skipped, failed so far -/
  | demote (waiting : List Nat) (moved skipped failed : Nat)
  /-- an instruction that waits for its landing flags (03 R73): cycle at which the wait began, first sheet of the range, sheets -/
  | landing (since lo n : Nat)
  /-- an instruction whose landing flags were all set and have been cleared (03 R73) -/
  | landed
  /-- an ATTEND that has begun (03 R104): pages still waited for, and what it fixed at its start -/
  | attend (waiting : List Nat) (a : Attending)
  /-- an APPEND whose waits are over but that has found no space (03 R94, 04 R149): base pages of the blocks it has allocated so far, and pages of each -/
  | growing (blocks : List Nat) (layers : Nat)
  /-- an APPEND whose tokens are written and that waits for seal-queue and token-queue credits (03 R94, 01 R16): full pages and tokens still to send, status and RESULT -/
  | append (pages : List Nat) (tokens : List Token) (status : BitVec 16) (result : BitVec 64)
  /-- an instruction whose output waits for RDMA acknowledgements (02, "completed", 10 R305): its status, RESULT and catchword then -/
  | writes (status : BitVec 16) (result : BitVec 64) (catchword : Option (BitVec 64))
  /-- a SEQ-mode APPEND that waits for step boundaries of these gatherings (04 R140) -/
  | boundary (gs : List Nat)
  /-- a PUT_PAGES that reads pages (10 R323) -/
  | put (p : Putting)
  /-- an ATTACH, FORK, RELEASE, PUBLISH, LOADW or GSET that waits for space (04 R149) -/
  | allocating
deriving DecidableEq, Repr

/-- A destination of an output: 0 T0 byte address, 1 RDMA Write, 2 upstream memory of the function (03 R99, R101). -/
structure Dest where
  kind : Nat := 0
  qp : Nat := 0
  rkey : Nat := 0
  addr : Nat := 0
  /-- where the piece starts in the data, and its length -/
  off : Nat := 0
  len : Nat := 0
deriving DecidableEq, Repr

/-- A dispatched instruction (02 R45, R50, R54), mirrored Vanged requests among them (10 R318). -/
structure Flight where
  /-- 10; 02 R45; context -/
  ctx : Nat := 0
  /-- 3; 02 R58 RING -/
  ring : Nat := 0
  /-- 16; 02 R58 INDEX -/
  index : Nat := 0
  /-- 64; 02 R45; first word of the granule: opcode, flags, tag, selectors -/
  word : BitVec 64 := 0
  /-- 64; 02 R47; operand A at dispatch -/
  a : BitVec 64 := 0
  /-- 64; 02 R47; operand B at dispatch -/
  b : BitVec 64 := 0
  /-- 64; 02 R47; operand C at dispatch -/
  c : BitVec 64 := 0
  /-- 2; 02 R54; dispatched, begun or ended -/
  phase : Phase := .dispatched
  /-- 16; 02 R63; status when ended -/
  status : BitVec 16 := 0
  /-- 64; 03 R108; RESULT -/
  result : BitVec 64 := 0
  /-- 64; 02 R62; catchword, when one was computed -/
  catchword : Option (BitVec 64) := none
  /-- 1; 02 R61; holds a completion credit -/
  credit : Bool := false
  /-- 1; 02 R61; its ending stopped the context -/
  stop : Bool := false
  /-- 1; 02 R61; its ending was fault-class in a context already STOPPED -/
  more : Bool := false
  /-- cycle; 03 R78; dispatch -/
  since : Nat := 0
  /-- cause; 01 R21; input it stalls on now -/
  stallOn : Option Cause := none
  /-- list; 01 R22; stall cycles by cause, in order of their first stall cycle -/
  stalls : List (Cause × Nat) := []
  /-- list; 01 R22; engine-cycles of waiting by cause, whether or not another engine worked (the per-cause counters take them) -/
  waited : List (Cause × Nat) := []
  /-- lists; 05 R167; stall cycles and waiting cycles by cause when its present wait began (model's own) -/
  waitBase : List (Cause × Nat) := []
  waitedBase : List (Cause × Nat) := []
  /-- pool; 01 R16, 13 R397; credit pool it waits for -/
  wantCredit : Option Nat := none
  /-- list; 01 R17; credits it holds, one entry for each -/
  holds : List Nat := []
  /-- flights; 02 R55; FENCE: the instructions it waits for -/
  waitsFor : List Nat := []
  /-- cycle; 13 R410; last progress, for its leases -/
  progress : Nat := 0
  /-- bytes; 12 R375; tenant data of a confidential context, plain, to be written as the seal message's ciphertext -/
  tenant : List (BitVec 8) := []
  /-- count; 12 R375; OSEQ of its completion entry, once its ciphertext is placed -/
  sealedAs : Option Nat := none
  /-- work held between its steps -/
  job : Job := .none
  /-- qp, REQ_SEQ; 10 R318; the Vanged request it mirrors -/
  mirror : Option (Nat × Nat) := none
  /-- step; 03 R104; step counter at the ATTEND's start -/
  stepAt : Nat := 0
  /-- slot; 04 R136; walker slot it holds -/
  walker : Option Nat := none
deriving DecidableEq, Repr

/-- Where a page was written, and its payload's shape (04 R124, R126, R130; model's own). -/
structure Origin where
  /-- context that wrote it, for its cap of the seal queue (01 R17) -/
  ctx : Nat := 0
  seq : Nat := 0
  block : Nat := 0
  layer : Nat := 0
  /-- bytes per token -/
  ptok : Nat := 0
  tpp : Nat := 0
  groups : Nat := 0
  dims : Nat := 0
  model : Nat := 0
  /-- layer-0 page of the block before, + 1 (0: first block), and its VERSION -/
  prev : Nat := 0
  prevVer : Nat := 0
deriving DecidableEq, Repr

/-- Descriptor of a page, 04 R120. -/
structure Page where
  /-- 4; 04 R120, R121 STATE; reset FREE -/
  state : PageState := .free
  /-- 2; 04 R120 TIER; reset 0 -/
  tier : Nat := 0
  /-- 1; 04 R120 MOVING; reset 0 -/
  moving : Bool := false
  /-- 1; 04 R120, R123 POISON; reset 0 -/
  poison : Bool := false
  /-- 5; 04 R120 SHEETS; reset 0 -/
  sheets : Nat := 0
  /-- 1; 04 R120 RAW; reset 0 -/
  raw : Bool := false
  /-- 2; 04 R120 CLASS; effective class; reset 0 -/
  cls : Nat := 0
  /-- 2; 04 R120 HINT; effective hint; reset 0 -/
  hint : Nat := 0
  /-- 6; 04 R120, R122 FORMAT; reset 0 -/
  format : Nat := 0
  /-- 17; 04 R120 LENGTH; reset 0 -/
  length : Nat := 0
  /-- 7; 04 R120 TOKENS; reset 0 -/
  tokens : Nat := 0
  /-- 12; 04 R120 AGE_GATH; reset 0 -/
  ageGath : Nat := 0
  /-- 1; 04 R120 AGE_VALID; reset 0 -/
  ageValid : Bool := false
  /-- 38; 04 R120, 05 R153 LOCATION; reset 0 -/
  location : Nat := 0
  /-- 24; 04 R120, R144 REFCOUNT; reset 0 -/
  refcount : Nat := 0
  /-- 32; 04 R120 SUMMARY; address of the summary record in 256-byte units; reset 0 -/
  summary : Nat := 0
  /-- 16; 04 R120 SCOPE; owner scope; reset 0 -/
  scope : Nat := 0
  /-- 16; 04 R120, R113 VERSION; reset 0 -/
  version : Nat := 0
  /-- 32; 04 R120, R147 AGE; reset 0 -/
  age : Nat := 0
  /-- 32; 04 R120 AUX; index of the auxiliary record, 0 none; reset 0 -/
  aux : Nat := 0
  /-- 1; 04 R125 (model's own: the run holds the sealed form, not an open page's payload); reset 0 -/
  formed : Bool := false
  /-- 04 R124, R130 (model's own: where it was written, for its seal and its chain hash); reset 0 -/
  origin : Origin := {}
deriving DecidableEq, Repr

/-- Auxiliary record, 05 R157. -/
structure Aux where
  /-- 24; 05 R157 TALLY_PIN; reset 0 -/
  pin : Nat := 0
  /-- 24; 05 R157 TALLY_SPILL; reset 0 -/
  spill : Nat := 0
  /-- 24; 05 R157 TALLY_T1; reset 0 -/
  t1 : Nat := 0
  /-- 24; 05 R157 TALLY_T2; reset 0 -/
  t2 : Nat := 0
  /-- 24; 05 R157 HOT; reset 0 -/
  hot : Nat := 0
  /-- 24; 05 R157 COLD; reset 0 -/
  cold : Nat := 0
  /-- 2; 05 R157 HOME_TIER; reset 0 -/
  homeTier : Nat := 0
  /-- 38; 05 R157 HOME_LOC; reset 0 -/
  homeLoc : Nat := 0
  /-- 1; 05 R157 PREFETCH_HOLD; reset 0 -/
  hold : Bool := false
  /-- 64; 05 R157 HOLD_POS; reset 0 -/
  holdPos : Nat := 0
  /-- gathering; 05 R170; gathering the hold waits for (model's own); reset 0 -/
  holdGath : Nat := 0
  /-- 1; 05 R169; the held copy has been read, or counted as unread (model's own); reset 0 -/
  holdRead : Bool := false
  /-- 128; 05 R157 TAG; reset 0 -/
  tag : BitVec 128 := 0
  /-- 16; 05 R157 KEYSCOPE; reset 0 -/
  keyScope : Nat := 0
deriving DecidableEq, Repr

/-- Summary record, 04 R126. -/
structure SumRec where
  /-- 96; 04 R126 CHAIN; reset 0 -/
  chain : BitVec 96 := 0
  /-- 7; 04 R126 TOKENS; reset 0 -/
  tokens : Nat := 0
  /-- 1; 04 R126 HASHED; reset 0 -/
  hashed : Bool := false
  /-- bytes; 04 R126, 08 R255; token IDs while the layer-0 page is open, the summary once sealed; reset empty -/
  body : List (BitVec 8) := []
  /-- bytes; 04 R130; token IDs kept for the hash of a sealed layer-0 page (model's own); reset empty -/
  ids : List (BitVec 8) := []
deriving DecidableEq, Repr

/-- Sequence-table entry, 04 R133. -/
structure Entry where
  /-- 40; 04 R133 BASE; reset 0 -/
  base : Nat := 0
  /-- 16; 04 R133 VERSION; reset 0 -/
  version : Nat := 0
  /-- 7; 04 R133 FILLED; reset 0 -/
  filled : Nat := 0
  /-- 1; 04 R133 OPEN; reset 0 -/
  isOpen : Bool := false
  /-- 1; 04 R133 SEALED; reset 0 -/
  sealed : Bool := false
  /-- 1; 04 R133, 07 R227 FENCED; reset 0 -/
  fenced : Bool := false
  /-- 1; 04 R133 SHARED; reset 0 -/
  shared : Bool := false
  /-- 2; 04 R133 CLASS; reset 0 -/
  cls : Nat := 0
  /-- 2; 04 R133 HINT; reset 0 -/
  hint : Nat := 0
deriving DecidableEq, Repr

/-- Sequence header (04 R131), its current table (04 R132, R133) and its age table entry (05 R176). -/
structure Seq where
  /-- 4; 04 R131 STATE; 0 absent, 1 live, 2 closed; reset 0 -/
  state : Nat := 0
  /-- 10; 04 R131 OWNER; reset 0 -/
  owner : Nat := 0
  /-- 16; 04 R131 MODEL; reset 0 -/
  model : Nat := 0
  /-- 8; 04 R131 LAYERS; reset 0 -/
  layers : Nat := 0
  /-- 8; 04 R131 TPP; reset 0 -/
  tpp : Nat := 0
  /-- 16; 04 R131, R134 GEN; reset 0 -/
  gen : Nat := 0
  /-- 1; 04 R131, 07 R227 FENCE_ON; reset 0 -/
  fenceOn : Bool := false
  /-- 12; 04 R131, R147 AGE_GATH; reset 0 -/
  ageGath : Nat := 0
  /-- 1; 04 R131 AGE_VALID; reset 0 -/
  ageValid : Bool := false
  /-- 96; 04 R131, R130 LASTHASH; reset 0 -/
  lastHash : BitVec 96 := 0
  /-- list; 04 R131 BLOCKS, R132, R133; the table's entries in block order, BLOCKS is their number; reset empty -/
  entries : List Entry := []
  /-- sheets; 04 R131 TOP, R132; tree sheets: key 0 the top sheet, 2m+1 map sheet m, 2g+2 segment g; reset none -/
  tree : Tbl Nat := []
  /-- 32; 05 R176 STAMP; reset 0 -/
  stamp : Nat := 0
  /-- 1; 05 R176 PREEMPTED; reset 0 -/
  preempted : Bool := false
  /-- bytes; 03 R101; bytes per token per layer of its shape (model's own copy of the gathering record's shape); reset 0 -/
  ptok : Nat := 0
  /-- 6; 04 R122; FORMAT of its pages (model's own); reset 0 -/
  format : Nat := 0
  /-- KV heads, half width; 08 R255; shape of its summaries: groups and dimensions (model's own); reset 0 -/
  groups : Nat := 0
  /-- dims; 08 R255; reset 0 -/
  dims : Nat := 0
  /-- 1; 10 R323; a weight sequence; reset 0 -/
  weight : Bool := false
deriving DecidableEq, Repr

/-- A member in a step snapshot, 04 R139, R140. -/
structure SnapMember where
  /-- 24; 04 R139; sequence -/
  seq : Nat := 0
  /-- 1; 04 R139; the member existed -/
  present : Bool := false
  /-- list; 04 R139 TOP, BLOCKS; entries of the snapshot's table -/
  entries : List Entry := []
  /-- 16; 04 R139 GEN; generation of the current table that the snapshot agrees with -/
  gen : Nat := 0
  /-- per layer; 04 R139; LENGTH of each open page of the open block; of one sealed meanwhile, the payload bytes it held at its seal -/
  lens : Tbl Nat := []
  /-- list; 04 R143; pages of its blocks that were not sealed -/
  unsealed : List Nat := []
  /-- 1; 04 R140; the member is diverged -/
  diverged : Bool := false
  /-- 1; 03 R74, 04 R142; at the snapshot it had the shape of the gathering's record -/
  shape : Bool := true
  /-- 1; 03 R74, 04 R142; at the snapshot it belonged to the gathering's owner -/
  owned : Bool := true
  /-- list; 04 R140, R144; base pages of the blocks held by the snapshot only -/
  own : List Nat := []
deriving DecidableEq, Repr

/-- A gathering: 03 R74, R102, 05 R168, R182. -/
structure Gath where
  /-- 1; 05 R182 LIVE; reset 0 -/
  live : Bool := false
  /-- 10; 03 R74; owning context; reset 0 -/
  owner : Nat := 0
  /-- 64 bytes; 03 R101; gathering record; reset 0 -/
  grec : GRec := {}
  /-- list; 03 R101; member sequence IDs; reset empty -/
  members : List Nat := []
  /-- 64; 05 R182 STEP; reset 0 -/
  step : Nat := 0
  /-- 8; 05 R182 LAYER; reset 0 -/
  layer : Nat := 0
  /-- 32; 05 R171, R182 PERIOD; reset 0 -/
  period : Nat := 0
  /-- position, cycle; 05 R171; start of the previous ATTEND; reset none -/
  lastStart : Option (Nat × Nat) := none
  /-- list; 04 R139; step snapshot; reset empty -/
  snap : List SnapMember := []
  /-- epoch; 04 R139; step hold register; reset none -/
  hold : Option Nat := none
  /-- cycle; 04 R141; start of the step hold; reset 0 -/
  holdAt : Nat := 0
  /-- 32; 04 R118, R141; hold limit in force for this hold; reset 0 -/
  holdLimit : Nat := 0
  /-- list; 05 R169; need list: page, needing position; reset empty -/
  need : List (Nat × Nat) := []
  /-- list; 05 R167; page, needing position: prefetches whose reads have failed, and that are not asked again for that position; reset empty -/
  failed : List (Nat × Nat) := []
  /-- list; 05 R169; private pages the last ATTEND of each layer selected: layer, its step, page; reset empty -/
  selected : List (Nat × Nat × Nat) := []
  /-- sheets; 05 R173; window reservation not in use; reset 0 -/
  reserve : Nat := 0
  /-- epoch number; 04 R140; step boundaries passed (model's own, to tell which waiting APPENDs a boundary serves); reset 0 -/
  bounds : Nat := 0
deriving DecidableEq, Repr

/-- Objects a retirement frees, 04 R137. -/
structure Retire where
  /-- 64; 04 R137; tag -/
  tag : Nat := 0
  /-- page IDs with all they hold -/
  pages : List Nat := []
  /-- first sheets of POOL runs -/
  pool : List Nat := []
  /-- SEQ sheets -/
  seqSheets : List Nat := []
  /-- runs below T0: tier, location, sheets -/
  homes : List (Nat × Nat × Nat) := []
  /-- clear copies: POOL run, zeroed before it returns (09 R296), and the gathering whose reservation it returns to + 1 (05 R173) -/
  clear : List (Nat × Nat) := []
deriving DecidableEq, Repr

/-- What a row slot or overflow entry holds beside UNIT, 06 R192. -/
structure RowSlot where
  /-- 144; 06 R192 UNIT; shadow copy; reset 0 -/
  unit : BitVec 144 := 0
  /-- 1; 06 R192, R199 CONTINUE; reset 0 -/
  cont : Bool := false
  /-- 32; 06 R192 REGION; reset 0 -/
  region : Nat := 0
  /-- 32; 06 R192 VERSION; reset 0 -/
  version : Nat := 0
  /-- 24; 06 R192 BLOCK; reset 0 -/
  block : Nat := 0
  /-- 64; 06 R192 HANDLE; reset 0 -/
  handle : BitVec 64 := 0
  /-- 10; 06 R192 OWNER; reset 0 -/
  owner : Nat := 0
  /-- 20; 06 R192 RINDEX; reset 0 -/
  rindex : Nat := 0
  /-- 48; 06 R192 SERIAL; reset 0 -/
  serial : Nat := 0
deriving DecidableEq, Repr

/-- A region record and its committed snapshot, 03 R491, 06 R192, R204, R206. -/
structure Region where
  /-- 16; 03 R491; scope -/
  scope : Nat := 0
  /-- 32; 03 R491; region ID -/
  rid : Nat := 0
  /-- 10; 03 R491, 06 R192 OWNER; context that published it -/
  owner : Nat := 0
  /-- 1; the record is in use -/
  used : Bool := false
  /-- 1; 06 R206; a version is committed -/
  committed : Bool := false
  /-- 32; 03 R88; committed version -/
  version : Nat := 0
  /-- list; 03 R491; snapshot entries -/
  entries : List Entry := []
  /-- list; 04 R129; chain hashes of its blocks -/
  hashes : List (BitVec 96) := []
  /-- 16; 03 R491 MODEL -/
  model : Nat := 0
  /-- 8; 03 R491 LAYERS -/
  layers : Nat := 0
  /-- 8; 03 R491 TPP -/
  tpp : Nat := 0
  /-- list; 06 R204; position list: block, place (a row, or 2^20 + overflow place) -/
  places : Tbl Nat := []
  /-- list; 06 R206; places of the new version not yet committed -/
  newPlaces : Tbl Nat := []
  /-- list; 06 R206; places of the superseded version's blocks still to be withdrawn -/
  oldPlaces : Tbl Nat := []
  /-- 06 R206; the version being published: VERSION, entries, chain hashes, publisher, header of its sequence; the slots that its carries overwrote, by block; and the
  blocks whose keys go to the directory once step 3 has ended (10 R331) -/
  newVersion : Nat := 0
  newEntries : List Entry := []
  newHashes : List (BitVec 96) := []
  newOwner : Nat := 0
  newHead : Seq := {}
  saved : Tbl RowSlot := []
  fresh : List Nat := []
  /-- 1; 03 R89; a PUBLISH is in progress -/
  publishing : Bool := false
  /-- 1; 03 R89, 06 R207; a RETRACT is in progress -/
  retracting : Bool := false
  /-- list; 06 R206, 13 R406, R411 (model's own): the position list whose entries the recovery credits withdraw (0 of a retraction, 1 of a version that
  is undone, 2 of a superseded version), none while no recovery runs -/
  recov : Option Nat := none
  /-- shape; 03 R491 (model's own: what ATTACH gives a new sequence beside LAYERS and TPP) -/
  ptok : Nat := 0
  format : Nat := 0
  groups : Nat := 0
  dims : Nat := 0
deriving DecidableEq, Repr

/-- A Spine row, 06 R183, R188. -/
structure Row where
  /-- 144; 06 R183; the row's unit; reset 0 -/
  unit : BitVec 144 := 0
  /-- 1; 06 R188, R211; the match latch is cleared (the row is suspect); reset 0 -/
  suspect : Bool := false
  /-- 64 bytes; 06 R192; its row slot; reset 0 -/
  slot : RowSlot := {}
deriving DecidableEq, Repr

/-- SP_BANK_b, 06 R216. -/
structure Bank where
  /-- 2; 06 R216 WIDTH; reset 0 -/
  width : Nat := 0
  /-- 1; 06 R216 ROLE; reset 0 -/
  role : Nat := 0
  /-- 1; 06 R216 AVAIL, inverted; reset available -/
  down : Bool := false
  /-- 1; 06 R216 CFG_ERR; reset 0 -/
  cfgErr : Bool := false
deriving DecidableEq, Repr

/-- One operation of the update queue, 06 R205: flight + 1 (0: the recovery of a context reset), region record, block. -/
inductive UpdOp where
  /-- insert a block of the version being published -/
  | insert (f rindex block : Nat)
  /-- rewrite the slot of a carried block -/
  | carry (f rindex block : Nat)
  /-- withdraw a block's entry: list 0 the position list, 1 that of the version being published, 2 that of the superseded version -/
  | withdraw (f rindex block list : Nat)
deriving DecidableEq, Repr

/-- AWL_AUTO_a and what the image's header fixed, 07 R220, R232. -/
structure Auto where
  /-- 1; 07 R232 LOADED; reset 0 -/
  loaded : Bool := false
  /-- 1; 07 R232 POISON; reset 0 -/
  poison : Bool := false
  /-- 10; 07 R232 OWNER; reset 0 -/
  owner : Nat := 0
  /-- 17; 07 R232 STATES; reset 0 -/
  states : Nat := 0
  /-- 9; 07 R220 CLASSES; reset 0 (log 9) -/
  classes : Nat := 0
  /-- 21; 07 R220 VOCAB; reset 0 (log 9) -/
  vocab : Nat := 0
  /-- 16; 07 R220 START; reset 0 (log 9) -/
  start : Nat := 0
  /-- 8; 07 R232 MAXLEN; reset 0 -/
  maxlen : Nat := 0
  /-- 27; 07 R222; first POOL sheet of the image; reset 0 (log 9) -/
  sheet : Nat := 0
deriving DecidableEq, Repr

/-- Stream record, 07 R224. -/
structure Stream where
  /-- 4x16; 07 R224 STATE0-3; reset 0 -/
  states : Tbl Nat := []
  /-- 4x7; 07 R224 AUTO0-3; automaton + 1, 0 when not valid; reset 0 -/
  autos : Tbl Nat := []
  /-- 32; 07 R224 NEXTPOS; reset 0 -/
  nextPos : Nat := 0
  /-- 16; 07 R224 MATCHES; reset 0 -/
  matchCount : Nat := 0
  /-- 1; the sequence has a stream record -/
  used : Bool := false
  /-- cases; 07 R229; ENGINE_FENCE records already written for the sequence -/
  reported : List Nat := []
deriving DecidableEq, Repr

/-- The Awl, 07. -/
structure Awl where
  /-- 64 slots; 07 R232; automata; reset none loaded -/
  autos : Tbl Auto := []
  /-- 1,024 x 4x8; 07 R223, R232 AWL_BIND_c; key 4c+k, automaton + 1; reset 0 -/
  binds : Tbl Nat := []
  /-- 8x11; 07 R218, R232 AWL_POLICY_s; context + 1; reset 0 -/
  policy : Tbl Nat := []
  /-- 16; 07 R232 AWL_STATUS.STATUS; reset 0 -/
  status : BitVec 16 := 0
  /-- 1; 07 R232 AWL_STATUS.BUSY: context, automaton and offset of an AWL_LOAD that waits for its run; reset none -/
  loading : Option (Nat × Nat × Nat) := none
  /-- per sequence; 07 R224; stream records; reset none -/
  streams : Tbl Stream := []
  /-- sheets; 07 R224; POOL sheets of the stream table: record group, sheet + 1; reset none -/
  streamSheets : Tbl Nat := []
  /-- 16 queues; 07 R226; token queues; reset empty -/
  queues : Tbl (List Token) := []
deriving DecidableEq, Repr

/-- A Gatherer move, 05 R165. -/
structure Move where
  page : Nat := 0
  kind : MoveKind := .demand
  /-- request order; 05 R165 -/
  order : Nat := 0
  /-- needing position; 05 R165, R170 -/
  pos : Nat := 0
  /-- gathering of a prefetch -/
  gath : Nat := 0
  /-- tier written or read; 05 R153 -/
  tier : Nat := 0
  /-- port; 05 R165 -/
  port : Nat := 0
  /-- location of the home copy read or written; 05 R153 -/
  loc : Nat := 0
  /-- landing run; 05 R164 -/
  landing : Nat := 0
  /-- 1; it has started (credit taken, read or write submitted) -/
  started : Bool := false
  /-- cycle of the submission; 05 R171 -/
  since : Nat := 0
  /-- cycle of the request; 05 R164 -/
  asked : Nat := 0
  /-- keep the T0 copy as a cached copy; 05 R166, placement moves -/
  keep : Bool := false
  /-- 1; 05 R170, R180; the Kettle asked for it, whatever its kind is now -/
  byKettle : Bool := false
  /-- 1; 05 R166; abandoned (the page was poisoned while it ran) -/
  abandoned : Bool := false
  /-- slot; 04 R136; walker slot it holds -/
  walker : Option Nat := none
  /-- pool + 1; 01 R17; move-queue or prefetch-queue credit it holds, 0 none; and the context whose cap counts it -/
  credit : Nat := 0
  ctx : Nat := 0
deriving DecidableEq, Repr

/-- TIER_PORT_p, TIER_LAT_p, TIER_USE_p, DS_PORT_p and the port record: 05 R181, 14 R440, R446. -/
structure Port where
  /-- 2; 05 R181 KIND; reset 0 -/
  kind : Nat := 0
  /-- 3; 05 R181 WIDTH; reset 0 -/
  width : Nat := 0
  /-- 1; 05 R181 AVAIL; reset 0 -/
  avail : Bool := false
  /-- 1; 05 R181 WRITE_ERR; reset 0 -/
  writeErr : Bool := false
  /-- 38; 05 R181 SHEETS; reset 0 -/
  sheets : Nat := 0
  /-- 32; 05 R171, R181 LAT; reset 0 (no device) -/
  lat : Nat := 0
  /-- 32; 05 R181 SAMPLES; reset 0 -/
  samples : Nat := 0
  /-- 38; 05 R181 USED; reset 0 -/
  used : Nat := 0
  /-- 1; 14 R446 LINK_UP; reset 0 -/
  linkUp : Bool := false
  /-- 3; 14 R446 ENUM; reset 0 -/
  enum : EnumState := .idle
  /-- 8; 14 R440 REJECT; reset 0 -/
  reject : Nat := 0
  /-- 16; 14 R440 VENDOR; reset 0 -/
  vendor : Nat := 0
  /-- 160; 14 R440 SERIAL; reset 0 -/
  serial : BitVec 160 := 0
  /-- 64; 14 R440 CAPACITY; reset 0 -/
  capacity : Nat := 0
  /-- 1; 14 R428; a link event waits for service processor 2; reset 0 -/
  latched : Bool := false
  /-- 1; 14 R428; a PORT_RESET write waits for service processor 2; reset 0 -/
  resetWaits : Bool := false
deriving DecidableEq, Repr

/-- Tiers and the Gatherer, 05. -/
structure Tier where
  /-- 1; 05 R181 SPILL_EN; reset 1 -/
  spillEn : Bool := true
  /-- 2; 05 R181 SPILL_ORDER; reset 0 -/
  spillOrder : Nat := 0
  /-- 28; 05 R181 LOW; reset 1,048,576 (LG-4080 half) -/
  low : Nat := 1048576
  /-- 28; 05 R181 HIGH; reset 2,097,152 (LG-4080 half) -/
  high : Nat := 2097152
  /-- 28; 05 R181 LANDING; reset 262,144 (LG-4080 half) -/
  landing : Nat := 262144
  /-- 16; 05 R181 T1_US; reset 100 -/
  t1us : Nat := 100
  /-- 16; 05 R181 T2_US; reset 2,000 -/
  t2us : Nat := 2000
  /-- 16; 05 R181 SWAP_US; reset 200 -/
  swapUs : Nat := 200
  /-- 52; 05 R181 TIER_SWAP_BASE.BASE; reset 0 -/
  swapBase : Nat := 0
  /-- 28; 05 R181 TIER_SWAP_SIZE.SHEETS; reset 0 -/
  swapSize : Nat := 0
  /-- 32; 05 R181 TIER_SWAP_LAT.LAT; reset 0 on the LG-8160 (LG-4080 5,250) -/
  swapLat : Nat := 0
  /-- 32; 05 R181 SAMPLES; reset 0 -/
  swapSamples : Nat := 0
  /-- 16 ports; 05 R181, 14 R446; reset all 0 -/
  ports : Tbl Port := []
  /-- list; 05 R165; moves asked for and in progress; reset empty -/
  moves : List Move := []
  /-- runs; 05 R155 T1 run map; allocated runs of the T1 space: start, sheets; reset none -/
  t1Runs : Tbl Nat := []
  /-- runs; 05 R155 T2 run map; start (2^32 x port + unit), units; reset none -/
  t2Runs : Tbl Nat := []
  /-- runs; 05 R155 swap run map; reset none -/
  swapRuns : Tbl Nat := []
  /-- port; 05 R162; next port of the rotation of T1 and of T2; reset 0 (log 9) -/
  rotT1 : Nat := 0
  rotT2 : Nat := 0
  /-- 1; 05 R161; a reclaim pass is in progress; reset 0 -/
  passing : Bool := false
  /-- count; 05 R165; order number of the next request (model's own); reset 0 -/
  nextOrder : Nat := 0
deriving DecidableEq, Repr

/-- The Press, 09 R281, 12 R391. -/
structure Press where
  /-- list; 01 R17; seal queue, oldest first; reset empty -/
  queue : List Nat := []
  /-- 8; 09 R281; page a pipeline holds, +1; reset none -/
  pipes : Tbl Nat := []
  /-- 8; 04 R136; walker slot of a pipeline's seal, +1; reset none -/
  pipeWalker : Tbl Nat := []
  /-- 8; 09 R280, R281; how a pipeline's seal goes: bit 0 raw by FORCE_RAW at its beginning, bit 1 a bad granule was read; reset 0 -/
  pipeFlags : Tbl Nat := []
  /-- 1; 09 R298 CX_CONTROL.FORCE_RAW; reset 0 -/
  forceRaw : Bool := false
  /-- list; 04 R130; sealed layer-0 pages whose chain hash is still to be formed; reset empty -/
  hashWait : List Nat := []
deriving DecidableEq, Repr

/-- A weight record, CX_WREC_i, 09 R292, R298. -/
structure WRec where
  /-- 1; 09 R298 VALID; reset 0 -/
  valid : Bool := false
  /-- 16; 09 R298 MODEL; reset 0 -/
  model : Nat := 0
  /-- 8; 09 R298 LAYER; reset 0 -/
  layer : Nat := 0
  /-- 40; 09 R298 PAGE; reset 0 -/
  page : Nat := 0
  /-- 16; 09 R298 PPL; reset 0 -/
  ppl : Nat := 0
  /-- 8; 09 R298 SLOT; reset 0 -/
  slot : Nat := 0
  /-- 16; 09 R298 KEYGEN; reset 0 -/
  keygen : Nat := 0
  /-- 10; 09 R295; context that ran LOADW (model's own: "the function"); reset 0 -/
  owner : Nat := 0
  /-- sheet; 09 R293; clear copy; reset none -/
  clear : Option Nat := none
  /-- gathering; 05 R173; whose reservation the copy uses; reset 0 -/
  reserveOf : Nat := 0
  /-- list; 09 R293; pages whose weight pass has ended; reset empty -/
  passed : List Nat := []
  /-- status; 09 R295; how a pass failed; reset 0 none -/
  failed : BitVec 16 := 0
  /-- bytes; 09 R288; CLEN of each page whose pass has ended, by its index; reset none -/
  lens : Tbl Nat := []
  /-- 1; 05 R172; the layer lay in a window when the windows were last looked at; reset 0 -/
  inWin : Bool := false
  /-- 1; 09 R295; a pass that waits for its slot's activation has been recorded; reset 0 -/
  told : Bool := false
deriving DecidableEq, Repr

/-- Folios and Quires, 08 R273. -/
structure Fq where
  /-- 1; 08 R273 FQ_GOV.MODE in force; reset 0 -/
  mode : Bool := false
  /-- 2; 08 R273 FORCE_LEVEL in force; reset 0 -/
  forceLevel : Nat := 0
  /-- 2; 08 R273 LEVEL; reset 0 -/
  level : Nat := 0
  /-- 12; 08 R273 POWER_W in force; reset 700 (LG-4080 400) -/
  powerW : Nat := 700
  /-- 8; 08 R273 TEMP_C in force; reset 100 -/
  tempC : Nat := 100
  /-- 16; 08 R273 INTERVAL in force; reset 1,024 -/
  interval : Nat := 1024
  /-- 64; 08 R273 FQ_GOV as last written: adopted at the end of the interval; reset as MODE, FORCE_LEVEL -/
  govW : BitVec 64 := 0
  /-- 64; 08 R273 FQ_GOV_LIMIT as last written; reset 700, 100, 1,024 -/
  limitW : BitVec 64 := 0x00000400006402BC
  /-- count; 08 R261; consecutive intervals below 15/16; reset 0 (log 9) -/
  below : Nat := 0
  /-- cycle; 08 R261; start of the present governor interval; reset 0 -/
  govFrom : Nat := 0
  /-- 16x13; 08 R273 FQ_QUIRE_q; flight that holds Quire q, +1; reset none -/
  held : Tbl Nat := []
  /-- 4,096; 09 R292, R298; weight record table; reset none valid -/
  wrecs : Tbl WRec := []
  /-- list; 09 R294; superseded records whose clear copies begun ATTENDs keep using, and the key of the next; reset none -/
  past : Tbl WRec := []
  nextPast : Nat := 0
deriving DecidableEq, Repr

/-- One frame of a message of a queue pair, 10 R301, R306, 11 R343: what it carries, with its place in its message. -/
structure Frame where
  qp : Nat := 0
  /-- service, 11 R337 -/
  svc : Nat := 0
  /-- BTH opcode: that of RoCE v2, or 0xC0 to 0xC4 (10 R306) -/
  op : Nat := 0
  /-- target address of the message, and remote key -/
  va : Nat := 0
  rkey : Nat := 0
  /-- message length -/
  mlen : Nat := 0
  /-- offset of the payload in the message, and message sequence number -/
  offset : Nat := 0
  msn : Nat := 0
  payload : List (BitVec 8) := []
  /-- frame length, 11 R336 -/
  len : Nat := 0
  /-- PSNs it takes: 1, or the response packets of a read request -/
  psns : Nat := 1
  /-- flight it serves, +1 -/
  flight : Nat := 0
  /-- 1; its bytes count as in flight for the subscriber, 10 R321 -/
  counted : Bool := false
  /-- 1; a directory key message, 10 R331 -/
  dirKeys : Bool := false
  /-- cycle at which its message joined its queue, 11 R356 -/
  since : Nat := 0
  /-- PSN of a frame that is retransmitted -/
  psn : Nat := 0
  /-- 1; a retransmission: it goes before new packets -/
  again : Bool := false
  /-- 32; 10 R306 TS; send time of a multipath packet, ns, once it is sent -/
  ts : Nat := 0
deriving DecidableEq, Repr

/-- A packet sent and not yet acknowledged, 10 R305 to R309. -/
structure SentPkt where
  psn : Nat := 0
  frame : Frame := {}
  path : Nat := 0
  /-- cycle of the last send -/
  since : Nat := 0
  /-- retransmissions so far -/
  tries : Nat := 0
  /-- 1; a retransmission of it waits in its queue (log 44) -/
  waits : Bool := false
  /-- 1; 10 R306: a multipath peer's bitmap has acknowledged it -/
  acked : Bool := false
  /-- cycle of that acknowledgement -/
  ackedAt : Nat := 0
  /-- response packets received of a read: index, bytes -/
  got : List (Nat × List (BitVec 8)) := []
deriving DecidableEq, Repr

/-- Inbound message in progress, 10 R310, R311. -/
structure InMsg where
  /-- first PSN, or MSN of a multipath message -/
  first : Nat := 0
  /-- 1; a multipath message -/
  multi : Bool := false
  /-- message length, once known -/
  mlen : Option Nat := none
  /-- registration admitted, +1; 0 for a Send -/
  reg : Nat := 0
  /-- offset in the registration, 10 R314 -/
  va : Nat := 0
  /-- 1; a Send -/
  isSend : Bool := false
  /-- slots of PMTU bytes that have arrived, 10 R310 -/
  got : List Nat := []
  /-- payload of a Send or of a doorbell write: offset, bytes -/
  body : List (Nat × List (BitVec 8)) := []
  /-- cycle of the first packet -/
  since : Nat := 0
  /-- 1; complete, waiting for its turn (10 R312, a Send) -/
  done : Bool := false
deriving DecidableEq, Repr

/-- One path of a queue pair, 10 R309. -/
structure Path where
  /-- bytes; 10 R309 w[i]; reset 0 -/
  w : Nat := 0
  /-- ns; 10 R309 dmin[i]; reset 0 -/
  dmin : Nat := 0
  /-- ns; 10 R309 last_dec[i]; reset 0 -/
  lastDec : Nat := 0
deriving DecidableEq, Repr

/-- Queue pair context (10 R302) and its transport state. -/
structure Qp where
  /-- 3; 10 R302 STATE; reset 0 -/
  state : QpState := .reset
  /-- 8; 10 R302 FUNCTION; reset 0 -/
  function : Nat := 0
  /-- 10; 10 R302 OWNER; reset 0 -/
  owner : Nat := 0
  /-- 3; 10 R302 PORT; reset 0 -/
  port : Nat := 0
  /-- 1; 10 R302 IPV6; reset 0 -/
  ipv6 : Bool := false
  /-- 1; 10 R302 MULTIPATH; reset 0 -/
  multipath : Bool := false
  /-- 1; 10 R302 VANGED; reset 0 -/
  vanged : Bool := false
  /-- 1; 10 R302 DIRPEER; reset 0 -/
  dirPeer : Bool := false
  /-- 4; 10 R302 PATHS; reset 0 -/
  paths : Nat := 0
  /-- 2; 10 R302 PMTU; reset 0b10 -/
  pmtu : Nat := 2
  /-- 8; 10 R302 SUBSCRIBER; reset 0 -/
  subscriber : Nat := 0
  /-- 3; 10 R302 RSLOTS; reset 0 -/
  rslots : Nat := 0
  /-- 4; 10 R302 SGID; reset 0 -/
  sgid : Nat := 0
  /-- 24; 10 R302 DEST_QPN; reset 0 -/
  destQpn : Nat := 0
  /-- 24; 10 R302 SQ_PSN; reset 0 -/
  sqPsn : Nat := 0
  /-- 24; 10 R302 RQ_PSN; reset 0 -/
  rqPsn : Nat := 0
  /-- 8; 10 R302 RETRY; reset 7 -/
  retry : Nat := 7
  /-- 48; 10 R302 PEER_MAC; reset 0 -/
  peerMac : BitVec 48 := 0
  /-- 12; 10 R302 VLAN; reset 0 -/
  vlan : Nat := 0
  /-- 6; 10 R302 DSCP; reset 0 -/
  dscp : Nat := 0
  /-- 16; 10 R302 ACK_US; reset 16 -/
  ackUs : Nat := 16
  /-- 128; 10 R302 PEER_IP; reset 0 -/
  peerIp : BitVec 128 := 0
  /-- 16; 10 R302 SPORT; reset 0xC000 -/
  sport : Nat := 0xC000
  /-- 8; 10 R302 ERR_CAUSE; reset 0 -/
  errCause : Nat := 0
  /-- 32; 10 R302 RTT_NS; reset 0 -/
  rttNs : Nat := 0
  /-- 1; 10 R303; a reserved field of the written context was nonzero; reset 0 -/
  rsvBad : Bool := false
  /-- paths; 10 R309; windows (WINDOW is their sum); reset 0 -/
  path : Tbl Path := []
  /-- list; 10 R305; packets sent, unacknowledged; reset empty -/
  sent : List SentPkt := []
  /-- list; 10 R310; inbound messages in progress; reset empty -/
  msgs : List InMsg := []
  /-- list; 10 R311; packets held, with the cycle of their arrival; reset empty -/
  held : List (Nat × Packet) := []
  /-- list; 10 R308; PSNs received above RQ_PSN, with the cycles of their arrival; reset empty -/
  above : List (Nat × Nat) := []
  /-- cycle; 10 R308; start of the receive gap; reset none -/
  gapAt : Option Nat := none
  /-- count; 10 R308; packets since the last acknowledgement; reset 0 -/
  unacked : Nat := 0
  /-- list; 10 R317; receive slots filled, oldest first: the message's bytes; reset empty -/
  slots : List (List (BitVec 8)) := []
  /-- 32; 10 R318 EXPECT; reset 0 (TO_RTS sets 1) -/
  expect : Nat := 0
  /-- 32; 10 R321 CREDIT; reset 0 (TO_RTS sets REQ_WINDOW) -/
  credit : Nat := 0
  /-- list; 10 R321; requests begun and not ended; reset empty -/
  running : List Nat := []
  /-- 32; 10 R317, R333; REQ_SEQ of the next request the device sends on it; reset 0 (TO_RTS sets 1) -/
  reqNext : Nat := 0
  /-- 24; 10 R306; next message sequence number; reset 0 -/
  msn : Nat := 0
  /-- 24; 10 R306, R312; first message sequence number of the peer whose message has not completed; reset 0 -/
  peerMsn : Nat := 0
  /-- list; 10 R312; later ones whose messages have completed; reset empty -/
  peerDone : List Nat := []
deriving DecidableEq, Repr

/-- A registration, 10 R314. -/
structure Reg where
  /-- 1; 10 R314 VALID; reset 0 -/
  valid : Bool := false
  /-- 1; 10 R316 REVOKING; reset 0 -/
  revoking : Bool := false
  /-- 16; 10 R314 GEN; reset 0 -/
  gen : Nat := 0
  /-- 10; 10 R314 CONTEXT; reset 0 -/
  ctx : Nat := 0
  /-- 3; 10 R314 KIND; reset 0 -/
  kind : Nat := 0
  /-- 3; 10 R334 RING; reset 0 -/
  ring : Nat := 0
  /-- 2; 10 R334 ACCESS; bit 0 write, bit 1 read; reset 0 -/
  access : Nat := 0
  /-- 32; 10 R334 OFFSET; reset 0 -/
  offset : Nat := 0
  /-- 32; 10 R334 LENGTH; reset 0 -/
  length : Nat := 0
  /-- set; 10 R316; command set whose REVOKE runs, +1; reset 0 -/
  revokedBy : Nat := 0
deriving DecidableEq, Repr

/-- A network command set, 10 R334, 16 R487 (key 0: BAR0; key f+1: BAR2 of function f). -/
structure CmdSet where
  /-- 16; 10 R334 NET_QP_STATUS.STATUS; reset 0 -/
  qpStatus : BitVec 16 := 0
  /-- 8x64; 10 R334 NET_QP_DATA_i; reset 0 -/
  data : Tbl (BitVec 64) := []
  /-- 64; 10 R334 NET_REG_DATA0; reset 0 -/
  regData0 : BitVec 64 := 0
  /-- 64; 10 R334 NET_REG_DATA1; reset 0 -/
  regData1 : BitVec 64 := 0
  /-- 1; 10 R334 NET_REG_STATUS.BUSY; reset 0 -/
  regBusy : Bool := false
  /-- 16; 10 R334 NET_REG_STATUS.STATUS; reset 0 -/
  regStatus : BitVec 16 := 0
  /-- 32; 10 R334 NET_REG_STATUS.KEY; reset 0 -/
  regKey : BitVec 32 := 0
  /-- 1; 10 R334 NET_EXT_STATUS.BUSY; reset 0 -/
  extBusy : Bool := false
  /-- 16; 10 R334 NET_EXT_STATUS.STATUS; reset 0 -/
  extStatus : BitVec 16 := 0
deriving DecidableEq, Repr

/-- NET_SUB_s and what is counted for it, 10 R321, R326, R334. -/
structure Sub where
  /-- 16; 10 R334 REQ_WINDOW; reset 64 -/
  reqWindow : Nat := 64
  /-- 24; 10 R334 BYTE_WINDOW, KiB; reset 16,384 -/
  byteWindow : Nat := 16384
  /-- 24; 10 R334 EXT_LIMIT, 256 sheets; reset 0 -/
  extLimit : Nat := 0
  /-- 8; 10 R334 FUNCTION; reset 0 -/
  function : Nat := 0
deriving DecidableEq, Repr

/-- An extent, 10 R326, R327. -/
structure Ext where
  /-- 1; granted; reset 0 -/
  granted : Bool := false
  /-- 1; 10 R327; being withdrawn; reset 0 -/
  withdrawing : Bool := false
  /-- 20; 10 R326; generation; reset 0 -/
  gen : Nat := 0
  /-- 8; subscriber; reset 0 -/
  sub : Nat := 0
  /-- sheets; 10 R324; not yet consumed; reset 0 -/
  left : Nat := 0
  /-- count; 10 R327; begun requests naming it; reset 0 -/
  begun : Nat := 0
  /-- qp, REQ_SEQ; 10 R327; EXTENT_RETURN that awaits the end; reset none -/
  returnTo : Option (Nat × Nat) := none
  /-- set + 1; 10 R327; command set whose REVOKE awaits the end; reset 0 -/
  revokedBy : Nat := 0
deriving DecidableEq, Repr

/-- NET_PORT_p, 10 R334. -/
structure NetPort where
  /-- 1; 10 R334 LINK_UP; reset 0 -/
  linkUp : Bool := false
  /-- 48; 10 R334 MAC; "per identity"; reset DESIGN CHOICE 0 (log 9) -/
  mac : BitVec 48 := 0
deriving DecidableEq, Repr

/-- The network block, 10. -/
structure Net where
  /-- 2; 10 R334 NET_CONTROL.MODE; reset 1 -/
  mode : Nat := 1
  /-- 8; 10 R334 LINK_EN; reset 0 -/
  linkEn : BitVec 8 := 0
  /-- 1; 10 R334 NET_CONTROL.CFG_ERR; reset 0 -/
  cfgErr : Bool := false
  /-- 16; 10 R334 MSG_US; reset 1,000 -/
  msgUs : Nat := 1000
  /-- 16; 10 R334 REORDER_US; reset 20 -/
  reorderUs : Nat := 20
  /-- 16; 10 R334 TARGET_NS; reset 5,000 -/
  targetNs : Nat := 5000
  /-- 16; 10 R334 AI; reset 4,096 -/
  ai : Nat := 4096
  /-- 8; 10 R334 BETA; reset 128 -/
  beta : Nat := 128
  /-- 16; 10 R334 W_INIT; reset 256 -/
  wInit : Nat := 256
  /-- 16; 10 R334 W_MIN; reset 16 -/
  wMin : Nat := 16
  /-- 16; 10 R334 W_MAX; reset 16,384 -/
  wMax : Nat := 16384
  /-- 8; 10 R334 NET_LOAD.FOLIO; reset 0 -/
  gFolio : Nat := 0
  /-- 8; 10 R334 NET_LOAD.T0; reset 0 -/
  gT0 : Nat := 0
  /-- 8; 10 R334 NET_LOAD.SPINE; reset 0 -/
  gSpine : Nat := 0
  /-- 8; 10 R334 NET_LOAD.POOL; reset 0 -/
  gPool : Nat := 0
  /-- cycle; 10 R320; end of the present interval of the gauges; reset 65,536 -/
  loadDue : Nat := 65536
  /-- credit-cycles; 10 R320; search credits in use in the present interval, summed over its cycles; reset 0 -/
  spineUse : Nat := 0
  /-- 257 sets; 16 R487; command sets; reset 0 -/
  sets : Tbl CmdSet := []
  /-- 1; 10 R334 NET_DIR_CONTROL.ROLE; reset 0 -/
  role : Bool := false
  /-- 1; 10 R334 WORKER; reset 0 -/
  worker : Bool := false
  /-- 1; 10 R334 SELF; reset 0 -/
  selfPeer : Bool := false
  /-- 1; 10 R334 NET_DIR_CONTROL.CFG_ERR; reset 0 -/
  dirCfgErr : Bool := false
  /-- 6; 10 R334 WORKER_ID; reset 0 -/
  workerId : Nat := 0
  /-- 14; 10 R334 DIR_QP; reset 0 -/
  dirQp : Nat := 0
  /-- 64x15; 10 R334 NET_DIR_PEER_w: QP in bits 13:0, VALID in bit 14; reset 0 -/
  peers : Tbl Nat := []
  /-- 8 ports; 10 R334; reset link down, available -/
  ports : Tbl NetPort := []
  /-- 256; 10 R334 NET_SUB_s; reset as Sub -/
  subs : Tbl Sub := []
  /-- 8x16x128; 10 R334 NET_SRC_p_i; key 16p+i; reset 0 -/
  srcs : Tbl (BitVec 128) := []
  /-- 16,384; 10 R302; queue pairs; reset RESET -/
  qps : Tbl Qp := []
  /-- 65,536; 10 R314; registrations; reset not valid -/
  regs : Tbl Reg := []
  /-- 4,096; 10 R326; extents; reset not granted -/
  exts : Tbl Ext := []
  /-- list; 11 R339; frames that passed the checks and meters of their queue pair and wait for the RDMA engine, oldest first: queue pair, packet; reset empty -/
  accepted : List (Nat × Packet) := []
  /-- list; 10 R331; directory additions and deletions queued, and since when; reset empty -/
  dirSince : Nat := 0
  dirAdds : List (BitVec 128) := []
  dirDels : List (BitVec 128) := []
deriving DecidableEq, Repr

/-- A shaper, 11 R346, R347. -/
structure Shaper where
  /-- 32; 11 R358 RATE in force; reset 0 -/
  rate : Nat := 0
  /-- 24; 11 R358 BURST in force; reset 0 -/
  burst : Nat := 0
  /-- 1; 11 R358 EN in force; reset 0 -/
  en : Bool := false
  /-- bytes x 256; 11 R346; tokens with their fraction; reset 0 -/
  tokens : Int := 0
  /-- 57; 11 R347; settings written, not yet adopted; reset none -/
  written : Option (BitVec 64) := none
deriving DecidableEq, Repr

/-- EG_METER_s and its buckets, 11 R339 to R342. -/
structure Meter where
  /-- 32; 11 R358 CIR; reset 0 -/
  cir : Nat := 0
  /-- 32; 11 R358 PIR; reset 0 -/
  pir : Nat := 0
  /-- 24; 11 R358 CBS; reset 0 -/
  cbs : Nat := 0
  /-- 24; 11 R358 PBS; reset 0 -/
  pbs : Nat := 0
  /-- 1; 11 R358 MODE; reset 0 -/
  mode : Bool := false
  /-- 1; 11 R358 AWARE; reset 0 -/
  aware : Bool := false
  /-- 1; 11 R358 EN; reset 0 -/
  en : Bool := false
  /-- bytes x 256; 11 R340; committed bucket; reset 0 -/
  ctok : Nat := 0
  /-- bytes x 256; 11 R340; peak or excess bucket; reset 0 -/
  ptok : Nat := 0
  /-- 128; 11 R342; the register as last written; reset 0 -/
  w0 : BitVec 64 := 0
  w1 : BitVec 64 := 0
  /-- 1; 11 R342; a write waits for the next tick; reset 0 -/
  dirty : Bool := false
deriving DecidableEq, Repr

/-- Gate block of a port, 11 R348 to R351, R358. -/
structure Gcl where
  /-- 1; 11 R358 GATE_EN; reset 0 -/
  en : Bool := false
  /-- 1; 11 R358 PENDING; reset 0 -/
  pending : Bool := false
  /-- 1; 11 R358 CFG_ERR; reset 0 -/
  cfgErr : Bool := false
  /-- 6; 11 R358 DEFAULT; reset 0x3F -/
  deflt : Nat := 0x3F
  /-- 9; 11 R358 ADMIN_LEN; reset 1 -/
  adminLen : Nat := 1
  /-- 9; 11 R358 OPER_LEN; reset 0 -/
  operLen : Nat := 0
  /-- 8; 11 R358 ENTRY; reset 0 -/
  entry : Nat := 0
  /-- 6; 11 R358 GATES; reset 0x3F -/
  gates : Nat := 0x3F
  /-- 48; 11 R358 GCL_ADMIN_SEC; reset 0 -/
  adminSec : Nat := 0
  /-- 30; 11 R358 BASE_NS; reset 0 -/
  adminNs : Nat := 0
  /-- 30; 11 R358 CYCLE_NS; reset 1,000,000 -/
  adminCycle : Nat := 1000000
  /-- 1; 11 R351; a reserved field of GCL_ADMIN_SEC (bit 0) or GCL_ADMIN_TIME (bit 1) was last written nonzero; reset 0 -/
  adminRsv : Nat := 0
  /-- 78; 11 R358 GCL_CHANGE_SEC, GCL_CHANGE_NS: T in ns; reset 0 -/
  changeT : Nat := 0
  /-- 78; 11 R358 GCL_OPER_SEC, BASE_NS: OPER_BASE in ns; reset 0 -/
  operBase : Nat := 0
  /-- 30; 11 R358 OPER_CYCLE; reset 0 -/
  operCycle : Nat := 0
  /-- 256x64; 11 R358 GCL_ADMIN_e; reset 0 -/
  admin : Tbl (BitVec 64) := []
  /-- 256x64; 11 R351; pending list; reset 0 -/
  next : Tbl (BitVec 64) := []
  /-- 9, 30; 11 R351; pending length and cycle; reset 0 -/
  nextLen : Nat := 0
  nextCycle : Nat := 0
  /-- 256x64; 11 R358 GCL_OPER_e; reset 0 -/
  oper : Tbl (BitVec 64) := []
deriving DecidableEq, Repr

/-- A bypass frame, 11 R338: kind 0 acknowledge, 1 multipath acknowledge with bitmap, 2 NAK sequence error, 3 NAK invalid request,
4 NAK remote access error, 5 Delay_Req; its PSN and the echoed time or the received bitmap. -/
structure Bypass where
  kind : Nat := 0
  qp : Nat := 0
  psn : Nat := 0
  ts : Nat := 0
  path : Nat := 0
  bitmap : Nat := 0
deriving DecidableEq, Repr

/-- The egress scheduler, 11. -/
structure Eg where
  /-- 15; 11 R358 YELLOW_LIMIT; reset 12,288 -/
  yellowLimit : Nat := 12288
  /-- 2x64; 11 R358 EG_DSCP_COLORn; reset 0 -/
  dscp : Tbl (BitVec 64) := []
  /-- 6x3; 11 R358 PRIO; reset 6, 3, 3, 7, 1, 5 (key v holds PRIO + 1; absent: the reset value) -/
  prio : Tbl Nat := []
  /-- 6x16; 11 R358 EG_SVC_v.QUANTUM; reset 128 -/
  svcQuantum : Tbl Nat := []
  /-- 8x8; 11 R358 EG_SSH_p_v; key 8p+v; reset 0 -/
  ssh : Tbl Shaper := []
  /-- 256; 11 R358 EG_SUB_s; reset 0 -/
  subSh : Tbl Shaper := []
  /-- 256x16; 11 R358 EG_SUB_s.QUANTUM; reset 128 -/
  subQuantum : Tbl Nat := []
  /-- 256; 11 R358 EG_METER_s; reset 0 -/
  meters : Tbl Meter := []
  /-- 16,384; 11 R358 EG_QPBULK; reset 0 -/
  bulk : Tbl Bool := []
  /-- bytes x 64; 11 R345; deficits of service v on port p (key 8p+v) and of subscriber s in queue q; reset 0 -/
  svcDeficit : Tbl Nat := []
  subDeficit : Tbl Nat := []
  /-- round; 11 R345; member reached last among the services of PRIO n of port p (key 8p+n), and in service v of port p (key 8p+v), +1; reset 0 -/
  svcTurn : Tbl Nat := []
  subTurn : Tbl Nat := []
  /-- ns; 11 R350; service v of port p (key 8p+v) waits for its gate to open after this closing time; reset none -/
  shut : Tbl Nat := []
  /-- queue pair; 11 R343; queue pair that took the last turn in a queue, +1; reset 0 -/
  qpTurn : Tbl Nat := []
  /-- queues; 11 R343; frames of queue 2,048p+8s+v, oldest first; reset empty -/
  queues : Tbl (List Frame) := []
  /-- queues; 11 R338; bypass frames of port p, oldest first; reset empty -/
  bypass : Tbl (List Bypass) := []
  /-- 5; 11 R358 DEPTH_SHIFT; reset 8 -/
  depthShift : Nat := 8
  /-- 5; 11 R358 DELAY_SHIFT; reset 6 -/
  delayShift : Nat := 6
  /-- 16; 11 R358 EG_HIST_CONTROL.INTERVAL; reset 1 -/
  histInterval : Nat := 1
  /-- 32x32; 11 R356; bins 1 to 15 of queue q: key 32q+i, i < 16 depth, else delay, counted in full (a read saturates); reset 0 -/
  bins : Tbl Nat := []
  /-- count; 11 R356; samples taken, and for each queue those taken before its last clear: its bins 0 hold the samples left; reset 0 -/
  samples : Nat := 0
  cleared : Tbl Nat := []
  /-- ticks; 11 R335, R340, R346, R356; ticks that the meters and the shapers have run, and the tick of the next sample; reset 0 -/
  meterTicks : Nat := 0
  shaperTicks : Nat := 0
  histNext : Nat := 0
  /-- 32x32; 11 R358 EG_HIST_DATA; reset 0 -/
  histData : Tbl Nat := []
  /-- 1; 11 R358 DONE; reset 0 -/
  histDone : Bool := false
  /-- 1; 11 R358 SAT; reset 0 -/
  histSat : Bool := false
  /-- 8 ports; 11 R358; gate blocks; reset as Gcl -/
  gcl : Tbl Gcl := []
deriving DecidableEq, Repr

/-- An Announce's data set of a possible parent, 11 R353. -/
structure Foreign where
  prio1 : Nat := 0
  cls : Nat := 0
  accuracy : Nat := 0
  variance : Nat := 0
  prio2 : Nat := 0
  gmId : BitVec 64 := 0
  steps : Nat := 0
  clockId : BitVec 64 := 0
  portNum : Nat := 0
  /-- cycles of its last Announce and of the one before -/
  since : Nat := 0
  before : Option Nat := none
  /-- Announce interval it states, log2 s + 128 -/
  logInt : Nat := 0
deriving DecidableEq, Repr

/-- The time unit, 11 R353 to R355, R358. -/
structure Ptp where
  /-- 1; 11 R358 EN; reset 0 -/
  en : Bool := false
  /-- 2; 11 R358 TRANSPORT; reset 1 -/
  transport : Nat := 1
  /-- 3; 11 R358 PORT; reset 0 -/
  port : Nat := 0
  /-- 8; 11 R358 DOMAIN; reset 0 -/
  domain : Nat := 0
  /-- 24; 11 R358 STEP_NS; reset 1,000 -/
  stepNs : Nat := 1000
  /-- 8; 11 R358 KP; reset 64 -/
  kp : Nat := 64
  /-- 8; 11 R358 KI; reset 16 -/
  ki : Nat := 16
  /-- 8; 11 R358 SYNC_TIMEOUT; reset 50 -/
  syncTimeout : Nat := 50
  /-- 3; 11 R358 STATE; reset 0 -/
  state : PtpState := .disabled
  /-- 8; 11 R358 STEPS; reset 0 -/
  steps : Nat := 0
  /-- 16; 11 R358 PARENT_PORT; reset 0 -/
  parentPort : Nat := 0
  /-- 64; 11 R358 CLOCK_ID; reset 0 -/
  clockId : BitVec 64 := 0
  /-- 1; a parent is selected; reset 0 -/
  parent : Bool := false
  /-- list; 11 R353; data sets of the Announces received; reset empty -/
  foreign : List Foreign := []
  /-- 30; 11 R358 PTP_TIME_NS; reset 0 -/
  latchedNs : Nat := 0
  /-- time; 11 R353; network time in units of 1/(21 x 256 x 10^9) ns; reset 0 -/
  time : Nat := 0
  /-- 32; 11 R358 OFFSET; last o; reset 0 -/
  offset : Int := 0
  /-- 24; 11 R358 MPD; reset 0 -/
  mpd : Int := 0
  /-- 1; 11 R354; a first path delay sample was taken; reset 0 -/
  mpdSet : Bool := false
  /-- 32; 11 R358 ADJ; in 1/256 ppb; reset 0 -/
  adj : Int := 0
  /-- 11 R354 integ, in 1/256 ppb; reset 0 -/
  integ : Int := 0
  /-- count; 11 R355; consecutive Syncs with abs(o) < 100; reset 0 -/
  good : Nat := 0
  /-- 16; 11 R358 RX_NS; reset 0 -/
  rxNs : Nat := 0
  /-- 16; 11 R358 TX_NS; reset 0 -/
  txNs : Nat := 0
  /-- cycle; 11 R355; last Sync; reset 0 -/
  lastSync : Nat := 0
  /-- 11 R353; two-step Sync that waits for its Follow_Up: ingress time, correction, sequence ID; reset none -/
  twoStep : Option (Int × Int × Nat) := none
  /-- 11 R354; corrected sending time and ingress time of the last Sync, once known; reset none -/
  pair : Option (Int × Int) := none
  /-- 11 R354; egress time and sequence ID of the Delay_Req sent for it; reset none -/
  delayReq : Option (Int × Nat) := none
  /-- 11 R354; corrected receipt time of that Delay_Req, when the Delay_Resp came before the Follow_Up; reset none -/
  receipt : Option Int := none
  /-- 16; 11 R354; next Delay_Req sequence ID; reset 0 -/
  nextReq : Nat := 0
deriving DecidableEq, Repr

/-- CO_SLOT_i, 12 R382, R391. -/
structure KSlot where
  /-- 2; 12 R391 STATE; reset 0 EMPTY -/
  state : SlotState := .empty
  /-- 1; 12 R391, R383 STALE; reset 0 -/
  stale : Bool := false
  /-- 8; 12 R391 FUNCTION; reset 0 -/
  function : Nat := 0
  /-- 16; 12 R391 KEYGEN; reset 0 -/
  keygen : Nat := 0
  /-- 32; 12 R391 AUTH_SESSION; reset 0 -/
  auth : Nat := 0
  /-- 256; 12 R369; weight key in the key store; reset 0 (no key) -/
  key : BitVec 256 := 0
deriving DecidableEq, Repr

/-- CO_CTX_c, 12 R374, R391. -/
structure CoCtx where
  /-- 4; 12 R391 SEAL_LOC; reset 0 -/
  sealLoc : Nat := 0
  /-- 52; 12 R391 SEAL_BASE; reset 0 -/
  sealBase : Nat := 0
  /-- 16; 12 R391 KEYGEN; reset 0 -/
  keygen : Nat := 0
  /-- 1; 12 R391 KEY_VALID; reset 0 -/
  keyValid : Bool := false
  /-- 1; 12 R391 EXPORTED; reset 0 -/
  exported : Bool := false
  /-- 32; 12 R391 AUTH_SESSION; reset 0 -/
  auth : Nat := 0
  /-- 256; 12 R369; context key in the key store; reset 0 (no key) -/
  key : BitVec 256 := 0
  /-- count; 12 R375 OSEQ; reset 0 -/
  oseq : Nat := 0
deriving DecidableEq, Repr

/-- An SPDM session, 12 R378. -/
structure Session where
  /-- 1; open; reset 0 -/
  live : Bool := false
  /-- cycle; 12 R378; last message, for the heartbeat; reset 0 -/
  since : Nat := 0
  /-- transport; 12 R378; it was opened on: 0 SMBus, 1 I3C, 2 PCIe, 3 the Colophon mailbox; reset 0 -/
  transport : Nat := 0
  /-- 256; 12 R369 SPDM session keys: of requests and of responses; reset 0 -/
  reqKey : BitVec 256 := 0
  rspKey : BitVec 256 := 0
  /-- 1; DSP0274 (log 10); FINISH has come and the session is established; reset 0 -/
  finished : Bool := false
  /-- count; DSP0277 (log 10); secured messages sent; reset 0 -/
  sent : Nat := 0
deriving DecidableEq, Repr

/-- What the Colophon holds for one SPDM connection, 12 R378 CHUNK (DSP0274, log 10). -/
structure SpdmConn where
  /-- DataTransferSize of the requester, 0 until GET_CAPABILITIES has told it; reset 0 -/
  peerSize : Nat := 0
  /-- request coming in chunks: handle, next number, length (0: none), bytes so far; reset none -/
  inHandle : Nat := 0
  inNext : Nat := 0
  inTotal : Nat := 0
  inData : List (BitVec 8) := []
  /-- response going out in chunks: handle, next number, bytes not sent yet; reset none -/
  outHandle : Nat := 0
  outNext : Nat := 0
  outData : List (BitVec 8) := []
  /-- session in which each of the two goes, 0: none; reset 0 -/
  inSession : Nat := 0
  outSession : Nat := 0
deriving DecidableEq, Repr

/-- The Colophon, 12. -/
structure Sec where
  /-- 3; 12 R391 CO_STATUS.STATE; reset 0 -/
  state : CoState := .reset
  /-- 1; 12 R391 IDENTITY_OK; reset 0 -/
  identityOk : Bool := false
  /-- 1; 12 R391 CONFIG_OK; reset 0 -/
  configOk : Bool := false
  /-- 1; 12 R391 ENTROPY_OK; reset 0 -/
  entropyOk : Bool := false
  /-- 1; 12 R391 IDE; reset 0 -/
  ide : Bool := false
  /-- 256; 12 R369; upstream Link IDE keys, by stream and sub-stream; reset 0 (no key) -/
  ideKeys : Tbl (BitVec 256) := []
  /-- 2; 12 R391, R384 DEBUG; reset 0 -/
  debug : Nat := 0
  /-- 1; 12 R384; an interface-version message was accepted since the last reset of level 5 or 6; reset 0 -/
  helloSeen : Bool := false
  /-- 8 sessions; 12 R378; key: session ID; reset none open -/
  sessions : Tbl Session := []
  /-- 16; 12 R391 ACTIVATIONS; reset 0 -/
  activations : Nat := 0
  /-- 1; 12 R391 CO_MBOX_STATUS.DONE; reset 0 -/
  mboxDone : Bool := false
  /-- 17; 12 R391 RSP_LEN; reset 0 -/
  rspLen : Nat := 0
  /-- 16; 12 R391 CO_CMD_STATUS.STATUS; reset 0 -/
  cmdStatus : BitVec 16 := 0
  /-- 384; 12 R384, R391 CO_DEBUG_NONCE; drawn at each reset of level 5 or 6; reset DESIGN CHOICE 0 (log 9) until drawn -/
  nonce : BitVec 384 := 0
  /-- 256; 12 R391; weight key slots; reset EMPTY -/
  slots : Tbl KSlot := []
  /-- 1,024; 12 R391; CO_CTX_c; reset 0 -/
  ctxs : Tbl CoCtx := []
  /-- 384; 12 R369; session secret S; drawn at each reset of level 5 or 6; reset DESIGN CHOICE 0 (log 9) until drawn -/
  secret : BitVec 384 := 0
  /-- count; 12 R368; DRBG requests since the last (re)seed; reset 0 -/
  drbg : Nat := 0
  /-- 256 and 128; 12 R368 (SP 800-90A); working state of the CTR_DRBG, Key and V; reset DESIGN CHOICE 0 (log 9) until seeded -/
  drbgKey : BitVec 256 := 0
  drbgV : BitVec 128 := 0
  /-- 12 R359, R361, R369; the DeviceID private keys in the key store, RSA-3072 and SLH-DSA-SHA2-192s; reset none until unwrapped -/
  rsaKey : List (BitVec 8) := []
  slhKey : List (BitVec 8) := []
  /-- per transport; 12 R378; SPDM connections; reset none -/
  conns : Tbl SpdmConn := []
  /-- 7x384; 12 R365; measurement blocks 1 to 6; reset 0 (48 zero bytes) -/
  meas : Tbl (BitVec 384) := []
  /-- 3; 12 R366 SP_RESTARTING; reset 0 -/
  spRestarting : Tbl Bool := []
  /-- 16; 12 R366 SP_RESTARTS; reset 0 -/
  spRestarts : Nat := 0
  /-- per connection; 12 R379; signed message M of the last signed response; reset none -/
  lastM : Tbl (List (BitVec 8)) := []
  /-- 64 KiB; 12 R391 CO_REQ; reset DESIGN CHOICE 0 (log 9) -/
  req : Tbl (BitVec 8) := []
  /-- 64 KiB; 12 R391 CO_RSP; reset DESIGN CHOICE 0 (log 9) -/
  rsp : Tbl (BitVec 8) := []
  /-- 384; 12 R362 DEVICE_ID of the configuration record; reset DESIGN CHOICE 0 (log 9) -/
  deviceId : BitVec 384 := 0
  /-- 1; 14 R436; the ROM failed to start the Colophon firmware (12 R364); reset 0 -/
  fwFailed : Bool := false
  /-- 1; 12 R368, 14 R432; an entropy health test failed at seeding (HOLD 3); reset 0 -/
  seedFailed : Bool := false
deriving DecidableEq, Repr

/-- An MSI-X table entry, 13 R398, 16 R484. -/
structure Msix where
  /-- 64; message address; reset 0 -/
  addr : BitVec 64 := 0
  /-- 32; message data; reset 0 -/
  data : BitVec 32 := 0
  /-- 1; vector control mask, inverted; reset PRESUMED masked (PCIe 6.0, log 14) -/
  unmasked : Bool := false
  /-- 1; pending bit; reset 0 -/
  pending : Bool := false
deriving DecidableEq, Repr

/-- A function: 13 R394, R421, R422, 16 R484, R485. -/
structure Fn where
  /-- 1; 13 R394 ENABLED; reset 1 for f = 0, else 0 -/
  enabled : Bool := false
  /-- 1; 13 R394 ORPHANED; reset 0 -/
  orphaned : Bool := false
  /-- 1; 13 R394 CFG_ERR; reset 0 -/
  cfgErr : Bool := false
  /-- 8; 13 R394 MAX_SLOTS; reset 0 -/
  maxSlots : Nat := 0
  /-- 16; 13 R394 HB_MS; reset 0 -/
  hbMs : Nat := 0
  /-- 16; 13 R394 HOLD_S; reset 30 -/
  holdS : Nat := 30
  /-- 14; 13 R394 VEC_BASE; reset 0 -/
  vecBase : Nat := 0
  /-- 12; 13 R394 VEC_COUNT; reset 2,048 for f = 0, else 0 -/
  vecCount : Nat := 0
  /-- 11; 13 R394 ERR_VECTOR; reset 0 -/
  errVector : Nat := 0
  /-- 32; 13 R394 BEATS; reset 0 -/
  beats : Nat := 0
  /-- 1; 13 R400; AGE_MS has reached HB_MS since the last beat (model's own); reset 0 -/
  silent : Bool := false
  /-- cycle; 13 R394 AGE_MS counts from it: last beat or reset; reset 0 -/
  beatAt : Nat := 0
  /-- 64x64; 03 R78, 16 R485 SIG_i; reset 0 -/
  sig : Tbl Nat := []
  /-- 64; 16 R485 SIG_OVF; reset 0 -/
  sigOvf : Tbl Bool := []
  /-- 64x64; 13 R422 counters; reset 0 -/
  cnt : Tbl Nat := []
  /-- 64; 13 R422 overflow bits; reset 0 -/
  cntOvf : Tbl Bool := []
  /-- 2,048; 16 R484; MSI-X table; reset PRESUMED masked, 0 (log 14) -/
  msix : Tbl Msix := []
  /-- 1; 13 R398; MSI-X Enable; reset PRESUMED 0 (PCIe 6.0, log 14) -/
  msixEn : Bool := false
  /-- 1; 13 R398; function mask; reset PRESUMED 0 (log 14) -/
  fnMask : Bool := false
  /-- 64; 16 R475, R478; addresses in BAR0/1 (function 0), BAR2/3 and BAR4/5 (function 0 and link-1 functions); reset PRESUMED 0 (PCIe 6.0, log 144) -/
  bar0 : Nat := 0
  bar2 : Nat := 0
  bar4 : Nat := 0
  /-- 1; 16 R478; Memory Space Enable of the function; reset PRESUMED 0 (PCIe 6.0, log 144) -/
  memEn : Bool := false
deriving DecidableEq, Repr

/-- VM_v, 13 R399. -/
structure Vm where
  /-- 16; 13 R399 HOLDOFF_US; reset 0 -/
  holdoff : Nat := 0
  /-- 8; 13 R399 COUNT; reset 1 -/
  count : Nat := 1
  /-- 16; 13 R399 PENDING; reset 0 -/
  pending : Nat := 0
  /-- cycle; 13 R399; first pending request; reset 0 -/
  first : Nat := 0
  /-- us; 13 R399; smallest effective holdoff among them; reset 0 -/
  least : Nat := 0
deriving DecidableEq, Repr

/-- An error record, 13 R417. -/
structure ErrRec where
  seq : Nat := 0
  cls : Nat := 0
  source : Nat := 0
  code : Nat := 0
  fn : Option Nat := none
  ctx : Option Nat := none
  status : BitVec 16 := 0
  tag : BitVec 16 := 0
  object : Nat := 0
  detail : Nat := 0
  cycle : Nat := 0
  ext : Nat := 0
deriving DecidableEq, Repr

/-- AER capability of a function: what the device's own errors reach of it, 13 R416, R420 (PRESUMED PCIe 6.0: log 143). -/
structure Aer where
  /-- 32; Uncorrectable Error Status: Poisoned TLP bit 12, Completion Timeout bit 14, Uncorrectable Internal Error bit 22; reset PRESUMED 0 -/
  unc : BitVec 32 := 0
  /-- 32; Uncorrectable Error Severity, a bit 1 fatal; reset PRESUMED 0x0046_2030 -/
  sev : BitVec 32 := 0x00462030
  /-- 32; Correctable Error Status: Corrected Internal Error bit 14; reset PRESUMED 0 -/
  cor : BitVec 32 := 0
deriving DecidableEq, Repr

/-- Errors and device counters, 13 R418 to R424. -/
structure Err where
  /-- 32; 13 R424 ERR_HEAD; reset 0 -/
  head : Nat := 0
  /-- 32; 13 R424 ERR_TAIL; reset 0 -/
  tail : Nat := 0
  /-- 1,024; 13 R418; record ring, key SEQ mod 1,024; reset empty -/
  ring : Tbl ErrRec := []
  /-- 1; 13 R424 ERR_STATUS.CORRECTED; reset 0 -/
  corrected : Bool := false
  /-- 1; 13 R424 NOTICE; reset 0 -/
  notice : Bool := false
  /-- 1; 13 R424 CONTAINED; reset 0 -/
  contained : Bool := false
  /-- 1; 13 R424 FATAL; reset 0 -/
  fatal : Bool := false
  /-- 1; 13 R424 LOST; reset 0 -/
  lost : Bool := false
  /-- per source; 13 R418; cycle of the last corrected-error record, +1; reset none -/
  lastCorrected : Tbl Nat := []
  /-- 64x64; 13 R423; device counters; reset 0 -/
  cnt : Tbl Nat := []
  /-- 64; 13 R423; overflow bits; reset 0 -/
  ovf : Tbl Bool := []
  /-- per function; 13 R416, R420; AER capability; reset as Aer -/
  aer : Tbl Aer := []
deriving DecidableEq, Repr

/-- FW_SP_n, 14 R446. -/
structure Sp where
  /-- 2; 14 R446 STATE; reset 0 STOPPED -/
  state : SpState := .stopped
  /-- 16; 14 R446 WD_MS; reset 1,000 -/
  wdMs : Nat := 1000
  /-- 32; 14 R446 RESTARTS; reset 0 -/
  restarts : Nat := 0
  /-- cycle; 14 R426; watchdog count restarted; reset 0 -/
  kickAt : Nat := 0
  /-- 1; 14 R427 step 2; its active image has been verified since the restart began; reset 0 -/
  verified : Bool := false
  /-- 1; 14 R436; a FW_ACTIVATE began this restart; reset 0 -/
  activation : Bool := false
deriving DecidableEq, Repr

/-- A firmware image in the boot flash, 14 R434, R435. -/
structure Image where
  /-- 1; 14 R434 ACTIVE_BANK; what the flash holds at reset is the board's: DESIGN CHOICE 0 (log 9) -/
  activeB : Bool := false
  /-- 1; 14 R434 STAGED; DESIGN CHOICE 0 (log 9) -/
  staged : Bool := false
  /-- 32; 14 R435 VERSION of the image that runs; reset 0 -/
  version : Nat := 0
  /-- bytes; 14 R434; what FW_STAGE has written to bank A, in sectors that it erased (0xFF not listed); reset none -/
  bankA : Tbl (BitVec 8) := []
  /-- bytes; 14 R434; the same of bank B -/
  bankB : Tbl (BitVec 8) := []
  /-- 1,024; 14 R436; 4 KiB sectors of each bank that FW_STAGE has erased: the others hold what they held before the first start; reset none -/
  erasedA : Tbl Bool := []
  erasedB : Tbl Bool := []
  /-- 384, 32; 14 R434, R435; digest and VERSION of what each bank was found to hold, for a bank that FW_STAGE has not written; reset DESIGN CHOICE 0
  (log 9) -/
  foundA : BitVec 384 := 0
  verA : Nat := 0
  foundB : BitVec 384 := 0
  verB : Nat := 0
deriving DecidableEq, Repr

/-- A log ring entry, 14 R441. -/
structure LogEntry where
  seq : Nat := 0
  kind : Nat := 0
  point : Nat := 0
  cycle : Nat := 0
  /-- the point's data -/
  data : List Nat := []
  /-- the error record of a KIND 0x01 entry -/
  record : Option ErrRec := none
deriving DecidableEq, Repr

/-- Firmware, logs and the mailbox, 14. -/
structure Fw where
  /-- 3; 14 R446 FW_SP_n; reset STOPPED -/
  sps : Tbl Sp := []
  /-- 1; 14 R446 DONE; reset 0 -/
  mboxDone : Bool := false
  /-- 1; 14 R446 BUSY; reset 0 -/
  mboxBusy : Bool := false
  /-- 1; 14 R446 HELD; reset 0 -/
  mboxHeld : Bool := false
  /-- 17; 14 R446 RSP_LEN; reset 0 -/
  rspLen : Nat := 0
  /-- cycle; 14 R433; GO of the request in progress; reset 0 -/
  goAt : Nat := 0
  /-- bytes; 14 R429; the request in progress or held; reset empty -/
  request : List (BitVec 8) := []
  /-- 64 KiB; 14 R446 FW_REQ; reset DESIGN CHOICE 0 (log 9) -/
  req : Tbl (BitVec 8) := []
  /-- 64 KiB; 14 R446 FW_RSP; reset DESIGN CHOICE 0 (log 9) -/
  rsp : Tbl (BitVec 8) := []
  /-- 4 images; 14 R434, R435 -/
  images : Tbl Image := []
  /-- 9; 14 R436; image being staged, +1; reset none -/
  staging : Nat := 0
  /-- 23; 14 R436; end of what has been staged since the chunk at offset 0, and whether the chunk that ends there was shorter than whole sectors; reset 0 -/
  stageTop : Nat := 0
  stageShort : Bool := false
  /-- 2,048; 14 R441; log ring; reset empty -/
  log : Tbl LogEntry := []
  /-- 32; 14 R446 LOG_STATUS.TAIL; reset 0 -/
  logTail : Nat := 0
  /-- 32; 14 R446 LOG_LOST; reset 0 -/
  logLost : Nat := 0
  /-- 64; 14 R446 LOG_TRACE_MASK; reset 0 -/
  traceMask : BitVec 64 := 0
  /-- 1,024; 14 R428; trace FIFO, oldest first; reset empty -/
  traceFifo : List LogEntry := []
  /-- 32; 14 R425; SEQ of the next error record to copy to the log; reset 0 -/
  copied : Nat := 0
  /-- 3x8; 14 R443; MCTP endpoint ID of each binding; reset 0 -/
  eids : Tbl Nat := []
deriving DecidableEq, Repr

/-- Power, clocks and thermal state, 15. -/
structure Pwr where
  /-- 2; 15 R474 REQUEST; reset 0 -/
  request : Nat := 0
  /-- 1; 15 R474 AUTO_IDLE; reset 1 -/
  autoIdle : Bool := true
  /-- 16; 15 R474 IDLE_US; reset 100 -/
  idleUs : Nat := 100
  /-- 2; 15 R474 POINT (0 to 2: the point, whatever P3 does); reset 0 -/
  point : Nat := 0
  /-- 1; 15 R457; in P3; reset 0 -/
  idle : Bool := false
  /-- 2; 15 R474 CEILING; reset 0 -/
  ceiling : Nat := 0
  /-- 1; 15 R474 TRIPPED; reset 0 -/
  tripped : Bool := false
  /-- 1; 15 R474 CHANGE_FAIL; reset 0 -/
  changeFail : Bool := false
  /-- 1; 15 R474 AVS_OK; reset 0 -/
  avsOk : Bool := false
  /-- 32; 15 R474 TRANSITIONS; reset 0 -/
  transitions : Nat := 0
  /-- cycles; 15 R474 PM_PAUSE: PAUSE is this ÷ 1,024, saturating; reset 0 -/
  pauseCycles : Nat := 0
  /-- 12; 15 R474 POWER_W; reset 0 -/
  powerW : Nat := 0
  /-- 8; 15 R474 DIE_C; reset 0 -/
  dieC : Int := 0
  /-- 8; 15 R474 HBM_C; reset 0 -/
  hbmC : Int := 0
  /-- 8; 14 R445; last sample of each stack -/
  stackC : Tbl Int := []
  /-- 8; 15 R474 THROTTLE_C; reset 102 -/
  throttleC : Nat := 102
  /-- 8; 15 R474 RELEASE_C; reset 95 -/
  releaseC : Nat := 95
  /-- 8; 15 R474 HBM_THROTTLE_C; reset 90 -/
  hbmThrottleC : Nat := 90
  /-- 16; 15 R474 DS_EN; reset 0xFFFF (LG-4080 0) -/
  dsEn : BitVec 16 := 0xFFFF
  /-- 1; 15 R474 SSC; reset 0 -/
  ssc : Bool := false
  /-- count; 15 R471; consecutive hot samples; reset 0 -/
  hot : Nat := 0
  /-- count; 15 R471; consecutive cool samples; reset 0 -/
  cool : Nat := 0
  /-- count; 15 R471; samples until the hot test begins again; reset 0 -/
  wait : Nat := 0
  /-- point, cycle; 15 R456; faster change whose voltage is not yet reported in regulation; reset none -/
  rising : Option (Nat × Nat) := none
  /-- mV; 15 R448; voltage last commanded; reset 800 -/
  mv : Nat := 800
  /-- mV; 15 R456; voltage before the faster change that is in progress, which a reversal commands again; reset 800 -/
  backMv : Nat := 800
  /-- uW; 15 R470; the last sample of package power; reset 0 -/
  lastPower : Nat := 0
  /-- uW, count, degrees C; 08 R261; sum and number of the millisecond samples of power in the present governor interval, and the peak of its die
  temperatures; reset none -/
  powerSum : Nat := 0
  powerCount : Nat := 0
  diePeak : Option Int := none
  /-- 7 sensors; 14 R445; sensors 11 to 17 at the last millisecond sample, by sensor ID; reset 0 -/
  sensed : Tbl Nat := []
  /-- cycle; 15 R457; end of the wake that a write of AUTO_IDLE = 0 began; reset 0 -/
  wakeAt : Nat := 0
  /-- cycle; 15 R457; since when no Quire has been held and AUTO_IDLE was written; reset 0 -/
  idleFrom : Nat := 0
deriving DecidableEq, Repr

/-- Identity, availability, start-up and pins: 15, 16 R482. -/
structure Dev where
  /-- the part; 00 R3; fixed by the package: DESIGN CHOICE LG-8160 (log 4) -/
  variant : Variant := .lg8160
  /-- 8; 15 R464; package variant straps: 0x81 on the LG-8160, 0x42 on the LG-4080; fixed by the package: DESIGN CHOICE 0x81 (log 4) -/
  package : Nat := 0x81
  /-- 12 R361, R362, 14 R434; helper data, wrapped DeviceID keys, certificate chains, configuration record and its signatures in the boot flash;
  reset DESIGN CHOICE empty until a start reads it (log 9) -/
  flash : BootFlash := {}
  /-- 1; 15 R460; RESET_N is asserted and everything is stopped; reset DESIGN CHOICE 1 (log 5) -/
  held : Bool := true
  /-- 1; 15 R451; brown-out; reset 0 -/
  brownOut : Bool := false
  /-- 1; 15 R451 FAULT_N, asserted; reset 0 -/
  faultN : Bool := false
  /-- 1; 15 R472 THERMTRIP_N, asserted; reset 0 -/
  thermTripN : Bool := false
  /-- 1; 15 R466 PTP_PPS; reset 0 -/
  pps : Bool := false
  /-- 1; 15 R463, 16 R482 BIF; strap; reset DESIGN CHOICE 0 until latched (log 5) -/
  bifPin : Bool := false
  /-- 2; 15 R463 CLKMODE; reset DESIGN CHOICE 0 until latched (log 5) -/
  clkMode : Nat := 0
  /-- 3; 15 R463 STRAP_SMB; reset DESIGN CHOICE 0 until latched (log 5) -/
  smb : Nat := 0
  /-- 1; 15 R463 STRAP_I3C; reset DESIGN CHOICE 0 until latched (log 5) -/
  i3c : Bool := false
  /-- 1; 16 R482 DEVICE_STATE OPERATIONAL; reset 0 -/
  operational : Bool := false
  /-- 8; 16 R482 IFACE_MINOR; reset 0 -/
  minor : Nat := 0
  /-- 3; 16 R482 LAST_RESET; reset 6 -/
  lastReset : Nat := 6
  /-- 16; 16 R482 WARM_RESETS; reset 0 -/
  warmResets : Nat := 0
  /-- 8; 16 R482 LINK1_FIRST; reset 128 -/
  link1First : Nat := 128
  /-- 64; 16 R482 SERIAL of the record; reset DESIGN CHOICE 0 until the record is read (log 9) -/
  serial : BitVec 64 := 0
  /-- 1; 13 R392 VF Enable; reset PRESUMED 0 (PCIe 6.0, log 14) -/
  vfEnable : Bool := false
  /-- 8; 13 R392 NumVFs; reset PRESUMED 0 (log 14) -/
  numVfs : Nat := 0
  /-- 64; 16 R475, R478; VF BAR2 and VF BAR4 of the SR-IOV capability; reset PRESUMED 0 (PCIe 6.0, log 144) -/
  vfBar2 : Nat := 0
  vfBar4 : Nat := 0
  /-- 1; 16 R478; VF Memory Space Enable of the SR-IOV capability; reset PRESUMED 0 (PCIe 6.0, log 144) -/
  vfMem : Bool := false
  /-- 1; 15 R460; PERST_N of link 0 and 1, asserted; reset 1 -/
  perst0 : Bool := true
  perst1 : Bool := true
  /-- 1; 15 R458, R460; link 0 and 1 is in DL_Active; reset 0 -/
  dl0 : Bool := false
  dl1 : Bool := false
  /-- 1; 15 R460; link 0 and 1 has reached DL_Active since the last reset of level 5 or 6; reset 0 -/
  linked0 : Bool := false
  linked1 : Bool := false
  /-- 1; 15 R458; a start runs, and it is a warm one -/
  starting : Bool := false
  warm : Bool := false
  /-- 1; 12 R404; a warm device reset has been triggered and drains -/
  draining : Bool := false
  /-- 1; 15 R458 step 3; the Colophon ROM has ended its checks; reset 0 -/
  romDone : Bool := false
  /-- 1; 15 R458 step 4; reset 0 -/
  hbmDone : Bool := false
  /-- 1; 15 R458 step 5; T0 zeroing has ended; reset 0 -/
  zeroed : Bool := false
  /-- 4; 15 R458 step 6; image i read; reset 0 -/
  imageRead : Tbl Bool := []
  /-- 1; 15 R458 step 10; reset 0 -/
  cfgReady : Bool := false
  /-- 1; 15 R458 step 11; the mailbox is served; reset 0 -/
  served : Bool := false
  /-- 256; 16 R482 AVAIL_FOLIO, set: marked unavailable; reset none -/
  folioDown : Tbl Bool := []
  /-- 8; 16 R482 ETH_LANE; reset none -/
  laneDown : Tbl Bool := []
  /-- 8; 16 R482 PRESS; reset none -/
  pressDown : Tbl Bool := []
  /-- 16; 16 R482 AWL; reset none -/
  awlDown : Tbl Bool := []
  /-- 16; 16 R482 QUIRE; reset none -/
  quireDown : Tbl Bool := []
  /-- 9; 16 R482 AVAIL_ENGINE; reset none -/
  engineDown : Tbl Bool := []
  /-- 512; 16 R482 AVAIL_HBM: 64 x stack + pseudo-channel; reset none -/
  pchDown : Tbl Bool := []
  /-- list; 04 R116; pseudo-channels left out of the interleave at the last start; reset none -/
  pchOut : Tbl Bool := []
deriving DecidableEq, Repr

/-- Page space: 04. -/
structure Ps where
  /-- sparse; 04 R120; page descriptors; reset all FREE, VERSION 0 -/
  pages : Tbl Page := []
  /-- sparse; 05 R157; auxiliary records; reset 0 -/
  aux : Tbl Aux := []
  /-- sparse; 04 R126; summary records by address; reset 0 -/
  sums : Tbl SumRec := []
  /-- sparse; 04 R131; sequences; reset absent -/
  seqs : Tbl Seq := []
  /-- 7x28; 04 R115, R119; active bases; reset per 04 R115 -/
  base : Tbl Nat := []
  /-- 7x28; 04 R115, R119; active sizes; reset per 04 R115 -/
  size : Tbl Nat := []
  /-- 32; 04 R115 PAGE_LIMIT in force; reset 2^28 (LG-4080 2^27) -/
  limit : Nat := 268435456
  /-- 7x28; 04 R118 PS_REGION_r.BASE, pending; reset per 04 R115 -/
  pBase : Tbl Nat := []
  /-- 7x28; 04 R118 PS_REGION_r.SHEETS, pending; reset per 04 R115 -/
  pSize : Tbl Nat := []
  /-- 32; 04 R118 PS_PAGE_LIMIT, pending; reset 0x1000_0000 -/
  pLimit : Nat := 268435456
  /-- 1; 04 R118 LAYOUT_VALID; reset 1 -/
  layoutValid : Bool := true
  /-- 1; 04 R116; a layout is active (or being initialised); reset 1 -/
  layoutActive : Bool := true
  /-- 1; 04 R118 LAYOUT_ERR; reset 0 -/
  layoutErr : Bool := false
  /-- 4; 04 R118 ERR_REGION; reset 0xF -/
  errRegion : Nat := 15
  /-- 32; 04 R118 PS_HOLD_LIMIT; reset 100,000 -/
  holdLimit : Nat := 100000
  /-- 64; 04 R118 PS_EPOCH; reset 0 -/
  epoch : Nat := 0
  /-- 4,096; 04 R136; walker slots in use: slot, epoch + 1; reset none -/
  walkers : Tbl Nat := []
  /-- list; 04 R137; pending retirements, oldest first; reset empty -/
  retired : List Retire := []
  /-- runs; 04 R115; allocated runs of POOL, SEQ, SUM (256-byte units), AUX records: start, length; reset none -/
  poolRuns : Tbl Nat := []
  seqRuns : Tbl Nat := []
  sumRuns : Tbl Nat := []
  auxRuns : Tbl Nat := []
  /-- sequences; 04 R147; gathering of the last GSET that listed each sequence ID as a member, + 1; reset none -/
  listed : Tbl Nat := []
  /-- sheets; 10 R326, 05 R173; POOL sheets reserved for extents and windows and not yet taken; reset 0 -/
  reserved : Nat := 0
deriving DecidableEq, Repr

/-- The Spine: 06. -/
structure Spine where
  /-- 1,048,576; 06 R183, R192; rows and row slots; reset 0 -/
  rows : Tbl Row := []
  /-- 128; 06 R216; SP_BANK_b; reset 0, available -/
  banks : Tbl Bank := []
  /-- 5; 06 R215 K; reset 20 -/
  k : Nat := 20
  /-- sparse; 06 R199; overflow entries: key 4 x bucket + place; reset 0 -/
  ovf : Tbl RowSlot := []
  /-- 1; 06 R215 SCRUB_EN; reset 1 -/
  scrubEn : Bool := true
  /-- 16; 06 R215 SCRUB_INTERVAL; reset 64 -/
  scrubInterval : Nat := 64
  /-- 20; 06 R210; next row scrubbed; reset 0 (log 9) -/
  scrubAt : Nat := 0
  /-- 48; 06 R192; insertion serial; reset 0 -/
  serial : Nat := 0
  /-- list; 06 R205; update queue, oldest first; reset empty -/
  updq : List UpdOp := []
  /-- list; 06 R205, R212, 10 R332; keys of the directory that wait for an update-queue credit: added, worker, key; reset empty -/
  dirWait : List (Bool × Nat × BitVec 128) := []
  /-- 1,048,576; 06 R206, R214; region table; reset unused -/
  regions : Tbl Region := []
  /-- 8x64; 06 R217 SP_PROBE_KEY_i; reset 0 -/
  probeKey : Tbl (BitVec 64) := []
  /-- 8x64; 06 R217 SP_PROBE_MASK_i; reset 0 -/
  probeMask : Tbl (BitVec 64) := []
  /-- 2; 06 R217 WIDTH; reset 0 -/
  probeWidth : Nat := 0
  /-- 1; 06 R217 ROLE; reset 0 -/
  probeRole : Nat := 0
  /-- 1; 06 R217 SUSPECTS; reset 0 -/
  probeSuspects : Bool := false
  /-- 1; 06 R217 AFTER; reset 0 -/
  probeAfter : Bool := false
  /-- 20; 06 R217 START; reset 0 -/
  probeStart : Nat := 0
  /-- 1; 06 R217 DONE; reset 0 -/
  probeDone : Bool := false
  /-- 1; 06 R217 HIT; reset 0 -/
  probeHit : Bool := false
  /-- 1; 06 R217 SUSPECT; reset 0 -/
  probeSuspect : Bool := false
  /-- 20; 06 R217 POSITION; reset 0 -/
  probePos : Nat := 0
deriving DecidableEq, Repr

/-- One 64-bit credit status register, 01 R19: what is not computed from the queues. -/
structure Pool where
  /-- 16; 01 R19: LIMIT - LOW, so that reset (LOW = LIMIT) is 0 -/
  lowUsed : Nat := 0
  /-- 16; 01 R19: LIMIT - AVAIL (credits taken); reset 0 -/
  used : Nat := 0
  /-- 1; 01 R19 EMPTY_SEEN; reset 0 -/
  emptySeen : Bool := false
deriving DecidableEq, Repr

/-- What the device has sent out of the package (model's own: the trace at the block's boundary). -/
inductive Out where
  /-- a posted write to upstream memory of a function: address, bytes (02 R57) -/
  | upWrite (fn addr : Nat) (bytes : List (BitVec 8))
  /-- a read of upstream memory: address, bytes asked -/
  | upRead (fn addr len : Nat)
  /-- an MSI-X message: function, address, data (13 R398) -/
  | msix (fn : Nat) (addr : BitVec 64) (data : BitVec 32)
  /-- an AER error message of a function (13 R416, R420): 0 ERR_COR, 1 ERR_NONFATAL, 2 ERR_FATAL -/
  | aer (fn message : Nat)
  /-- a frame started on an Ethernet port: port, path, PSN, what it carries -/
  | frame (port path psn : Nat) (f : Frame)
  /-- a bypass frame started on an Ethernet port -/
  | bypass (port : Nat) (f : Bypass)
  /-- a write or read submitted to a downstream port: tier, location, sheets, data written (05 R165) -/
  | portWrite (port loc sheets : Nat) (bytes : List (BitVec 8))
  /-- 12 R372, 13 R414: the check bytes of a run in T1, four for each of its granules, from a byte address of the port's device on -/
  | portCheck (port addr : Nat) (bytes : List (BitVec 8))
  | portRead (port loc sheets : Nat)
  /-- Dataset Management, deallocate, of a T2 run (05 R154) -/
  | deallocate (port loc units : Nat)
  /-- what service processor 2 does on a port that it enumerates (14 R439): 1 reads the CXL DVSECs, 2 programs the HDM decoder, 3 Identify Controller,
  4 Identify Namespace 1, 5 Set Features Number of Queues, 6 creates the I/O queues -/
  | portCommand (port command : Nat)
  /-- a read answered at a function's window, or a register read with a side effect: bytes returned -/
  | readData (bytes : List (BitVec 8))
  /-- a response on a management or SPDM transport: transport, bytes -/
  | response (transport : Nat) (bytes : List (BitVec 8))
  /-- an AVSBus voltage command, mV (15 R448, R456) -/
  | avs (mv : Nat)
  /-- a PCIe Configuration Request Retry or Unsupported Request answer -/
  | cfgAnswer (kind : Nat)
deriving DecidableEq, Repr

/-- The whole machine. -/
structure State where
  /-- list; the prompt's queue of waiting commands, first in first out (model's own); reset empty -/
  pending : List Instr := []
  /-- count; model's own: next free value to draw (log 3); reset DESIGN CHOICE 0 -/
  free : Nat := 0
  /-- 64; 13 R417 CYCLE; fabric cycles since the last reset of level 5 or 6; reset 0 -/
  now : Nat := 0
  /-- bytes; 04 R115, 13 R409; T0: context buffers, page sheets, images, clear copies; reset all 0 (log 8) -/
  t0 : List Host.Cell := []
  /-- identity, availability, start-up, pins -/
  dev : Dev := {}
  /-- 1,024; 02 R27; contexts; reset DISABLED -/
  ctxs : Tbl Ctx := []
  /-- sparse; 02 R54; dispatched instructions, by dispatch number; reset none -/
  flights : Tbl Flight := []
  /-- count; 02 R54; next dispatch number; reset 0 (log 9) -/
  nextFlight : Nat := 0
  /-- 24; 13 R396 CS_CONTROL.SLICE; reset 1,048,576 -/
  slice : Nat := 1048576
  /-- 16; 13 R410 LEASE.LOCK_US; reset 1,000 -/
  lockUs : Nat := 1000
  /-- 318 pools; 01 R17, R19; credit pools; reset full -/
  pools : Tbl Pool := []
  /-- 256; 13 R394; functions; reset only function 0 exists -/
  fns : Tbl Fn := []
  /-- 16,384; 13 R399; VM_v; reset as Vm -/
  vms : Tbl Vm := []
  /-- page space -/
  ps : Ps := {}
  /-- tiers and Gatherer -/
  tier : Tier := {}
  /-- 24; 05 R182 KT_CONTROL.MARGIN; reset 10,500 -/
  margin : Nat := 10500
  /-- 16; 05 R182 KT_CONTROL.LEAD_MAX; reset 64 -/
  leadMax : Nat := 64
  /-- 4,096; 05 R182; gatherings; reset not live -/
  gaths : Tbl Gath := []
  /-- the Spine -/
  spine : Spine := {}
  /-- the Awl -/
  awl : Awl := {}
  /-- the Press -/
  press : Press := {}
  /-- Folios, Quires, governor, weight records -/
  fq : Fq := {}
  /-- network -/
  net : Net := {}
  /-- egress scheduler -/
  eg : Eg := {}
  /-- time unit -/
  ptp : Ptp := {}
  /-- the Colophon -/
  sec : Sec := {}
  /-- errors and device counters -/
  err : Err := {}
  /-- firmware -/
  fw : Fw := {}
  /-- power and thermal -/
  pwr : Pwr := {}
  /-- list; model's own: what left the device, newest first (log 6); reset empty -/
  out : List Out := []
deriving DecidableEq, Repr

/-- Why a step can stop. No command of this model faults: an access the device refuses is answered, counted or ignored as the spec says. -/
inductive Fault where
  /-- Raised by no meaning. Kept so that the type is not empty; safe. -/
  | unreachable
deriving DecidableEq, Repr

/-- Why a command can be refused. -/
inductive Refusal where
  /-- Raised by an arm of the dispatcher whose command has no meaning yet; safe (the run stops). -/
  | notModelled (mnemonic : String)
deriving DecidableEq, Repr



/-- The size in sheets of region r of the reset layout of the LG-8160 (04 R115). -/
def resetRegions : List (Nat × Nat) :=
  [(0, 2097152), (2097152, 4194304), (6291456, 8388608), (14680064, 1048576), (15728640, 1048576),
   (16777216, 8388608), (25165824, 109051904)]

/-- Bases of the reset layout, a base of 0 not listed. -/
def resetBases : Tbl Nat :=
  [(1, 2097152), (2, 6291456), (3, 14680064), (4, 15728640), (5, 16777216), (6, 25165824)]

/-- Sizes of the reset layout. -/
def resetSizes : Tbl Nat :=
  [(0, 2097152), (1, 4194304), (2, 8388608), (3, 1048576), (4, 1048576), (5, 8388608), (6, 109051904)]

/-- The machine at the moment RESET_N is asserted: every register at its reset value, everything stopped (13 R404, 15 R460; log 5). -/
def State.reset : State :=
  { fns := [(0, { enabled := true, vecCount := 2048 })]
    ps := { base := resetBases, size := resetSizes, pBase := resetBases, pSize := resetSizes } }

end Sys2Proof.Machine
end

