-- ==== Sys2Proof/Machine/Ops.lean ====
section
/-! DEFINITION. The named operations over the state that every meaning is built from: tables, free values, T0, credits,
interrupts, error records, counters, logs. -/
namespace Sys2Proof.Machine
open Sys2Proof

/-- RESET_N is asserted, or a brown-out lasts: everything is stopped (15 R451, R460). -/
def State.stopped (s : State) : Bool := s.dev.held || s.dev.brownOut
/-- What no effect of a command touches: the queue of waiting commands, the pin RESET_N and the brown-out, as they were in `s`. -/
def State.framed (t s : State) : State := { t with pending := s.pending, dev := { t.dev with held := s.dev.held, brownOut := s.dev.brownOut } }
/-- The frame of a meaning: nothing happens while everything is stopped; else the effect, within its frame. -/
def act (s : State) (f : State → State) : Host.Outcome State Fault Refusal := .next (if s.stopped then s else (f s).framed s)

/-- Fabric cycles in a microsecond (03 R78). -/
abbrev usCycles : Nat := 1050

/-! ## Tables -/

/-- Context `c` (02 R26). -/
def State.ctx (s : State) (c : Nat) : Ctx := s.ctxs.get c {}
/-- Replaces context `c`. -/
def State.setCtx (s : State) (c : Nat) (x : Ctx) : State := { s with ctxs := s.ctxs.set c x {} }
/-- Changes context `c`. -/
def State.updCtx (s : State) (c : Nat) (f : Ctx → Ctx) : State := s.setCtx c (f (s.ctx c))
/-- Ring `n` of a context (02 R27). -/
def Ctx.ring (x : Ctx) (n : Nat) : Ring := x.rings.get n {}
/-- Changes ring `n` of a context. -/
def Ctx.updRing (x : Ctx) (n : Nat) (f : Ring → Ring) : Ctx := { x with rings := x.rings.set n (f (x.ring n)) {} }
/-- Register Xn (02 R31). -/
def Ctx.reg (x : Ctx) (n : Nat) : BitVec 64 := x.x.get n 0
/-- Writes register Xn. -/
def Ctx.setReg (x : Ctx) (n : Nat) (v : BitVec 64) : Ctx := { x with x := x.x.set n v 0 }
/-- Flight `f` when it exists (02 R54). -/
def State.flight? (s : State) (f : Nat) : Option Flight := (s.flights.find? fun p => p.1 == f).map (·.2)
/-- Flight `f`. -/
def State.flight (s : State) (f : Nat) : Flight := (s.flight? f).getD {}
/-- Replaces flight `f`; a dispatched instruction is listed even when its record is all default. -/
def State.setFlight (s : State) (f : Nat) (x : Flight) : State := { s with flights := s.flights.put f x }
/-- Changes flight `f`. -/
def State.updFlight (s : State) (f : Nat) (g : Flight → Flight) : State := s.setFlight f (g (s.flight f))
/-- Removes flight `f`. -/
def State.dropFlight (s : State) (f : Nat) : State := { s with flights := s.flights.del f }
/-- Function `f` (13 R394). -/
def State.fn (s : State) (f : Nat) : Fn := s.fns.get f {}
/-- Changes function `f`. -/
def State.updFn (s : State) (f : Nat) (g : Fn → Fn) : State := { s with fns := s.fns.upd f {} g }
/-- Page `p` (04 R120). -/
def State.page (s : State) (p : Nat) : Page := s.ps.pages.get p {}
/-- Auxiliary record `i` (05 R157). -/
def State.auxRec (s : State) (i : Nat) : Aux := s.ps.aux.get i {}
/-- Summary record at address `a` (04 R126). -/
def State.sum (s : State) (a : Nat) : SumRec := s.ps.sums.get a {}
/-- Sequence `q` (04 R131). -/
def State.seq (s : State) (q : Nat) : Seq := s.ps.seqs.get q {}
/-- Gathering `g` (05 R182). -/
def State.gath (s : State) (g : Nat) : Gath := s.gaths.get g {}
/-- Changes gathering `g`. -/
def State.updGath (s : State) (g : Nat) (h : Gath → Gath) : State := { s with gaths := s.gaths.upd g {} h }
/-- Port `p` (05 R181). -/
def State.port (s : State) (p : Nat) : Port := s.tier.ports.get p {}
/-- Changes port `p`. -/
def State.updPort (s : State) (p : Nat) (g : Port → Port) : State := { s with tier := { s.tier with ports := s.tier.ports.upd p {} g } }
/-- Queue pair `q` (10 R302). -/
def State.qp (s : State) (q : Nat) : Qp := s.net.qps.get q {}
/-- Changes queue pair `q`. -/
def State.updQp (s : State) (q : Nat) (g : Qp → Qp) : State := { s with net := { s.net with qps := s.net.qps.upd q {} g } }
/-- Registration `i` (10 R314). -/
def State.reg (s : State) (i : Nat) : Reg := s.net.regs.get i {}
/-- Changes registration `i`. -/
def State.updReg (s : State) (i : Nat) (g : Reg → Reg) : State := { s with net := { s.net with regs := s.net.regs.upd i {} g } }
/-- Extent `e` (10 R326). -/
def State.extent (s : State) (e : Nat) : Ext := s.net.exts.get e {}
/-- Changes extent `e`. -/
def State.updExt (s : State) (e : Nat) (g : Ext → Ext) : State := { s with net := { s.net with exts := s.net.exts.upd e {} g } }
/-- Subscriber `i` (10 R334). -/
def State.sub (s : State) (i : Nat) : Sub := s.net.subs.get i {}
/-- Changes subscriber `i`. -/
def State.updSub (s : State) (i : Nat) (g : Sub → Sub) : State := { s with net := { s.net with subs := s.net.subs.upd i {} g } }
/-- Command set `k`: 0 for BAR0, `f + 1` for BAR2 of function `f` (16 R487). -/
def State.cmdSet (s : State) (k : Nat) : CmdSet := s.net.sets.get k {}
/-- Changes command set `k`. -/
def State.updSet (s : State) (k : Nat) (g : CmdSet → CmdSet) : State := { s with net := { s.net with sets := s.net.sets.upd k {} g } }
/-- Spine row `r` (06 R183). -/
def State.row (s : State) (r : Nat) : Row := s.spine.rows.get r {}
/-- Changes Spine row `r`. -/
def State.updRow (s : State) (r : Nat) (g : Row → Row) : State := { s with spine := { s.spine with rows := s.spine.rows.upd r {} g } }
/-- Bank `b` (06 R216). -/
def State.bank (s : State) (b : Nat) : Bank := s.spine.banks.get b {}
/-- Changes bank `b`. -/
def State.updBank (s : State) (b : Nat) (g : Bank → Bank) : State := { s with spine := { s.spine with banks := s.spine.banks.upd b {} g } }
/-- Region record `i` (06 R206). -/
def State.region (s : State) (i : Nat) : Region := s.spine.regions.get i {}
/-- Changes region record `i`. -/
def State.updRegion (s : State) (i : Nat) (g : Region → Region) : State := { s with spine := { s.spine with regions := s.spine.regions.upd i {} g } }
/-- Service processor `n` (14 R446). -/
def State.sp (s : State) (n : Nat) : Sp := s.fw.sps.get n {}
/-- Changes service processor `n`. -/
def State.updSp (s : State) (n : Nat) (g : Sp → Sp) : State := { s with fw := { s.fw with sps := s.fw.sps.upd n {} g } }
/-- Appends to what has left the device. -/
def State.emitOut (s : State) (o : Out) : State := { s with out := o :: s.out }
/-- Draws a free value and advances the counter (log 3). -/
def State.draw (s : State) : Nat × State := ((Config.freeValue s.free).toNat, { s with free := s.free + 1 })

/-! ## The variant (00 R3) -/

/-- 1 on the LG-4080. -/
def State.small (s : State) : Bool := s.dev.variant == .lg4080
/-- Number of Quires. -/
def State.quires (s : State) : Nat := if s.small then 8 else 16
/-- Number of fitted pseudo-channels (04 R116). -/
def State.pchFitted (s : State) : Nat := if s.small then 256 else 512
/-- Number of Ethernet lanes. -/
def State.lanes (s : State) : Nat := if s.small then 4 else 8
/-- Pseudo-channels in the interleave of the last start (04 R116). -/
def State.pchIn (s : State) : List Nat := (List.range s.pchFitted).filter fun i => !(s.dev.pchOut.get i false)
/-- Sheets of T0 (04 R116). -/
def State.t0Sheets (s : State) : Nat := 262144 * s.pchIn.length

/-! ## Statuses (02 R64) -/

abbrev stOk : BitVec 16 := 0x0000
abbrev stMiss : BitVec 16 := 0x0001
abbrev stPartial : BitVec 16 := 0x0002
abbrev stQuota : BitVec 16 := 0x0100
abbrev stBudget : BitVec 16 := 0x0101
abbrev stBusy : BitVec 16 := 0x0200
abbrev stFenced : BitVec 16 := 0x0201
abbrev stConflict : BitVec 16 := 0x0202
abbrev stSuperseded : BitVec 16 := 0x0203
abbrev stRevoked : BitVec 16 := 0x0204
abbrev stNoSpace : BitVec 16 := 0x0205
abbrev stStale : BitVec 16 := 0x0206
abbrev stNotFound : BitVec 16 := 0x0207
abbrev stRange : BitVec 16 := 0x0300
abbrev stOpcode : BitVec 16 := 0x0301
abbrev stPermission : BitVec 16 := 0x0302
abbrev stPoisoned : BitVec 16 := 0x0303
abbrev stExpand : BitVec 16 := 0x0304
abbrev stRemote : BitVec 16 := 0x0305
abbrev stTimeout : BitVec 16 := 0x0306
abbrev stTierFail : BitVec 16 := 0x0307
abbrev stUnavailable : BitVec 16 := 0x0308
abbrev stAborted : BitVec 16 := 0x0400
abbrev stOrphaned : BitVec 16 := 0x0401

/-- Class of a status: its high byte (02 R63). -/
def stClass (st : BitVec 16) : Nat := st.toNat / 256

/-- A stall cause's number (05 R179). -/
def Cause.num : Cause → Nat
  | .t1Late => 1 | .t2Late => 2 | .t1Fail => 3 | .t2Fail => 4 | .linkLate => 5 | .weightLate => 6 | .expander => 7 | .spineOvf => 8

/-- A context state's number (02 R32). -/
def CtxState.num : CtxState → Nat
  | .disabled => 0 | .idle => 1 | .active => 2 | .stopped => 3 | .orphaned => 4 | .resetting => 5

/-! ## Logs (14 R441, R442) -/

/-- Writes an entry of the log ring; the oldest is overwritten when it is full (14 R441). -/
def State.logEntry (s : State) (kind point : Nat) (data : List Nat) (r : Option ErrRec) : State :=
  let e : LogEntry := { seq := s.fw.logTail, kind := kind, point := point, cycle := s.now, data := data, record := r }
  { s with fw := { s.fw with log := s.fw.log.put (s.fw.logTail % 2048) e, logTail := (s.fw.logTail + 1) % 2 ^ 32 } }

/-- A trace point or firmware event: to the log ring, or to the trace FIFO while service processor 1 is not READY (14 R428). -/
def State.traceEvent (s : State) (kind point : Nat) (data : List Nat) : State :=
  if (s.sp 1).state == .ready then s.logEntry kind point data none
  else if s.fw.traceFifo.length < 1024 then
    { s with fw := { s.fw with traceFifo := s.fw.traceFifo ++ [{ kind := kind, point := point, cycle := s.now, data := data }] } }
  else { s with fw := { s.fw with logLost := min (s.fw.logLost + 1) (2 ^ 32 - 1) } }

/-- Trace point `p` is recorded when its mask bit is 1 (14 R442). -/
def State.trace (s : State) (p : Nat) (data : List Nat) : State :=
  if s.fw.traceMask.getLsbD p then s.traceEvent 2 p data else s

/-- A firmware event, always recorded (14 R442). -/
def State.fwEvent (s : State) (p : Nat) (data : List Nat) : State := s.traceEvent 3 p data

/-! ## Counters, error records, interrupts (13 R398, R399, R417 to R424) -/

/-- Largest value of a 64-bit counter. -/
abbrev cntMax : Nat := 0xFFFFFFFFFFFFFFFF

/-- Something to count, record or signal. -/
inductive Ev where
  /-- add to a counter: of a function, or a device counter -/
  | count (fn : Option Nat) (i n : Nat)
  /-- write an error record -/
  | record (r : ErrRec)
  /-- an interrupt request of function vector `i`; an urgent one is sent at once -/
  | irq (fn i share : Nat) (urgent : Bool)
deriving DecidableEq, Repr

/-- Sends the message of function vector `i`, or keeps it pending when masked (13 R398); whether a message left. -/
def State.sendMsix (s : State) (f i : Nat) : State × Bool :=
  let x := s.fn f
  let e := x.msix.get i {}
  if !x.msixEn then (s, false)
  else if x.fnMask || !e.unmasked then (s.updFn f fun x => { x with msix := x.msix.set i { e with pending := true } {} }, false)
  else (s.emitOut (.msix f e.addr e.data), true)

/-- Effective holdoff of a request (13 R399). -/
def effHoldoff (h share : Nat) : Nat := h * 16 / max share 1

/-- A request at device vector `v`, and whether its message is due (13 R399). -/
def Vm.request (v : Vm) (share now : Nat) (urgent : Bool) : Vm × Bool :=
  let p := min (v.pending + 1) 65535
  let e := effHoldoff v.holdoff share
  let least := if v.pending = 0 then e else min v.least e
  let first := if v.pending = 0 then now else v.first
  if urgent || p ≥ max v.count 1 || least = 0 then ({ v with pending := 0, first := 0, least := 0 }, true)
  else ({ v with pending := p, first := first, least := least }, false)

/-- Unread records of the error ring (13 R418). -/
def Err.unread (e : Err) : Nat := (e.tail + 2 ^ 32 - e.head) % 2 ^ 32

/-- The ring and the status bits with one more record (13 R418, R424). -/
def Err.write (e : Err) (r : ErrRec) (now : Nat) : Err :=
  { e with
    ring := e.ring.put (e.tail % 1024) { r with seq := e.tail, cycle := now }
    tail := (e.tail + 1) % 2 ^ 32
    corrected := e.corrected || r.cls == 0
    notice := e.notice || r.cls == 1
    contained := e.contained || r.cls == 2
    fatal := e.fatal || r.cls == 3 }

/-- Service processor 1, when it is READY, copies a new record to the log (14 R425, R428). -/
def State.copyRecord (s : State) (r : ErrRec) : State :=
  if (s.sp 1).state == .ready then
    let s := s.logEntry 1 0 [] (some r)
    { s with fw := { s.fw with copied := s.err.tail } }
  else s

/-- AER capability of function `f` (13 R420). -/
def State.aerOf (s : State) (f : Nat) : Aer := s.err.aer.get f {}
/-- Logs uncorrectable error bit `b` in the AER capability of function `f`; the message follows its severity register (13 R416, R420; log 143). -/
def State.aerUnc (s : State) (f b : Nat) : State :=
  { s with err := { s.err with aer := s.err.aer.upd f {} fun a => { a with unc := a.unc ||| (1#32 <<< b) } } }.emitOut
    (.aer f (if (s.aerOf f).sev.getLsbD b then 2 else 1))
/-- Logs correctable error bit `b` in the AER capability of function `f`. -/
def State.aerCor (s : State) (f b : Nat) : State :=
  { s with err := { s.err with aer := s.err.aer.upd f {} fun a => { a with cor := a.cor ||| (1#32 <<< b) } } }.emitOut (.aer f 0)
/-- The AER side of a record: an uncorrectable internal error of its function, or a corrected internal error of function 0 (13 R420). -/
def State.aerMark (s : State) (r : ErrRec) : State :=
  if r.cls ≥ 2 then s.aerUnc (r.fn.getD 0) 22 else if r.cls = 0 then s.aerCor 0 14 else s
/-- What the requester of an upstream read logs when it ends: 2 a completion timeout, 3 a poisoned completion; an Unsupported Request or Completer
Abort (1) is the completer's to log (13 R416; log 143). -/
def State.upAer (s : State) (f result : Nat) : State :=
  if result = 2 then s.aerUnc f 14 else if result = 3 then s.aerUnc f 12 else s

/-- A record that is not fatal would be dropped (13 R418). -/
def State.recordFull (s : State) : Bool := decide (1008 ≤ s.err.unread)
/-- Writes a record into the ring, or drops it when its places are taken (13 R418, R424); whether it was written. -/
def State.putRecord (s : State) (r : ErrRec) : State × Bool :=
  let limit := if r.cls = 3 then 1024 else 1008
  if s.err.unread ≥ limit then ({ s with err := { s.err with lost := true } }, false)
  else (({ s with err := s.err.write r s.now }.copyRecord { r with seq := s.err.tail, cycle := s.now }).aerMark r, true)

/-- Adds to a counter that saturates (13 R421); whether it has just reached its maximum. -/
def State.addCount (s : State) (fn : Option Nat) (i n : Nat) : State × Bool :=
  match fn with
  | some f =>
    let old := (s.fn f).cnt.get i 0
    let new := min (old + n) cntMax
    let hit := decide (new = cntMax ∧ old ≠ cntMax)
    (s.updFn f fun x => { x with cnt := x.cnt.set i new 0, cntOvf := if hit then x.cntOvf.set i true false else x.cntOvf }, hit)
  | none =>
    let old := s.err.cnt.get i 0
    let new := min (old + n) cntMax
    let hit := decide (new = cntMax ∧ old ≠ cntMax)
    ({ s with err := { s.err with cnt := s.err.cnt.set i new 0, ovf := if hit then s.err.ovf.set i true false else s.err.ovf } }, hit)

/-- A COUNTER_SATURATED record (13 R419). -/
def saturated (fn : Option Nat) (i : Nat) : ErrRec :=
  { cls := 1, source := 0x0F, code := 0x10, fn := fn, object := i, detail := b2n fn.isSome }

/-- Counts, records or signals, and what follows from it; the fuel bounds how far one event can raise another (a counter that
saturates writes a record, which signals, which counts). A saturation signals ERR_VECTOR once: through its record where that names the function and is
written, else by itself (13 R398, R421). -/
def emitEv : Nat → Ev → State → State
  | 0, _, s => s
  | k + 1, .count fn i n, s =>
    let (s, hit) := s.addCount fn i n
    if hit then
      let told := fn.isSome && !s.recordFull
      let s := emitEv k (.record (saturated fn i)) s
      if told then s else emitEv k (.irq (fn.getD 0) (s.fn (fn.getD 0)).errVector 16 true) s
    else s
  | k + 1, .record r, s =>
    let (s, done) := s.putRecord r
    if done then
      match r.fn with
      | some f =>
        let s := if r.cls = 2 then emitEv k (.count (some f) 29 1) s else s
        emitEv k (.irq f (s.fn f).errVector 16 true) s
      | none => s
    else emitEv k (.count none 10 1) s
  | k + 1, .irq f i share urgent, s =>
    let x := s.fn f
    if i ≥ x.vecCount then emitEv k (.count (some f) 26 1) s
    else
      let v := x.vecBase + i
      let (vm, due) := (s.vms.get v {}).request share s.now urgent
      let s := { s with vms := s.vms.set v vm {} }
      if due then
        let (s, sent) := s.sendMsix f i
        if sent then emitEv k (.count (some f) 25 1) s else s
      else s

/-- Adds `n` to counter `i` of a function (13 R422). -/
def State.countFn (s : State) (f i n : Nat) : State := if n = 0 then s else emitEv 8 (.count (some f) i n) s
/-- Adds `n` to device counter `i` (13 R423). -/
def State.countDev (s : State) (i n : Nat) : State := if n = 0 then s else emitEv 8 (.count none i n) s
/-- Writes an error record (13 R417 to R420). -/
def State.report (s : State) (r : ErrRec) : State := emitEv 8 (.record r) s
/-- An interrupt request on function vector `i` (13 R398). -/
def State.irq (s : State) (f i share : Nat) (urgent : Bool) : State := emitEv 8 (.irq f i share urgent) s
/-- A signal counter of function `fn` has just saturated: recorded, and ERR_VECTOR signalled, by itself where the record is dropped (13 R398, R421). -/
def State.saturates (s : State) (fn i : Nat) : State :=
  let told := !s.recordFull
  let s := s.report (saturated (some fn) i)
  if told then s else s.irq fn (s.fn fn).errVector 16 true
/-- A corrected error: at most one record of a source in 65,536 cycles (13 R418). -/
def State.reportCorrected (s : State) (r : ErrRec) : State :=
  let last := s.err.lastCorrected.get r.source 0
  let s := s.countDev 8 1
  if last ≠ 0 ∧ s.now < last - 1 + 65536 then s
  else { s with err := { s.err with lastCorrected := s.err.lastCorrected.set r.source (s.now + 1) 0 } }.report { r with cls := 0, code := 1 }

/-! ## T0 and granules that cannot be read (04 R116, R117; 13 R415) -/

/-- The pseudo-channel that holds sheet `n` (04 R116). -/
def State.pchOf (s : State) (n : Nat) : Nat := s.pchIn.getD (n % max s.pchIn.length 1) 0
/-- Sheet `n` lies on a pseudo-channel that failed after start-up (04 R117). -/
def State.sheetBad (s : State) (n : Nat) : Bool := !s.dev.pchDown.isEmpty && s.dev.pchDown.get (s.pchOf n) false
/-- Some granule of a byte range of T0 cannot be read. -/
def State.rangeBad (s : State) (a n : Nat) : Bool :=
  !s.dev.pchDown.isEmpty && n != 0 && (List.range ((a + n - 1) / 4096 - a / 4096 + 1)).any fun i => s.sheetBad (a / 4096 + i)
/-- The bytes of T0 from an address. -/
def State.t0Read (s : State) (a n : Nat) : Bytes := memReadN s.t0 a n
/-- Writes one byte of T0, or discards it when its pseudo-channel has failed (04 R117). -/
def State.t0Write1 (s : State) (a : Nat) (b : Byte) : State := if s.sheetBad (a / 4096) then s else { s with t0 := memWrite1 s.t0 a b }
/-- Writes bytes of T0 from an address. -/
def State.t0Write (s : State) (a : Nat) : Bytes → State
  | [] => s
  | b :: r => (s.t0Write1 a b).t0Write (a + 1) r
/-- `n` bytes with free values (log 3). -/
def State.freeBytes (s : State) : Nat → Bytes × State
  | 0 => ([], s)
  | n + 1 => let (v, s) := s.draw; let (l, s) := s.freeBytes n; (BitVec.ofNat 8 v :: l, s)
/-- After a write of the host, `old` being the state before it: the output of a running ATTEND whose bias table it changed is undefined (08 R246). -/
def State.hostWrote (s old : State) : State :=
  { s with flights := s.flights.map fun (p : Nat × Flight) => (p.1, match p.2.job with
      | .attend w a =>
        let at_ := a.grec.bias * 4096
        if s.t0Read at_ a.bias.length = old.t0Read at_ a.bias.length then p.2 else { p.2 with job := .attend w { a with spoiled := true } }
      | _ => p.2) }
/-- An uncorrectable granule was met: counted and recorded, of the contained class (13 R412, R419). SOURCE is the unit that stores the
granule: 8 T0, 2 the Spine's table, 3 the Awl's images and stream records, 0x0B T1 behind its port (log 111). -/
def State.badGranule (s : State) (source addr : Nat) (fn ctx : Option Nat) (st tag : BitVec 16) : State :=
  (s.countDev 9 1).report { cls := 2, source := source, code := 2, fn := fn, ctx := ctx, status := st, tag := tag, object := addr }

/-! ## Typed records of T0 (04 R117, R120, R126, R131; 05 R157) -/

/-- T0 address of a page descriptor (04 R120), of a sequence header (04 R131), of an auxiliary record (05 R157). -/
def State.descAddr (s : State) (p : Nat) : Nat := s.ps.base.get 0 0 * 4096 + 32 * p
def State.headAddr (s : State) (q : Nat) : Nat := s.ps.base.get 1 0 * 4096 + 32 * q
def State.auxAddr (s : State) (i : Nat) : Nat := s.ps.base.get 3 0 * 4096 + 64 * i
/-- The granule at an address lies on a pseudo-channel that failed after start-up: what is written to it is discarded (04 R117). -/
def State.granuleLost (s : State) (a : Nat) : Bool := !s.dev.pchDown.isEmpty && s.sheetBad (a / 4096)
/-- Changes page `p`. -/
def State.updPage (s : State) (p : Nat) (g : Page → Page) : State :=
  { s with ps := { s.ps with pages := if s.granuleLost (s.descAddr p) then s.ps.pages else s.ps.pages.upd p {} g } }
/-- Changes auxiliary record `i`. -/
def State.updAux (s : State) (i : Nat) (g : Aux → Aux) : State :=
  { s with ps := { s.ps with aux := if s.granuleLost (s.auxAddr i) then s.ps.aux else s.ps.aux.upd i {} g } }
/-- Changes the summary record at `a`, in 256-byte units. -/
def State.updSum (s : State) (a : Nat) (g : SumRec → SumRec) : State :=
  { s with ps := { s.ps with sums := if s.granuleLost (256 * a) then s.ps.sums else s.ps.sums.upd a {} g } }
/-- Changes sequence `q`; its stamp lies beside its header. -/
def State.updSeq (s : State) (q : Nat) (g : Seq → Seq) : State :=
  { s with ps := { s.ps with seqs := if s.granuleLost (s.headAddr q) then s.ps.seqs else s.ps.seqs.upd q {} g } }

/-! ## Allocation of runs (04 R114, R115) -/

/-- The `n` units from `a` meet no allocated run. -/
def runFree (runs : Tbl Nat) (a n : Nat) : Bool := runs.all fun r => decide (r.1 + r.2 ≤ a ∨ a + n ≤ r.1)

/-- First place at or after `a` where `n` units are free below `hi`; runs in rising order. -/
def firstFit : Tbl Nat → Nat → Nat → Nat → Option Nat
  | [], a, n, hi => if a + n ≤ hi then some a else none
  | (k, l) :: r, a, n, hi => if a + n ≤ min k hi then some a else firstFit r (max a (k + l)) n hi

/-- A free run of `n` units in `[lo, lo + size)`: the place the pick names when it is free there, else the lowest (log 7). -/
def pickRun (runs : Tbl Nat) (lo size n pick : Nat) : Option Nat :=
  if n = 0 ∨ size < n then none
  else
    let a := lo + pick % (size - n + 1)
    if runFree runs a n then some a else firstFit runs lo n (lo + size)

/-- Units allocated. -/
def runTotal (runs : Tbl Nat) : Nat := runs.foldl (fun a r => a + r.2) 0

/-- Base and size of an active region (04 R115). -/
def State.regBase (s : State) (r : Nat) : Nat := s.ps.base.get r 0
def State.regSize (s : State) (r : Nat) : Nat := s.ps.size.get r 0

/-- FREE_SHEETS: free POOL sheets, the seal reserve not counted (04 R118, R127), at reset too, nor sheets set aside for extents and windows
(log 130). -/
def State.freeSheets (s : State) : Nat := s.regSize 6 - 128 - runTotal s.ps.poolRuns - s.ps.reserved

/-- Takes a POOL run of `n` sheets (04 R149); the Press may draw on the seal reserve of 128 sheets (04 R127). -/
def State.takePool (s : State) (n : Nat) (press : Bool) : Option (Nat × State) :=
  let (v, s) := s.draw
  let used := runTotal s.ps.poolRuns
  let room := if press then used + n ≤ s.regSize 6 - s.ps.reserved else n ≤ s.freeSheets
  if decide room then
    match pickRun s.ps.poolRuns (s.regBase 6) (s.regSize 6) n v with
    | some a => some (a, { s with ps := { s.ps with poolRuns := s.ps.poolRuns.put a n } })
    | none => none
  else none

/-- Takes one SEQ sheet, above the sequence headers (04 R134). -/
def State.takeSeqSheet (s : State) : Option (Nat × State) :=
  let (v, s) := s.draw
  (pickRun s.ps.seqRuns (s.regBase 1 + 131072) (s.regSize 1 - 131072) 1 v).map fun a =>
    (a, { s with ps := { s.ps with seqRuns := s.ps.seqRuns.put a 1 } })
/-- One more SEQ sheet for a list of them. -/
def State.moreSeqSheets (o : Option (List Nat × State)) : Option (List Nat × State) :=
  match o with
  | some (l, s) => s.takeSeqSheet.map fun r => (l ++ [r.1], r.2)
  | none => none
/-- Takes `n` SEQ sheets, one at a time. -/
def State.takeSeqSheets (n : Nat) (s : State) : Option (List Nat × State) := (List.range n).foldl (fun o _ => State.moreSeqSheets o) (some ([], s))

/-- Takes a summary record of `n` units of 256 bytes in SUM (04 R126). -/
def State.takeSum (s : State) (n : Nat) : Option (Nat × State) :=
  let (v, s) := s.draw
  (pickRun s.ps.sumRuns (s.regBase 2 * 16) (s.regSize 2 * 16) n v).map fun a =>
    (a, { s with ps := { s.ps with sumRuns := s.ps.sumRuns.put a n } })

/-- Takes an auxiliary record; index 0 means none (04 R120, R146). A record is 64 bytes (05 R157). -/
def State.takeAux (s : State) : Option (Nat × State) :=
  let (v, s) := s.draw
  (pickRun s.ps.auxRuns 1 (s.regSize 3 * 64 - 1) 1 v).map fun a => (a, { s with ps := { s.ps with auxRuns := s.ps.auxRuns.put a 1 } })

/-! ## Epochs and retirement (04 R136 to R139) -/

/-- PS_OLDEST (04 R118). -/
def State.oldest (s : State) : Nat :=
  let w := s.ps.walkers.map fun p => p.2 - 1
  let h := s.gaths.filterMap fun p => p.2.hold
  (w ++ h).foldl min s.ps.epoch

/-- Retires objects: tagged with PS_EPOCH, which then rises by 1 (04 R137). -/
def State.retire (s : State) (r : Retire) : State :=
  { s with ps := { s.ps with retired := s.ps.retired ++ [{ r with tag := s.ps.epoch }], epoch := s.ps.epoch + 1 } }

/-- Objects in a retirement (PS_RETIRED.PENDING counts them). -/
def Retire.count (r : Retire) : Nat := r.pages.length + r.pool.length + r.seqSheets.length + r.homes.length + r.clear.length

/-- Lowest walker slot not in use, of 4,096 (04 R136). -/
def State.freeWalker (s : State) : Option Nat := (List.range 4096).find? fun i => s.ps.walkers.get i 0 == 0

/-- Takes a walker slot and records PS_EPOCH in it (04 R136). -/
def State.takeWalker (s : State) : Option (Nat × State) :=
  s.freeWalker.map fun i => (i, { s with ps := { s.ps with walkers := s.ps.walkers.put i (s.ps.epoch + 1) } })

/-- Frees a walker slot. -/
def State.dropWalker (s : State) (i : Nat) : State := { s with ps := { s.ps with walkers := s.ps.walkers.del i } }

/-! ## Credits (01 R16 to R20) -/

/-- A port has failed: its link went down, or its device was rejected. One that is empty, trains or is not enumerated yet has not (01 R20; 14 R439). -/
def Port.failed (x : Port) : Bool := x.enum == .linkDown || x.enum == .rejected
/-- A pool exists in the variant and its unit has not failed (01 R20). -/
def State.poolExists (s : State) (i : Nat) : Bool :=
  if i < 8 then !(s.dev.engineDown.get 1 false)
  else if i = 8 then !(s.dev.engineDown.get 2 false)
  else if i = 9 then !(s.dev.engineDown.get 3 false)
  else if i = 10 then !(s.dev.engineDown.get 4 false)
  else if i = 11 then !(s.dev.engineDown.get 5 false)
  else if i < 28 then !s.small && !(s.port (i - 12)).failed
  else if i < 44 then decide (i - 28 < s.quires) && !(s.dev.quireDown.get (i - 28) false)
  else if i < 300 then decide (i - 44 < 16 * s.quires) && !(s.dev.folioDown.get (i - 44) false)
  else if i < 316 then decide (i - 300 < s.quires) && !(s.dev.quireDown.get (i - 300) false)
  else if i = 316 then true
  else if i < 333 then !(s.dev.awlDown.get (i - 317) false)
  else false

/-- LIMIT of pool `i` (01 R17, R19). -/
def poolLimit (i : Nat) : Nat :=
  if i < 8 then 64 else if i = 8 then 256 else if i = 9 then 128 else if i = 10 then 4096 else if i = 11 then 8192
  else if i < 28 then 256 else if i < 44 then 256 else if i < 300 then 16384 else if i < 316 then 64
  else if i = 316 then 1024 else if i < 333 then 4096 else 0

/-- Cap of pool `i` on what one context holds (01 R17). -/
def poolCap (i : Nat) : Option Nat :=
  if i < 8 then some 32 else if i = 9 then some 64 else if i = 10 then some 2048 else if i = 316 then some 512 else none

/-- Pool `i`. -/
def State.pool (s : State) (i : Nat) : Pool := s.pools.get i {}
/-- AVAIL of pool `i`. -/
def State.avail (s : State) (i : Nat) : Nat := poolLimit i - (s.pool i).used

/-- Takes `n` credits of pool `i`. -/
def State.takeCredits (s : State) (i n : Nat) : State :=
  { s with pools := s.pools.upd i {} fun p =>
      let u := p.used + n
      { p with used := u, lowUsed := max p.lowUsed u, emptySeen := p.emptySeen || decide (poolLimit i ≤ u) } }

/-- Returns `n` credits of pool `i`. -/
def State.freeCredits (s : State) (i n : Nat) : State := { s with pools := s.pools.upd i {} fun p => { p with used := p.used - n } }

/-- The Gatherer's own moves: no instruction asked for them (05 R165). -/
def MoveKind.own : MoveKind → Bool
  | .placement => true | .spill => true | .demand => false | .prefetch => false | .stage => false | .cls => false | .demote => false
/-- Credits of pool `i` that the flights, the page moves and the pages at the Press of a context hold. -/
def State.heldBy (s : State) (c i : Nat) : Nat :=
  s.flights.foldl (fun a p => if p.2.ctx = c then a + p.2.holds.count i else a) 0 +
    (s.tier.moves.filter fun m => m.credit == i + 1 && m.ctx == c && !m.kind.own).length +
    if i = 316 then ((s.press.queue ++ s.press.pipes.map (fun (p : Nat × Nat) => p.2 - 1)).filter fun p => (s.page p).origin.ctx == c).length else 0

/-- Context `c` holds fewer credits of pool `i` than its cap (01 R17). -/
def State.underCap (s : State) (c i : Nat) : Bool := match poolCap i with | some k => decide (s.heldBy c i < k) | none => true
/-- A credit of pool `i` may be taken for context `c` now (01 R16, R17). -/
def State.creditFree (s : State) (c i : Nat) : Bool := decide (0 < s.avail i) && s.underCap c i
/-- An instruction waits for a credit of pool `i`; a LOOKUP waits for one of any of the eight search queues (06 R193). -/
def Flight.awaits (x : Flight) (i : Nat) : Bool := match x.wantCredit with | some j => j == i || (decide (j < 8) && decide (i < 8)) | none => false
/-- Another instruction waits for a credit of pool `i` and may take it (13 R397). -/
def State.creditWaited (s : State) (f i : Nat) : Bool := s.flights.any fun p => p.1 != f && p.2.awaits i && s.underCap p.2.ctx i

/-- Flight `f` takes a credit of pool `i`, or waits for it; whether it holds one now (01 R16). -/
def State.grab (s : State) (f i : Nat) : State × Bool :=
  let x := s.flight f
  if x.holds.contains i then (s, true)
  else if s.creditFree x.ctx i && !s.creditWaited f i then
    ((s.takeCredits i 1).setFlight f { x with holds := i :: x.holds, wantCredit := none }, true)
  else (s.setFlight f { x with wantCredit := some i }, false)

/-- Flight `f` returns one credit of pool `i`. -/
def State.ungrab (s : State) (f i : Nat) : State :=
  let x := s.flight f
  if x.holds.contains i then (s.freeCredits i 1).setFlight f { x with holds := x.holds.erase i } else s

/-! ## Functions and contexts -/

/-- The function that owns context `c`. -/
def State.fnOf (s : State) (c : Nat) : Nat := (s.ctx c).function

/-- The load byte: the largest of the four gauges of the last interval (10 R320). -/
def State.loadByte (s : State) : Nat := max (max s.net.gFolio s.net.gT0) (max s.net.gSpine s.net.gPool)

/-- Moves a context to a state (02 R33), with its trace point (14 R442). -/
def State.ctxTo (s : State) (c : Nat) (st : CtxState) : State :=
  let old := (s.ctx c).state
  if old = st then s else (s.updCtx c fun x => { x with state := st }).trace 0 [c, old.num, st.num]

/-- A posted write to upstream memory for a context; discarded and counted when it is ORPHANED (02 R35). -/
def State.upWrite (s : State) (c addr : Nat) (b : Bytes) : State :=
  let x := s.ctx c
  if x.state == .orphaned then s.countFn x.function 9 1 else s.emitOut (.upWrite x.function addr b)

/-- Some flight of context `c` is in flight; mirrored requests are not of its rings (10 R318). -/
def State.inFlight (s : State) (c : Nat) : Bool := s.flights.any fun p => p.2.ctx == c && p.2.mirror.isNone

/-- A ring of the context has entries to fetch or fetched (02 R33). -/
def Ctx.ringWork (x : Ctx) : Bool :=
  x.rings.any fun p => p.2.enable && (p.2.fetch != p.2.tail || !p.2.fetched.isEmpty || p.2.reading != 0)

/-- ACTIVE becomes IDLE when nothing is left to fetch and nothing is in flight (02 R33). -/
def State.settle (s : State) (c : Nat) : State :=
  let x := s.ctx c
  if x.state == .active && !x.ringWork && !s.inFlight c then s.ctxTo c .idle else s

end Sys2Proof.Machine
end

