-- ==== Sys2Proof/Machine/Operands.lean ====
section
/-! DEFINITION. The operand forms of the instruction granule and their range checks (02 R45 to R49, 03 R71 to R107). -/
namespace Sys2Proof.Machine
open Sys2Proof

/-! ## The granule (02 R45) -/

/-- Word `i` of a granule. -/
def granWord (g : BitVec 256) (i : Nat) : BitVec 64 := BitVec.ofNat 64 (g.toNat / 2 ^ (64 * i))
/-- A granule from its 32 bytes. -/
def granOf (b : Bytes) : BitVec 256 := BitVec.ofNat 256 (ofLe b)

/-- Fields of the first word. -/
def wOpcode (w : BitVec 64) : Nat := fld w.toNat 0 8
def wFenceBefore (w : BitVec 64) : Bool := w.getLsbD 8
def wFenceAfter (w : BitVec 64) : Bool := w.getLsbD 9
def wComplete (w : BitVec 64) : Bool := w.getLsbD 10
def wInterrupt (w : BitVec 64) : Bool := w.getLsbD 11
def wCatchword (w : BitVec 64) : Bool := w.getLsbD 12
def wReserved (w : BitVec 64) : Nat := fld w.toNat 13 3
def wTag (w : BitVec 64) : BitVec 16 := BitVec.ofNat 16 (fld w.toNat 16 16)
def wSelD (w : BitVec 64) : Nat := fld w.toNat 32 8
def wSelA (w : BitVec 64) : Nat := fld w.toNat 40 8
def wSelB (w : BitVec 64) : Nat := fld w.toNat 48 8
def wSelC (w : BitVec 64) : Nat := fld w.toNat 56 8

/-- A selector names a register or the immediate (02 R47). -/
def selValid (n : Nat) : Bool := n < 16 || n == 255

/-- An operand's value: register plus field, or the field (02 R47). -/
def operand (x : Ctx) (sel : Nat) (f : BitVec 64) : BitVec 64 := if sel < 16 then x.reg sel + f else f

/-- The defined opcodes (02 R46). -/
def opcodes : List Nat :=
  [0x00, 0x01, 0x02, 0x03, 0x04, 0x05, 0x06, 0x07, 0x10, 0x11, 0x12, 0x13, 0x14, 0x15, 0x20, 0x21, 0x22, 0x23, 0x24, 0x25,
   0x30, 0x31, 0x32, 0x33, 0x38, 0x40]

/-- The control instructions: they run while no layout is active (03 R77, 04 R119). -/
def isControl (op : Nat) : Bool := op < 8

/-- What SEL_D may be (03 R71). -/
inductive DestKind where
  | immediate | register | either
deriving DecidableEq, Repr

/-- How an operand is used: unused, or with these bits defined (03 R71). -/
abbrev OpUse := Option Nat

/-- All 64 bits. -/
abbrev allBits : Nat := 0xFFFFFFFFFFFFFFFF
/-- Bits of a buffer reference (03 R72). -/
abbrev bufBits : Nat := 0x01FFFFFFFFFFFFFF
/-- Bits of a sequence reference (03 R75). -/
abbrev seqBits : Nat := 0x0000FFFFFFFFFFFF

/-- The operand table (03 R77, R81, R91, R100, R107): SEL_D, and the bits of A, B and C that have a field. BRANCH depends on its condition. -/
def opShape (op : Nat) (a : Nat) : DestKind × OpUse × OpUse × OpUse :=
  match op with
  | 0x00 => (.immediate, none, none, none)
  | 0x01 => (.immediate, some 1, none, none)
  | 0x02 => (.either, some (if fld a 0 8 = 1 then 0x0FFF00FF else 0x003F00FF), some allBits, some 0xFFFFFFFF)
  | 0x03 => (.either, some 0x3F, some allBits, none)
  | 0x04 => (.register, some allBits, none, none)
  | 0x05 => (.register, some allBits, some allBits, none)
  | 0x06 =>
    let c := fld a 16 4
    let u := if 1 ≤ c ∧ c ≤ 6 then some allBits else none
    (if c = 7 ∨ c = 8 then .either else .immediate, some 0xFFFFF, u, u)
  | 0x07 => (.register, some 0xFFFF, none, none)
  | 0x10 => (.either, some bufBits, some 0x3FFFFFFFFFFFF, some 0xFFFFFFFF)
  | 0x11 => (.either, some seqBits, some 0xFFFFFFFF, some 0x3FFFFFF)
  | 0x12 => (.either, some seqBits, some 0x3FFFFFF, none)
  | 0x13 => (.immediate, some seqBits, some 1, none)
  | 0x14 => (.either, some seqBits, some allBits, some 0xFFFF)
  | 0x15 => (.either, some allBits, some 0xFFFF, none)
  | 0x20 => (.either, some 0x7FFFFFFFFF00FF, some bufBits, some 0xFFFFFFFF)
  | 0x21 => (.either, some seqBits, some 1, none)
  | 0x22 => (.either, some seqBits, some 0xFFFFFFFFFF, none)
  | 0x23 => (.immediate, some seqBits, some 0x1FFFFFFF, none)
  | 0x24 => (.either, some seqBits, some 0x3FFFFFF, none)
  | 0x25 => (.either, some seqBits, some 0xFFFFFFFFFF, some 0xFFFFFFFF)
  | 0x30 => (.either, some 0x0FFF00FF, some bufBits, some 0xFFFFFFFF)
  | 0x31 => (.either, some 0x0FFF00FF, some bufBits, some 0xFFFFFFFF)
  | 0x32 => (.immediate, some 0xFFFFFFFFFF, some 0xFFFFFFFFFF, some 0xFFFF)
  | 0x33 => (.either, some 0x0FFF0000, some allBits, some 0xFF)
  | 0x38 => (.either, some 0xFFFFFF07, some bufBits, some 0xFFFFFFFF)
  | 0x40 => (.immediate, some 0x0FFF3000, some 0xFFFFFFFF, none)
  | _ => (.either, none, none, none)

/-- An operand obeys its use: unused means immediate selector and field 0 (02 R49); else bits without a field are 0 (03 R71). -/
def useOk (u : OpUse) (sel : Nat) (field v : BitVec 64) : Bool :=
  match u with
  | none => sel == 255 && field == 0
  | some m => v &&& ~~~(BitVec.ofNat 64 m) == 0

/-- SEL_D obeys its kind (03 R71). -/
def destOk (k : DestKind) (sel : Nat) : Bool :=
  match k with
  | .immediate => sel == 255
  | .register => decide (sel < 16)
  | .either => selValid sel

/-! ## Buffer references (03 R72) -/

def bOffset (v : BitVec 64) : Nat := fld v.toNat 0 32
def bCount (v : BitVec 64) : Nat := fld v.toNat 32 24
def bAwait (v : BitVec 64) : Bool := v.getLsbD 56
/-- Sequence reference fields (03 R75). -/
def sSeq (v : BitVec 64) : Nat := fld v.toNat 0 24
def sBlock (v : BitVec 64) : Nat := fld v.toNat 24 24
/-- Gathering field of an operand A (03 R77, R91, R100). -/
def gField (v : BitVec 64) : Nat := fld v.toNat 16 12

/-- Bytes of the input and output buffers (02 R27). -/
def Ctx.inLen (x : Ctx) : Nat := x.inSheets * 4096
def Ctx.outLen (x : Ctx) : Nat := x.outSheets * 4096
/-- T0 addresses of the buffers. -/
def Ctx.inAddr (x : Ctx) : Nat := x.inSheet * 4096
def Ctx.outAddr (x : Ctx) : Nat := x.outSheet * 4096
/-- A byte range lies in the buffer. -/
def inRange (off n len : Nat) : Bool := off + n ≤ len

/-- A class field in use is valid (03 R76): 2 and 3 only where tiers exist. -/
def State.classOk (s : State) (c : Nat) : Bool := c < 2 || !s.small

/-- The context may use a scope: SCOPE_k entries that are not 0 (02 R27). -/
def Ctx.hasScope (x : Ctx) (sc : Nat) : Bool := sc != 0 && (List.range 4).any fun k => x.scopes.get k 0 == sc
/-- Readable scopes: 0, 0xFFFF and the SCOPE_k entries (02 R27, 03 R83). -/
def Ctx.readsScope (x : Ctx) (sc : Nat) : Bool := sc == 0 || sc == 0xFFFF || x.hasScope sc
/-- Scopes a PUBLISH or RETRACT may name (03 R88, R90). -/
def Ctx.pubScope (x : Ctx) (sc : Nat) : Bool := sc == 0 || x.hasScope sc

/-- Depth of a ring (02 R27). -/
def Ring.depth (r : Ring) : Nat := 2 ^ (6 + r.size)

/-- An offset of BRANCH or LOOP: not 0, magnitude below the depth (02 R52, 03 R79). -/
def offsetOk (o depth : Nat) : Bool :=
  let v := signed 16 o
  v != 0 && decide (v.natAbs < depth)

/-- The checks of an opcode on its operand values alone, those of its buffers included (03 R77 to R107): OK, RANGE or PERMISSION. -/
def State.opCheck (s : State) (x : Ctx) (r : Ring) (op : Nat) (a b c : BitVec 64) : BitVec 16 :=
  let bad (p : Bool) : BitVec 16 := if p then stOk else stRange
  match op with
  | 0x02 => bad (fld a.toNat 0 8 < 2)
  | 0x06 => bad (offsetOk (fld a.toNat 0 16) r.depth && fld a.toNat 16 4 < 9)
  | 0x07 => bad (offsetOk (fld a.toNat 0 16) r.depth)
  | 0x10 =>
    let n := bCount a
    if bOffset a % 32 = 0 ∧ 1 ≤ n ∧ n ≤ 2 ^ 20 ∧ inRange (bOffset a) (12 * n) x.inLen ∧ fld c.toNat 0 32 % 32 = 0 ∧
        inRange (fld c.toNat 0 32) (if b.getLsbD 49 then 64 else 32) x.outLen then
      if x.readsScope (fld b.toNat 16 16) && (!b.getLsbD 48 || x.readsScope (fld b.toNat 32 16)) then stOk else stPermission
    else stRange
  | 0x11 => bad (inRange (fld b.toNat 0 32) 32 x.outLen && s.classOk (fld c.toNat 24 2))
  | 0x12 => bad (s.classOk (fld b.toNat 24 2))
  | 0x13 => bad (!b.getLsbD 0 || sBlock a == 0)
  | 0x14 => if x.pubScope (fld c.toNat 0 16) then bad (sBlock a != 0 && fld b.toNat 32 32 != 0) else stPermission
  | 0x15 => if x.pubScope (fld b.toNat 0 16) then stOk else stPermission
  | 0x20 =>
    let gather := a.getLsbD 52
    bad (bOffset b % 32 == 0 && s.classOk (fld a.toNat 53 2) &&
      if gather then fld a.toNat 28 24 == 0 && bCount b == 0
      else fld a.toNat 0 8 == 0 && decide (1 ≤ bCount b ∧ bCount b ≤ 2 ^ 20) &&
        inRange (fld c.toNat 0 32) (4 * bCount b) x.inLen)
  | 0x23 => bad (fld b.toNat 24 2 != 3 && (!b.getLsbD 26 || s.classOk (fld b.toNat 27 2)))
  | 0x24 => bad ((fld b.toNat 24 2 == 1 || fld b.toNat 24 2 == 2) && !s.small)
  | 0x25 => bad (fld c.toNat 0 32 % 32 == 0 && inRange (fld c.toNat 0 32) 32 x.inLen)
  | 0x40 =>
    let act := fld a.toNat 12 2
    bad (decide (act ≤ 2) && if act = 2 then fld b.toNat 0 32 == 0 else inRange (fld b.toNat 0 32) 64 x.inLen)
  | 0x30 => bad (bOffset b % 32 == 0 && bCount b == 0 && fld c.toNat 0 32 % 32 == 0)
  | 0x31 => bad (bOffset b % 32 == 0 && decide (2 ≤ bCount b ∧ bCount b ≤ 16))
  | 0x32 => bad (fld a.toNat 24 8 != 0 && fld c.toNat 0 16 != 0)
  | 0x38 =>
    let n := bCount b
    let out := fld c.toNat 0 32
    let tpb := fld a.toNat 8 8
    if bOffset b % 32 = 0 ∧ 1 ≤ n ∧ n ≤ 2 ^ 20 ∧ out % 32 = 0 then
      match fld a.toNat 0 2 with
      | 0 => bad ([8, 16, 32, 64].contains tpb && inRange (bOffset b) ((if a.getLsbD 2 then 0 else 32) + 4 * tpb * n) x.inLen &&
          inRange out (12 * n) x.outLen)
      | 1 => bad (!a.getLsbD 2 && tpb == 0 && fld a.toNat 16 16 == 0 && inRange (bOffset b) n x.inLen && inRange out 48 x.outLen)
      | _ => stRange
    else stRange
  | _ => stOk

/-- The checks before dispatch (02 R48, R49, 03 R71): opcode, then flags and selectors, then the opcode's own. -/
def State.dispatchCheck (s : State) (x : Ctx) (r : Ring) (w fa fb fc : BitVec 64) : BitVec 16 :=
  let op := wOpcode w
  if !opcodes.contains op then stOpcode
  else if wReserved w != 0 || !selValid (wSelD w) || !selValid (wSelA w) || !selValid (wSelB w) || !selValid (wSelC w) then stRange
  else
    let a := operand x (wSelA w) fa
    let b := operand x (wSelB w) fb
    let c := operand x (wSelC w) fc
    let (d, ua, ub, uc) := opShape op a.toNat
    if destOk d (wSelD w) && useOk ua (wSelA w) fa a && useOk ub (wSelB w) fb b && useOk uc (wSelC w) fc c then
      s.opCheck x r op a b c
    else stRange

/-- Registers an instruction reads (02 R51): its operand selectors, and LOOP's counter. -/
def readsRegs (w : BitVec 64) : List Nat :=
  ([wSelA w, wSelB w, wSelC w] ++ if wOpcode w = 0x07 then [wSelD w] else []).filter (· < 16)

/-- Register an instruction writes, or 255. -/
def writesReg (w : BitVec 64) : Nat := wSelD w

/-! ## Objects an instruction names (02 R54, 03 R74) -/

/-- Kinds: 0 a gathering, 1 a sequence, 2 a page. -/
abbrev ObjName := Nat × Nat

/-- The gatherings and sequences a flight names in its operands (02 R54); the pages it names follow from its sequence's table (`State.pagesNamed`). -/
def Flight.names (x : Flight) : List ObjName :=
  match wOpcode x.word with
  | 0x02 => if fld x.a.toNat 0 8 = 1 then [(0, gField x.a)] else []
  | 0x11 => [(1, sSeq x.a)]
  | 0x12 => [(1, sSeq x.a), (1, fld x.b.toNat 0 24)]
  | 0x13 => [(1, sSeq x.a)]
  | 0x14 => [(1, sSeq x.a)]
  | 0x20 => (0, gField x.a) :: (if x.a.getLsbD 52 then [] else [(1, fld x.a.toNat 28 24)])
  | 0x21 => [(1, sSeq x.a)]
  | 0x22 => [(1, sSeq x.a)]
  | 0x23 => [(1, sSeq x.a)]
  | 0x24 => [(1, sSeq x.a)]
  | 0x25 => [(1, sSeq x.a)]
  | 0x30 => [(0, gField x.a)]
  | 0x31 => [(0, gField x.a)]
  | 0x33 => [(0, gField x.a)]
  | 0x40 => [(0, gField x.a)]
  | 0xFF => (1, fld x.a.toNat 0 24) :: (if x.a.getLsbD 24 then [] else [(0, fld x.a.toNat 32 12)])
  | _ => []

/-- The gatherings among them. -/
def Flight.gathNames (x : Flight) : List Nat := x.names.filterMap fun p => if p.1 = 0 then some p.2 else none

/-- COMPLETE in effect: the flag, or tenant data of a confidential context (02 R45, 12 R375). -/
def wantsEntry (conf : Bool) (w : BitVec 64) : Bool :=
  wComplete w || (conf && [0x25, 0x30, 0x31, 0x38].contains (wOpcode w))

end Sys2Proof.Machine
end

