-- ==== Sys2Proof/Machine/Flags.lean ====
section
/-! DEFINITION. What an instruction's ending sets: destination, refusal latch, fault stop, counters (02 R34, R50, R53, R61 to R63, 03 R108);
landing flags (03 R73); the phase of the completion ring (02 R59). -/
namespace Sys2Proof.Machine
open Sys2Proof

/-! ## Landing flags (03 R73) -/

/-- Every landing flag of `n` sheets from `lo` of the input buffer is set. -/
def Ctx.landed (x : Ctx) (lo n : Nat) : Bool := (List.range n).all fun i => x.landing.get (lo + i) false
/-- Clears those flags. -/
def Ctx.clearLanding (x : Ctx) (lo n : Nat) : Ctx :=
  { x with landing := x.landing.filter fun p => !(lo ≤ p.1 && p.1 < lo + n) }
/-- Sets the flag of every sheet that a byte range of the input buffer touches. -/
def Ctx.setLanding (x : Ctx) (off n : Nat) : Ctx :=
  if n = 0 then x
  else { x with landing := (List.range ((off + n - 1) / 4096 - off / 4096 + 1)).foldl (fun t i => t.set (off / 4096 + i) true false) x.landing }

/-! ## Ending -/

/-- The refusal latch takes the first refusal to end, and keeps it until a BRANCH clears it (02 R53; log 122). -/
def latchAfter (latch st : BitVec 16) : BitVec 16 := if stClass st = 2 ∧ latch = 0 then st else latch

/-- RESULT by status (03 R108): success and notice classes, and the two publish refusals, which carry the committed version. -/
def resultOf (st : BitVec 16) (res : BitVec 64) : BitVec 64 :=
  if stClass st ≤ 1 ∨ st = stConflict ∨ st = stSuperseded then res else 0

/-- The catchword is reported by ATTEND and COMBINE with the flag set and an effect taken (02 R62, 03 R108). -/
def catchwordOf (w : BitVec 64) (st : BitVec 16) (cw : Option (BitVec 64)) : Option (BitVec 64) :=
  if wCatchword w && decide (stClass st ≤ 1) && (wOpcode w == 0x30 || wOpcode w == 0x31) then cw else none

/-- Cancels the read of a ring that is under way, whose completion will come nevertheless (02 R34, R52). -/
def Ring.cancel (r : Ring) : Ring := if r.reading = 0 then r else { r with reading := 0, stray := r.stray ++ [r.fetch] }
/-- Discards what ring `n` has fetched and not dispatched: FETCH_n goes back to the first of it (02 R34). -/
def Ring.unfetch (r : Ring) : Ring :=
  match r.fetched with
  | [] => r.cancel
  | e :: _ => { r.cancel with fetched := [], fetch := e.index, left := r.left + Int.ofNat ((r.fetch + 65536 - e.index) % 65536) }

/-- Every ring after `unfetch`. -/
def Ctx.unfetchAll (x : Ctx) : Ctx := x.rings.foldl (fun y p => y.updRing p.1 Ring.unfetch) x

/-- A fault ending of an ACTIVE context stops it and fills the FAULT fields (02 R34, R61). -/
def Ctx.faultStop (x : Ctx) (ring : Nat) (st tag : BitVec 16) : Ctx :=
  { x.unfetchAll with faultStatus := st, faultTag := tag, faultRing := ring }

/-- Frees the Quires that a flight holds (02 R40); when none is held any more, an idle period begins (15 R457). -/
def State.dropQuires (s : State) (f : Nat) : State :=
  let rest := s.fq.held.filter fun p => p.2 != f + 1
  { s with fq := { s.fq with held := rest }, pwr := { s.pwr with idleFrom := if rest.isEmpty && !s.fq.held.isEmpty then s.now else s.pwr.idleFrom } }

/-- Returns every credit, walker slot and Quire that flight `f` holds. -/
def State.dropHolds (s : State) (f : Nat) : State :=
  let x := s.flight f
  let s := x.holds.foldl (fun s i => s.freeCredits i 1) s
  let s := match x.walker with | some i => s.dropWalker i | none => s
  let s := s.dropQuires f
  s.updFlight f fun x => { x with holds := [], wantCredit := none, walker := none, stallOn := none }

/-- The counters of an ending (13 R422). -/
def State.countEnd (s : State) (fn : Nat) (st : BitVec 16) : State :=
  let s := s.countFn fn 20 1
  let s := if stClass st = 3 then s.countFn fn 21 1 else s
  let s := if stClass st = 2 then s.countFn fn 22 1 else s
  let s := if st = stQuota then s.countFn fn 23 1 else s
  if st = stBudget then s.countFn fn 24 1 else s

/-- The context's side of an ending: destination register, latch, stop (02 R50, R53, R61). -/
def State.endCtx (s : State) (f : Nat) (st : BitVec 16) (res : BitVec 64) : State :=
  let x := s.flight f
  let s := if stClass st ≤ 1 ∧ wSelD x.word < 16 then s.updCtx x.ctx fun c => c.setReg (wSelD x.word) res else s
  let s := s.updCtx x.ctx fun c => c.updRing x.ring fun r => { r with latch := latchAfter r.latch st }
  if stClass st = 3 then
    match (s.ctx x.ctx).state with
    | .active =>
      let s := s.updCtx x.ctx fun c => c.faultStop x.ring st (wTag x.word)
      (s.ctxTo x.ctx .stopped).updFlight f fun x => { x with stop := true }
    | .stopped =>
      (s.updCtx x.ctx fun c => { c with faultMore := min (c.faultMore + 1) 255 }).updFlight f fun x => { x with more := true }
    | _ => s
  else s

/-- The word that stands for a PUT_PAGES among the dispatched instructions: no opcode (10 R323). -/
abbrev putWord : BitVec 64 := 0xFFFFFFFF000000FF
/-- Retires pages that an instruction has taken and that nothing refers to. -/
def State.retireTaken (s : State) (ps : List Nat) : State :=
  if ps.isEmpty then s else (ps.foldl (fun s i => s.updPage i fun g => { g with refcount := 0, state := .retiring }) s).retire { pages := ps }
/-- The end of a PUT_PAGES: its extent has one begun request fewer; a failure retires every page it created (10 R324, R327). -/
def State.putEnd (s : State) (p : Putting) (ok : Bool) : State :=
  let s := s.updExt p.ext fun e => { e with begun := e.begun - 1 }
  if ok then s else s.retireTaken ((List.range p.made).map (p.base + ·))
/-- The work a flight holds is given up: a PUT_PAGES ends, and the blocks that an APPEND has allocated and not filled are retired (03 R94). -/
def State.dropJob (s : State) (j : Job) (ok : Bool) : State :=
  match j with
  | .put p => s.putEnd p ok
  | .growing blocks layers => s.retireTaken (blocks.flatMap fun b => (List.range layers).map (b + ·))
  | _ => s
/-- Counts the engine-cycles for which `e` engines of an instruction waited on a cause, `n` being the cycles in which some of them did: from `n` to
`e * n`, a free number, the model not seeing the engines inside a Quire (01 R22, 13 R422; log 94). -/
def State.countWaits (s : State) (fn e : Nat) (c : Cause × Nat) : State :=
  if e ≤ 1 then s.countFn fn (11 + c.1.num) c.2
  else
    let (v, s) := s.draw
    s.countFn fn (11 + c.1.num) (c.2 + v % (c.2 * (e - 1) + 1))
/-- The engines that work for a flight: a Quire's DMA agent and its sixteen Folios for each Quire that it holds, else one (01 R21). -/
def State.enginesOf (s : State) (f : Nat) : Nat := max 1 (17 * (s.fq.held.filter fun p => p.2 == f + 1).length)
/-- Ends flight `f` with a status, a result and a catchword (02 R50 to R63, 03 R108). A mirrored Vanged request (10 R318) writes no
register or latch of its owner and stops no context. -/
def State.finish (s : State) (f : Nat) (st : BitVec 16) (res : BitVec 64) (cw : Option (BitVec 64)) : State :=
  let x := s.flight f
  let e := s.enginesOf f
  let s := s.dropJob x.job (decide (stClass st ≤ 1))
  let s := s.dropHolds f
  let s := s.updFlight f fun x => { x with
    phase := .ended, status := st, result := resultOf st res, catchword := catchwordOf x.word st cw, job := .none, waitsFor := [] }
  let s := if x.word = putWord then s else s.countEnd (s.fnOf x.ctx) st
  let s := x.waited.foldl (fun s c => s.countWaits (s.fnOf x.ctx) e c) s
  if x.mirror.isSome then s else s.endCtx f st res

/-- Ends flight `f` with a status and result 0. -/
def State.fail (s : State) (f : Nat) (st : BitVec 16) : State := s.finish f st 0 none

/-- Marks flight `f` begun, with progress now (02 R54, 13 R410). -/
def State.begin (s : State) (f : Nat) : State := s.updFlight f fun x => { x with phase := .begun, progress := s.now }

/-- Sets the work flight `f` holds between its steps. -/
def State.setJob (s : State) (f : Nat) (j : Job) : State :=
  s.updFlight f fun x => { x with phase := .begun, job := j, progress := s.now }

/-- Flight `f` stalls on a cause, or on none (01 R21). -/
def State.stall (s : State) (f : Nat) (c : Option Cause) : State := s.updFlight f fun x => { x with stallOn := c }

/-- Cycles of all causes. -/
def stallSum (l : List (Cause × Nat)) : Nat := l.foldl (fun a p => a + p.2) 0
/-- Total stall cycles, saturating at 32 bits (02 R58). -/
def stallTotal (l : List (Cause × Nat)) : Nat := min (stallSum l) 0xFFFFFFFF

/-- The cause with most stall cycles; among equals the one whose first cycle came earlier (01 R22). 0: none. -/
def stallCause (l : List (Cause × Nat)) : Nat :=
  (l.foldl (fun (b : Nat × Nat) p => if p.2 > b.2 then (p.1.num, p.2) else b) (0, 0)).1

/-- One more stall cycle of a cause, in order of first cycles. -/
def addStall (l : List (Cause × Nat)) (c : Cause) (n : Nat) : List (Cause × Nat) :=
  match l with
  | [] => [(c, n)]
  | (d, k) :: r => if d = c then (d, k + n) :: r else (d, k) :: addStall r c n

/-- Stall cause of a wait on a tier (05 R166, R177). -/
def lateCause (tier : Nat) : Cause := if tier = 2 then .t2Late else .t1Late
/-- Stall cause of a failed read of a tier. -/
def failCause (tier : Nat) : Cause := if tier = 2 then .t2Fail else .t1Fail
/-- The cycles of a wait that fails, those counted since `base`, go to the FAIL cause of the tier, whatever they waited for (05 R167, R174). -/
def failStalls (l base : List (Cause × Nat)) (tier : Nat) : List (Cause × Nat) :=
  if stallSum l ≤ stallSum base then l else addStall base (failCause tier) (stallSum l - stallSum base)
/-- The pages that an instruction waits for (05 R166). -/
def Job.waits : Job → List Nat
  | .pages w _ => w
  | .deliver w _ => w
  | .attend w _ => w
  | _ => []
/-- One page fewer to wait for. -/
def Job.without (p : Nat) : Job → Job
  | .pages w n => .pages (w.erase p) n
  | .deliver w d => .deliver (w.erase p) d
  | .attend w a => .attend (w.erase p) a
  | j => j
/-- Flight `f` begins a wait: what it holds, the cause it stalls on, and its cycles so far (01 R21, 05 R167). -/
def State.waitOn (s : State) (f : Nat) (j : Job) (c : Option Cause) : State :=
  s.updFlight f fun x => { x with phase := .begun, job := j, progress := s.now, stallOn := c, waitBase := x.stalls, waitedBase := x.waited }

/-! ## Completion entries (02 R58, R59) -/

/-- The 32 bytes of a completion entry. -/
def completionBytes (tag st : BitVec 16) (cause load ring : Nat) (cw : Option (BitVec 64)) (stop phase : Bool)
    (result : BitVec 64) (cycles index : Nat) : Bytes :=
  leBytes 8 (tag.toNat + st.toNat * 2 ^ 16 + cause * 2 ^ 32 + load * 2 ^ 40 + ring * 2 ^ 48 + b2n cw.isSome * 2 ^ 51 +
      b2n stop * 2 ^ 52 + b2n phase * 2 ^ 63) ++
    leBytes 8 result.toNat ++ leBytes 8 (cw.getD 0).toNat ++ leBytes 8 (cycles + index * 2 ^ 32)

/-- Writes 32 bytes at entry `i` of a ring of the context whose base and location are given (02 R59, 12 R376). -/
def State.ringWrite (s : State) (c loc base depth i : Nat) (b : Bytes) : State :=
  let addr := base * 4096 + 32 * (i % depth)
  if loc = 1 then s.t0Write addr b else s.upWrite c addr b

/-- Advances CTAIL; PHASE inverts when it wraps to entry 0 (02 R59). -/
def Ctx.advance (x : Ctx) : Ctx :=
  let t := (x.ctail + 1) % 65536
  { x with ctail := t, cused := x.cused + 1, cphase := if t % 2 ^ (6 + x.csize) = 0 then !x.cphase else x.cphase }

end Sys2Proof.Machine
end

