-- ==== Sys2Proof/Machine/NetOps.lean ====
section
/-! DEFINITION. Sending on a queue pair and its error entry (10 R303 to R309, 11 R336, R337, R343), and where an instruction's output goes (03 R99, R104, 12 R375). -/
namespace Sys2Proof.Machine
open Sys2Proof

/-- Bytes of a packet's payload at most (10 R302 PMTU). -/
def Qp.mtu (q : Qp) : Nat := 1024 * 2 ^ q.pmtu

/-- Length of a frame (11 R336): MAC header, VLAN tag, IP, UDP, BTH, extension headers, payload padded to 4, ICRC, FCS. -/
def Qp.frameLen (q : Qp) (op n : Nat) : Nat :=
  let ext := if q.multipath then 32
    else if op = 0x06 ∨ op = 0x0A ∨ op = 0x0C then 16
    else if op = 0x0D ∨ op = 0x0F ∨ op = 0x10 then 4 else 0
  14 + (if q.vlan = 0 then 0 else 4) + (if q.ipv6 then 40 else 20) + 8 + 12 + ext + cdiv n 4 * 4 + 4 + 4

/-- Index of the queue of port, subscriber and service (11 R343). -/
def queueIdx (p sub v : Nat) : Nat := 2048 * p + 8 * sub + v

/-- Service of a message: the migration service takes delivery and publication messages of a bulk queue pair (11 R337). -/
def State.service (s : State) (q v : Nat) : Nat := if (v = 1 ∨ v = 2) ∧ s.eg.bulk.get q false then 4 else v

/-- Appends frames to the queue of their queue pair and service (11 R343). -/
def State.enqueue (s : State) (q v : Nat) (fs : List Frame) : State :=
  let x := s.qp q
  let k := queueIdx x.port x.subscriber v
  { s with eg := { s.eg with queues := s.eg.queues.upd k [] fun l => l ++ fs } }

/-- BTH opcode of packet `i` of `n` of a Send (base 0x00) or a Write (base 0x06). -/
def pktOp (multi : Bool) (write : Bool) (i n : Nat) : Nat :=
  if multi then (if write then 0xC1 else 0xC0)
  else
    let b := if write then 6 else 0
    if n = 1 then b + 4 else if i = 0 then b else if i + 1 = n then b + 2 else b + 1

/-- The frames of a Send or a Write of `data` (10 R306, R310: every packet but the last carries PMTU bytes). -/
def State.messageFrames (s : State) (q : Nat) (write : Bool) (v va rkey : Nat) (data : Bytes) (flight : Nat) (counted dirKeys : Bool) : List Frame :=
  let x := s.qp q
  let n := max 1 (cdiv data.length x.mtu)
  (List.range n).map fun i =>
    let p := (data.drop (i * x.mtu)).take x.mtu
    let op := pktOp x.multipath write i n
    { qp := q, svc := v, op := op, va := va, rkey := rkey, mlen := data.length, offset := i * x.mtu, msn := x.msn, payload := p,
      len := x.frameLen op p.length, flight := flight, counted := counted, dirKeys := dirKeys, since := s.now }

/-- Queues a Send or a Write as one message of its service. -/
def State.sendMessage (s : State) (q : Nat) (write : Bool) (svc va rkey : Nat) (data : Bytes) (flight : Nat) (counted dirKeys : Bool) : State :=
  let v := s.service q svc
  let fs := s.messageFrames q write v va rkey data flight counted dirKeys
  (s.enqueue q v fs).updQp q fun x => { x with msn := (x.msn + 1) % 2 ^ 24 }

/-- Queues an RDMA Read request of `n` bytes (10 R323). -/
def State.sendRead (s : State) (q svc va rkey n flight : Nat) : State :=
  let x := s.qp q
  let v := s.service q svc
  let op := if x.multipath then 0xC2 else 0x0C
  let f : Frame :=
    { qp := q, svc := v, op := op, va := va, rkey := rkey, mlen := n, msn := x.msn, len := x.frameLen op 0,
      psns := max 1 (cdiv n x.mtu), flight := flight, counted := true, since := s.now }
  (s.enqueue q v [f]).updQp q fun x => { x with msn := (x.msn + 1) % 2 ^ 24 }

/-- Queues the responses to an inbound read, under the request's PSNs (10 R301, 11 R337: delivery). -/
def State.sendReadResponse (s : State) (q psn msn : Nat) (data : Bytes) : State :=
  let x := s.qp q
  let v := s.service q 1
  let n := max 1 (cdiv data.length x.mtu)
  s.enqueue q v <| (List.range n).map fun i =>
    let p := (data.drop (i * x.mtu)).take x.mtu
    let op := if x.multipath then 0xC3 else if n = 1 then 0x10 else if i = 0 then 0x0D else if i + 1 = n then 0x0F else 0x0E
    { qp := q, svc := v, op := op, mlen := data.length, offset := i * x.mtu, msn := msn, payload := p, len := x.frameLen op p.length,
      since := s.now, psn := (psn + i) % 2 ^ 24 }

/-- Puts a bypass frame on the queue pair's port (11 R338). -/
def State.sendBypass (s : State) (p : Nat) (b : Bypass) : State :=
  { s with eg := { s.eg with bypass := s.eg.bypass.upd p [] fun l => l ++ [b] } }

/-- A frame is a response to an inbound read: it takes no PSN of its own and is not acknowledged. -/
def Frame.isResponse (f : Frame) : Bool := f.op == 0xC3 || (0x0D ≤ f.op && f.op ≤ 0x10)

/-- Frames of a queue pair still in its queues. -/
def State.queued (s : State) (q : Nat) : List Frame := s.eg.queues.flatMap fun k => k.2.filter fun f => f.qp == q

/-- A packet is a read request: its responses retire it. -/
def SentPkt.isRead (p : SentPkt) : Bool := p.frame.op == 0xC || p.frame.op == 0xC2
/-- A packet still owes its flight something: a write its acknowledgement, a read its responses (10 R305, R306). -/
def SentPkt.owes (p : SentPkt) : Bool := !p.acked || p.isRead

/-- Flights served by queued frames and unacknowledged packets of a queue pair. -/
def State.qpFlights (s : State) (q : Nat) : List Nat :=
  ((((s.queued q).filter fun f => !f.again).map (·.flight)) ++ (((s.qp q).sent.filter SentPkt.owes).map fun p => p.frame.flight)).filter (· != 0) |>.map (· - 1)
    |>.eraseDups

/-- Flight `f` has writes or reads not yet acknowledged. -/
def State.outstanding (s : State) (f : Nat) : Bool :=
  s.eg.queues.any (fun k => k.2.any fun x => x.flight == f + 1 && !x.again) ||
    s.net.qps.any fun p => p.2.sent.any fun x => x.frame.flight == f + 1 && x.owes

/-- Bytes in flight of a subscriber (10 R321). -/
def State.subInFlight (s : State) (sub : Nat) : Nat :=
  s.net.qps.foldl (fun a p =>
    if p.2.subscriber = sub then
      a + (s.queued p.1).foldl (fun a f => if f.counted && !f.again then a + max f.payload.length (if f.psns > 1 ∨ f.op = 0x0C ∨ f.op = 0xC2 then f.mlen else 0) else a) 0 +
        p.2.sent.foldl (fun a x => if x.frame.counted && x.owes then a + max x.frame.payload.length (if x.frame.op = 0x0C ∨ x.frame.op = 0xC2 then x.frame.mlen else 0) else a) 0
    else a) 0

/-- Takes frames out of the egress queues; a subscriber's queue or a service that empties loses its deficit (11 R345). -/
def State.dropFrames (s : State) (gone : Frame → Bool) : State :=
  let left : Tbl (List Frame) := s.eg.queues.filterMap fun k =>
    let l := k.2.filter fun f => !gone f
    if l.isEmpty then none else some (k.1, l)
  let emptied := (s.eg.queues.filter fun k => !(left.any fun l => l.1 == k.1)).map (·.1)
  { s with eg := { s.eg with
      queues := left
      subDeficit := emptied.foldl (fun t k => Tbl.del t (2048 * (k / 2048) + 256 * (k % 8) + k / 8 % 256)) s.eg.subDeficit
      svcDeficit := emptied.foldl (fun t k => if left.any fun l => l.1 / 2048 == k / 2048 && l.1 % 8 == k % 8 then t else Tbl.del t (8 * (k / 2048) + k % 8))
        s.eg.svcDeficit } }
/-- Removes every frame of a queue pair from the egress queues (11 R357), and its acknowledgements from the bypass frames: outside RTR and
RTS it sends nothing but the NAK of its fault (10 R304, R305). -/
def State.unqueue (s : State) (q : Nat) : State :=
  let s := s.dropFrames fun f => f.qp == q
  { s with eg := { s.eg with bypass := s.eg.bypass.filterMap fun b =>
      let l := b.2.filter fun f => !(f.qp == q && decide (f.kind < 3))
      if l.isEmpty then none else some (b.1, l) } }

/-- Ends a queue pair's outstanding work with a status (10 R305): the instructions it served end so; Vanged requests received (their
Sends complete) and not begun are discarded and counted, and each key message not delivered once (10 R331). -/
def State.flushQp (s : State) (q : Nat) (st : BitVec 16) : State :=
  let x := s.qp q
  let fl := s.qpFlights q
  let keys := ((s.queued q).filter fun f => f.dirKeys && !f.again) ++ (x.sent.filter fun p => p.frame.dirKeys && !p.acked).map (·.frame)
  let lost := (keys.map (·.msn)).eraseDups.length
  let requests := x.slots.length + (x.msgs.filter fun m => m.isSend && m.done).length
  let s := s.unqueue q
  let s := s.updQp q fun x => { x with sent := [], msgs := [], held := [], above := [], gapAt := none, unacked := 0, slots := [], running := [] }
  let s := { s with net := { s.net with accepted := s.net.accepted.filter fun p => p.1 != q } }
  let s := { s with
    flights := s.flights.map fun (p : Nat × Flight) => match p.2.mirror with | some (r, n) => if r = q then (p.1, { p.2 with mirror := some (q + 65536, n) }) else p | none => p
    net := { s.net with exts := s.net.exts.map fun (e : Nat × Ext) => match e.2.returnTo with | some (r, n) => if r = q then (e.1, { e.2 with returnTo := some (q + 65536, n) }) else e | none => e } }
  let s := s.countFn x.function 8 requests
  let s := s.countDev 6 lost
  fl.foldl (fun s f => if (s.flight? f).isSome && (s.flight f).phase != .ended then s.fail f st else s) s

/-- Status of flushed work by cause (10 R304). -/
def causeStatus (c : Nat) : BitVec 16 := if c = 1 ∨ c = 6 then stTimeout else stRemote

/-- A queue pair enters ERROR (10 R304, R305). -/
def State.qpError (s : State) (q cause : Nat) : State :=
  let x := s.qp q
  if x.state == .rtr || x.state == .rts then
    let s := if cause = 4 then s.sendBypass x.port { kind := 4, qp := q, psn := x.rqPsn }
      else if cause = 5 then s.sendBypass x.port { kind := 3, qp := q, psn := x.rqPsn } else s
    let s := s.updQp q fun x => { x with state := .error, errCause := cause }
    let s := s.trace 1 [q, 4, cause]
    let s := s.report { cls := 2, source := 9, code := 0x10, fn := some x.function, ctx := some x.owner, status := causeStatus cause, object := q, detail := cause }
    s.flushQp q (causeStatus cause)
  else s

/-- A queue pair goes to RESET (10 R303, R305): its entries end with ABORTED. -/
def State.qpReset (s : State) (q : Nat) : State :=
  let x := s.qp q
  if x.state == .reset then s
  else
    let s := s.updQp q fun x => { x with state := .reset, running := [] }
    let s := s.trace 1 [q, 0, x.errCause]
    s.flushQp q stAborted

/-! ## Outputs -/

/-- Another instruction of the context holds the next seal message (12 R375: entries and messages are numbered together). -/
def State.sealTaken (s : State) (c f : Nat) : Bool := s.flights.any fun p => p.1 != f && p.2.ctx == c && p.2.sealedAs.isSome

/-- The IV of a seal message (12 R375). -/
def sealIv (oseq c keygen : Nat) : Bytes := leBytes 12 (oseq + (c % 1024) * 2 ^ 64 + (keygen % 65536) * 2 ^ 80)

/-- Key, KEYGEN of a confidential context (12 R369, R374). -/
def State.sealKey (s : State) (c : Nat) : Bytes := leBytes 32 (s.sec.ctxs.get c {}).key.toNat

/-- Writes a piece of output to one destination (03 R99, R104). -/
def State.place (s : State) (f : Nat) (data : Bytes) (svc : Nat) (counted : Bool) (d : Dest) : State :=
  let b := (data.drop d.off).take d.len
  let x := s.flight f
  if d.kind = 0 then s.t0Write d.addr b
  else if d.kind = 1 then s.sendMessage d.qp true svc d.addr d.rkey b (f + 1) counted false
  else s.upWrite x.ctx d.addr b

/-- Writes an instruction's output, counted in flight for its subscriber when it is a GET_PAGES write or an ATTEND's (10 R321): in clear, or for a confidential context as the ciphertext of its seal message (12 R375).
None while another instruction of that context holds the next message. -/
def State.output (s : State) (f : Nat) (data : Bytes) (ds : List Dest) (svc : Nat) : Option State :=
  let x := s.flight f
  let counted := x.mirror.isSome || wOpcode x.word == 0x30
  if (s.ctx x.ctx).conf && x.mirror.isNone then
    if s.sealTaken x.ctx f then none
    else
      let k := s.sec.ctxs.get x.ctx {}
      let c := gcmCrypt (s.sealKey x.ctx) (sealIv k.oseq x.ctx k.keygen) data
      let s := s.updFlight f fun x => { x with tenant := data, sealedAs := some k.oseq }
      some (ds.foldl (fun s d => s.place f c svc counted d) s)
  else some (ds.foldl (fun s d => s.place f data svc counted d) s)

/-- Ends a flight once nothing it sent is unacknowledged; else it waits with this ending (02 "completed", 10 R305). -/
def State.finishWrites (s : State) (f : Nat) (st : BitVec 16) (res : BitVec 64) (cw : Option (BitVec 64)) : State :=
  if s.outstanding f then s.setJob f (.writes st res cw) else s.finish f st res cw

/-- After acknowledgements: flights whose last write is acknowledged end. -/
def State.settleWrites (s : State) (fl : List Nat) : State :=
  fl.foldl (fun s f =>
    match (s.flight f).job with
    | .writes st res cw => if s.outstanding f then s else s.finish f st res cw
    | _ => s) s

/-! ## Vanged responses (10 R317, R318, R321) -/

/-- Service of a response by its type (11 R337). -/
def vangedService (typ : Nat) : Nat :=
  if typ = 1 then 0 else if typ = 2 then 1 else if typ = 3 ∨ typ = 4 then 2 else if typ = 5 ∨ typ = 6 then 3 else 5

/-- The largest REQ_SEQ up to which every request of the queue pair has ended (10 R321). -/
def Qp.doneSeq (q : Qp) : Nat :=
  let age (r : Nat) := (q.expect + 2 ^ 32 - r) % 2 ^ 32
  (q.expect + 2 ^ 32 - 1 - q.running.foldl (fun a r => max a (age r)) 0) % 2 ^ 32

/-- `a` is later than `b` in serial order mod 2^32 (10 R321). -/
def later32 (a b : Nat) : Bool := let d := (a + 2 ^ 32 - b % 2 ^ 32) % 2 ^ 32; d != 0 && decide (d < 2 ^ 31)

/-- The credit grant of the next response (10 R321). -/
def State.grantCredit (s : State) (q : Nat) : Nat :=
  let x := s.qp q
  let u := s.sub x.subscriber
  let done := x.doneSeq
  let g := if s.subInFlight x.subscriber ≥ u.byteWindow * 1024 then done else (done + u.reqWindow) % 2 ^ 32
  if later32 g x.credit then g else x.credit

/-- The 32-byte header of a Vanged message (10 R317). -/
def vangedHeader (typ : Nat) (response inline dir : Bool) (reqSeq load credit extent len : Nat) : Bytes :=
  leBytes 32 (1 + typ * 2 ^ 8 + b2n response * 2 ^ 16 + b2n inline * 2 ^ 17 + b2n dir * 2 ^ 18 + reqSeq * 2 ^ 32 + load * 2 ^ 64 +
    credit * 2 ^ 96 + extent * 2 ^ 128 + len * 2 ^ 160)

/-- The queue pair of a mirrored request whose response is to be discarded: its number + 65,536 (10 R305). -/
abbrev deadQp : Nat := 65536
/-- Sends a response: header, completion entry with RING 0 and INDEX from REQ_SEQ, then its data (10 R318); its PHASE is a free value (log 3).
A queue pair that is not in RTS discards it and counts (10 R305). -/
def State.sendResponse (s : State) (q typ reqSeq extent : Nat) (tag st : BitVec 16) (res : BitVec 64) (cw : Option (BitVec 64))
    (stalls : List (Cause × Nat)) (data : Bytes) : State :=
  if (s.qp q).state == .rts then
    let (v, s) := s.draw
    let c := s.grantCredit q
    let s := s.updQp q fun x => { x with credit := c }
    let e := completionBytes tag st (stallCause stalls) s.loadByte 0 cw false (v % 2 == 1) res (stallTotal stalls) (reqSeq % 65536)
    let body := e ++ data
    s.sendMessage q false (vangedService typ) 0 0 (vangedHeader typ true false false reqSeq s.loadByte c extent body.length ++ body) 0 false false
  else s.countFn (s.qp (q % deadQp)).function 8 1
/-- Ends a request of a queue pair with its response. -/
def State.respond (s : State) (q typ reqSeq extent : Nat) (tag st : BitVec 16) (res : BitVec 64) (cw : Option (BitVec 64))
    (stalls : List (Cause × Nat)) (data : Bytes) : State :=
  (if q < deadQp then s.updQp q fun x => { x with running := x.running.erase reqSeq } else s).sendResponse q typ reqSeq extent tag st res cw stalls data

/-- Type of the Vanged request that a mirrored instruction stands for (10 R318). -/
def mirrorType (w : BitVec 64) : Nat :=
  match wOpcode w with
  | 0x10 => 1
  | 0x25 => 2
  | 0x14 => 4
  | 0x30 => 5
  | 0x33 => 6
  | _ => 3

end Sys2Proof.Machine
end

