-- ==== Sys2Proof/Machine/Pages.lean ====
section
/-! DEFINITION. Pages, blocks, sequence tables, reference counts and classes (04 R111 to R150, 05 R153 to R163). -/
namespace Sys2Proof.Machine
open Sys2Proof

/-! ## Shapes (03 R101, 04 R122 to R126) -/

/-- Bytes of an element. -/
def GRec.width (g : GRec) : Nat := g.kvfmt + 1
/-- Bytes per token per layer (03 R101). -/
def GRec.ptok (g : GRec) : Nat :=
  if g.latent then (g.latentW + g.rope) * g.width else g.kvheads * g.headdim * 2 * g.width
/-- FORMAT of its pages (04 R122). -/
def GRec.format (g : GRec) : Nat := if g.latent then (if g.kvfmt = 0 then 4 else 3) else g.kvfmt + 1
/-- Groups of a summary: KV heads, or one (08 R255). -/
def GRec.groups (g : GRec) : Nat := if g.latent then 1 else g.kvheads
/-- Dimensions of a summary group. -/
def GRec.dims (g : GRec) : Nat := if g.latent then g.latentW + g.rope else g.headdim
/-- The latent formats. -/
def latentFormat (f : Nat) : Bool := f == 3 || f == 4
/-- Payload bytes of a full page (04 R124). -/
def Seq.payload (q : Seq) : Nat := q.ptok * q.tpp
/-- Summary record length in 256-byte units (04 R126). -/
def sumUnits (format ptok tpp : Nat) : Nat := cdiv (32 + max (if latentFormat format then 2 * ptok else ptok) (4 * tpp)) 256

/-! ## Handles (04 R111 to R113) -/

/-- The page ID names a page (04 R111). -/
def State.pageExists (s : State) (p : Nat) : Bool := decide (p < s.ps.limit) && (s.page p).state != .free
/-- The handle of a page (04 R112). -/
def State.handle (s : State) (p : Nat) : BitVec 64 :=
  let g := s.page p
  mkWord [(0, p), (40, g.version), (56, b2n (g.state == .sealed)), (57, b2n (decide (g.refcount > 1))), (58, b2n g.poison)]

/-! ## Port targets and home runs (05 R153, R155, R162) -/

/-- Bytes per fabric cycle of a port width (05 R152). -/
def portRate (width : Nat) : Nat := if width = 1 then 28 else if width = 2 then 57 else 115
/-- First T1 sheet of port `p` (05 R153). -/
def State.t1Base (s : State) (p : Nat) : Nat :=
  (List.range p).foldl (fun a i => if (s.port i).kind = 1 then a + (s.port i).sheets else a) 0
/-- The port of a home location (05 R153). -/
def State.locPort (s : State) (tier loc : Nat) : Nat :=
  if tier = 2 then fld loc 34 4
  else ((List.range 16).find? fun i => (s.port i).kind == 1 && decide (s.t1Base i ≤ loc ∧ loc < s.t1Base i + (s.port i).sheets)).getD 0
/-- Ports of a tier that spills and placements may use, in rotation from the tier's next port (05 R162). -/
def State.targets (s : State) (tier : Nat) : List Nat :=
  let start := if tier = 1 then s.tier.rotT1 else s.tier.rotT2
  ((List.range 16).map fun i => (start + i) % 16).filter fun p =>
    (s.port p).avail && !(s.port p).writeErr && (s.port p).kind == tier
/-- A free run of `n` sheets on port `p` of a tier, as a location (05 R153, R155). -/
def State.portRun (s : State) (tier p n pick : Nat) : Option Nat :=
  if tier = 1 then
    let lo := s.t1Base p
    let hi := min (lo + (s.port p).sheets) (2 ^ 30)
    if lo < hi then pickRun s.tier.t1Runs lo (hi - lo) n pick else none
  else
    let units := min ((s.port p).sheets / 4) (2 ^ 32)
    (pickRun s.tier.t2Runs (p * 2 ^ 32) units (cdiv n 4) pick).map fun u => p * 2 ^ 34 + u % 2 ^ 32 * 4
/-- First port of a tier, in rotation, that can take `n` sheets, and where. -/
def State.findTarget (s : State) (tier n pick : Nat) : Option (Nat × Nat) :=
  (s.targets tier).findSome? fun p => (s.portRun tier p n pick).map fun l => (p, l)
/-- Tiers a spill may use, in order (05 R162). -/
def State.spillTiers (s : State) : List Nat := if s.tier.spillOrder = 0 then [1, 2] else if s.tier.spillOrder = 1 then [1] else [2]
/-- A run of the swap area (05 R177). -/
def State.swapRun (s : State) (n pick : Nat) : Option Nat :=
  if s.tier.swapSize = 0 then none else pickRun s.tier.swapRuns 0 s.tier.swapSize n pick
/-- Marks a home run allocated. -/
def State.takeHome (s : State) (tier loc n : Nat) : State :=
  let t := s.tier
  if tier = 1 then
    let p := s.locPort 1 loc
    ({ s with tier := { t with t1Runs := t.t1Runs.put loc n, rotT1 := (p + 1) % 16 } }).updPort p fun x => { x with used := x.used + n }
  else if tier = 2 then
    let p := fld loc 34 4
    ({ s with tier := { t with t2Runs := t.t2Runs.put (p * 2 ^ 32 + fld loc 0 34 / 4) (cdiv n 4), rotT2 := (p + 1) % 16 } }).updPort p fun x => { x with used := x.used + n }
  else { s with tier := { t with swapRuns := t.swapRuns.put loc n } }
/-- Frees a home run of `n` sheets; a T2 run is deallocated on its drive (05 R154). -/
def State.freeHome (s : State) (tier loc n : Nat) : State :=
  let t := s.tier
  if tier = 1 then
    let p := s.locPort 1 loc
    ({ s with tier := { t with t1Runs := t.t1Runs.del loc } }).updPort p fun x => { x with used := x.used - n }
  else if tier = 2 then
    let p := fld loc 34 4
    let u := p * 2 ^ 32 + fld loc 0 34 / 4
    (({ s with tier := { t with t2Runs := t.t2Runs.del u } }).updPort p fun x => { x with used := x.used - n }).emitOut
      (.deallocate p loc (t.t2Runs.get u 0))
  else if tier = 3 then { s with tier := { t with swapRuns := t.swapRuns.del loc } }
  else s

/-! ## Copies (05 R156) -/

/-- Tier of a page's home copy, 0 none. -/
def State.homeTier (s : State) (p : Nat) : Nat :=
  let g := s.page p
  if g.tier ≠ 0 then g.tier else if g.aux = 0 then 0 else (s.auxRec g.aux).homeTier
/-- A prefetch hold is on the page (05 R157). -/
def State.held (s : State) (p : Nat) : Bool := (s.page p).aux != 0 && (s.auxRec (s.page p).aux).hold
/-- A T0 copy may be dropped (04 R148). -/
def State.canDrop (s : State) (p : Nat) : Bool :=
  let g := s.page p
  g.state == .sealed && g.tier == 0 && !g.moving && !g.poison && decide (0 < g.refcount) && s.homeTier p != 0 && g.cls != 0 && !s.held p
/-- A T0 copy may be spilled (04 R148). -/
def State.canSpill (s : State) (p : Nat) : Bool :=
  let g := s.page p
  g.state == .sealed && g.tier == 0 && !g.moving && !g.poison && decide (0 < g.refcount) && s.homeTier p == 0 && g.cls == 1
/-- Somewhere to spill a page of `n` sheets. -/
def State.spillRoom (s : State) (n : Nat) : Bool :=
  if s.small then (s.swapRun n 0).isSome else s.tier.spillEn && s.spillTiers.any fun t => (s.findTarget t n 0).isSome
/-- An auxiliary record is free; page `p` has one or can take one (04 R146). -/
def State.auxFree (s : State) : Bool := (pickRun s.ps.auxRuns 1 (s.regSize 3 * 64 - 1) 1 0).isSome
def State.auxFor (s : State) (p : Nat) : Bool := (s.page p).aux != 0 || s.auxFree
/-- A port can take a spill of `n` sheets, or T2 reclamation may make room for it in a tier that spills use (05 R162, R163). -/
def State.spillable (s : State) (n : Nat) : Bool :=
  s.spillRoom n || (s.spillTiers.contains 2 && s.ps.pages.any fun p => p.2.tier == 0 && s.homeTier p.1 == 2 && !p.2.moving)
/-- Round 2 of a reclaim pass can take page `p`: a page that may be spilled and has its auxiliary record, and that a port, or on the LG-4080 the swap
area, can take; there a victim sequence must hold it, and no prefetch hold be on it (05 R161, R162, R175). -/
def State.canYield (s : State) (p : Nat) : Bool :=
  s.tier.spillEn && s.canSpill p && s.auxFor p &&
    if s.small then !s.held p && s.spillRoom (s.page p).sheets &&
        s.ps.seqs.any fun q => q.2.state == 1 && q.2.entries.any fun e => decide (e.base ≤ p ∧ p < e.base + q.2.layers)
    else s.spillable (s.page p).sheets
/-- What an allocation found too little of: POOL, which eviction may yield; or SEQ, SUM, AUX or page IDs, which retirements alone do (04 R149). -/
inductive Short where
  | pool | table
deriving DecidableEq, Repr
/-- Retirements are pending; or, for POOL, a spill is asked for, or a reclaim pass that runs or that FREE_SHEETS below LOW starts has a page to take
(04 R149, 05 R161). -/
def State.mayYield (s : State) (k : Short) : Bool :=
  !s.ps.retired.isEmpty || (k == .pool && !s.dev.engineDown.get 4 false && (s.tier.moves.any (fun m => m.kind == .spill) ||
    ((s.tier.passing || decide (s.freeSheets < s.tier.low)) && s.ps.pages.any fun p => s.canDrop p.1 || s.canYield p.1)))
/-- A walker that waits for space holds no walker slot: its own would hold back the retirement it waits for (04 R138; log 125). -/
def State.leaveSlot (s : State) (f : Nat) : State :=
  match (s.flight f).walker with
  | some i => (s.dropWalker i).updFlight f fun x => { x with walker := none }
  | none => s
/-- A flight whose allocation found nothing waits while something may yield it, else ends with NO_SPACE (04 R149); it makes no progress while it
waits (13 R410). -/
def State.allocWait (s : State) (f : Nat) (k : Short) : State :=
  if s.mayYield k then
    let s := s.leaveSlot f
    match (s.flight f).job with
    | .allocating => s
    | _ => s.setJob f .allocating
  else s.fail f stNoSpace

/-- A drop: the descriptor names the home copy and the T0 sheets retire (05 R161). -/
def State.dropCopy (s : State) (p : Nat) : State :=
  let g := s.page p
  let a := s.auxRec g.aux
  if g.tier = 0 ∧ g.aux ≠ 0 ∧ a.homeTier ≠ 0 then
    (s.updPage p fun g => { g with tier := a.homeTier, location := a.homeLoc }).retire { pool := [g.location] }
  else s
/-- Retires the home copy of a page that has a T0 copy (05 R158). -/
def State.retireHome (s : State) (p : Nat) : State :=
  let g := s.page p
  let a := s.auxRec g.aux
  if g.tier = 0 ∧ g.aux ≠ 0 ∧ a.homeTier ≠ 0 then
    (s.updAux g.aux fun a => { a with homeTier := 0, homeLoc := 0 }).retire { homes := [(a.homeTier, a.homeLoc, g.sheets)] }
  else s

/-! ## Move requests (05 R165, R166) -/

/-- Priority of a move. -/
def MoveKind.prio : MoveKind → Nat
  | .demand => 1 | .prefetch => 2 | .stage => 2 | .cls => 3 | .placement => 4 | .spill => 4 | .demote => 4
/-- A move brings its page into T0. -/
def MoveKind.inward : MoveKind → Bool
  | .demand => true | .prefetch => true | .stage => true | .cls => true | .placement => false | .spill => false | .demote => false
/-- The move of a page. -/
def State.moveOf (s : State) (p : Nat) : Option Move := s.tier.moves.find? fun m => m.page == p
/-- Changes the move of a page. -/
def State.updMove (s : State) (p : Nat) (f : Move → Move) : State :=
  { s with tier := { s.tier with moves := s.tier.moves.map fun m => if m.page = p then f m else m } }
/-- Credit pool of a move: the Kettle's prefetch queue, else the move queue, the Gatherer's own moves included (01 R17; log 126). -/
def MoveKind.pool : MoveKind → Nat
  | .demand => 10 | .stage => 10 | .cls => 10 | .demote => 10 | .prefetch => 11 | .placement => 10 | .spill => 10
/-- An instruction that stalls on another page whose move holds its credit waits for the page: it takes no further credit (01 R25). -/
def State.stalledElsewhere (s : State) (p : Nat) : Bool :=
  s.flights.any fun x => x.2.stallOn.isSome && x.2.job.waits.contains p &&
    x.2.job.waits.any fun q => q != p && (match s.moveOf q with | some m => m.credit != 0 | none => false)
/-- A move may take its queue credit; a prefetch's, and that of one of the Gatherer's own moves, have no cap (01 R17, R25). -/
def State.mayCredit (s : State) (m : Move) : Bool :=
  if m.kind.own then decide (0 < s.avail m.kind.pool) else s.creditFree m.ctx m.kind.pool && !s.stalledElsewhere m.page
/-- Takes the queue credit of a move that holds none. -/
def State.moveCredit (s : State) (m : Move) : State × Bool :=
  let k := m.kind.pool
  if m.credit ≠ 0 then (s, true)
  else if s.mayCredit m then
    ((s.takeCredits k 1).updMove m.page fun m => { m with credit := k + 1 }, true)
  else (s, false)
/-- Another move waits for a credit of the same pool and may take it: it comes first (13 R397). -/
def State.moveWaited (s : State) (m : Move) : Bool :=
  s.tier.moves.any fun x => x.page != m.page && x.credit == 0 && x.kind.pool == m.kind.pool && s.mayCredit x
/-- A move that is asked for takes its queue credit at once unless another waits for one (13 R397). -/
def State.askCredit (s : State) (p : Nat) : State :=
  match s.moveOf p with
  | some m => if s.moveWaited m then s else (s.moveCredit m).1
  | none => s
/-- The Kettle asks for a page whose class move or stage waits: the move becomes its prefetch, and exchanges its move-queue credit for one of the
prefetch queue (01 R17, 05 R165, R170). -/
def State.toPrefetch (s : State) (m : Move) (pos gath : Nat) : State :=
  let s := if m.credit = 0 then s else s.freeCredits (m.credit - 1) 1
  (s.updMove m.page fun m => { m with kind := .prefetch, byKettle := true, pos := pos, gath := gath, credit := 0 }).askCredit m.page
/-- The causes that an instruction waits on in this cycle, the first of them the input it has waited for longest: of pages, the late causes of
those whose moves hold their credits, a wait for a credit being no stall (01 R16, R21, R23; 05 R166, R174). -/
def State.stallCauses (s : State) (x : Flight) : List Cause :=
  match x.stallOn, x.wantCredit with
  | some c, none =>
    if x.job.waits.isEmpty then [c]
    else
      let moving := x.job.waits.filter fun p => match s.moveOf p with | some m => m.credit != 0 | none => false
      (moving.map fun p => if c = .weightLate then c else lateCause (s.page p).tier).eraseDups
  | _, _ => []
/-- Asks for a move; a page has one at a time. A demand of a page whose inward move waits takes its priority, and what the Kettle asked of it
stays; one asked during a spill keeps the T0 copy; a placement takes the place of a spill that waits (05 R159, R165, R166, R174, R180). -/
def State.askMove (s : State) (kind : MoveKind) (p ctx pos gath : Nat) : State :=
  match s.moveOf p with
  | some m =>
    if kind.inward && !m.kind.inward then
      if m.kind = .spill ∧ m.started then s.updMove p fun m => { m with keep := true } else s
    else if kind = .prefetch ∧ m.started = false ∧ (m.kind = .cls ∨ m.kind = .stage) then s.toPrefetch m pos gath
    else if kind = .placement ∧ m.kind = .spill ∧ m.started = false then s.updMove p fun m => { m with kind := .placement }
    else if kind.inward && !m.started && kind.prio < m.kind.prio then
      s.updMove p fun m => { m with kind := kind, pos := if m.kind = .prefetch then m.pos else pos, gath := if m.kind = .prefetch then m.gath else gath }
    else s
  | none =>
    let m : Move := { page := p, kind := kind, order := s.tier.nextOrder, pos := pos, gath := gath, byKettle := kind == .prefetch, ctx := ctx, asked := s.now }
    let s := { s with tier := { s.tier with moves := s.tier.moves ++ [m], nextOrder := s.tier.nextOrder + 1 } }
    s.askCredit p

/-! ## Classes and hints (03 R85, R97; 05 R157 to R161) -/

/-- Entries of current tables that hold the block at `base`. -/
def State.holders (s : State) (base : Nat) : List Entry := s.ps.seqs.flatMap fun p => p.2.entries.filter fun e => e.base == base
/-- Holders whose request is class `k`. -/
def tally (es : List Entry) (k : Nat) : Nat := (es.filter fun e => e.cls == k).length
/-- Holders whose hint is `k`. -/
def hintTally (es : List Entry) (k : Nat) : Nat := (es.filter fun e => e.hint == k).length
/-- The effective class: the most T0-bound with a nonzero tally, else the one last in effect (05 R157). -/
def effClass (es : List Entry) (old : Nat) : Nat :=
  if tally es 0 ≠ 0 then 0 else if tally es 1 ≠ 0 then 1 else if tally es 2 ≠ 0 then 2 else if tally es 3 ≠ 0 then 3 else old
/-- The effective hint (05 R157). -/
def effHint (es : List Entry) : Nat := if hintTally es 1 ≠ 0 then 1 else if hintTally es 2 ≠ 0 then 2 else 0
/-- A cached copy of a page whose effective hint is cold, and on which no prefetch holds, is dropped (05 R161). -/
def State.dropCold (s : State) (p : Nat) : State := if (s.page p).hint = 2 ∧ s.canDrop p then s.dropCopy p else s
/-- What follows from a page's class and hint as they now stand, `old` being its class before (05 R158, R159, R161). -/
def State.classMoves (s : State) (p old ctx : Nat) : State :=
  let g := s.page p
  let s := if g.cls ≠ old ∧ g.state = .sealed then
      if g.cls ≤ 1 ∧ g.tier ≠ 0 then s.askMove .cls p ctx 0 0
      else if g.cls ≥ 2 ∧ g.tier = 0 ∧ s.homeTier p = 0 ∧ g.poison = false then s.askMove .placement p ctx 0 0
      else if g.cls = 0 ∧ g.tier = 0 then s.retireHome p
      else s
    else s
  s.dropCold p
/-- Sets the tallies, class and hint of one page of a block from its holders. -/
def State.reclassPage (s : State) (es : List Entry) (ctx p : Nat) : State :=
  let g := s.page p
  if g.state = .free then s
  else
    let s := s.updPage p fun g => { g with cls := effClass es g.cls, hint := effHint es }
    let s := if g.aux = 0 then s else s.updAux g.aux fun a =>
      { a with pin := tally es 0, spill := tally es 1, t1 := tally es 2, t2 := tally es 3, hot := hintTally es 1, cold := hintTally es 2 }
    s.classMoves p g.cls ctx
/-- The same for the `n` pages of a block. -/
def State.reclass (s : State) (base n ctx : Nat) : State :=
  let es := s.holders base
  (List.range n).foldl (fun s i => s.reclassPage es ctx (base + i)) s

/-! ## Reference counts (04 R144 to R146) -/

/-- Largest reference count (04 R145). -/
abbrev refMax : Nat := 16777215
/-- Every page of the blocks can take its further references (04 R145). -/
def State.refRoom (s : State) (bases : List Nat) (n : Nat) : Bool :=
  bases.all fun b => (List.range n).all fun i => decide ((s.page (b + i)).refcount + bases.count b ≤ refMax)
/-- Gives a page an auxiliary record when it has none (04 R146). -/
def State.needAux (s : State) (p : Nat) : Option State :=
  if (s.page p).aux ≠ 0 then some s
  else
    match s.takeAux with
    | none => none
    | some (i, s) =>
      let es := s.holders (p - (s.page p).origin.layer)
      some ((s.updPage p fun g => { g with aux := i }).updAux i fun _ =>
        { pin := tally es 0, spill := tally es 1, t1 := tally es 2, t2 := tally es 3, hot := hintTally es 1, cold := hintTally es 2 })
/-- One more reference to a page; its count rising above 1 needs an auxiliary record. -/
def State.addRef (s : State) (p : Nat) : Option State :=
  let s := s.updPage p fun g => { g with refcount := g.refcount + 1 }
  if (s.page p).refcount > 1 then s.needAux p else some s
/-- One more reference to each of pages; none where AUX has no record left. -/
def State.addRefs (s : State) : List Nat → Option State
  | [] => some s
  | p :: r => match s.addRef p with | some s => s.addRefs r | none => none
/-- The pages of blocks. -/
def blockPages (bases : List Nat) (n : Nat) : List Nat := bases.flatMap fun b => (List.range n).map (b + ·)
/-! ## Tables that cannot be read (04 R117, 13 R415) -/

/-- The first of some addresses whose granule cannot be read. -/
def State.lostOf (s : State) (l : List Nat) : Option Nat := if s.dev.pchDown.isEmpty then none else l.find? fun a => s.sheetBad (a / 4096)
/-- Addresses of the tree sheets on the path to entry `b` (04 R132). -/
def Seq.treeAddrs (q : Seq) (b : Nat) : List Nat :=
  (([0, 2 * (b / 262144) + 1, 2 * (b / 256) + 2].map fun k => q.tree.get k 0).filter (· != 0)).map (4096 * ·)
/-- Addresses an instruction reads for entries `b` to `b + n - 1` of a sequence: their tree sheets, and the descriptors of pages. -/
def State.tableAddrs (s : State) (q b n : Nat) (ps : List Nat) : List Nat :=
  ((List.range (min n ((s.seq q).entries.length - b))).flatMap fun i => (s.seq q).treeAddrs (b + i)) ++ ps.map s.descAddr
/-- Goes on with an instruction whose tables can be read; else it ends with POISONED. -/
def State.readable (s : State) (f : Nat) (l : List Nat) (k : State → State) : State :=
  match s.lostOf l with
  | none => k s
  | some a => let x := s.flight f; (s.badGranule 8 a (some (s.fnOf x.ctx)) (some x.ctx) stPoisoned (wTag x.word)).fail f stPoisoned
/-- Base pages of the entries from `b` on, those that cannot be read apart: RELEASE skips them, and their pages keep their references. -/
def State.heldBases (s : State) (q b : Nat) : List Nat :=
  let es := (s.seq q).entries
  ((List.range es.length).filter fun i => decide (b ≤ i) && (s.lostOf (s.headAddr q :: (s.seq q).treeAddrs i)).isNone).map fun i => (es.getD i {}).base

/-- One reference fewer to each page; those that fall to 0 become RETIRING and are returned (04 R121, R144). A page whose descriptor cannot be
read keeps its references. -/
def State.dropRefs (s : State) : List Nat → List Nat × State
  | [] => ([], s)
  | p :: r =>
    if (s.lostOf [s.descAddr p]).isSome then s.dropRefs r else
    let n := (s.page p).refcount - 1
    let s := s.updPage p fun g => { g with refcount := n, state := if n = 0 then .retiring else g.state }
    let (l, s) := s.dropRefs r
    (if n = 0 then p :: l else l, s)
/-- Drops the references of blocks, retires what is left without any, with tree sheets, and reclasses the rest (04 R137, R144). -/
def State.dropBlocks (s : State) (bases : List Nat) (n ctx : Nat) (sheets : List Nat) : State :=
  let (gone, s) := s.dropRefs (blockPages bases n)
  let s := if gone.isEmpty && sheets.isEmpty then s else s.retire { pages := gone, seqSheets := sheets }
  bases.foldl (fun s b => s.reclass b n ctx) s

/-! ## Charge (04 R150) -/

/-- CHARGE of a context. -/
def State.charge (s : State) (c : Nat) : Nat :=
  s.ps.seqs.foldl (fun a p => if p.2.state ≠ 0 ∧ p.2.owner = c then a + p.2.entries.length * p.2.layers else a) 0
/-- OK, or QUOTA when the context is above its quota. -/
def State.quotaStatus (s : State) (c : Nat) : BitVec 16 :=
  if (s.ctx c).quota ≠ 0 ∧ (s.ctx c).quota < s.charge c then stQuota else stOk

/-! ## Allocation of pages and blocks (04 R126, R128, R149; 05 R164) -/

/-- Page IDs that are not FREE, or that a PUT_PAGES has taken (10 R324), as runs. -/
def State.pageRuns (s : State) : Tbl Nat :=
  s.flights.foldl (fun t f => match f.2.job with | .put p => t.put p.base p.total | _ => t)
    (s.ps.pages.filterMap fun p => if p.2.state = .free then none else some (p.1, 1))
/-- The first of `n` consecutive free page IDs (04 R114, log 7), none of which has a descriptor that cannot be read (13 R415). -/
def State.pagePick (s : State) (n pick : Nat) : Option Nat :=
  match pickRun s.pageRuns 0 s.ps.limit n pick with
  | none => none
  | some a =>
    let ok (b : Nat) : Bool := (s.lostOf (s.descAddr (b + n - 1) :: (List.range (n / 128 + 1)).map fun i => s.descAddr (b + 128 * i))).isNone
    if ok a then some a
    else (List.range 4096).findSome? fun i =>
      let b := (a / 128 + i + 1) * 128 % max s.ps.limit 1
      if decide (b + n ≤ s.ps.limit) && runFree s.pageRuns b n && ok b then some b else none
/-- A POOL run for anything but a landing or the Press: it waits while the landing reserve is all that is free (05 R164). -/
def State.takeRun (s : State) (n : Nat) : Option (Nat × State) := if s.tier.landing < s.freeSheets then s.takePool n false else none
/-- Makes page `p` OPEN with 16 sheets and a summary record (04 R125, R126, R128). -/
def State.openPage (s : State) (p cls format units : Nat) (o : Origin) : Except Short State :=
  match s.takeRun 16 with
  | none => .error .pool
  | some (run, s) =>
    match s.takeSum units with
    | none => .error .table
    | some (sm, s) =>
      let s := s.updSum sm fun _ => {}
      let v := (s.page p).version
      .ok (s.updPage p fun _ =>
        { state := .openP, sheets := 16, cls := cls, format := format, location := run, refcount := 1, summary := sm, version := v, origin := o })
/-- Opens `n` pages of a block, layer by layer. -/
def State.openPages (s : State) (base cls format units : Nat) (o : Origin) : Nat → Nat → Except Short State
  | _, 0 => .ok s
  | l, n + 1 =>
    match s.openPage (base + l) cls format units { o with layer := l } with
    | .error k => .error k
    | .ok s => s.openPages base cls format units o (l + 1) n
/-- Allocates a block for a sequence (04 R128): its base page and the state, or what it lacks. -/
def State.allocBlock (s : State) (q : Seq) (qid cls : Nat) : Except Short (Nat × State) :=
  let (v, s) := s.draw
  match s.pagePick q.layers v with
  | none => .error .table
  | some base =>
    let o : Origin := { ctx := q.owner, seq := qid, ptok := q.ptok, tpp := q.tpp, groups := q.groups, dims := q.dims, model := q.model }
    match s.openPages base cls q.format (sumUnits q.format q.ptok q.tpp) o 0 q.layers with
    | .ok s => .ok (base, s)
    | .error k => .error k
/-- Allocates up to `n` blocks: the base pages of those that there was space for, and what the next one lacked. -/
def State.allocBlocks (s : State) (q : Seq) (qid cls : Nat) : Nat → List Nat × State × Option Short
  | 0 => ([], s, none)
  | n + 1 =>
    match s.allocBlock q qid cls with
    | .error k => ([], s, some k)
    | .ok (base, s) => let (l, s, k) := s.allocBlocks q qid cls n; (base :: l, s, k)
/-- A block takes its place in a sequence's table: its pages know their block and the layer-0 page before it (04 R129). -/
def State.seatBlock (s : State) (qid base layers block prev : Nat) : State :=
  let v := (s.page (prev - 1)).version
  (List.range layers).foldl (fun s l =>
    s.updPage (base + l) fun g => { g with origin := { g.origin with seq := qid, block := block, prev := prev, prevVer := v } }) s
/-- The layer-0 page of the last block of a table, + 1; 0 without one. -/
def lastPage (es : List Entry) : Nat := match es.getLast? with | some e => e.base + 1 | none => 0
/-- Seats allocated blocks at the end of a table, as OPEN entries of a class, fenced where the sequence is (04 R128, 07 R227). -/
def State.seatBlocks (s : State) (qid : Nat) (fenced : Bool) (layers cls : Nat) : List Nat → List Entry → List Entry × State
  | [], es => (es, s)
  | b :: r, es =>
    let s := s.seatBlock qid b layers es.length (lastPage es)
    s.seatBlocks qid fenced layers cls r (es ++ [{ base := b, version := (s.page b).version, isOpen := true, fenced := fenced, cls := cls }])

/-! ## Structural edits (04 R132, R134) -/

/-- Numbers from `a` up to `b`. -/
def span (a b : Nat) : List Nat := (List.range (b - a)).map (a + ·)
/-- The tree sheets on the path to entries `lo` onward of a table that had `old` entries and will have `new`: keys replaced, keys written. -/
def treePath (lo old new : Nat) : List Nat × List Nat :=
  let hi := max old new
  if hi ≤ lo then ([], [])
  else
    let gs := span (lo / 256) ((hi - 1) / 256 + 1)
    let ms := span (lo / 262144) ((hi - 1) / 262144 + 1)
    (0 :: (ms.map fun m => 2 * m + 1) ++ gs.map fun g => 2 * g + 2,
     0 :: ((ms.filter fun m => m * 262144 < new).map fun m => 2 * m + 1) ++ (gs.filter fun g => g * 256 < new).map fun g => 2 * g + 2)
/-- A tree sheet that cannot be read: nothing can be copied from it (04 R117). -/
def State.treeLost (s : State) (q : Seq) (k : Nat) : Bool := q.tree.get k 0 != 0 && s.granuleLost (4096 * q.tree.get k 0)
/-- A structural edit: the path is copied to new SEQ sheets and the header written with GEN + 1 (04 R134). The replaced sheets are returned. A sheet
that cannot be read and that still has entries stays where it is, so that they go on being unreadable (04 R117; log 156). -/
def State.edit (s : State) (qid lo : Nat) (es : List Entry) : Option (List Nat × State) :=
  let q := s.seq qid
  let (old, keys) := treePath lo q.entries.length es.length
  let stays (k : Nat) : Bool := keys.contains k && s.treeLost q k
  let new := keys.filter fun k => !stays k
  match s.takeSeqSheets new.length with
  | none => none
  | some (sheets, s) =>
    let out := old.filter fun k => !stays k
    let gone := out.filterMap fun k => let v := q.tree.get k 0; if v = 0 then none else some v
    let tree := (new.zip sheets).foldl (fun t p => Tbl.put t p.1 p.2) (out.foldl Tbl.del q.tree)
    some (gone, s.updSeq qid fun q => { q with entries := es, tree := tree, gen := (q.gen + 1) % 65536 })
/-- Changes entry `b` of a table in place (04 R135). -/
def Seq.updEntry (q : Seq) (b : Nat) (f : Entry → Entry) : Seq := { q with entries := q.entries.modify b f }

/-! ## Streams (07 R223 to R225, R230) -/

/-- The binding set of a context: entry, automaton + 1. -/
def State.bindSet (s : State) (c : Nat) : Tbl Nat :=
  (List.range 4).filterMap fun k => let a := s.awl.binds.get (4 * c + k) 0; if a = 0 then none else some (k, a)
/-- Every entry at its automaton's START. -/
def State.startStates (s : State) (autos : Tbl Nat) : Tbl Nat :=
  autos.foldl (fun t p => t.set p.1 (s.awl.autos.get (p.2 - 1) {}).start 0) []
/-- The stream record of a sequence. -/
def State.stream (s : State) (q : Nat) : Stream := s.awl.streams.get q {}
/-- Changes a stream record. -/
def State.updStream (s : State) (q : Nat) (f : Stream → Stream) : State := { s with awl := { s.awl with streams := s.awl.streams.upd q {} f } }
/-- Gives a new sequence its stream record, in a POOL sheet of 128 records; none where no sheet is free (07 R224). -/
def State.newStream (s : State) (q : Nat) (x : Stream) : Option State :=
  if x.autos.isEmpty then some s
  else if s.awl.streamSheets.get (q / 128) 0 ≠ 0 then some (s.updStream q fun _ => x)
  else
    match s.takeRun 1 with
    | none => none
    | some (r, s) => some (({ s with awl := { s.awl with streamSheets := s.awl.streamSheets.put (q / 128) (r + 1) } }).updStream q fun _ => x)
/-- Removes a stream record, and its sheet with the last of 128 (07 R230); that the sheet goes is the model's choice (log 149). -/
def State.dropStream (s : State) (q : Nat) : State :=
  if !(s.stream q).used then s
  else
    let s := { s with awl := { s.awl with streams := s.awl.streams.del q } }
    let k := s.awl.streamSheets.get (q / 128) 0
    if k = 0 ∨ s.awl.streams.any (fun p => p.1 / 128 == q / 128) then s
    else ({ s with awl := { s.awl with streamSheets := s.awl.streamSheets.del (q / 128) } }).retire { pool := [k - 1] }
/-- Tokens of a sequence queued and not yet scanned. -/
def State.unscanned (s : State) (q : Nat) : Bool := (s.awl.queues.get (q % 16) []).any fun t => t.seq == q

/-! ## Age stamps (04 R147, 05 R176) -/

/-- Stamps a page with a gathering's step counter. -/
def State.stampPage (s : State) (p g : Nat) : State :=
  let v := (s.gath g).step % 2 ^ 32
  s.updPage p fun x => { x with ageGath := g, ageValid := true, age := v }
/-- Stamps a sequence with the step counter of its age gathering, of `g` while it has none (05 R176). -/
def State.stampSeq (s : State) (q g : Nat) : State :=
  let x := s.seq q
  let v := (s.gath (if x.ageValid then x.ageGath else g)).step % 2 ^ 32
  s.updSeq q fun x => { x with stamp := v, preempted := false }
/-- Stamps a page read through a sequence under its age gathering (DELIVER, STAGE). -/
def State.stampBySeq (s : State) (q p : Nat) : State :=
  let x := s.seq q
  if x.ageValid then (s.stampPage p x.ageGath).stampSeq q x.ageGath else s
/-- A page's age (04 R147). -/
def State.ageOf (s : State) (g : Page) : Nat :=
  if g.ageValid && (s.gath g.ageGath).live then ((s.gath g.ageGath).step + 2 ^ 32 - g.age) % 2 ^ 32 else 0xFFFFFFFF
/-- A sequence's age (05 R176). -/
def State.seqAge (s : State) (q : Seq) : Nat :=
  if q.ageValid && (s.gath q.ageGath).live then ((s.gath q.ageGath).step + 2 ^ 32 - q.stamp) % 2 ^ 32 else 0xFFFFFFFF

/-! ## Reading a page's stored bytes -/

/-- Payload bytes an open or sealing page holds in its raw sheets, or the stored form of a sealed one in T0. -/
def State.pageBytes (s : State) (p : Nat) : Bytes := let g := s.page p; s.t0Read (g.location * 4096) g.length
/-- A granule of those bytes cannot be read. -/
def State.pageBad (s : State) (p : Nat) : Bool := let g := s.page p; s.rangeBad (g.location * 4096) g.length
/-- Tokens that a page holds: those of its LENGTH while its payload is open, TOKENS once it has its sealed form (04 R124, R125). -/
def State.pageTokens (s : State) (p ptok : Nat) : Nat := let g := s.page p; if g.formed then g.tokens else g.length / max ptok 1
/-- The payload of a page in T0, of which a reader takes at most `n` bytes while it is not formed: row of 09 R285 that failed (0 none, 8 an
uncorrectable granule of what it takes), and the payload. -/
def State.payload (s : State) (p n : Nat) : Expanded :=
  let g := s.page p
  if !g.formed then
    if s.rangeBad (g.location * 4096) (min n g.length) then (8, []) else (0, s.t0Read (g.location * 4096) (min n g.length))
  else if s.pageBad p then (8, [])
  else
    let expected := g.tokens * g.origin.ptok
    if g.raw then (if g.length = expected then (0, s.pageBytes p) else (3, []))
    else expandForm g.format g.length expected (s.pageBytes p)
/-- A page takes its place in the seal queue (04 R121, R94): full, or sealed by SEAL. -/
def State.toSealing (s : State) (p : Nat) : State := s.updPage p fun g => { g with state := if g.state = .openP then .sealing else g.state }
/-- Flight `f` uses a credit of pool `i` for an entry it sends: one granted to it, else a free one; without one it waits (01 R16, 13 R397). -/
def State.useCredit (s : State) (f i : Nat) : Bool × State :=
  let x := s.flight f
  let want := if x.wantCredit = some i then none else x.wantCredit
  if x.holds.contains i then (true, s.updFlight f fun x => { x with holds := x.holds.erase i, wantCredit := want })
  else if s.creditFree x.ctx i && !s.creditWaited f i then (true, (s.takeCredits i 1).updFlight f fun x => { x with wantCredit := want })
  else (false, s.updFlight f fun x => { x with wantCredit := some i })
/-- Sends pages to the seal queue while credits last; those that wait are returned (01 R16, R17). -/
def State.sendSeals (s : State) (f : Nat) : List Nat → List Nat × State
  | [] => ([], s)
  | p :: r =>
    match s.useCredit f 316 with
    | (true, s) => ({ s with press := { s.press with queue := s.press.queue ++ [p] } }).sendSeals f r
    | (false, s) => (p :: r, s)
/-- Sends tokens to their Awl engines while credits last. -/
def State.sendTokens (s : State) (f : Nat) : List Token → List Token × State
  | [] => ([], s)
  | t :: r =>
    let e := t.seq % 16
    match s.useCredit f (317 + e) with
    | (true, s) => ({ s with awl := { s.awl with queues := s.awl.queues.upd e [] fun l => l ++ [t] } }).sendTokens f r
    | (false, s) => (t :: r, s)
/-- An instruction that has written its pages and still sends some to the seal queue, and tokens to the Awl, ends when all are sent (03 R94).
Either kind waits for its own credits. -/
def State.sendRest (s : State) (f : Nat) (pages : List Nat) (tokens : List Token) (st : BitVec 16) (res : BitVec 64) : State :=
  let (ts, s) := s.sendTokens f tokens
  let (ps, s) := s.sendSeals f pages
  if ps.isEmpty && ts.isEmpty then s.finish f st res none else s.setJob f (.append ps ts st res)
/-- Poisons a page (04 R123). -/
def State.poisonPage (s : State) (p : Nat) : State :=
  let s := s.updPage p fun g => { g with poison := true }
  match s.moveOf p with
  | some m => if m.kind.inward then s else s.updMove p fun m => { m with abandoned := true }
  | none => s
/-- An expander's check has failed: the page is poisoned and the failure recorded, with the page and the row of the check; an uncorrectable
granule has its own record too (09 R286, 13 R412). -/
def State.expandFail (s : State) (c p row : Nat) (tag : BitVec 16) : State :=
  let s := if row = 8 then s.badGranule 8 ((s.page p).location * 4096) (some (s.fnOf c)) (some c) stPoisoned tag else s
  (s.poisonPage p).report
    { cls := 2, source := 7, code := 0x10, fn := some (s.fnOf c), ctx := some c, status := expandStatus row, tag := tag, object := p, detail := row }
/-- A granule of the page's summary record cannot be read (04 R117, R126). -/
def State.sumBad (s : State) (p : Nat) : Bool :=
  let g := s.page p
  s.rangeBad (g.summary * 256) (sumUnits g.format g.origin.ptok g.origin.tpp * 256)
/-- An uncorrectable granule of the page's summary record: the page is poisoned (04 R123). -/
def State.sumFail (s : State) (p : Nat) (fn ctx : Option Nat) (st tag : BitVec 16) : State :=
  (s.poisonPage p).badGranule 8 ((s.page p).summary * 256) fn ctx st tag
/-- Runs a walker's work with its walker slot; with none free it waits (04 R136). -/
def State.asWalker (s : State) (f : Nat) (k : State → State) : State :=
  if (s.flight f).walker.isSome then k s
  else match s.takeWalker with | some (i, s) => k (s.updFlight f fun x => { x with walker := some i, phase := .begun }) | none => s
/-- Asks for the inward moves of pages and waits for them, stalled on their tiers (05 R166); a STAGE does not stall, since only an instruction
that reads the pages waits on a tier (01 R21). -/
def State.awaitPages (s : State) (f : Nat) (kind : MoveKind) (ps : List Nat) (j : Job) : State :=
  let c := (s.flight f).ctx
  let s := ps.foldl (fun s p => s.askMove kind p c 0 0) s
  s.waitOn f j (if kind = .stage then none else ps.head?.map fun p => lateCause (s.page p).tier)

end Sys2Proof.Machine
end

