-- ==== Sys2Proof/Machine/Kettle.lean ====
section
/-! DEFINITION. Gatherings' positions, step snapshots and holds, need lists, prefetches and weight windows (03 R103, 04 R139 to R141, 05 R168 to R174, 09 R293, R294). -/
namespace Sys2Proof.Machine
open Sys2Proof

/-- Linear value of a gathering's position (05 R168). -/
def Gath.linear (g : Gath) : Nat := g.step * g.grec.layers + g.layer
/-- The function of a gathering's owner (13 R422). -/
def State.gathFn (s : State) (g : Nat) : Nat := s.fnOf (s.gath g).owner

/-! ## Need list and leads (05 R169 to R171) -/

/-- Indices of the recent blocks of a table (08 R257): the last `recent` that are not shared and not sink blocks. -/
def recentBlocks (es : List Entry) (sink recent : Nat) : List Nat :=
  let l := (List.range es.length).filter fun b => !(es.getD b {}).shared && decide (sink ≤ b)
  l.drop (l.length - recent)
/-- The Kettle expects layer `l` of block `b` to be read (05 R169). -/
def Gath.expects (g : Gath) (es : List Entry) (b l : Nat) : Bool :=
  let e := es.getD b {}
  g.grec.budget == 0 || e.shared || decide (b < g.grec.sink) || (recentBlocks es g.grec.sink g.grec.recent).contains b ||
    g.selected.any fun x => x.1 == l && x.2.2 == e.base + l
/-- The Kettle walks entry `b` of a member's table: none of its tree sheets lies on a failed pseudo-channel, nor its header (04 R117; log 107). -/
def State.walkable (s : State) (q b : Nat) : Bool := (s.lostOf (s.headAddr q :: (s.seq q).treeAddrs b)).isNone
/-- A page of a block of `n` pages is outside T0; one whose inward move is pending is (05 R169). -/
def State.blockAway (s : State) (base n : Nat) : Bool :=
  (List.range n).any fun l => (s.page (base + l)).tier != 0 && (s.lostOf [s.descAddr (base + l)]).isNone
/-- The need list of a gathering at its present position: the pages it expects to be read, of every block with a page outside T0 (05 R169). -/
def State.needList (s : State) (g : Gath) : List (Nat × Nat) :=
  g.snap.flatMap fun m => ((List.range m.entries.length).filter fun b => s.walkable m.seq b && s.blockAway (m.entries.getD b {}).base g.grec.layers).flatMap fun b =>
    ((List.range g.grec.layers).filter fun l => g.expects m.entries b l).flatMap fun l =>
      let p := (m.entries.getD b {}).base + l
      (if g.linear ≤ g.step * g.grec.layers + l then [(p, g.step * g.grec.layers + l)] else []) ++ [(p, (g.step + 1) * g.grec.layers + l)]
/-- Where a page is held below T0: tier and port; of a page whose spill is in progress, where that writes. -/
def State.pageUnit (s : State) (p : Nat) : Nat × Nat :=
  let g := s.page p
  if g.tier ≠ 0 then (g.tier, s.locPort g.tier g.location)
  else match s.moveOf p with | some m => (m.tier, m.port) | none => (0, 0)
/-- The net time of bringing a page in (05 R170). -/
def State.leadNet (s : State) (p : Nat) : Nat :=
  let bytes := (s.page p).sheets * 4096
  let (tier, port) := s.pageUnit p
  let press := if tier = 1 then 0 else 380 + cdiv bytes 64
  if tier = 3 then s.tier.swapLat + cdiv bytes 95 + press + s.margin
  else
    let u := s.port port
    u.lat + cdiv bytes (portRate u.width) + press + s.margin
/-- The lead of a page for a gathering, in positions (05 R170). -/
def State.lead (s : State) (g : Gath) (p : Nat) : Nat :=
  if g.period = 0 then s.leadMax else min s.leadMax (cdiv (s.leadNet p) g.period + 1)
/-- A spill of the page is in progress (05 R166). -/
def State.spilling (s : State) (p : Nat) : Bool := match s.moveOf p with | some m => m.kind == .spill && m.started | none => false
/-- Asks for the prefetch of one needed page when its time has come; of a page whose spill is in progress, that keeps the T0 copy (05 R166, R170). A
prefetch that has failed is not asked again for the same position (05 R167). -/
def State.prefetchOne (s : State) (gi : Nat) (n : Nat × Nat) : State :=
  let g := s.gath gi
  if (s.page n.1).state = .sealed ∧ ((s.page n.1).tier ≠ 0 ∨ s.spilling n.1 = true) ∧ g.failed.contains n = false ∧ n.2 ≤ g.linear + s.lead g n.1 then s.askMove .prefetch n.1 g.owner n.2 gi else s

/-! ## Prefetch holds (05 R170) -/

/-- Ends the prefetch hold of a page; a copy whose position has passed and that no ATTEND has read or counted is counted (05 R169; log 115). -/
def State.endPrefetchHold (s : State) (p : Nat) : State :=
  let g := s.page p
  let a := s.auxRec g.aux
  if g.aux ≠ 0 ∧ a.hold then
    let s := s.updAux g.aux fun a => { a with hold := false, holdPos := 0, holdGath := 0, holdRead := false }
    let s := if a.holdRead ∨ (s.gath a.holdGath).linear ≤ a.holdPos then s else s.countFn (s.gathFn a.holdGath) 10 1
    s.dropCold p
  else s
/-- The held copy of a page has been read, or counted as unread. -/
def State.markRead (s : State) (p : Nat) : State :=
  let g := s.page p
  if g.aux ≠ 0 ∧ (s.auxRec g.aux).hold then s.updAux g.aux fun v => { v with holdRead := true } else s
/-- The ATTEND at position `lin` has completed: the copies held for that position that it did not read are counted (05 R169). -/
def State.countUnread (s : State) (gi lin : Nat) : State :=
  s.ps.pages.foldl (fun s p =>
    let a := s.auxRec p.2.aux
    if p.2.aux ≠ 0 ∧ a.hold ∧ a.holdGath = gi ∧ a.holdPos = lin ∧ a.holdRead = false then (s.countFn (s.gathFn gi) 10 1).markRead p.1 else s) s
/-- Ends the prefetch holds of a gathering that its position has passed, or all of them. -/
def State.endPrefetchHolds (s : State) (gi : Nat) (every : Bool) : State :=
  let lin := (s.gath gi).linear
  s.ps.pages.foldl (fun s p =>
    let a := s.auxRec p.2.aux
    if p.2.aux ≠ 0 ∧ a.hold ∧ a.holdGath = gi ∧ (every ∨ a.holdPos < lin) then s.endPrefetchHold p.1 else s) s

/-! ## Weight windows (05 R172, R173; 09 R293, R294) -/

/-- Layer `m` lies in the weight window of a latent gathering. -/
def Gath.inWindow (g : Gath) (m : Nat) : Bool :=
  let l := g.grec.layers
  let start := (g.layer + 16 * l - g.grec.wbehind) % l
  g.live && g.grec.latent && decide ((m + l - start) % l < g.grec.wahead + g.grec.wbehind + 1)
/-- Layer `m` of a model lies in some latent gathering's window. -/
def State.windowed (s : State) (model m : Nat) : Bool := s.gaths.any fun g => g.2.grec.model == model && decide (m < g.2.grec.layers) && g.2.inWindow m
/-- The record of a layer of a model. -/
def State.wrecOf (s : State) (model layer : Nat) : Option (Nat × WRec) :=
  s.fq.wrecs.find? fun r => r.2.valid && r.2.model == model && r.2.layer == layer
/-- Weight records by index; from 4,096 on, the superseded ones that ATTENDs begun before still use (09 R294). -/
def State.wrec (s : State) (i : Nat) : WRec := if i < 4096 then s.fq.wrecs.get i {} else s.fq.past.get (i - 4096) {}
/-- Changes weight record `i`. -/
def State.updWrec (s : State) (i : Nat) (f : WRec → WRec) : State :=
  { s with fq := { s.fq with
      wrecs := if i < 4096 then s.fq.wrecs.upd i {} f else s.fq.wrecs
      past := if i < 4096 then s.fq.past else s.fq.past.upd (i - 4096) {} f } }
/-- A key slot. -/
def State.kslot (s : State) (i : Nat) : KSlot := s.sec.slots.get i {}
/-- A slot is in activation: ACTIVATING itself, or new Colophon firmware is being activated (12 R383). -/
def State.slotActivating (s : State) (i : Nat) : Bool := (s.kslot i).state == .activating || s.sec.state == .activating
/-- The slot holds a key released to a function (03 R106, 12 R382). -/
def State.slotFor (s : State) (i fn : Nat) : Bool := (s.kslot i).state == .loaded && (s.kslot i).function == fn
/-- A page of a weight image may be passed: it is sealed, or a superseded record that ATTENDs still use names it while it retires (03 R106, 09 R294). -/
def Page.passable (g : Page) (past : Bool) : Bool := g.tier == 0 && (g.state == .sealed || (past && g.state == .retiring))
/-- Weight passes of a record that may run now: of its pages in T0, once its clear copy is being made (09 R293). -/
def State.passesOf (s : State) (past : Bool) (r : WRec) : Nat :=
  if r.valid && r.clear.isSome && r.failed != 0x0302 && !s.slotActivating r.slot then
    ((List.range r.ppl).filter fun k => !r.passed.contains k && (s.page (r.page + k)).passable past).length
  else 0
/-- Weight passes that may run now, those of superseded records among them. -/
def State.passesDue (s : State) : Nat :=
  s.fq.past.foldl (fun a r => a + s.passesOf true r.2) (s.fq.wrecs.foldl (fun a r => a + s.passesOf false r.2) 0)
/-- Press pipelines that are available and between pages. -/
def State.idlePipes (s : State) : Nat := ((List.range 8).filter fun p => !s.dev.pressDown.get p false && s.press.pipes.get p 0 == 0).length
/-- The Press takes weight passes ahead of seals and tier passes: no pipeline is left over for those (09 R293). -/
def State.passesFirst (s : State) : Bool := let n := s.passesDue; n != 0 && decide (s.idlePipes ≤ n)
/-- Gives a layer its clear copy from a gathering's reservation (09 R293). -/
def State.takeClear (s : State) (gi i : Nat) : State :=
  let r := s.fq.wrecs.get i {}
  let n := r.ppl * 16
  if r.clear.isSome ∨ (s.gath gi).reserve < n then s
  else
    let s' := (s.updGath gi fun g => { g with reserve := g.reserve - n })
    let s' := { s' with ps := { s'.ps with reserved := s'.ps.reserved - n } }
    match s'.takePool n false with
    | some (run, s) => s.updWrec i fun r => { r with clear := some run, reserveOf := gi, passed := [], failed := 0, lens := [], told := false }
    | none => s
/-- Retires the clear copy of a layer; its sheets return to their gathering's reservation (05 R173, 09 R294, R296). -/
def State.dropClear (s : State) (i : Nat) : State :=
  let r := s.fq.wrecs.get i {}
  match r.clear with
  | some run => (s.updWrec i fun r => { r with clear := none, passed := [], failed := 0, lens := [], told := false }).retire { clear := [(run, r.reserveOf + 1)] }
  | none => s
/-- Drops the cached copies of a layer's pages. -/
def State.dropLayerCopies (s : State) (r : WRec) : State :=
  (List.range r.ppl).foldl (fun s i => if s.canDrop (r.page + i) then s.dropCopy (r.page + i) else s) s
/-- Layers that have left every window give up their copies: the clear one, and the cached copies of their pages (05 R172, 09 R294). -/
def State.sweepWindows (s : State) : State :=
  s.fq.wrecs.foldl (fun s r =>
    if !r.2.valid then s
    else
      let w := s.windowed r.2.model r.2.layer
      let s := if !w && (r.2.inWin || r.2.clear.isSome) then (s.dropClear r.1).dropLayerCopies r.2 else s
      if w = r.2.inWin then s else s.updWrec r.1 fun r => { r with inWin := w }) s
/-- A page that the Kettle has brought in for a layer that has left every window meanwhile (05 R172). -/
def State.leftWindow (s : State) (p : Nat) : Bool :=
  s.fq.wrecs.any fun r => r.2.valid && decide (r.2.page ≤ p ∧ p < r.2.page + r.2.ppl) && !s.windowed r.2.model r.2.layer
/-- Starts the inward moves of the layers ahead whose time has come, and makes the clear copies of the window (05 R172, 09 R293). -/
def State.openWindow (s : State) (gi : Nat) : State :=
  let g := s.gath gi
  if !(g.live && g.grec.latent) then s
  else
    (List.range g.grec.layers).foldl (fun s m =>
      if !g.inWindow m then s
      else
        match s.wrecOf g.grec.model m with
        | none => s
        | some (i, r) =>
          let s := s.takeClear gi i
          let d := (m + g.grec.layers - g.layer) % g.grec.layers
          if d ≤ g.grec.wahead then (List.range r.ppl).foldl (fun s k => s.prefetchOne gi (r.page + k, g.linear + d)) s else s) s

/-! ## Positions (03 R103) -/

/-- What the Kettle does at a position: holds that end, prefetches and windows that begin (05 R170, R172). -/
def State.kettle (s : State) (gi : Nat) : State :=
  let s := s.endPrefetchHolds gi false
  let s := s.updGath gi fun g => { g with need := g.need.filter fun n => g.linear ≤ n.2, failed := g.failed.filter fun n => g.linear ≤ n.2 }
  let s := (s.gath gi).need.foldl (fun s n => s.prefetchOne gi n) s
  (s.openWindow gi).sweepWindows
/-- Sets the layer counter within the step, when that is later (03 R103: an ATTEND of the layer before has completed). -/
def State.attendDone (s : State) (gi stepAt layer : Nat) : State :=
  let g := s.gath gi
  if g.live ∧ layer + 1 < g.grec.layers ∧ g.linear < stepAt * g.grec.layers + layer + 1 ∧ g.step = stepAt then
    (s.updGath gi fun g => { g with layer := layer + 1 }).kettle gi
  else s

/-! ## Step snapshots and holds (04 R139 to R141) -/

/-- A sequence has the shape that a gathering record gives it (03 R74; log 117). -/
def Seq.fits (y : Seq) (r : GRec) : Bool :=
  y.model == r.model && y.layers == r.layers && y.tpp == r.tpp && y.ptok == r.ptok && y.format == r.format && y.groups == r.groups && y.dims == r.dims
/-- A member's table as a snapshot of a gathering records it, with its shape and its owner (04 R139, R142). -/
def State.snapMember (s : State) (g : Gath) (q : Nat) : SnapMember :=
  let x := s.seq q
  if x.state = 0 then { seq := q }
  else
    { seq := q, present := true, entries := x.entries, gen := x.gen, shape := x.fits g.grec, owned := x.owner == g.owner
      lens := match x.entries.getLast? with
        | some e => if e.isOpen then (List.range x.layers).foldl (fun t l => t.set l (s.pageTokens (e.base + l) x.ptok * x.ptok) 0) [] else []
        | none => []
      unsealed := (blockPages (x.entries.map (·.base)) x.layers).filter fun p => !(s.page p).formed }
/-- The hold of a step snapshot ends: pages that only it held retire (04 R139, R144). -/
def State.endHold (s : State) (gi : Nat) : State :=
  let g := s.gath gi
  let s := s.updGath gi fun g => { g with hold := none, holdAt := 0, holdLimit := 0, snap := [] }
  g.snap.foldl (fun s m => if m.own.isEmpty then s else s.dropBlocks m.own g.grec.layers g.owner []) s
/-- Takes a step snapshot with its hold, and builds the need list (04 R139, 05 R169). -/
def State.takeSnap (s : State) (gi : Nat) : State :=
  let s := s.endHold gi
  let snap := (s.gath gi).members.map (s.snapMember (s.gath gi))
  let s := s.updGath gi fun g => { g with snap := snap, hold := some s.ps.epoch, holdAt := s.now, holdLimit := s.ps.holdLimit }
  let need := s.needList (s.gath gi)
  (s.updGath gi fun g => { g with need := need }).kettle gi
/-- The snapshot of the present step, taken anew when its hold has expired (04 R141). -/
def State.ensureSnap (s : State) (gi : Nat) : State := if (s.gath gi).hold.isNone then s.takeSnap gi else s
/-- The members of a gathering as an instruction of its step finds them, absent ones apart: `f` of the snapshot's record while it lasts, else `h` of
the current header (04 R140, R142, R143). With `create`, a member that the snapshot does not have is looked up too. -/
def State.membersAll (s : State) (g : Gath) (create : Bool) (f : SnapMember → Bool) (h : Seq → Bool) : Bool :=
  (List.range g.members.length).all fun i =>
    let m := g.snap.getD i {}
    let y := s.seq (g.members.getD i 0)
    if g.hold.isSome && m.present then f m else (g.hold.isSome && !create) || y.state == 0 || h y
/-- Every member belongs to the gathering's owner (03 R74). -/
def State.membersOwned (s : State) (g : Gath) (create : Bool) : Bool := s.membersAll g create (·.owned) fun y => y.owner == g.owner
/-- Every member has the shape that the gathering's record gives it (03 R74; log 117). -/
def State.shapesFit (s : State) (g : Gath) (create : Bool) : Bool := s.membersAll g create (·.shape) fun y => y.fits g.grec
/-- A step boundary of a gathering passes for every SEQ-mode APPEND that waits for it (04 R140). -/
def State.passBoundary (s : State) (gi : Nat) : State :=
  let s := s.updGath gi fun g => { g with bounds := g.bounds + 1 }
  { s with flights := s.flights.map fun p =>
      match p.2.job with
      | .boundary gs => (p.1, { p.2 with job := .boundary (gs.filter (· != gi)) })
      | _ => p }

end Sys2Proof.Machine
end

