-- ==== Sys2Proof/Machine/Rings.lean ====
section
/-! DEFINITION. Doorbells, fetch, dispatch, completion and landing waits (02 R41 to R61, 03 R73, 13 R416). -/
namespace Sys2Proof.Machine
open Sys2Proof

/-! ## Doorbells (02 R41, R42) -/

/-- The context takes no doorbell in this state (02 R42). -/
def Ctx.deaf (x : Ctx) : Bool := x.state == .disabled || x.state == .orphaned || x.state == .resetting

/-- A tail doorbell is accepted (02 R42). -/
def State.tailOk (s : State) (fn c ring index rsv : Nat) : Bool :=
  let x := s.ctx c
  let r := x.ring ring
  !x.deaf && x.function == fn && rsv == 0 && decide (c < 1024 ∧ ring < 8) && r.enable && decide (sub16 index r.tail < r.depth)

/-- A head doorbell is accepted (02 R42). -/
def State.headOk (s : State) (fn c ring index rsv : Nat) : Bool :=
  let x := s.ctx c
  !x.deaf && x.function == fn && rsv == 0 && ring == 0 && decide (c < 1024) && decide (sub16 index x.chead ≤ sub16 x.ctail x.chead)

/-- The smallest VTIME among resident contexts (13 R395). -/
def State.minVtime (s : State) : Option Nat :=
  (s.ctxs.filter fun p => p.2.resident).foldl (fun a p => match a with | none => some p.2.vtime | some v => some (min v p.2.vtime)) none

/-- A signal counter or a gathering's step counter, as a WAIT names it (03 R78). -/
def State.waitValue (s : State) (x : Flight) : Option Nat :=
  if fld x.a.toNat 0 8 = 0 then some ((s.fn (s.fnOf x.ctx)).sig.get (fld x.a.toNat 16 6) 0)
  else
    let g := s.gath (gField x.a)
    if g.live then some g.step else none

/-- The watched value has reached TARGET (03 R78). -/
def State.waitMet (s : State) (x : Flight) : Bool := match s.waitValue x with | some v => decide (x.b.toNat ≤ v) | none => false

/-- Whether the ending of a flight writes an entry (02 R61, R63): a stop always, else when COMPLETE was in effect. -/
def Flight.writesEntry (x : Flight) : Bool := x.stop || x.credit
/-- Entries a fetch may ask for: up to 4 of those posted (02 R44); none while FETCH_n lies at or beyond TAIL_n (02 R52). -/
def Ring.toFetch (r : Ring) : Nat := if 0 < r.left then min 4 (sub16 r.tail r.fetch) else 0

/-- Completion credits in use: entries written that the host has not freed, those held, and the one a stop takes, from the reserve where no other is
left (02 R61). -/
def State.entriesUsed (s : State) (c : Nat) : Nat :=
  let x := s.ctx c
  x.cused + (s.flights.filter fun p => p.2.ctx == c && p.2.writesEntry).length

/-- Depth of the completion ring. -/
def Ctx.cdepth (x : Ctx) : Nat := 2 ^ (6 + x.csize)

/-- In-flight instructions of a ring, by dispatch number. -/
def State.ringFlights (s : State) (c ring : Nat) : List (Nat × Flight) :=
  s.flights.filter fun p => p.2.ctx == c && p.2.ring == ring && p.2.mirror.isNone && !(p.2.stop && p.2.word == 0xFFFFFFFF00000000)

/-- Fences, interlocks and credits allow the next instruction of a ring (02 R51 to R56, R61). -/
def State.clearToDispatch (s : State) (c ring : Nat) (w : BitVec 64) : Bool :=
  let x := s.ctx c
  let mine := s.ringFlights c ring
  let cdepth := x.cdepth
  let used := s.entriesUsed c
  !(mine.any fun p => wFenceAfter p.2.word) &&
  !(wFenceBefore w && !mine.isEmpty) &&
  !(mine.any fun p => p.2.phase != .ended && [0x01, 0x02, 0x06, 0x07].contains (wOpcode p.2.word)) &&
  !(mine.any fun p => p.2.phase != .ended && (readsRegs w).contains (writesReg p.2.word)) &&
  (if wantsEntry x.conf w then decide (used + 1 ≤ cdepth - 1) else decide (used ≤ cdepth - 1))

/-- The slot, the state and the layout too (02 R36; 04 R119). -/
def State.mayDispatch (s : State) (c ring : Nat) (w : BitVec 64) : Bool :=
  let x := s.ctx c
  x.state == .active && x.resident && !(s.dev.engineDown.get 0 false) && s.clearToDispatch c ring w && (s.ps.layoutValid || isControl (wOpcode w))

/-- A context wants a slot: IDLE or ACTIVE, not resident, with work: entries to fetch, a WAIT whose value is reached, or an instruction that a ring
holds and that nothing, a completion credit least, keeps from dispatch any more (13 R395). -/
def State.wants (s : State) (c : Nat) : Bool :=
  let x := s.ctx c
  (x.state == .idle || x.state == .active) && !x.resident &&
    (x.rings.any (fun p => p.2.enable && (p.2.toFetch != 0 || match p.2.fetched with | [] => false | e :: _ => s.clearToDispatch c p.1 (granWord e.granule 0))) ||
      s.flights.any fun p => p.2.ctx == c && p.2.mirror.isNone && wOpcode p.2.word == 0x02 && p.2.phase != .ended && s.waitMet p.2)

/-- A context that comes to want a slot after wanting none has its VTIME raised to the smallest among residents (13 R395). -/
def State.noteWant (s : State) (c : Nat) : State :=
  let w := s.wants c
  let x := s.ctx c
  if w && !x.wanting then
    s.updCtx c fun x => { x with wanting := true, vtime := match s.minVtime with | some v => max v x.vtime | none => x.vtime }
  else if !w && x.wanting then s.updCtx c fun x => { x with wanting := false }
  else s

/-- Looks at every context for one that has come to want a slot. -/
def State.noteWants (s : State) : State := s.ctxs.foldl (fun s p => s.noteWant p.1) s

/-- A tail doorbell (02 R41): TAIL, the fetch buffer, IDLE to ACTIVE when there is work, and ACTIVE to IDLE when it leaves none (02 R33, R39). -/
def State.tailBell (s : State) (fn c ring index rsv : Nat) : State :=
  if s.tailOk fn c ring index rsv then
    let s := s.updCtx c fun x => x.updRing ring fun r => { r with tail := index, buf := [], left := r.left + Int.ofNat (sub16 index r.tail) }
    let x := s.ctx c
    let s := if x.state == .idle && (x.ring ring).fetch != index then s.ctxTo c .active else s
    (s.settle c).noteWant c
  else s.countFn fn 0 1

/-- A head doorbell (02 R41): CHEAD, and with it the entries that are not freed yet (log 142). -/
def State.headBell (s : State) (fn c ring index rsv : Nat) : State :=
  if s.headOk fn c ring index rsv then (s.updCtx c fun x => { x with chead := index, cused := sub16 x.ctail index }).noteWant c
  else s.countFn fn 0 1

/-- A doorbell value of 64 bits, from a window or by RDMA (02 R41). -/
def State.doorbell (s : State) (fn c v : Nat) : State :=
  let index := fld v 0 16
  let ring := fld v 16 3
  let rsv := fld v 20 44
  if fld v 19 1 = 0 then s.tailBell fn c ring index rsv else s.headBell fn c ring index rsv

/-- COMMAND_RING_TAIL_DOORBELL (02 R41): fewer than 8 bytes are ignored. -/
def execCommandRingTailDoorbell (fn ctx ring index rsv bytes : Nat) (s : State) : Host.Outcome State Fault Refusal :=
  act s fun s => if bytes = 8 then s.tailBell fn ctx ring index rsv else s

/-- COMPLETION_HEAD_DOORBELL (02 R42). -/
def execCompletionHeadDoorbell (fn ctx ring index rsv bytes : Nat) (s : State) : Host.Outcome State Fault Refusal :=
  act s fun s => if bytes = 8 then s.headBell fn ctx ring index rsv else s

/-! ## Fetch (02 R39, R43, R44) -/

/-- The entry of an index in the fetch buffer (02 R39). -/
def Ring.buffered (r : Ring) (i : Nat) : Option Fetched := r.buf.find? fun e => e.index == i

/-- Keeps the 16 entries most recently fetched (02 R39). -/
def Ring.keep (r : Ring) (e : Fetched) : Ring :=
  { r with buf := ((r.buf.filter fun x => x.index != e.index) ++ [e]).drop ((r.buf.filter fun x => x.index != e.index).length + 1 - 16) }

/-- Takes a fetched entry: FETCH advances and the entry waits for dispatch. -/
def Ring.take (r : Ring) (e : Fetched) : Ring := { r.keep e with fetched := r.fetched ++ [e], fetch := (e.index + 1) % 65536, left := r.left - 1 }

/-- T0 or upstream address of the entry at index `i` (02 R27). -/
def Ring.entryAddr (r : Ring) (i : Nat) : Nat := r.base * 4096 + 32 * (i % r.depth)

/-- Number of leading entries from `i`, at most `n`, that the buffer does (or does not) hold. -/
def Ring.runLen (r : Ring) (held : Bool) : Nat → Nat → Nat
  | 0, _ => 0
  | n + 1, i => if (r.buffered i).isSome == held then 1 + r.runLen held n ((i + 1) % 65536) else 0

/-- A fetch that cannot read stops the context: a STOP completion with TAG 0, the ring and the entry's INDEX (13 R416). -/
def State.fetchStop (s : State) (c ring index : Nat) (st : BitVec 16) : State :=
  if (s.ctx c).state == .active then
    let f := s.nextFlight
    let s := { s with nextFlight := f + 1 }
    let s := s.updCtx c fun x => x.faultStop ring st 0
    let s := s.ctxTo c .stopped
    s.setFlight f { ctx := c, ring := ring, index := index, word := 0xFFFFFFFF00000000, phase := .ended, status := st, stop := true, since := s.now }
  else s

/-- Fetches from T0, entry by entry (02 R44); an entry whose granule cannot be read stops the context (13 R415, R416). -/
def State.fetchT0 (s : State) (c ring : Nat) : Nat → State
  | 0 => s
  | n + 1 =>
    let r := (s.ctx c).ring ring
    let a := r.entryAddr r.fetch
    if s.rangeBad a 32 then
      if r.fetched.isEmpty then
        (s.badGranule 8 a (some (s.fnOf c)) (some c) stPoisoned 0).fetchStop c ring r.fetch stPoisoned
      else s
    else
      let e : Fetched := { index := r.fetch, granule := granOf (s.t0Read a 32) }
      (s.updCtx c fun x => x.updRing ring fun r => r.take e).fetchT0 c ring n

/-- Takes entries from the fetch buffer (02 R39). -/
def State.fetchBuf (s : State) (c ring : Nat) : Nat → State
  | 0 => s
  | n + 1 =>
    let r := (s.ctx c).ring ring
    match r.buffered r.fetch with
    | some e => (s.updCtx c fun x => x.updRing ring fun r => r.take e).fetchBuf c ring n
    | none => s

/-- INSTRUCTION_FETCH (02 R44): up to 4 entries of a resident, ACTIVE context, from the buffer, from T0, or asked of upstream memory. -/
def State.instructionFetch (s : State) (c ring : Nat) : State :=
  let x := s.ctx c
  let r := x.ring ring
  let n := min r.toFetch (16 - r.fetched.length)
  if x.state == .active && x.resident && r.enable && n != 0 && r.reading == 0 && !(s.dev.engineDown.get 0 false) then
    let k := r.runLen true n r.fetch
    if k ≠ 0 then s.fetchBuf c ring k
    else
      let m := min (r.runLen false n r.fetch) (r.depth - r.fetch % r.depth)
      if r.loc = 1 then s.fetchT0 c ring m
      else
        let s := s.updCtx c fun x => x.updRing ring fun r => { r with reading := m }
        s.emitOut (.upRead x.function (r.entryAddr r.fetch) (32 * m))
  else s

/-- INSTRUCTION_FETCH. -/
def execInstructionFetch (ctx ring : Nat) (s : State) : Host.Outcome State Fault Refusal := act s fun s => s.instructionFetch ctx ring

/-- Delivers upstream read data to a ring, entry by entry. -/
def State.fetchData (s : State) (c ring : Nat) (data : Bytes) : Nat → State
  | 0 => s
  | n + 1 =>
    let r := (s.ctx c).ring ring
    let e : Fetched := { index := r.fetch, granule := granOf (data.take 32) }
    (s.updCtx c fun x => x.updRing ring fun r => r.take e).fetchData c ring (data.drop 32) n

/-- Status of a failed upstream read by its completion: 1 UR or CA, 2 timeout, 3 poisoned (13 R416). -/
def upstreamStatus (result : Nat) : BitVec 16 := if result = 2 then stTimeout else if result = 3 then stPoisoned else stRemote

/-- An upstream read of a function that fails: an UPSTREAM_FAULT record, and the function's own AER status (13 R416, R419). -/
def State.upFault (s : State) (c addr result : Nat) (st : BitVec 16) : State :=
  (s.upAer (s.fnOf c) result).report
    { cls := 2, source := 0x0A, code := 0x10, fn := some (s.fnOf c), ctx := some c, status := st, object := addr, detail := min result 3 }
/-- A completion of a ring fetch (13 R416): 0 data, else a fault that is recorded and stops the context. Completions come in the order of the reads;
one of a read that was cancelled meanwhile serves no instruction and is recorded alone (02 R30, R52). -/
def State.fetchCompletion (s : State) (c ring result : Nat) (data : Bytes) : State :=
  let r := (s.ctx c).ring ring
  match r.stray with
  | i :: rest =>
    let s := s.updCtx c fun x => x.updRing ring fun r => { r with stray := rest }
    if result = 0 then s else s.upFault c (r.entryAddr i) result 0
  | [] =>
    if r.reading = 0 then s
    else
      let m := r.reading
      let s := s.updCtx c fun x => x.updRing ring fun r => { r with reading := 0 }
      if result = 0 then s.fetchData c ring data m
      else
        let st := upstreamStatus result
        (s.upFault c (r.entryAddr r.fetch) result st).fetchStop c ring r.fetch st

/-! ## Dispatch (02 R47 to R55, R61) -/

/-- Earlier instructions that a FENCE names, as they stand at its dispatch (02 R55). -/
def State.fenceNames (s : State) (c ring : Nat) (all : Bool) : List Nat :=
  ((if all then s.flights.filter fun p => p.2.ctx == c && p.2.mirror.isNone else s.ringFlights c ring)).map (·.1)

/-- INSTRUCTION_DISPATCH (02 R48): the oldest fetched instruction of a ring is checked and dispatched, or ends with OPCODE, RANGE or PERMISSION. -/
def State.instructionDispatch (s : State) (c ring : Nat) : State :=
  let x := s.ctx c
  let r := x.ring ring
  match r.fetched with
  | [] => s
  | e :: rest =>
    let w := granWord e.granule 0
    if s.mayDispatch c ring w then
      let f := s.nextFlight
      let fa := granWord e.granule 1
      let fb := granWord e.granule 2
      let fc := granWord e.granule 3
      let st := s.dispatchCheck x r w fa fb fc
      let a := operand x (wSelA w) fa
      let fl : Flight :=
        { ctx := c, ring := ring, index := e.index, word := w, a := a, b := operand x (wSelB w) fb, c := if wOpcode w = 0x07 then x.reg (wSelD w) else operand x (wSelC w) fc,
          credit := wantsEntry x.conf w, since := s.now, progress := s.now,
          waitsFor := if wOpcode w = 0x01 then s.fenceNames c ring (a.getLsbD 0) else [] }
      let s := s.updCtx c fun x => x.updRing ring fun r => { r with fetched := rest }
      let s := { s with nextFlight := f + 1 }
      let s := s.setFlight f fl
      if st = stOk then s else s.fail f st
    else s

/-- INSTRUCTION_DISPATCH. -/
def execInstructionDispatch (ctx ring : Nat) (s : State) : Host.Outcome State Fault Refusal := act s fun s => s.instructionDispatch ctx ring

/-! ## Ordering of what has been dispatched (02 R54, 03 R95, R102) -/

/-- Where a flight came from: its context's ring, or for a mirrored request its queue pair (02 R54, 10 R318). -/
def Flight.line (x : Flight) : Nat × Nat × Nat := match x.mirror with | some (q, _) => (1, q, 0) | none => (0, x.ctx, x.ring)
/-- The pages a flight names in its operands: those of the blocks of a range, and those of a weight image (02 R54; log 124). A PUT_PAGES names
none, its ID being no page's yet. -/
def State.pagesNamed (s : State) (x : Flight) : List Nat :=
  let y := s.seq (sSeq x.a)
  let range (b n : Nat) : List Nat := ((y.entries.drop b).take n).flatMap fun e => (List.range y.layers).map (e.base + ·)
  match wOpcode x.word with
  | 0x12 => range 0 (sBlock x.a)
  | 0x13 => range (sBlock x.a) y.entries.length
  | 0x14 => range 0 (sBlock x.a)
  | 0x21 => range 0 (sBlock x.a)
  | 0x22 => range (sBlock x.a) (fld x.b.toNat 0 24)
  | 0x23 => range (sBlock x.a) (fld x.b.toNat 0 24)
  | 0x24 => range (sBlock x.a) (fld x.b.toNat 0 24)
  | 0x25 => range (sBlock x.a) (fld x.b.toNat 0 24)
  | 0x32 => (List.range (fld x.a.toNat 24 8 * fld x.c.toNat 0 16)).map (fld x.b.toNat 0 40 + ·)
  | _ => []
/-- Two flights name the same gathering, sequence or page (02 R54). -/
def State.shareName (s : State) (x y : Flight) : Bool :=
  x.names.any (fun n => y.names.contains n) || (let ps := s.pagesNamed y; !ps.isEmpty && (s.pagesNamed x).any fun p => ps.contains p)
/-- Flight `f` may begin: no earlier instruction of its ring, or request of its queue pair, that names the same object is incomplete (02 R54), no earlier GSET of a
gathering it names is incomplete, and a GSET waits until every earlier instruction naming its gathering has ended (03 R102), a WAIT
apart where it dissolves the gathering, which ends the WAIT (03 R78). -/
def State.mayBegin (s : State) (f : Nat) (x : Flight) : Bool :=
  !(s.flights.any fun p => p.1 < f && (
    (x.line == p.2.line && s.shareName x p.2) ||
    (wOpcode p.2.word == 0x40 && x.gathNames.any fun g => p.2.gathNames.contains g) ||
    (wOpcode x.word == 0x40 && p.2.phase != .ended && (wOpcode p.2.word != 0x02 || fld x.a.toNat 12 2 != 2) && x.gathNames.any fun g => p.2.gathNames.contains g)))

/-- The engines, by their bits of AVAIL_ENGINE, that an instruction needs: the context engine; the Spine's search, overflow or update engine; the Kettle
for a STEP; the Gatherer for the moves it waits for; the RDMA engine for the writes it waits for (13 R412, 16 R482). -/
def Flight.engines (x : Flight) : List Nat :=
  let op := wOpcode x.word
  0 :: (if op = 0x10 then [1] else if op = 0x14 ∨ op = 0x15 then [3] else if op = 0x33 then [5] else []) ++
    match x.job with
    | .lookup l => if l.walk.isSome then [2] else []
    | .demote (_ :: _) _ _ _ => [4]
    | .writes .. => [6]
    | j => if j.waits.isEmpty then [] else [4]
/-- None of them is marked unavailable. -/
def State.enginesUp (s : State) (x : Flight) : Bool := x.engines.all fun e => !s.dev.engineDown.get e false
/-- Runs the meaning of opcode `op` on flight `f` when it is dispatched with that opcode, has not ended, and ordering allows it; one that needs an
engine marked unavailable ends with UNIT_UNAVAILABLE (13 R412; log 27). -/
def onFlight (op f : Nat) (s : State) (k : Flight → State → State) : Host.Outcome State Fault Refusal :=
  act s fun s =>
    match s.flight? f with
    | some x =>
      if wOpcode x.word == op && x.phase != .ended && s.mayBegin f x then (if s.enginesUp x then k x s else s.fail f stUnavailable) else s
    | none => s

/-! ## Landing waits (03 R73, 10 R313) -/

/-- An instruction whose reference to its input buffer has AWAIT set reads only when the flags of its range are set, and clears them (03 R73). -/
def State.awaitGate (s : State) (f : Nat) (await : Bool) (off n : Nat) (k : State → State) : State :=
  let x := s.flight f
  let lo := off / 4096
  let m := if n = 0 then 0 else (off + n - 1) / 4096 - lo + 1
  if !await then k s
  else
    match x.job with
    | .landed => k s
    | .landing _ _ _ =>
      if (s.ctx x.ctx).landed lo m then k ((s.updCtx x.ctx fun c => c.clearLanding lo m).updFlight f fun x => { x with job := .landed, stallOn := none })
      else s
    | .none =>
      if (s.ctx x.ctx).landed lo m then k ((s.updCtx x.ctx fun c => c.clearLanding lo m).updFlight f fun x => { x with job := .landed })
      else s.updFlight f fun x => { x with job := .landing s.now lo m, stallOn := some .linkLate, progress := s.now }
    | _ => k s

/-- AWAIT_LANDING: the flags of a waiting instruction's range are all set; it clears them and may read (03 R73). -/
def execAwaitLanding (f : Nat) (s : State) : Host.Outcome State Fault Refusal :=
  act s fun s =>
    let x := s.flight f
    match x.job with
    | .landing _ lo n =>
      if (s.ctx x.ctx).landed lo n then
        (s.updCtx x.ctx fun c => c.clearLanding lo n).updFlight f fun x => { x with job := .landed, stallOn := none, progress := s.now }
      else s
    | _ => s

/-- AWAIT_TIMEOUT: MSG_US after the wait began (10 R313). -/
def execAwaitTimeout (f : Nat) (s : State) : Host.Outcome State Fault Refusal :=
  act s fun s =>
    let x := s.flight f
    match x.job with
    | .landing t lo n =>
      if !(s.ctx x.ctx).landed lo n && decide (t + s.net.msgUs * usCycles ≤ s.now) then s.fail f stTimeout else s
    | _ => s

/-! ## Completion (02 R57 to R61, 12 R375, R376) -/

/-- The completion entry of a flight at the context's CTAIL; a confidential context writes RESULT and CATCHWORD as 0 (12 R375). -/
def State.entryOf (s : State) (x : Flight) : Bytes :=
  let c := s.ctx x.ctx
  let conf := c.conf
  let e := completionBytes (wTag x.word) x.status (stallCause x.stalls) s.loadByte x.ring
    (if conf then x.catchword.map fun _ => 0 else x.catchword) x.stop c.cphase (if conf then 0 else x.result) (stallTotal x.stalls) x.index
  e

/-- The number of the seal message of a flight of a confidential context: the one its output took, else the next (12 R375). -/
def State.sealNo (s : State) (x : Flight) : Nat := x.sealedAs.getD (s.sec.ctxs.get x.ctx {}).oseq
/-- The seal entry that goes with a completion entry: encrypted RESULT and CATCHWORD, and the tag over all that the message sealed (12 R375, R376). -/
def State.sealEntry (s : State) (x : Flight) (entry : Bytes) : Bytes :=
  let iv := sealIv (s.sealNo x) x.ctx (s.sec.ctxs.get x.ctx {}).keygen
  let ct := gcmCrypt (s.sealKey x.ctx) iv (x.tenant ++ leBytes 8 x.result.toNat ++ leBytes 8 (x.catchword.getD 0).toNat)
  ct.drop x.tenant.length ++ gcmTag (s.sealKey x.ctx) iv entry ct
/-- Writes the seal entry of a confidential context. -/
def State.writeSeal (s : State) (x : Flight) (entry : Bytes) : State :=
  let k := s.sec.ctxs.get x.ctx {}
  let t := s.ringWrite x.ctx k.sealLoc k.sealBase (s.ctx x.ctx).cdepth (s.ctx x.ctx).ctail (s.sealEntry x entry)
  { t with sec := { t.sec with ctxs := t.sec.ctxs.set x.ctx { k with oseq := s.sealNo x + 1 } {} } }

/-- Writes the completion entry, its seal entry before it, and advances CTAIL (02 R59, 12 R376). -/
def State.writeEntry (s : State) (x : Flight) : State :=
  let c := s.ctx x.ctx
  let e := s.entryOf x
  let s := if c.conf then s.writeSeal x e else s
  let s := s.ringWrite x.ctx c.cloc c.cbase c.cdepth c.ctail e
  s.updCtx x.ctx Ctx.advance

/-- INSTRUCTION_COMPLETE (02 R57): an ended instruction whose effects are visible writes its entry and interrupts; a mirrored one sends
its response; an entry that an ORPHANED context discards still signals its INTERRUPT (log 121); a completed ATTEND moves its gathering's position on (03 R103; one that took no effect does not: log 20). The entries of a confidential context are written in the order of their seal messages; a context reset writes none (13 R405). -/
def State.instructionComplete (s : State) (f : Nat) : State :=
  match s.flight? f with
  | none => s
  | some x =>
    if x.phase != .ended || s.outstanding f then s
    else if x.mirror.isNone && (s.ctx x.ctx).state == .resetting then s.dropFlight f
    else
      let s := if wOpcode x.word = 0x30 ∧ stClass x.status ≤ 1 then s.attendDone (gField x.a) x.stepAt (fld x.a.toNat 0 8) else s
      match x.mirror with
      | some (q, n) =>
        (s.dropFlight f).respond q (mirrorType x.word) n (if x.word = putWord then x.c.toNat else 0) (wTag x.word) x.status x.result x.catchword x.stalls (if wOpcode x.word = 0x10 ∧ stClass x.status ≤ 1 then x.tenant else [])
      | none =>
        if (s.ctx x.ctx).conf && x.writesEntry && s.sealTaken x.ctx f then s
        else
          let s := if x.writesEntry then s.writeEntry x else s
          let s := s.dropFlight f
          let c := s.ctx x.ctx
          let s := if x.stop || x.more then s.irq c.function c.vector c.share true
            else if x.credit && wInterrupt x.word then s.irq c.function c.vector c.share false else s
          (s.settle x.ctx).noteWant x.ctx

/-- INSTRUCTION_COMPLETE. -/
def execInstructionComplete (f : Nat) (s : State) : Host.Outcome State Fault Refusal := act s fun s => s.instructionComplete f

end Sys2Proof.Machine
end

