-- ==== Sys2Proof/Machine/Sequences.lean ====
section
/-! DEFINITION. ATTACH, FORK and RELEASE (03 R81 to R87, 04 R134, R144 to R150, 07 R230). -/
namespace Sys2Proof.Machine
open Sys2Proof

/-- A sequence must exist and belong to the context (03 R74). -/
def State.seqCheck (s : State) (c q : Nat) : BitVec 16 :=
  let x := s.seq q
  if x.state = 0 then stNotFound else if x.owner = c then stOk else stPermission

/-- A region of a scope; of scope 0, the context's own (03 R491). -/
def State.findRegion (s : State) (scope rid c : Nat) : Option (Nat × Region) :=
  s.spine.regions.find? fun r => r.2.used && r.2.scope == scope && r.2.rid == rid && (scope != 0 || r.2.owner == c)

/-- The layer-0 page of the last hashed block of a table, or of a later one whose summary record cannot be read. -/
def State.lastHashed (s : State) (es : List Entry) : Option Nat :=
  (es.reverse.find? fun e => (s.page e.base).summary != 0 && (s.sumBad e.base || (s.sum (s.page e.base).summary).hashed)).map (·.base)
/-- LASTHASH of a table: the chain hash of its last hashed block (04 R131); a free value where that cannot be read, which poisons the page
(04 R123; log 156). -/
def State.takeLastHash (s : State) (es : List Entry) : BitVec 96 × State :=
  match s.lastHashed es with
  | none => (0, s)
  | some p =>
    if s.sumBad p then let (v, s) := s.draw; (BitVec.ofNat 96 v, s.sumFail p none none 0 0)
    else ((s.sum (s.page p).summary).chain, s)
/-- Writes the LASTHASH of a sequence whose table holds `es`. -/
def State.putLastHash (s : State) (q : Nat) (es : List Entry) : State :=
  let (h, s) := s.takeLastHash es
  s.updSeq q fun y => { y with lastHash := h }

/-- The position of a table's next token: in its open block, else at the start of a new one (03 R92, R94). -/
def nextPos (es : List Entry) (tpp : Nat) : Nat :=
  match es.getLast? with
  | none => 0
  | some e => if e.isOpen then (es.length - 1) * tpp + e.filled else es.length * tpp

/-- The reserved bits of a lookup record, and of its HANDLE, are 0 (00 R10; 03 R82; 04 R112). -/
def lrecOk (lrec : Nat) : Bool := fld lrec 59 5 == 0 && fld lrec 120 8 == 0 && fld lrec 192 64 == 0

/-- The checks of ATTACH (03 R84) beyond the record's own range: OK or the refusal. A version whose region's first PUBLISH has not committed is
STALE (06 R208), whatever its header will be. -/
def State.attachCheck (s : State) (c q block count : Nat) (lrec : Nat) (reg : Option Region) : BitVec 16 :=
  let x := s.seq q
  let blocks := fld lrec 64 24
  let n := if count = 0 then blocks else count
  if !lrecOk lrec then stRange
  else if !(s.ctx c).readsScope (fld lrec 88 16) then stPermission
  else if blocks < n ∨ block ≠ x.entries.length then stRange
  else if x.state ≠ 0 ∧ x.model ≠ fld lrec 104 16 then stRange
  else if x.state != 0 && (match reg with | some r => r.committed && (x.layers != r.layers || x.tpp != r.tpp) | none => false) then stRange
  else if (match x.entries.getLast? with | some e => e.isOpen | none => false) then stRange
  else
    match reg with
    | none => stNotFound
    | some r => if !r.committed || r.version != fld lrec 160 32 then stStale else stOk

/-- Creates the header and the stream record of a new sequence of a context; none where no stream sheet is free (03 R74, 07 R224). Its age
gathering is that of the last GSET that listed its ID (04 R147). -/
def State.newSeq (s : State) (q : Nat) (h : Seq) (x : Stream) : Option State :=
  let gen := (s.seq q).gen
  let g := s.ps.listed.get q 0
  (s.updSeq q fun _ => { h with state := 1, gen := gen, ageGath := g - 1, ageValid := g != 0 }).newStream q x

/-- A new stream record from a binding set. -/
def State.freshStream (s : State) (autos : Tbl Nat) (nextPos : Nat) : Stream :=
  { autos := autos, states := s.startStates autos, nextPos := nextPos, used := true }

/-- The sequence that an ATTACH of `n` blocks goes to: created where it does not exist (03 R84); none where no stream sheet is free. -/
def State.attachSeq (s : State) (c q n : Nat) (model : Nat) (r : Region) : Option State :=
  if (s.seq q).state ≠ 0 then some s
  else s.newSeq q { owner := c, model := model, layers := r.layers, tpp := r.tpp, ptok := r.ptok, format := r.format, groups := r.groups, dims := r.dims }
    (s.freshStream (s.bindSet c) (n * r.tpp))
/-- The effect of ATTACH: entries copied as one edit, references raised (03 R84). -/
def State.attach (s : State) (c q n cls : Nat) (model : Nat) (r : Region) : Option State :=
  let x := s.seq q
  let es := (r.entries.take n).map fun e => { e with shared := true, cls := cls, hint := 0, fenced := x.fenceOn }
  let bases := es.map (·.base)
  match s.attachSeq c q n model r with
  | none => none
  | some s =>
    match s.addRefs (blockPages bases r.layers) with
    | none => none
    | some s =>
      match s.edit q x.entries.length (x.entries ++ es) with
      | none => none
      | some (old, s) =>
        let s := if old.isEmpty then s else s.retire { seqSheets := old }
        let s := s.putLastHash q (s.seq q).entries
        some (bases.foldl (fun s b => s.reclass b r.layers c) s)

/-- ATTACH. A record that names more blocks than the committed snapshot has attaches those it has (log 145). -/
def execAttach (f : Nat) (s : State) : Host.Outcome State Fault Refusal :=
  onFlight 0x11 f s fun x s =>
    let c := x.ctx
    let q := sSeq x.a
    let addr := (s.ctx c).outAddr + fld x.b.toNat 0 32
    let count := fld x.c.toNat 0 24
    s.asWalker f fun s => s.readable f [s.headAddr q] fun s =>
    if (s.seq q).state ≠ 0 ∧ (s.seq q).owner ≠ c then s.fail f stPermission
    else if s.rangeBad addr 32 then (s.badGranule 8 addr (some (s.fnOf c)) (some c) stPoisoned (wTag x.word)).fail f stPoisoned
    else
      let lrec := ofLe (s.t0Read addr 32)
      let reg := s.findRegion (fld lrec 88 16) (fld lrec 128 32) c
      let st := s.attachCheck c q (sBlock x.a) count lrec (reg.map (·.2))
      if st ≠ stOk then s.fail f st
      else
        match reg with
        | none => s.fail f stNotFound
        | some (_, r) =>
          let n := if count = 0 then fld lrec 64 24 else count
          let n := min n r.entries.length
          if !s.refRoom ((r.entries.take n).map (·.base)) r.layers then s.fail f stRange
          else s.readable f (s.tableAddrs q ((s.seq q).entries.length - 1) 1 (blockPages ((r.entries.take n).map (·.base)) r.layers)) fun s =>
            match s.attach c q n (fld x.c.toNat 24 2) (fld lrec 104 16) r with
            | none => s.allocWait f (if (s.attachSeq c q n (fld lrec 104 16) r).isNone then .pool else .table)
            | some s => s.finish f (s.quotaStatus c) (BitVec.ofNat 64 n) none

/-- Copies one page of an open block into a new open page, which seals at once when it is full (03 R86). None: its contents cannot be read. -/
def State.copyPage (s : State) (src dst : Nat) : Option State :=
  let g := s.page src
  let n := g.tokens * g.origin.ptok
  match s.payload src n with
  | (0, b) =>
    let d := s.page dst
    let old := s.sum g.summary
    let s := (s.t0Write (d.location * 4096) b).updPage dst fun p => { p with length := n, tokens := g.tokens }
    some (s.updSum d.summary fun r => { r with ids := old.ids, body := old.ids })
  | _ => none
/-- Copies the pages of an open block, layer by layer. -/
def State.copyPages (s : State) (src dst : Nat) : Nat → Option State
  | 0 => some s
  | n + 1 => match s.copyPages src dst n with | some s => s.copyPage (src + n) (dst + n) | none => none

/-- The pages of an open block that are full (04 R121). -/
def State.fullOpen (s : State) (base n payload : Nat) : List Nat :=
  ((List.range n).map (base + ·)).filter fun p => (s.page p).state == .openP && (s.page p).length == payload

/-- The open last block that a FORK copies: a new block, its entry, and its pages that are full; nothing where the range has none (03 R86). -/
def State.forkOpen (s : State) (h : Seq) (dst cls payload : Nat) (keep opens : List Entry) : Except Short (List Entry × List Nat × State) :=
  match opens with
  | [] => .ok ([], [], s)
  | e :: _ =>
    match s.allocBlock h dst cls with
    | .error k => .error k
    | .ok (base, s) =>
      match (s.seatBlock dst base h.layers keep.length (lastPage keep)).copyPages e.base base h.layers with
      | none => .error .table
      | some s => .ok ([{ e with base := base, version := (s.page base).version, shared := false, cls := cls, hint := 0 }], s.fullOpen base h.layers payload, s)

/-- The effect of FORK: shared blocks by reference, then a copy of an open last block (03 R86). The pages to seal at once are returned. -/
def State.fork (s : State) (src dst n cls : Nat) : Except Short (Nat × List Nat × State) :=
  let x := s.seq src
  let es := x.entries.take n
  let keep := es.filter fun e => !e.isOpen
  let opens := es.filter (·.isOpen)
  let y := s.stream src
  let h : Seq := { owner := x.owner, model := x.model, layers := x.layers, tpp := x.tpp, ptok := x.ptok, format := x.format, groups := x.groups, dims := x.dims,
                   weight := x.weight, fenceOn := es.any (·.fenced) }
  let states := if n = x.entries.length then { y with reported := [] } else { y with states := s.startStates y.autos, nextPos := nextPos es x.tpp, matchCount := 0, reported := [] }
  match s.newSeq dst h (if y.used then states else {}) with
  | none => .error .pool
  | some s =>
    match s.addRefs (blockPages (keep.map (·.base)) x.layers) with
    | none => .error .table
    | some s =>
      match s.forkOpen h dst cls x.payload keep opens with
      | .error k => .error k
      | .ok (tail, full, s) =>
        match s.edit dst 0 ((keep.map fun e => { e with shared := true }) ++ tail) with
        | none => .error .table
        | some (_, s) =>
          let s := s.putLastHash dst (s.seq dst).entries
          let s := (keep.map (·.base)).foldl (fun s b => s.reclass b x.layers x.owner) s
          .ok (if tail.isEmpty then 0 else 1, full, full.foldl State.toSealing s)

/-- The pages of the open blocks of a range that are not in T0: a layer that is full seals before its block does, and may move (04 R121). -/
def State.openAway (s : State) (es : List Entry) (layers : Nat) : List Nat :=
  (blockPages ((es.filter (·.isOpen)).map (·.base)) layers).filter fun p => (s.page p).tier != 0
/-- The first page of an open block of the range that cannot be read whole: row 9 poisoned, 10 its token IDs, else the row of the check that
failed, 8 a bad granule (03 R109, 04 R123). -/
def State.openBad (s : State) (es : List Entry) (layers : Nat) : Option (Nat × Nat) :=
  (es.filter (·.isOpen)).findSome? fun e => (List.range layers).findSome? fun l =>
    let g := s.page (e.base + l)
    let row := if g.poison then 9 else if l = 0 ∧ s.sumBad e.base = true then 10
      else if g.tier ≠ 0 then 0 else (s.payload (e.base + l) (g.tokens * g.origin.ptok)).1
    if row = 0 then none else some (e.base + l, row)

/-- FORK. A DEST that exists is RANGE, whoever owns it (03 R86; log 127); whatever keeps it from a page it copies, it ends with POISONED (03 R109). -/
def execFork (f : Nat) (s : State) : Host.Outcome State Fault Refusal :=
  onFlight 0x12 f s fun x s =>
    let c := x.ctx
    let src := sSeq x.a
    let n := sBlock x.a
    let dst := fld x.b.toNat 0 24
    let q := s.seq src
    match x.job with
    | .append pages tokens st res => s.sendRest f pages tokens st res
    | .pages (_ :: _) _ => s
    | _ =>
      let st := s.seqCheck c src
      s.asWalker f fun s => s.readable f [s.headAddr src, s.headAddr dst] fun s =>
      if st ≠ stOk then s.fail f st
      else if q.entries.length < n ∨ (s.seq dst).state ≠ 0 then s.fail f stRange
      else if (s.stream src).used && s.unscanned src then s.begin f
      else s.readable f (s.tableAddrs src 0 n (blockPages ((q.entries.take n).map (·.base)) q.layers)) fun s =>
      match s.openBad (q.entries.take n) q.layers with
      | some (p, row) =>
        (if row = 9 then s else if row = 10 then s.sumFail p (some (s.fnOf c)) (some c) stPoisoned (wTag x.word) else s.expandFail c p row (wTag x.word)).fail f stPoisoned
      | none =>
        let away := s.openAway (q.entries.take n) q.layers
        if !away.isEmpty then s.awaitPages f .demand away (.pages away 0)
        else if !s.refRoom (((q.entries.take n).filter fun e => !e.isOpen).map (·.base)) q.layers then s.fail f stRange
        else
          match s.fork src dst n (fld x.b.toNat 24 2) with
          | .error k => s.allocWait f k
          | .ok (copied, full, s) => s.sendRest f full [] (s.quotaStatus c) (BitVec.ofNat 64 (n + copied * 2 ^ 24))

/-- Deletes a sequence: header absent, tree and stream record retired, references dropped (03 R87, 13 R411). -/
def State.releaseWhole (s : State) (q : Nat) : State :=
  let x := s.seq q
  let bases := s.heldBases q 0
  let s := s.updSeq q fun _ => { gen := (x.gen + 1) % 65536 }
  let s := s.dropStream q
  s.dropBlocks bases x.layers x.owner (x.tree.map (·.2))

/-- Drops blocks `b` onward; the stream of a screened sequence starts anew (03 R87, 07 R230). -/
def State.releaseTail (s : State) (q b : Nat) : Option State :=
  let x := s.seq q
  let keep := x.entries.take b
  let bases := s.heldBases q b
  match s.edit q b keep with
  | none => none
  | some (old, s) =>
    let s := (s.updSeq q fun y => { y with fenceOn := y.fenceOn && keep.any (·.fenced) }).putLastHash q keep
    let s := if (s.stream q).used then
        s.updStream q fun t => { t with states := s.startStates t.autos, nextPos := nextPos keep x.tpp }
      else s
    some (s.dropBlocks bases x.layers x.owner old)

/-- RELEASE. -/
def execRelease (f : Nat) (s : State) : Host.Outcome State Fault Refusal :=
  onFlight 0x13 f s fun x s =>
    let q := sSeq x.a
    let st := s.seqCheck x.ctx q
    if st ≠ stOk then s.fail f st
    else if (s.seq q).entries.length < sBlock x.a then s.fail f stRange
    else if (s.stream q).used && s.unscanned q then s.begin f
    else if x.b.getLsbD 0 then (s.releaseWhole q).finish f stOk 0 none
    else
      match s.releaseTail q (sBlock x.a) with
      | none => s.allocWait f .table
      | some s => s.finish f stOk 0 none

end Sys2Proof.Machine
end

