-- ==== Sys2Proof/Machine/Appending.lean ====
section
/-! DEFINITION. APPEND in both modes, step boundaries, and fencing (03 R91 to R95, 04 R128, R135, R139 to R141, 07 R226 to R229). -/
namespace Sys2Proof.Machine
open Sys2Proof

/-! ## Fencing (07 R227, R229) -/

/-- Fences a sequence from block `b`: its entries, the blocks that diverged snapshots alone hold, and its header (07 R227). -/
def State.fence (s : State) (q b : Nat) : State :=
  let mark (own : List Nat) (es : List Entry) : List Entry :=
    (List.range es.length).map fun i => let e := es.getD i {}; if b ≤ i ∨ own.contains e.base then { e with fenced := true } else e
  let s := s.updSeq q fun x => { x with entries := mark [] x.entries, fenceOn := true }
  { s with gaths := s.gaths.map fun g => (g.1, { g.2 with snap := g.2.snap.map fun m => if m.seq = q ∧ m.diverged then { m with entries := mark m.own m.entries } else m }) }
/-- Fences because the Awl cannot scan, with one ENGINE_FENCE record for each sequence and case (07 R229). -/
def State.fenceClosed (s : State) (q b case : Nat) : State :=
  let s := s.fence q b
  if (s.stream q).reported.contains case then s
  else
    (s.updStream q fun t => { t with reported := case :: t.reported }).report
      { cls := 2, source := 3, code := 0x10, fn := some (s.fnOf (s.seq q).owner), ctx := some (s.seq q).owner, object := q, detail := b }
/-- The token-ID queue entries of an APPEND to a screened sequence; an engine marked unavailable fences instead, from the first block that the
APPEND writes, with or without IDs (07 R226, R229). -/
def State.screen (s : State) (q pos block : Nat) (ids : List Nat) : List Token × State :=
  if !(s.stream q).used then ([], s)
  else if s.dev.awlDown.get (q % 16) false then
    ([], (s.fenceClosed q block 1).updStream q fun t => { t with nextPos := if ids.isEmpty then t.nextPos else pos + ids.length })
  else ((List.range ids.length).map fun i => { seq := q, pos := pos + i, id := ids.getD i 0 }, s)

/-! ## Writing tokens -/

/-- A page takes no more tokens: it seals or has its sealed form. A token position that is written twice keeps what it holds there, which 04 R140
leaves open (log 78). -/
def Page.closed (g : Page) : Bool := g.formed || g.state == .sealing || g.state == .sealed
/-- Writes payload bytes of `n` tokens at token place `t` of a page, and its LENGTH and TOKENS (04 R124, R135). -/
def State.writeTokens (s : State) (p t n ptok gi : Nat) (b : Bytes) : State :=
  let g := s.page p
  if g.closed then s.stampPage p gi else
  let s := s.t0Write (g.location * 4096 + t * ptok) b
  (s.updPage p fun g => { g with length := max g.length ((t + n) * ptok), tokens := max g.tokens (t + n) }).stampPage p gi
/-- Keeps token IDs in the summary record of a layer-0 page (04 R126). -/
def State.writeIds (s : State) (p t : Nat) (ids : List Nat) : State :=
  if (s.page p).closed then s else
  s.updSum (s.page p).summary fun r =>
    let b := r.ids.take (4 * t) ++ ids.flatMap (leBytes 4)
    { r with ids := b, body := b, tokens := b.length / 4 }
/-- Pages among a list that have just become full: they take the state SEALING (04 R121). -/
def State.closeFull (s : State) (payload : Nat) : List Nat → List Nat × State
  | [] => ([], s)
  | p :: r =>
    let g := s.page p
    if g.state = .openP ∧ payload ≤ g.length then
      let (l, s) := (s.toSealing p).closeFull payload r
      (p :: l, s)
    else s.closeFull payload r
/-- FILLED and OPEN of an entry, from its pages (04 R133). -/
def State.refill (s : State) (e : Entry) (layers ptok tpp : Nat) : Entry :=
  let n := (List.range layers).foldl (fun a l => min a (s.pageTokens (e.base + l) ptok)) tpp
  { e with filled := n, isOpen := n != tpp }

/-! ## SEQ mode (03 R92, 04 R140) -/

/-- The empty sequence of a context that a gathering's record makes (03 R92). -/
def GRec.newSeq (r : GRec) (c : Nat) : Seq :=
  { owner := c, model := r.model, layers := r.layers, tpp := r.tpp, ptok := r.ptok, format := r.format, groups := r.groups, dims := r.dims }
/-- The sequence as an APPEND in SEQ mode finds it, or as the gathering's record would make it (03 R92). -/
def State.targetSeq (s : State) (c q : Nat) (r : GRec) : Seq := if (s.seq q).state ≠ 0 then s.seq q else r.newSeq c
/-- An APPEND that has found too little space: it keeps the blocks `held` that it has allocated, `before` those it held already, and waits while
something may yield the rest; else it ends with NO_SPACE and its blocks are retired (03 R94, 04 R149). -/
def State.growWait (s : State) (f layers : Nat) (before held : List Nat) (k : Short) : State :=
  if s.mayYield k then (if before = held then s else s.setJob f (.growing held layers))
  else (s.updFlight f fun x => { x with job := .growing held layers }).fail f stNoSpace
/-- The base pages of the blocks an APPEND holds. -/
def Job.held : Job → List Nat
  | .growing l _ => l
  | _ => []
/-- Writes the part of `k` layer-major tokens that falls into block `b` of a table, layer by layer. -/
def State.writeBlock (s : State) (x : Seq) (gi : Nat) (e : Entry) (b pos k : Nat) (data : Bytes) : Nat → State
  | 0 => s
  | l + 1 =>
    let s := s.writeBlock x gi e b pos k data l
    let t0 := max pos (b * x.tpp)
    let t1 := min (pos + k) ((b + 1) * x.tpp)
    s.writeTokens (e.base + l) (t0 - b * x.tpp) (t1 - t0) x.ptok gi ((data.drop ((l * k + (t0 - pos)) * x.ptok)).take ((t1 - t0) * x.ptok))
/-- The sequence an APPEND writes, created where it does not exist (03 R92): none where no stream sheet is free. -/
def State.appendTarget (s : State) (c q : Nat) (x : Seq) : Option State :=
  if (s.seq q).state ≠ 0 then some s else s.newSeq q x (s.freshStream (s.bindSet c) 0)
/-- Writes `k` tokens at the end of a table whose blocks are all there: pages to seal and tokens to scan. -/
def State.writeSeq (s : State) (q : Nat) (x : Seq) (es : List Entry) (gi pos k : Nat) (data : Bytes) (ids : List Nat) : List Nat × List Token × State :=
  let bs := span (pos / x.tpp) ((pos + k - 1) / x.tpp + 1)
  let s := bs.foldl (fun s b => s.writeBlock x gi (es.getD b {}) b pos k data x.layers) s
  let s := bs.foldl (fun s b =>
    let t0 := max pos (b * x.tpp)
    s.writeIds (es.getD b {}).base (t0 - b * x.tpp) ((ids.drop (t0 - pos)).take (min (pos + k) ((b + 1) * x.tpp) - t0))) s
  let s := s.updSeq q fun y => { y with
    entries := bs.foldl (fun l b => l.modify b fun e => s.refill e x.layers x.ptok x.tpp) y.entries, ageGath := gi, ageValid := true }
  let s := s.stampSeq q gi
  let (full, s) := s.closeFull x.payload (bs.flatMap fun b => (List.range x.layers).map ((es.getD b {}).base + ·))
  let (toks, s) := s.screen q pos (pos / x.tpp) ids
  (full, toks, s)
/-- The effect of an APPEND of `k` tokens in SEQ mode that has its blocks: pages to seal and tokens to scan; or what it lacks. -/
def State.appendSeq (s : State) (c q gi cls k : Nat) (blocks : List Nat) (data : Bytes) (ids : List Nat) : Except Short (List Nat × List Token × State) :=
  let x := s.targetSeq c q (s.gath gi).grec
  let pos := nextPos x.entries x.tpp
  match s.appendTarget c q x with
  | none => .error .pool
  | some s =>
    if blocks.isEmpty then .ok (s.writeSeq q x x.entries gi pos k data ids)
    else
      let (es, s) := s.seatBlocks q x.fenceOn x.layers cls blocks x.entries
      match s.edit q x.entries.length es with
      | none => .error .table
      | some (old, s) =>
        let s := if old.isEmpty then s else s.retire { seqSheets := old }
        .ok (s.writeSeq q x es gi pos k data ids)

/-- Live gatherings that list a sequence (04 R140). -/
def State.listing (s : State) (q : Nat) : List Nat := (s.gaths.filter fun g => g.2.live && g.2.members.contains q).map (·.1)
/-- An earlier APPEND of the context to a sequence of the list has not been applied, or still has tokens to queue, which go before (07 R226); one
that waits for a step boundary stands before a later one in SEQ mode alone (03 R95, 04 R140; log 21). -/
def State.appendBefore (s : State) (f c : Nat) (seq : Bool) (qs : List Nat) : Bool :=
  s.flights.any fun p => p.1 < f && p.2.ctx == c && wOpcode p.2.word == 0x20 && p.2.phase != .ended &&
    (match p.2.job with | .boundary (_ :: _) => seq | .append _ ts _ _ => ts.any (fun t => qs.contains t.seq) | _ => true) &&
    (if p.2.a.getLsbD 52 then (s.gath (gField p.2.a)).members.any qs.contains else qs.contains (fld p.2.a.toNat 28 24))

/-- Token IDs at an address. -/
def idsAt (b : Bytes) : List Nat := (chunks 4 (b.length + 1) b).map ofLe

/-- Addresses an APPEND reads for the last block of a sequence: its tree sheets, and its descriptors while it is open. -/
def State.lastAddrs (s : State) (q : Nat) : List Nat :=
  let y := s.seq q
  s.tableAddrs q (y.entries.length - 1) 1 (match y.entries.getLast? with | some e => if e.isOpen then blockPages [e.base] y.layers else [] | none => [])
/-- Applies an APPEND in SEQ mode whose waits are over. -/
def State.applySeq (s : State) (f : Nat) (x : Flight) : State :=
  let c := x.ctx
  let q := fld x.a.toNat 28 24
  let gi := gField x.a
  let k := bCount x.b
  let y := s.targetSeq c q (s.gath gi).grec
  let addr := (s.ctx c).inAddr + bOffset x.b
  let n := y.layers * k * y.ptok
  let taddr := (s.ctx c).inAddr + fld x.c.toNat 0 32
  let pos := nextPos y.entries y.tpp
  if y.state = 2 ∨ 2 ^ 24 * y.tpp < pos + k then s.fail f stRange
  else s.readable f (s.lastAddrs q) fun s =>
  if s.rangeBad addr n || s.rangeBad taddr (4 * k) then
    (s.badGranule 8 addr (some (s.fnOf c)) (some c) stPoisoned (wTag x.word)).fail f stPoisoned
  else
    let cls := fld x.a.toNat 53 2
    let need := cdiv (pos + k) y.tpp - y.entries.length
    let had := x.job.held
    match s.allocBlocks y q cls (need - had.length) with
    | (l, s', some k') => (if l.isEmpty then s else s').growWait f y.layers had (had ++ l) k'
    | (l, s', none) =>
      match s'.appendSeq c q gi cls k ((had ++ l).take need) (s'.t0Read addr n) (idsAt (s'.t0Read taddr (4 * k))) with
      | .error k' => (if l.isEmpty then s else s').growWait f y.layers had (had ++ l) k'
      | .ok (full, toks, s) =>
        let s := s.retireTaken (blockPages ((had ++ l).drop need) y.layers)
        (s.updFlight f fun x => { x with job := .none }).sendRest f full toks (s.quotaStatus c) (BitVec.ofNat 64 (k + need * 2 ^ 32))

/-- APPEND in SEQ mode: checks, then the wait for its landing flags, and for a step boundary of every gathering that lists the sequence. -/
def State.seqMode (s : State) (f : Nat) (x : Flight) : State :=
  let c := x.ctx
  let q := fld x.a.toNat 28 24
  let g := s.gath (gField x.a)
  let y := s.targetSeq c q g.grec
  let n := y.layers * bCount x.b * y.ptok
  if !g.live && y.owner == c then s.fail f stNotFound
  else s.readable f [s.headAddr q] fun s =>
  if !g.live || g.owner != c || y.owner != c then s.fail f stPermission
  else if y.state = 2 ∨ !inRange (bOffset x.b) n (s.ctx c).inLen ∨ 2 ^ 24 * y.tpp < nextPos y.entries y.tpp + bCount x.b then s.fail f stRange
  else
    match x.job with
    | .boundary [] => if s.appendBefore f c true [q] then s else s.applySeq f x
    | .boundary _ => s
    | .growing .. => if s.appendBefore f c true [q] then s else s.applySeq f x
    | _ =>
      s.awaitGate f (bAwait x.b) (bOffset x.b) n fun s =>
        let gs := s.listing q
        if !gs.isEmpty then s.setJob f (.boundary gs) else if s.appendBefore f c true [q] then s else s.applySeq f x

/-- The APPENDs in SEQ mode that have seen their last boundary are applied in dispatch order, one that an earlier APPEND to its sequence stands
before apart (03 R95, 04 R140). -/
def State.applyBoundaries (s : State) (gi : Nat) : State :=
  s.flights.foldl (fun s p =>
    let x := s.flight p.1
    let q := fld x.a.toNat 28 24
    let due := match x.job with | .boundary [] => true | .growing .. => true | _ => false
    if due && x.a.getLsbD 52 == false && (s.gath gi).members.contains q && !s.appendBefore p.1 x.ctx true [q] then s.applySeq p.1 x else s) s
/-- A step boundary of a gathering: waiting APPENDs first, then the new step snapshot (04 R140). -/
def State.stepBoundary (s : State) (gi : Nat) : State := ((s.passBoundary gi).applyBoundaries gi).takeSnap gi

/-- SEQ_APPEND_AT_STEP_BOUNDARY: applies APPENDs whose boundaries have passed and that then had to wait for space (04 R140, R149). -/
def execSeqAppendAtStepBoundary (g : Nat) (s : State) : Host.Outcome State Fault Refusal := act s fun s => s.applyBoundaries g

/-! ## GATHER mode (03 R92, R94; 04 R140) -/

/-- Tokens layer `l` of a snapshot member holds: its next position (03 R94). -/
def SnapMember.next (m : SnapMember) (l ptok tpp : Nat) : Nat :=
  match m.entries.getLast? with
  | none => 0
  | some e => if e.isOpen then (m.entries.length - 1) * tpp + m.lens.get l 0 / max ptok 1 else m.entries.length * tpp
/-- The position check of a member (03 R94). -/
def SnapMember.positionOk (m : SnapMember) (layer layers ptok tpp : Nat) : Bool :=
  let n0 := m.next 0 ptok tpp
  if layer = 0 then (List.range layers).all fun l => decide (n0 ≤ m.next l ptok tpp) else decide (m.next layer ptok tpp < n0)
/-- The member's last block is open. -/
def SnapMember.hasOpen (m : SnapMember) : Bool := match m.entries.getLast? with | some e => e.isOpen | none => false

/-- Changes member `i` of a gathering's snapshot. -/
def State.updMember (s : State) (gi i : Nat) (f : SnapMember → SnapMember) : State :=
  s.updGath gi fun g => { g with snap := g.snap.modify i f }
/-- The members of a gathering that need a block for their next token: those whose last block is not open (03 R92). -/
def Gath.needy (g : Gath) : List Nat := (List.range g.members.length).filter fun i => !(g.snap.getD i {}).hasOpen
/-- Allocates a block for each of some members, until one finds too little space. -/
def State.takeBlocks (s : State) (c gi cls : Nat) : List Nat → List Nat × State × Option Short
  | [] => ([], s, none)
  | i :: r =>
    let g := s.gath gi
    let q := (g.snap.getD i {}).seq
    match s.allocBlock (g.grec.newSeq c) q cls with
    | .error k => ([], s, some k)
    | .ok (base, s) => let (l, s, k) := s.takeBlocks c gi cls r; (base :: l, s, k)
/-- Member `i` takes an allocated block: in the snapshot and, where no other edit came between, in the sequence's current table; a member
released since gets it in the snapshot alone (04 R140, R142). -/
def State.memberBlock (s : State) (c gi i cls base : Nat) : Except Short State :=
  let g := s.gath gi
  let m := g.snap.getD i {}
  let fresh := !m.present && (s.seq m.seq).state == 0
  let same := m.present && (s.seq m.seq).state != 0 && (s.seq m.seq).gen == m.gen
  let y := if m.present && !same then { g.grec.newSeq c with fenceOn := m.entries.any (·.fenced) } else s.targetSeq c m.seq g.grec
  let pages := blockPages [base] g.grec.layers
  match (if fresh then s.appendTarget c m.seq y else some s) with
  | none => .error .pool
  | some s =>
    let (es, s) := s.seatBlocks m.seq y.fenceOn g.grec.layers cls [base] m.entries
    if fresh || same then
      let now := (s.seq m.seq).entries
      match s.edit m.seq now.length (now ++ es.drop m.entries.length) with
      | none => .error .table
      | some (old, s) =>
        let s := if old.isEmpty then s else s.retire { seqSheets := old }
        .ok (s.updMember gi i fun m => { m with present := true, entries := es, gen := (s.seq m.seq).gen, lens := [], unsealed := m.unsealed ++ pages })
    else
      .ok (s.updMember gi i fun m => { m with present := true, entries := es, lens := [], unsealed := m.unsealed ++ pages, diverged := true, own := m.own ++ [base] })
/-- Some members take their blocks, one after another. -/
def State.memberBlocks (s : State) (c gi cls : Nat) : List (Nat × Nat) → Except Short State
  | [] => .ok s
  | (i, base) :: r =>
    match s.memberBlock c gi i cls base with
    | .error k => .error k
    | .ok s => s.memberBlocks c gi cls r
/-- Writes member `i`'s token of a layer into the open page the snapshot names (04 R140): pages now full, tokens to scan. -/
def State.memberWrite (s : State) (gi i layer : Nat) (data : Bytes) (id : Nat) : List Nat × List Token × State :=
  let g := s.gath gi
  let m := g.snap.getD i {}
  let ptok := g.grec.ptok
  let tpp := g.grec.tpp
  let e := m.entries.getLastD {}
  let b := m.entries.length - 1
  let t := m.lens.get layer 0 / max ptok 1
  let s := s.writeTokens (e.base + layer) t 1 ptok gi data
  let s := if layer = 0 then s.writeIds e.base t [id] else s
  let s := s.updMember gi i fun m => { m with
    lens := m.lens.set layer ((t + 1) * ptok) 0, entries := m.entries.modify b fun e => s.refill e g.grec.layers ptok tpp }
  let s := s.updSeq m.seq fun y =>
    if y.state ≠ 0 then { y with
      entries := if (y.entries.getD b {}).base = e.base ∧ b < y.entries.length then y.entries.modify b fun e => s.refill e g.grec.layers ptok tpp else y.entries
      ageGath := gi, ageValid := true } else y
  let s := if (s.seq m.seq).state ≠ 0 then s.stampSeq m.seq gi else s
  let (full, s) := s.closeFull (ptok * tpp) [e.base + layer]
  let (toks, s) := s.screen m.seq (b * tpp + t) b (if layer = 0 then [id] else [])
  (full, toks, s)
/-- Writes the tokens of members `i` onward, `n` of them. -/
def State.memberWrites (s : State) (gi layer ptok : Nat) (data : Bytes) (ids : List Nat) : Nat → Nat → List Nat × List Token × State
  | _, 0 => ([], [], s)
  | i, n + 1 =>
    let (p, t, s) := s.memberWrite gi i layer ((data.drop (i * ptok)).take ptok) (ids.getD i 0)
    let (ps, ts, s) := s.memberWrites gi layer ptok data ids (i + 1) n
    (p ++ ps, t ++ ts, s)

/-- APPEND in GATHER mode. -/
def State.gatherMode (s : State) (f : Nat) (x : Flight) : State :=
  let c := x.ctx
  let gi := gField x.a
  let g := s.gath gi
  let layer := fld x.a.toNat 0 8
  let n := g.members.length
  let ptok := g.grec.ptok
  let taddr := fld x.c.toNat 0 32
  if !g.live then s.fail f stNotFound
  else s.readable f (g.members.map s.headAddr) fun s =>
  if g.owner ≠ c ∨ s.membersOwned g true = false then s.fail f stPermission
  else if g.grec.layers ≤ layer ∨ !s.shapesFit g true ∨ !inRange (bOffset x.b) (n * ptok) (s.ctx c).inLen ∨ !inRange taddr (4 * n) (s.ctx c).inLen then s.fail f stRange
  else if s.appendBefore f c false g.members then s
  else s.readable f (g.members.flatMap s.lastAddrs) fun s =>
    s.awaitGate f (bAwait x.b) (bOffset x.b) (n * ptok) fun s =>
      let s := s.ensureSnap gi
      let g := s.gath gi
      let addr := (s.ctx c).inAddr + bOffset x.b
      if g.members.any (fun q => (s.seq q).state == 2 && (s.seq q).owner == c) || g.snap.any (fun m => !m.positionOk layer g.grec.layers ptok g.grec.tpp ||
          (layer == 0 && !m.hasOpen && decide (2 ^ 24 ≤ m.entries.length))) then s.fail f stRange
      else if s.rangeBad addr (n * ptok) || (layer == 0 && s.rangeBad ((s.ctx c).inAddr + taddr) (4 * n)) then
        (s.badGranule 8 addr (some (s.fnOf c)) (some c) stPoisoned (wTag x.word)).fail f stPoisoned
      else
        let data := s.t0Read addr (n * ptok)
        let ids := if layer = 0 then idsAt (s.t0Read ((s.ctx c).inAddr + taddr) (4 * n)) else []
        let cls := fld x.a.toNat 53 2
        let who := if layer = 0 then g.needy else []
        let had := x.job.held
        match s.takeBlocks c gi cls (who.drop had.length) with
        | (l, s', some k) => (if l.isEmpty then s else s').growWait f g.grec.layers had (had ++ l) k
        | (l, s', none) =>
          match s'.memberBlocks c gi cls (who.zip (had ++ l)) with
          | .error k => (if l.isEmpty then s else s').growWait f g.grec.layers had (had ++ l) k
          | .ok s =>
            let (full, toks, s) := s.memberWrites gi layer ptok data ids 0 n
            let s := s.retireTaken (blockPages ((had ++ l).drop who.length) g.grec.layers)
            (s.updFlight f fun x => { x with job := .none }).sendRest f full toks (s.quotaStatus c) (BitVec.ofNat 64 (n + who.length * 2 ^ 32))

/-- APPEND (03 R92 to R95). -/
def execAppend (f : Nat) (s : State) : Host.Outcome State Fault Refusal :=
  onFlight 0x20 f s fun x s =>
    match x.job with
    | .append pages tokens st res => s.sendRest f pages tokens st res
    | _ => if x.a.getLsbD 52 then s.gatherMode f x else s.seqMode f x

end Sys2Proof.Machine
end

