-- ==== Sys2Proof/Machine/Float.lean ====
section
/-! DEFINITION. The device's arithmetic: FP32, BF16 and FP8 values, their exact rounding, dot products and the exponential (08 R233 to R240). -/
namespace Sys2Proof.Machine
open Sys2Proof

/-- The NaN of FP32 arithmetic (08 R236). -/
abbrev fNan : Nat := 0x7FC00000
/-- Infinities of FP32. -/
abbrev fInf : Nat := 0x7F800000
abbrev fNegInf : Nat := 0xFF800000
/-- Sign bit of FP32. -/
abbrev fSign : Nat := 0x80000000
/-- One. -/
abbrev fOne : Nat := 0x3F800000

/-- Round to nearest, ties to even, of `n / 2^k`. -/
def rneShift (n k : Nat) : Nat :=
  let q := n / 2 ^ k
  let r := n % 2 ^ k
  if 2 * r > 2 ^ k ∨ (2 * r = 2 ^ k ∧ q % 2 = 1) then q + 1 else q

/-- The magnitude code of `n * 2^e` in a format of `mb` mantissa bits and the given bias (08 R234); beyond the format it runs past the largest code. -/
def roundMag (mb bias n : Nat) (e : Int) : Nat :=
  if n = 0 then 0
  else
    let top : Int := Int.ofNat (Nat.log2 n) + e
    let emin : Int := 1 - Int.ofNat bias
    let u : Int := max top emin - Int.ofNat mb
    let q := if u ≤ e then n * 2 ^ (e - u).toNat else rneShift n (u - e).toNat
    if q < 2 ^ mb then q else (u + Int.ofNat mb + Int.ofNat bias).toNat * 2 ^ mb + (q - 2 ^ mb)

/-- FP32 of an exact value; `nz` is the sign of an exact zero. -/
def toF32 (m : Int) (e : Int) (nz : Bool) : Nat :=
  let c := min (roundMag 23 127 m.natAbs e) fInf
  if m < 0 ∨ (m = 0 ∧ nz = true) then c + fSign else c

/-- A code is NaN, infinite, or not finite. -/
def isNan (x : Nat) : Bool := decide (fInf < x % fSign)
def isInf (x : Nat) : Bool := x % fSign == fInf
def finite (x : Nat) : Bool := decide (x % fSign < fInf)
def neg (x : Nat) : Bool := decide (fSign ≤ x)
/-- Mantissa of a finite FP32 value, signed. -/
def fMant (x : Nat) : Int :=
  let f := fld x 0 23
  let m := if fld x 23 8 = 0 then f else f + 2 ^ 23
  if neg x then - Int.ofNat m else Int.ofNat m
/-- Exponent of that mantissa. -/
def fExp (x : Nat) : Int := Int.ofNat (max (fld x 23 8) 1) - 150

/-- `m * 2^e` brought to exponent `d ≤ e`. -/
def scaleTo (m : Int) (e d : Int) : Int := m * (2 : Int) ^ (e - d).toNat

/-- FP32 addition (08 R234). -/
def fadd (a b : Nat) : Nat :=
  if isNan a || isNan b then fNan
  else if isInf a then (if isInf b && neg a != neg b then fNan else a)
  else if isInf b then b
  else
    let d := min (fExp a) (fExp b)
    toF32 (scaleTo (fMant a) (fExp a) d + scaleTo (fMant b) (fExp b) d) d (neg a && neg b)
/-- FP32 negation, for subtraction. -/
def fneg (a : Nat) : Nat := if neg a then a - fSign else a + fSign
/-- FP32 subtraction. -/
def fsub (a b : Nat) : Nat := if isNan b then fNan else fadd a (fneg b)
/-- FP32 multiplication. -/
def fmul (a b : Nat) : Nat :=
  let s := if neg a != neg b then fSign else 0
  if isNan a || isNan b then fNan
  else if isInf a || isInf b then (if a % fSign = 0 ∨ b % fSign = 0 then fNan else fInf + s)
  else toF32 (fMant a * fMant b) (fExp a + fExp b) (neg a != neg b)
/-- FP32 division. -/
def fdiv (a b : Nat) : Nat :=
  let s := if neg a != neg b then fSign else 0
  if isNan a || isNan b then fNan
  else if isInf a then (if isInf b then fNan else fInf + s)
  else if isInf b then s
  else if b % fSign = 0 then (if a % fSign = 0 then fNan else fInf + s)
  else
    let n := (fMant a).natAbs * 2 ^ 60
    let d := (fMant b).natAbs
    let q := 2 * (n / d) + (if n % d = 0 then 0 else 1)
    toF32 (if s = 0 then Int.ofNat q else - Int.ofNat q) (fExp a - fExp b - 61) (s != 0)
/-- Order of FP32 values that are not NaN; both zeros are equal. -/
def fKey (a : Nat) : Int := if neg a then - Int.ofNat (a - fSign) else Int.ofNat a
/-- The larger of two; +0 is taken over -0; NaN if either is NaN (08 R248). -/
def fmax (a b : Nat) : Nat :=
  if isNan a || isNan b then fNan else if fKey a < fKey b then b else if fKey b < fKey a then a else if neg a then b else a

/-! ## Conversions (08 R234 to R236) -/

/-- BF16 of an FP32 value. -/
def bf16 (x : Nat) : Nat :=
  if isNan x then 0x7FC0
  else if isInf x then x / 65536
  else min (roundMag 7 127 (fMant x).natAbs (fExp x)) 0x7F80 + if neg x then 0x8000 else 0
/-- FP8 (E4M3) of an FP32 value; it saturates. -/
def fp8 (x : Nat) : Nat :=
  (if isNan x then 0x7F else if isInf x then 0x7E else min (roundMag 3 7 (fMant x).natAbs (fExp x)) 0x7E) + if neg x then 0x80 else 0
/-- FP32 of a BF16 element. -/
def ofBf16 (x : Nat) : Nat := x * 65536
/-- FP32 of an FP8 element. -/
def ofFp8 (x : Nat) : Nat :=
  let s := if 128 ≤ x then fSign else 0
  let f := fld x 0 3
  let e := fld x 3 4
  if x % 128 = 127 then fNan
  else s + (if e = 0 then toF32 (Int.ofNat f) (-9) false else toF32 (Int.ofNat (f + 8)) (Int.ofNat e - 10) false)
/-- FP32 of an element of a width. -/
def widen (w x : Nat) : Nat := if w = 1 then ofFp8 x else ofBf16 x

/-! ## Dot products (08 R237) -/

/-- The exact value of a BF16 or FP8 operand, given as FP32, in units of 2^-149. -/
def exactUnits (x : Nat) : Int := scaleTo (fMant x) (fExp x) (-149)
/-- The exact sum of a chunk's products, in units of 2^-298. -/
def chunkSum (a b : List Nat) : Int := (List.zipWith (fun x y => exactUnits x * exactUnits y) a b).foldl (· + ·) 0
/-- Adds an exact chunk sum to the accumulator with one rounding, of IEEE 754: a negative sum too small for FP32 gives -0 (log 151). -/
def accAdd (acc : Nat) (c : Int) : Nat :=
  if finite acc then toF32 (scaleTo (fMant acc) (fExp acc) (-298) + c) (-298) false else acc
/-- The products of a chunk of which an operand is not finite: infinities and NaNs. -/
def oddProducts (a b : List Nat) : List Nat := (List.zip a b).filterMap fun p => if finite p.1 && finite p.2 then none else some (fmul p.1 p.2)
/-- Chunks of 16 in ascending order. A chunk with a product that is not finite adds as IEEE 754 adds infinities and NaNs (log 109), zero-marked or not
(log 153). -/
def dotChunks (acc : Nat) : Nat → List Nat → List Nat → Nat
  | 0, _, _ => acc
  | k + 1, a, b =>
    let odd := oddProducts (a.take 16) (b.take 16)
    let acc := if odd.isEmpty then accAdd acc (chunkSum (a.take 16) (b.take 16)) else odd.foldl fadd (if finite acc then 0 else acc)
    dotChunks acc k (a.drop 16) (b.drop 16)
/-- A dot product of operands given as FP32 (08 R237). -/
def dot (a b : List Nat) : Nat := dotChunks 0 (cdiv (min a.length b.length) 16) a b

/-! ## The exponential (08 R240) -/

/-- FP32 roundings of 2^(i/64). -/
def expTable : List Nat :=
  [0x3F800000, 0x3F8164D2, 0x3F82CD87, 0x3F843A29, 0x3F85AAC3, 0x3F871F62, 0x3F88980F, 0x3F8A14D5,
   0x3F8B95C2, 0x3F8D1ADF, 0x3F8EA43A, 0x3F9031DC, 0x3F91C3D3, 0x3F935A2B, 0x3F94F4F0, 0x3F96942D,
   0x3F9837F0, 0x3F99E046, 0x3F9B8D3A, 0x3F9D3EDA, 0x3F9EF532, 0x3FA0B051, 0x3FA27043, 0x3FA43516,
   0x3FA5FED7, 0x3FA7CD94, 0x3FA9A15B, 0x3FAB7A3A, 0x3FAD583F, 0x3FAF3B79, 0x3FB123F6, 0x3FB311C4] ++
  [0x3FB504F3, 0x3FB6FD92, 0x3FB8FBAF, 0x3FBAFF5B, 0x3FBD08A4, 0x3FBF179A, 0x3FC12C4D, 0x3FC346CD,
   0x3FC5672A, 0x3FC78D75, 0x3FC9B9BE, 0x3FCBEC15, 0x3FCE248C, 0x3FD06334, 0x3FD2A81E, 0x3FD4F35B,
   0x3FD744FD, 0x3FD99D16, 0x3FDBFBB8, 0x3FDE60F5, 0x3FE0CCDF, 0x3FE33F89, 0x3FE5B907, 0x3FE8396A,
   0x3FEAC0C7, 0x3FED4F30, 0x3FEFE4BA, 0x3FF28177, 0x3FF5257D, 0x3FF7D0DF, 0x3FFA83B3, 0x3FFD3E0C]
/-- FP32 `p` times the exact value `m * 2^e`, neither negative, rounded once. -/
def mulExact (p : Nat) (m e : Int) : Nat := toF32 (fMant p * m) (fExp p + e) false
/-- e^x for x ≤ 0; `r` is exact, as 08 R240 says, and may need more than 24 bits (log 108). -/
def fexp (x : Nat) : Nat :=
  if isNan x then fNan
  else if x = fNegInf ∨ fKey x < - (0x43000000 : Int) then 0
  else
    let y := fmul x 0x3FB8AA3B
    let e := fExp y
    let k := max (-e) 6
    let m := scaleTo (fMant y) e (-k)
    let n := m / (2 : Int) ^ k.toNat
    let f := m - n * (2 : Int) ^ k.toNat
    let i := f * 64 / (2 : Int) ^ k.toNat
    let r := f - i * (2 : Int) ^ (k - 6).toNat
    let p := mulExact 0x3D635847 r (-k)
    let p := fadd 0x3E75FDF0 p
    let p := mulExact p r (-k)
    let p := fadd 0x3F317218 p
    let p := mulExact p r (-k)
    let p := fadd fOne p
    let z := fmul (expTable.getD i.toNat 0) p
    toF32 (fMant z) (fExp z + n) false

/-! ## Partials (08 R248 to R250) -/

/-- A partial: m, l, o, FP32 codes. -/
structure Partial where
  m : Nat := fNegInf
  l : Nat := 0
  o : List Nat := []
deriving DecidableEq, Repr

/-- The empty partial. -/
def Partial.isEmpty (p : Partial) : Bool := p.m == fNegInf && p.l == 0 && p.o.all (· == 0)
/-- Merges two partials, the first of the tree first (08 R249). -/
def merge (a b : Partial) : Partial :=
  if a.isEmpty then b
  else if b.isEmpty then a
  else
    let m := fmax a.m b.m
    let ea := fexp (fsub a.m m)
    let eb := fexp (fsub b.m m)
    { m := m, l := fadd (fmul a.l ea) (fmul b.l eb), o := List.zipWith (fun x y => fadd (fmul x ea) (fmul y eb)) a.o b.o }
/-- The largest power of two below `n`. -/
def powBelow (n : Nat) : Nat := 2 ^ Nat.log2 (n - 1)
/-- The combine tree, with the list's length as fuel (08 R250). -/
def tree : Nat → List Partial → Partial
  | 0, l => l.headD {}
  | k + 1, l =>
    if l.length ≤ 1 then l.headD {}
    else merge (tree k (l.take (powBelow l.length))) (tree k (l.drop (powBelow l.length)))

end Sys2Proof.Machine
end

