-- ==== Sys2Proof/Machine/PageOps.lean ====
section
/-! DEFINITION. SEAL, STAGE, HINT, DEMOTE, DELIVER, and the freeing of retirements (03 R96 to R99, R492; 04 R136 to R138; 05 R159 to R167). -/
namespace Sys2Proof.Machine
open Sys2Proof

/-- The pages of blocks `b` to `b + n - 1`, layers `l0` to `l0 + ln - 1`, in block-then-layer order. -/
def Seq.rangePages (q : Seq) (b n l0 ln : Nat) : List Nat :=
  ((q.entries.drop b).take n).flatMap fun e => (List.range ln).map (e.base + l0 + ·)
/-- Layer count of an operand: 0 means all from LAYER0. -/
def layerCount (layers l0 ln : Nat) : Nat := if ln = 0 then layers - l0 else ln
/-- The range check of STAGE and DELIVER (03 R492). -/
def Seq.rangeOk (q : Seq) (b n l0 ln : Nat) : Bool :=
  decide (b + n ≤ q.entries.length) && decide (l0 < q.layers) && decide (ln = 0 ∨ l0 + ln ≤ q.layers)

/-! ## SEAL (03 R96) -/

/-- Pages in the state SEALING that nothing has sent to the Press yet. -/
def State.unsent (s : State) (ps : List Nat) : List Nat :=
  ps.filter fun p => (s.page p).state == .sealing && !s.press.queue.contains p && !s.press.pipes.any (fun x => x.2 == p + 1) &&
    !s.flights.any fun x => match x.2.job with | .append l _ _ _ => l.contains p | _ => false
/-- Ends a SEAL once no page of `ps`, those not sealed when it began, seals any more, one that another APPEND filled meanwhile among them; or sends
those the Press has not yet been sent. -/
def State.sealOn (s : State) (f : Nat) (ps : List Nat) : State :=
  let (_, s) := s.sendSeals f (s.unsent ps)
  if ps.any fun p => (s.page p).state == .sealing then s.setJob f (.sealing ps)
  else
    let done := ps.filter fun p => (s.page p).formed
    if done.any fun p => (s.page p).poison then s.fail f stPoisoned else s.finish f stOk (BitVec.ofNat 64 done.length) none
/-- What FINAL does: the open block below `n` starts to seal, and the sequence closes. -/
def State.sealFinal (s : State) (q n : Nat) : State :=
  let x := s.seq q
  let last := x.entries.length - 1
  let e := x.entries.getLastD {}
  if !e.isOpen then s.updSeq q fun y => { y with state := 2 }
  else if last < n then
    let s := (List.range x.layers).foldl (fun s l => s.toSealing (e.base + l)) s
    s.updSeq q fun y => { y with state := 2, entries := y.entries.modify last fun e => { e with isOpen := false } }
  else s
/-- SEAL. -/
def execSeal (f : Nat) (s : State) : Host.Outcome State Fault Refusal :=
  onFlight 0x21 f s fun x s =>
    match x.job with
    | .sealing ps => s.sealOn f ps
    | _ =>
      let q := sSeq x.a
      let n := sBlock x.a
      let st := s.seqCheck x.ctx q
      s.readable f [s.headAddr q] fun s =>
      if st ≠ stOk then s.fail f st
      else if (s.seq q).entries.length < n then s.fail f stRange
      else s.readable f (s.tableAddrs q 0 n ((s.seq q).rangePages 0 n 0 (s.seq q).layers)) fun s =>
        let s := if x.b.getLsbD 0 then s.sealFinal q n else s
        s.sealOn f (((s.seq q).rangePages 0 n 0 (s.seq q).layers).filter fun p => !(s.page p).formed && (s.page p).state != .retiring)

/-! ## STAGE, HINT (03 R97) -/

/-- STAGE. -/
def execStage (f : Nat) (s : State) : Host.Outcome State Fault Refusal :=
  onFlight 0x22 f s fun x s =>
    let q := sSeq x.a
    match x.job with
    | .pages [] n => s.finish f stOk (BitVec.ofNat 64 n) none
    | .pages _ _ => s
    | _ =>
      let y := s.seq q
      let st := s.seqCheck x.ctx q
      let b := sBlock x.a
      let n := fld x.b.toNat 0 24
      let l0 := fld x.b.toNat 24 8
      let ln := fld x.b.toNat 32 8
      s.readable f [s.headAddr q] fun s =>
      if st ≠ stOk then s.fail f st
      else if !y.rangeOk b n l0 ln then s.fail f stRange
      else s.readable f (s.tableAddrs q b n (y.rangePages b n l0 (layerCount y.layers l0 ln))) fun s => s.asWalker f fun s =>
        let ps := (y.rangePages b n l0 (layerCount y.layers l0 ln)).filter fun p => (s.page p).state == .sealed
        let s := ps.foldl (fun s p => s.stampBySeq q p) s
        let away := ps.filter fun p => (s.page p).tier != 0
        if away.any fun p => (s.page p).poison then s.fail f stPoisoned
        else if away.isEmpty then s.finish f stOk 0 none
        else s.awaitPages f .stage away.eraseDups (.pages away.eraseDups away.eraseDups.length)
/-- HINT: this sequence's hint and requested class for the named blocks (03 R97). -/
def execHint (f : Nat) (s : State) : Host.Outcome State Fault Refusal :=
  onFlight 0x23 f s fun x s =>
    let q := sSeq x.a
    let y := s.seq q
    let st := s.seqCheck x.ctx q
    let b := sBlock x.a
    let n := fld x.b.toNat 0 24
    let hint := fld x.b.toNat 24 2
    let set := x.b.getLsbD 26
    let cls := fld x.b.toNat 27 2
    s.readable f [s.headAddr q] fun s =>
    if st ≠ stOk then s.fail f st
    else if y.entries.length < b + n then s.fail f stRange
    else s.readable f (s.tableAddrs q b n (y.rangePages b n 0 y.layers)) fun s =>
      let s := s.updSeq q fun y => { y with entries := (List.range y.entries.length).map fun i =>
        let e := y.entries.getD i {}
        if b ≤ i ∧ i < b + n then { e with hint := hint, cls := if set then cls else e.cls } else e }
      let s := ((y.entries.drop b).take n).foldl (fun s e => s.reclass e.base y.layers x.ctx) s
      s.finish f stOk 0 none

/-! ## DEMOTE (03 R98) -/

/-- DEMOTE passes over a page (03 R98). -/
def State.demoteSkips (s : State) (p : Nat) : Bool :=
  let g := s.page p
  g.state != .sealed || g.cls == 0 || g.tier != 0 || g.poison
/-- A NO_TARGET record (13 R419). -/
def State.noTarget (s : State) (p tier : Nat) : State := s.report { cls := 1, source := 5, code := 0x13, object := p, detail := tier }
/-- Begins the demotion of one page: skipped, dropped, or an outward move asked for: waiting, moved, skipped. An outward move that the
page already has becomes the demotion (log 110). -/
def State.demoteOne (s : State) (c tier p : Nat) (a : List Nat × Nat × Nat) : (List Nat × Nat × Nat) × State :=
  let (w, m, k) := a
  if s.demoteSkips p then ((w, m, k + 1), s)
  else if s.homeTier p ≠ 0 then ((w, m + 1, k), s.dropCopy p)
  else
    let s := s.askMove .demote p c 0 0
    ((p :: w, m, k), s.updMove p fun v => if v.started then { v with kind := .demote, keep := false } else { v with kind := .demote, tier := tier, ctx := c, keep := false })
/-- DEMOTE's pages, one after another. -/
def State.demoteAll (s : State) (c tier : Nat) (a : List Nat × Nat × Nat) : List Nat → (List Nat × Nat × Nat) × State
  | [] => (a, s)
  | p :: r => let (a, s) := s.demoteOne c tier p a; s.demoteAll c tier a r
/-- RESULT of DEMOTE (03 R98). -/
def demoteResult (m k x : Nat) : BitVec 64 := BitVec.ofNat 64 (m % 2 ^ 32 + k % 65536 * 2 ^ 32 + x % 65536 * 2 ^ 48)
/-- DEMOTE. -/
def execDemote (f : Nat) (s : State) : Host.Outcome State Fault Refusal :=
  onFlight 0x24 f s fun x s =>
    match x.job with
    | .demote [] m k bad => s.finish f stOk (demoteResult m k bad) none
    | .demote .. => s
    | _ =>
      let q := sSeq x.a
      let y := s.seq q
      let st := s.seqCheck x.ctx q
      let b := sBlock x.a
      let n := fld x.b.toNat 0 24
      let tier := fld x.b.toNat 24 2
      let ps := (y.rangePages b n 0 y.layers).eraseDups
      s.readable f [s.headAddr q] fun s =>
      if st ≠ stOk then s.fail f st
      else if y.entries.length < b + n then s.fail f stRange
      else s.readable f (s.tableAddrs q b n ps) fun s =>
      if ps.any fun p => (s.page p).scope != 0 && !(s.ctx x.ctx).hasScope (s.page p).scope then s.fail f stPermission
      else s.asWalker f fun s =>
        match s.demoteAll x.ctx tier ([], 0, 0) ps with
        | (([], m, k), s) => s.finish f stOk (demoteResult m k 0) none
        | ((w, m, k), s) => s.setJob f (.demote w m k 0)
/-- A DEMOTE's outward move of a page has ended, done or failed; one that its page has outlived, or that poison stopped, counts failed (log 146). -/
def State.demoteEnded (s : State) (p : Nat) (ok : Bool) : State :=
  { s with flights := s.flights.map fun x =>
      match x.2.job with
      | .demote w m k bad =>
        if w.contains p then (x.1, { x.2 with job := .demote (w.erase p) (if ok then m + 1 else m) k (if ok then bad else bad + 1), progress := s.now }) else x
      | _ => x }

/-! ## DELIVER (03 R99) -/

/-- Bytes of a page in a delivery's form (03 R99, 09 R285): row of a failed check, and the bytes. -/
def State.deliverBytes (s : State) (form p : Nat) : Expanded :=
  if form = 0 then (if s.pageBad p then (8, []) else (0, s.pageBytes p)) else s.payload p (s.page p).length
/-- A queue pair takes a context's output: OK, PERMISSION for another's, REMOTE_ACCESS outside RTS (10 R303, R305; log 22). -/
def State.outQp (s : State) (c q : Nat) : BitVec 16 :=
  let x := s.qp q
  if x.owner ≠ c ∨ x.state = .reset then stPermission else if x.state = .rts then stOk else stRemote
/-- The bytes of the pages in order until one fails: pieces with their slots, and the failure: page, row (8 a bad granule, 9 poisoned). -/
def State.deliverPieces (s : State) (form : Nat) : Nat → List Nat → List (Nat × Bytes) × Option (Nat × Nat)
  | _, [] => ([], none)
  | i, p :: r =>
    if (s.page p).poison then ([], some (p, 9))
    else
      match s.deliverBytes form p with
      | (0, b) => let (l, e) := s.deliverPieces form (i + 1) r; ((i, b) :: l, e)
      | (row, _) => ([], some (p, row))
/-- Where the pieces of a delivery go: slot `i` at ADDR + 65,536 i. -/
def deliverDests (kind qp rkey addr : Nat) : Nat → List (Nat × Bytes) → List Dest
  | _, [] => []
  | off, (i, b) :: r =>
    { kind := kind, qp := qp, rkey := rkey, addr := addr + 65536 * i, off := off, len := b.length } :: deliverDests kind qp rkey addr (off + b.length) r
/-- A page of a delivery could not be read: poisoned already (row 9), a bad granule of the stored form, which FORM 0 delivers without any check of
the expander, or a check of 09 R285 (09 R286). -/
def State.deliverFail (s : State) (c form p row : Nat) (tag : BitVec 16) : State :=
  if row = 9 then s
  else if form = 0 then (s.poisonPage p).badGranule 8 ((s.page p).location * 4096) (some (s.fnOf c)) (some c) stPoisoned tag
  else s.expandFail c p row tag
/-- Delivers pages that are all in T0 (03 R99). A failing page ends it, and so does a queue pair that has left RTS since it began (10 R305); what was
written before stands. -/
def State.deliver (s : State) (f : Nat) (v : Delivering) : State :=
  let ⟨q, ps, form, kind, qp, rkey, addr⟩ := v
  let x := s.flight f
  let (pieces, bad) := s.deliverPieces form 0 ps
  let data := pieces.flatMap (·.2)
  let base := if kind = 0 then (s.ctx x.ctx).outAddr + addr else addr
  let s := ps.foldl (fun s p => s.stampBySeq q p) s
  if kind = 1 ∧ s.outQp x.ctx qp ≠ stOk then s.fail f (s.outQp x.ctx qp) else
  match bad with
  | some (p, row) =>
    let s := if (s.ctx x.ctx).conf then s else (deliverDests kind qp rkey base 0 pieces).foldl (fun s d => s.place f data 1 x.mirror.isSome d) s
    let s := ps.foldl State.dropCold s
    (s.deliverFail x.ctx form p row (wTag x.word)).fail f (expandStatus row)
  | none =>
    match s.output f data (deliverDests kind qp rkey base 0 pieces) 1 with
    | none => s
    | some s => (ps.foldl State.dropCold s).finishWrites f stOk (BitVec.ofNat 64 ps.length) none
/-- Goes on with a DELIVER that has taken its pages: it waits for those that are not in T0, one dropped while it waited for another among them, and
delivers them once all are; what its sequence's table holds since is not its concern (03 R87, R99; 04 R136). -/
def State.deliverOn (s : State) (f : Nat) (v : Delivering) : State :=
  s.readable f (v.pages.map s.descAddr) fun s =>
    let away := (v.pages.filter fun p => (s.page p).tier != 0).eraseDups
    if away.any fun p => (s.page p).poison then s.fail f stPoisoned
    else if !away.isEmpty then s.awaitPages f .demand away (.deliver away v)
    else s.deliver f v
/-- DELIVER. Weight pages have no payload form, so FORM 1 of a weight sequence ends with RANGE (log 128). -/
def execDeliver (f : Nat) (s : State) : Host.Outcome State Fault Refusal :=
  onFlight 0x25 f s fun x s =>
    match x.job with
    | .writes st res cw => if s.outstanding f then s else s.finish f st res cw
    | .deliver (_ :: _) _ => s
    | .deliver [] v => s.deliverOn f v
    | _ =>
      let q := sSeq x.a
      let y := s.seq q
      let b := sBlock x.a
      let n := fld x.b.toNat 0 24
      let l0 := fld x.b.toNat 24 8
      let ln := fld x.b.toNat 32 8
      let addr := (s.ctx x.ctx).inAddr + fld x.c.toNat 0 32
      let st := s.seqCheck x.ctx q
      s.readable f [s.headAddr q] fun s =>
      if st ≠ stOk then s.fail f st
      else if !y.rangeOk b n l0 ln then s.fail f stRange
      else s.readable f (s.tableAddrs q b n (y.rangePages b n l0 (layerCount y.layers l0 ln))) fun s =>
      if x.mirror.isNone && s.rangeBad addr 32 then (s.badGranule 8 addr (some (s.fnOf x.ctx)) (some x.ctx) stPoisoned (wTag x.word)).fail f stPoisoned
      else
        let d := ofLe (if x.mirror.isSome then x.tenant.take 32 else s.t0Read addr 32)
        let form := fld d 0 2
        let kind := fld d 2 2
        let qp := fld d 4 14
        let rkey := fld d 32 32
        let dst := fld d 64 64
        let ps := y.rangePages b n l0 (layerCount y.layers l0 ln)
        if 2 ≤ form ∨ kind = 3 ∨ (x.mirror.isSome = true ∧ kind ≠ 1) ∨ fld d 18 14 ≠ 0 ∨ fld d 128 128 ≠ 0 then s.fail f stRange
        else if kind = 0 ∧ (s.ctx x.ctx).outLen < dst + 65536 * ps.length then s.fail f stRange
        else if form = 1 ∧ y.weight then s.fail f stRange
        else if kind = 1 ∧ s.outQp x.ctx qp ≠ stOk then s.fail f (s.outQp x.ctx qp)
        else s.asWalker f fun s => s.deliverOn f { seq := q, pages := ps, form := form, kind := kind, qp := qp, rkey := rkey, addr := dst }

/-! ## Freeing (04 R138, 05 R154, 09 R296) -/

/-- Frees POOL runs. -/
def State.freePool (s : State) (runs : List Nat) : State :=
  { s with ps := { s.ps with poolRuns := runs.foldl Tbl.del s.ps.poolRuns } }
/-- Frees a retired page with all it holds; its VERSION rises by 1 (04 R121). One whose descriptor cannot be read is not freed (13 R415). -/
def State.freePage (s : State) (p : Nat) : State :=
  if (s.lostOf [s.descAddr p]).isSome then s else
  let g := s.page p
  let a := s.auxRec g.aux
  let s := if g.tier = 0 then s.freePool [g.location] else s.freeHome g.tier g.location g.sheets
  let s := if g.tier = 0 ∧ g.aux ≠ 0 then s.freeHome a.homeTier a.homeLoc g.sheets else s
  let s := if g.aux = 0 then s else { s with ps := { s.ps with auxRuns := s.ps.auxRuns.del g.aux, aux := s.ps.aux.del g.aux } }
  let s := if g.summary = 0 ∧ g.format = 0x10 then s else
    { s with ps := { s.ps with sumRuns := s.ps.sumRuns.del g.summary, sums := s.ps.sums.del g.summary } }
  let s := { s with press := { s.press with hashWait := s.press.hashWait.filter (· != p) } }
  s.updPage p fun _ => { version := (g.version + 1) % 65536 }
/-- Frees a clear copy: its sheets are written with zeros, then return to their gathering's reservation or to POOL; a superseded record that it
served ends with it. -/
def State.freeClear (s : State) (c : Nat × Nat) : State :=
  let n := s.ps.poolRuns.get c.1 0
  let s := s.t0Write (c.1 * 4096) (zeros (n * 4096))
  let s := s.freePool [c.1]
  let s := { s with fq := { s.fq with past := s.fq.past.filter fun r => r.2.clear != some c.1 } }
  if c.2 ≠ 0 ∧ (s.gath (c.2 - 1)).live then
    let s := s.updGath (c.2 - 1) fun g => { g with reserve := g.reserve + n }
    { s with ps := { s.ps with reserved := s.ps.reserved + n } }
  else s
/-- Frees the objects of one retirement; the sheets of a clear copy let a layer that waits for them take its own (09 R294). -/
def State.freeRetired (s : State) (r : Retire) : State :=
  let s := r.pages.foldl State.freePage s
  let s := s.freePool r.pool
  let s := { s with ps := { s.ps with seqRuns := r.seqSheets.foldl Tbl.del s.ps.seqRuns } }
  let s := r.homes.foldl (fun s h => s.freeHome h.1 h.2.1 h.2.2) s
  let s := r.clear.foldl State.freeClear s
  if r.clear.isEmpty then s else s.gaths.foldl (fun s g => s.openWindow g.1) s
/-- RETIREMENT_FREE: the oldest retirement, once PS_OLDEST is greater than its tag. -/
def execRetirementFree (s : State) : Host.Outcome State Fault Refusal :=
  act s fun s =>
    match s.ps.retired with
    | r :: rest => if r.tag < s.oldest then ({ s with ps := { s.ps with retired := rest } }).freeRetired r else s
    | [] => s

end Sys2Proof.Machine
end

