-- ==== Sys2Proof/Machine/Gatherings.lean ====
section
/-! DEFINITION. GSET, STEP, the Kettle doorbell and the expiry of step holds (03 R100 to R103, 04 R139 to R141, 05 R168, R173, 08 R244 to R246). -/
namespace Sys2Proof.Machine
open Sys2Proof

/-! ## The gathering record (03 R101) -/

/-- The record of 64 bytes. -/
def parseGRec (r : Nat) : GRec :=
  { model := fld r 0 16, layers := fld r 16 8, latent := bit r 24, qheads := fld r 32 8, kvheads := fld r 40 8, headdim := fld r 48 12
    latentW := fld r 64 12, rope := fld r 76 12, tpp := fld r 88 8, kvfmt := fld r 96 2, qmask := BitVec.ofNat 16 (fld r 128 16)
    budget := fld r 144 16, sink := fld r 160 8, recent := fld r 168 8, adaptive := bit r 176, wahead := fld r 184 4, wbehind := fld r 188 4
    scale := BitVec.ofNat 32 (fld r 192 32), members := fld r 224 32, odest := fld r 256 8, qp := fld r 272 14, rkey := BitVec.ofNat 32 (fld r 288 32)
    oaddr := fld r 320 64, ostride := fld r 384 32, bias := fld r 416 32 }
/-- Its reserved bits are 0. -/
def grecRsvOk (r : Nat) : Bool :=
  fld r 25 7 == 0 && fld r 60 4 == 0 && fld r 98 30 == 0 && fld r 177 7 == 0 && fld r 264 8 == 0 && fld r 286 2 == 0 && fld r 448 64 == 0
/-- A positive finite FP32 value (08 R244). -/
def scaleOk (v : BitVec 32) : Bool := v != 0 && !v.getLsbD 31 && fld v.toNat 23 8 != 255
/-- The fields obey 03 R101 and 08 R244, on a part with `quires` Quires. -/
def GRec.ok (g : GRec) (quires : Nat) : Bool :=
  decide (1 ≤ g.layers ∧ 1 ≤ g.qheads ∧ g.qheads ≤ 128 ∧ 16 ≤ g.headdim ∧ g.headdim ≤ 256 ∧ g.headdim % 16 = 0) &&
  (if g.latent then decide (g.kvheads = 0 ∧ g.latentW % 16 = 0 ∧ g.latentW ≤ 1024 ∧ g.rope % 16 = 0 ∧ g.rope ≤ 256 ∧ g.rope ≤ g.headdim)
   else decide (1 ≤ g.kvheads ∧ g.kvheads ≤ g.qheads ∧ g.qheads % max g.kvheads 1 = 0 ∧ g.latentW = 0 ∧ g.rope = 0)) &&
  [8, 16, 32, 64].contains g.tpp && decide (g.kvfmt < 2 ∧ g.ptok * g.tpp ≤ 65536) &&
  decide (g.qmask ≠ 0 ∧ g.qmask.toNat < 2 ^ quires) && decide (g.budget = 0 ∨ g.sink + g.recent ≤ g.budget) && scaleOk g.scale &&
  decide (1 ≤ g.members ∧ g.members ≤ 256 ∧ g.odest < 3)
/-- The bias table's header obeys 08 R245 and the table fits in the owner's input buffer (08 R246). -/
def State.biasOk (s : State) (c : Nat) (g : GRec) : Bool :=
  if g.bias = 0 then true
  else
    let x := s.ctx c
    let h := ofLe (s.t0Read (g.bias * 4096) 64)
    let spans := fld h 16 4
    let len := 64 + b2n (bit h 8) * g.qheads * 512 + g.members * spans * 16
    decide (x.inSheet ≤ g.bias ∧ g.bias * 4096 + len ≤ x.inAddr + x.inLen) &&
    decide (fld h 0 8 = g.qheads ∧ spans ≤ 8 ∧ fld h 32 32 = g.members) && fld h 9 7 == 0 && fld h 20 12 == 0 && fld h 64 448 == 0
/-- Quires that a set names. -/
def quiresOf (m : BitVec 16) : List Nat := (List.range 16).filter fun i => m.getLsbD i

/-- Reads a record and its member list at an input buffer offset. -/
def State.readGRec (s : State) (c off : Nat) : Nat × List Nat :=
  let addr := (s.ctx c).inAddr + off
  let r := ofLe (s.t0Read addr 64)
  (r, idsAt (s.t0Read (addr + 64) (4 * min (fld r 224 32) 256)))
/-- The checks of create and update but BUSY (03 R102, 08 R244, R246, 03 R74). -/
def State.gsetCheck (s : State) (c off : Nat) : BitVec 16 :=
  let (r, ms) := s.readGRec c off
  let g := parseGRec r
  if !grecRsvOk r || !g.ok s.quires || !inRange off (64 + 4 * g.members) (s.ctx c).inLen || ms.any (fun m => decide (2 ^ 24 ≤ m)) then stRange
  else if ms.any (fun m => (s.seq m).state != 0 && (s.seq m).owner != c) then stPermission
  else if ms.any (fun m => (s.seq m).state != 0 && (s.seq m).model != g.model) || !s.biasOk c g then stRange
  else if (quiresOf g.qmask).any fun q => s.dev.quireDown.get q false then stUnavailable
  else stOk
/-- Sheets a latent gathering reserves for its window: the largest PPL recorded for the model (05 R173). -/
def State.windowSheets (s : State) (g : GRec) : Nat :=
  let ppl := s.fq.wrecs.foldl (fun a r => if r.2.valid ∧ r.2.model = g.model then max a r.2.ppl else a) 0
  (g.wahead + g.wbehind + 1) * ppl * 16
/-- The age gathering of the members becomes this one; one that does not exist yet takes it when it is created (04 R147). -/
def State.adopt (s : State) (gi : Nat) (ms : List Nat) : State :=
  let s := { s with ps := { s.ps with listed := ms.foldl (fun t m => t.set m (gi + 1) 0) s.ps.listed } }
  ms.foldl (fun s m => if (s.seq m).state = 0 then s else s.updSeq m fun y => { y with ageGath := gi, ageValid := true }) s

/-- Runs a GSET of one ACTION on flight `f`. -/
def onGset (action f : Nat) (s : State) (k : Flight → Nat → State → State) : Host.Outcome State Fault Refusal :=
  onFlight 0x40 f s fun x s => if fld x.a.toNat 12 2 = action then k x (gField x.a) s else s

/-- GSET create (03 R102, 05 R173). An ID that exists is BUSY, whoever owns it (log 127). -/
def execGsetCreate (f : Nat) (s : State) : Host.Outcome State Fault Refusal :=
  onGset 0 f s fun x gi s =>
    let c := x.ctx
    let off := fld x.b.toNat 0 32
    let st := s.gsetCheck c off
    let (r, ms) := s.readGRec c off
    let g := parseGRec r
    if s.rangeBad ((s.ctx c).inAddr + off) (64 + 4 * ms.length) then
      (s.badGranule 8 ((s.ctx c).inAddr + off) (some (s.fnOf c)) (some c) stPoisoned (wTag x.word)).fail f stPoisoned
    else s.readable f (ms.map s.headAddr) fun s =>
    if st ≠ stOk then s.fail f st
    else if (s.gath gi).live then s.fail f stBusy
    else
      let n := if g.latent then s.windowSheets g else 0
      if g.latent ∧ n = 0 then s.fail f stNotFound
      else if n ≠ 0 ∧ (s.freeSheets < n ∨ s.freeSheets ≤ s.tier.landing) then s.allocWait f .pool
      else
        let s := { s with ps := { s.ps with reserved := s.ps.reserved + n } }
        let s := s.updGath gi fun _ => { live := true, owner := c, grec := g, members := ms, reserve := n }
        let s := (s.adopt gi ms).takeSnap gi
        s.finish f stOk 0 none
/-- GSET update: the record and list are replaced whole, at a step boundary; the counters stay (03 R102, 04 R140), and the window reservation of
its creation (log 133). -/
def execGsetUpdate (f : Nat) (s : State) : Host.Outcome State Fault Refusal :=
  onGset 1 f s fun x gi s =>
    let c := x.ctx
    let off := fld x.b.toNat 0 32
    let st := s.gsetCheck c off
    let (r, ms) := s.readGRec c off
    let g := s.gath gi
    if !g.live then s.fail f stNotFound
    else if g.owner ≠ c then s.fail f stPermission
    else if s.rangeBad ((s.ctx c).inAddr + off) (64 + 4 * ms.length) then
      (s.badGranule 8 ((s.ctx c).inAddr + off) (some (s.fnOf c)) (some c) stPoisoned (wTag x.word)).fail f stPoisoned
    else s.readable f (ms.map s.headAddr) fun s =>
    if st ≠ stOk then s.fail f st
    else
      let s := (s.passBoundary gi).applyBoundaries gi
      let s := s.endHold gi
      let s := s.updGath gi fun g => { g with grec := parseGRec r, members := ms }
      let s := (s.adopt gi ms).takeSnap gi
      s.finish f stOk 0 none

/-- A layer's clear copy passes to another gathering whose window holds it (05 R173). -/
def State.passCopies (s : State) (gi : Nat) : State :=
  s.fq.wrecs.foldl (fun s r =>
    if r.2.clear.isSome ∧ r.2.reserveOf = gi then
      match s.gaths.find? fun g => g.1 != gi && g.2.grec.model == r.2.model && decide (r.2.layer < g.2.grec.layers) && g.2.inWindow r.2.layer with
      | some g =>
        let n := min g.2.reserve (r.2.ppl * 16)
        let s := s.updGath g.1 fun g => { g with reserve := g.reserve - n }
        ({ s with ps := { s.ps with reserved := s.ps.reserved - n } }).updWrec r.1 fun w => { w with reserveOf := g.1 }
      | none => s
    else s) s
/-- Ends the gathering: its counters, holds, prefetch holds and reservation cease; WAITs on it end (03 R78, R102; 04 R140; 05 R170, R173). -/
def State.dissolve (s : State) (gi : Nat) : State :=
  let s := (s.passBoundary gi).applyBoundaries gi
  let s := (s.endHold gi).endPrefetchHolds gi true
  let g := s.gath gi
  let s := s.updGath gi fun g => { g with live := false }
  let s := if g.grec.latent then (s.passCopies gi).sweepWindows else s
  let retired := s.ps.retired.map fun r => { r with clear := r.clear.map fun c => if c.2 = gi + 1 then (c.1, 0) else c }
  let s := { s with ps := { s.ps with reserved := s.ps.reserved - g.reserve, retired := retired } }
  let s := s.updGath gi fun _ => {}
  s.flights.foldl (fun s p =>
    if wOpcode p.2.word = 0x02 ∧ p.2.phase ≠ .ended ∧ fld p.2.a.toNat 0 8 = 1 ∧ gField p.2.a = gi then s.fail p.1 stNotFound else s) s
/-- GSET dissolve. -/
def execGsetDissolve (f : Nat) (s : State) : Host.Outcome State Fault Refusal :=
  onGset 2 f s fun x gi s =>
    let g := s.gath gi
    if !g.live then s.fail f stNotFound
    else if g.owner ≠ x.ctx then s.fail f stPermission
    else (s.dissolve gi).finish f stOk 0 none

/-! ## Positions (03 R103, 05 R168) -/

/-- The checks of STEP on a gathering named by a context of function `fn` (03 R74, R103). -/
def State.stepCheck (s : State) (fn gi step layer : Nat) : BitVec 16 :=
  let g := s.gath gi
  if !g.live then stNotFound
  else if s.fnOf g.owner ≠ fn then stPermission
  else if g.grec.layers ≤ layer then stRange
  else if step < g.step ∨ (step = g.step ∧ layer < g.layer) then stStale
  else stOk
/-- Sets the position; a new step value is a step boundary and takes a new snapshot (04 R139, R140). -/
def State.setPosition (s : State) (gi step layer : Nat) : State :=
  let old := (s.gath gi).step
  let s := s.updGath gi fun g =>
    { g with step := step, layer := layer, selected := if old = step then g.selected else g.selected.filter fun x => x.2.1 == old }
  (if old = step then s.kettle gi else s.stepBoundary gi).noteWants
/-- STEP; a mirrored one acts as a Kettle doorbell of its queue pair's FUNCTION (10 R322). -/
def execStep (f : Nat) (s : State) : Host.Outcome State Fault Refusal :=
  onFlight 0x33 f s fun x s =>
    let gi := gField x.a
    let layer := fld x.c.toNat 0 8
    let fn := match x.mirror with | some (q, _) => (s.qp q).function | none => s.fnOf x.ctx
    let st := s.stepCheck fn gi x.b.toNat layer
    if st = stOk then (s.setPosition gi x.b.toNat layer).finish f stOk x.b none
    else (if x.mirror.isSome then s.countFn fn 1 1 else s).fail f st
/-- The smallest step value not below `cur` whose low 44 bits are `lo` (05 R168). -/
def stepFrom (cur lo : Nat) : Nat := let d := (lo + 2 ^ 44 - cur % 2 ^ 44) % 2 ^ 44; cur + d
/-- A Kettle doorbell of function `fn`: the status of its checks, and its effect (05 R168, 10 R322). -/
def State.kettleBell (s : State) (fn v : Nat) : BitVec 16 × State :=
  let gi := fld v 52 12
  let step := stepFrom (s.gath gi).step (fld v 0 44)
  let st := s.stepCheck fn gi step (fld v 44 8)
  if st = stOk then (st, s.setPosition gi step (fld v 44 8)) else (st, s.countFn fn 1 1)
/-- KETTLE_DOORBELL: fewer than 8 bytes are ignored and counted. -/
def execKettleDoorbell (fn : Nat) (v : BitVec 64) (bytes : Nat) (s : State) : Host.Outcome State Fault Refusal :=
  act s fun s => if bytes = 8 then (s.kettleBell fn v.toNat).2 else s.countFn fn 1 1
/-- STEP_HOLD_EXPIRED: after PS_HOLD_LIMIT microseconds (04 R140, R141; 05 R170). -/
def execStepHoldExpired (g : Nat) (s : State) : Host.Outcome State Fault Refusal :=
  act s fun s =>
    let x := s.gath g
    if x.hold.isSome ∧ x.holdLimit ≠ 0 ∧ x.holdAt + x.holdLimit * usCycles ≤ s.now then
      let s := (s.passBoundary g).applyBoundaries g
      ((s.endHold g).endPrefetchHolds g true).countFn (s.gathFn g) 2 1
    else s

end Sys2Proof.Machine
end

