-- ==== Sys2Proof/Machine/Moves.lean ====
section
/-! DEFINITION. The Gatherer: moves between tiers, their encryption, their failures, and reclamation (05 R160 to R167, R171, R175; 12 R370 to R373). -/
namespace Sys2Proof.Machine
open Sys2Proof

/-! ## Encryption below T0 (12 R370 to R373) -/

/-- The session secret S as bytes. -/
def State.secretBytes (s : State) : Bytes := leBytes 48 s.sec.secret.toNat
/-- K1 of a key scope. -/
def State.k1 (s : State) (scope : Nat) : Bytes := hkdfExpand s.secretBytes ([0x54, 0x31] ++ leBytes 2 scope) 64
/-- K2 of a key scope. -/
def State.k2 (s : State) (scope : Nat) : Bytes := hkdfExpand s.secretBytes ([0x54, 0x32] ++ leBytes 2 scope) 32
/-- The T1 form of a run, sheet by sheet, or its plaintext (12 R372). -/
def State.t1Crypt (s : State) (enc : Bool) (p scope : Nat) (b : Bytes) : Bytes :=
  let key := s.k1 scope
  let cs := chunks 4096 16 b
  (List.range cs.length).flatMap fun i => xts enc key (leBytes 16 (p + (s.page p).version * 2 ^ 40 + i * 2 ^ 56)) (cs.getD i [])
/-- IV of a T2 or swap-area copy (12 R373). -/
def homeIv (p version tier : Nat) : Bytes := leBytes 12 (p + version * 2 ^ 40 + tier * 2 ^ 56)
/-- Additional data of a T2 or swap-area copy (12 R373). -/
def homeAad (p : Nat) (g : Page) (scope : Nat) : Bytes :=
  leBytes 16 (p + g.version * 2 ^ 40 + g.format * 2 ^ 56 + b2n g.raw * 2 ^ 62 + g.sheets % 16 * 2 ^ 64 + g.length * 2 ^ 72 + scope * 2 ^ 96)

/-- Check bytes of a string, granule by granule (13 R413). -/
def checkBytes (b : Bytes) : Bytes := (chunks 32 (cdiv b.length 32) b).flatMap granuleCheck
/-- The granules of a run as T1 returns them, each with its check bytes: the ciphertext with its corrections, and the places of the corrected ones
from `i` on; or none when one is uncorrectable (12 R372, 13 R413 to R415). -/
def t1Granules : Nat → List (Bytes × Bytes) → Option (Bytes × List Nat)
  | _, [] => some ([], [])
  | i, g :: r =>
    match granuleDecode g.1 g.2, t1Granules (i + 1) r with
    | .clean, some (b, l) => some (g.1 ++ b, l)
    | .corrected d, some (b, l) => some (d ++ b, i :: l)
    | _, _ => none

/-- Where the check bytes of a sheet of T1 begin on its port's device: after its SHEETS sheets of 4,096 bytes, 512 for each (13 R414). -/
def State.checkAddr (s : State) (port loc : Nat) : Nat := 4096 * (s.port port).sheets + 512 * (loc - s.t1Base port)

/-! ## Order (05 R160, R165) -/

/-- Puts an element into a list that a strict order keeps sorted. -/
def insertBy {α : Type} (lt : α → α → Bool) (x : α) : List α → List α
  | [] => [x]
  | y :: r => if lt x y then x :: y :: r else y :: insertBy lt x r
/-- Sorts by a strict order, keeping the order of equals. -/
def sortBy {α : Type} (lt : α → α → Bool) (l : List α) : List α := l.foldr (insertBy lt) []
/-- Waiting moves: lower priority number, prefetches before stages and by needing position, then order of request (05 R165). -/
def Move.before (a b : Move) : Bool :=
  let k (m : Move) : Nat := if m.kind = .stage then 1 else 0
  let n (m : Move) : Nat := if m.kind = .prefetch then m.pos else 0
  if a.kind.prio ≠ b.kind.prio then a.kind.prio < b.kind.prio
  else if k a ≠ k b then k a < k b
  else if n a ≠ n b then n a < n b
  else a.order < b.order
/-- Hint rank: cold 0, none 1, hot 2 (05 R160). -/
def hintRank (h : Nat) : Nat := if h = 2 then 0 else if h = 1 then 2 else 1
/-- The order key of T0 copies: earlier ones are reclaimed first (05 R160). -/
def State.keyBefore (s : State) (p q : Nat) : Bool :=
  let a := s.page p
  let b := s.page q
  if hintRank a.hint ≠ hintRank b.hint then hintRank a.hint < hintRank b.hint
  else if s.ageOf a ≠ s.ageOf b then s.ageOf b < s.ageOf a
  else p < q

/-! ## Readers (05 R166, R167) -/

/-- An instruction waits for the page. -/
def State.awaited (s : State) (p : Nat) : Bool :=
  s.flights.any fun x => x.2.job.waits.contains p
/-- A page has come into T0: the instructions that wait for it wait for one page fewer; the last ends the stall. -/
def State.resumeReaders (s : State) (p : Nat) : State :=
  { s with flights := s.flights.map fun x =>
      if x.2.job.waits.contains p then
        let j := x.2.job.without p
        (x.1, { x.2 with job := j, progress := s.now, stallOn := if j.waits.isEmpty then none else x.2.stallOn })
      else x }
/-- Ends the instructions that wait for a page with a status, a FORK with the only one that its row has for a page it cannot copy (03 R109); the cycles
of their waits, whatever page they were counted for, go to the FAIL cause of its tier (05 R167, R174). -/
def State.failReaders (s : State) (p tier : Nat) (st : BitVec 16) : State :=
  s.flights.foldl (fun s x =>
    if (s.flight x.1).job.waits.contains p then
      (s.updFlight x.1 fun y => { y with stalls := failStalls y.stalls y.waitBase tier, waited := failStalls y.waited y.waitedBase tier }).fail x.1
        (if wOpcode x.2.word = 0x12 then stPoisoned else st)
    else s) s

/-! ## Starting (05 R162 to R165) -/

/-- Port-queue credits of a move: one for each sheet in T1, one for a command in T2 (01 R17). -/
def portCredits (tier sheets : Nat) : Nat := if tier = 1 then sheets else if tier = 2 then 1 else 0
/-- Removes the move of a page and returns what it holds. -/
def State.endMove (s : State) (m : Move) : State :=
  let n := portCredits m.tier (s.page m.page).sheets
  let s := if m.started ∧ n ≠ 0 then s.freeCredits (12 + m.port) n else s
  let s := if m.credit = 0 then s else s.freeCredits (m.credit - 1) 1
  let s := match m.walker with | some i => s.dropWalker i | none => s
  let s := s.updPage m.page fun g => { g with moving := false }
  { s with tier := { s.tier with moves := s.tier.moves.filter fun x => x.page != m.page } }
/-- The instruction that waits for a page, the first of several, named in a record with the status it receives; a failure that no
instruction waits for names none (13 R417; log 111). -/
def State.nameWaiter (s : State) (p : Nat) (st : BitVec 16) (r : ErrRec) : ErrRec :=
  match s.flights.find? fun x => x.2.job.waits.contains p with
  | some x => { r with fn := some (s.fnOf x.2.ctx), ctx := some x.2.ctx, status := st, tag := wTag x.2.word }
  | none => r
/-- The record of a failed read: READ_FAIL of a port, UPSTREAM_FAULT of the swap area (13 R416, R419). -/
def State.readFault (s : State) (m : Move) (cause : Nat) : ErrRec :=
  if m.tier = 3 then
    { cls := 2, source := 0x0A, code := 0x10, object := (s.tier.swapBase + m.loc) * 4096, detail := if cause = 1 then 3 else if cause = 3 then 2 else 1 }
  else { cls := 2, source := 5, code := 0x10, object := m.page, detail := m.port }
/-- An inward move fails (05 R167, 13 R416): cause 0 a failed read, 1 an uncorrectable granule or poison of T1 or poison of the swap area, 2 a tag
mismatch, 3 a read that timed out. -/
def State.failInward (s : State) (m : Move) (cause : Nat) : State :=
  let p := m.page
  let s := s.endMove m
  let s := if m.tier = 2 then s.countDev 13 1 else s.countDev 12 1
  let s := if m.started ∧ m.landing ≠ 0 then s.freePool [m.landing] else s
  let s := if m.byKettle then s.updGath m.gath fun g => if g.live then { g with failed := (p, m.pos) :: g.failed } else g else s
  let r := s.readFault m cause
  if cause = 0 ∨ cause = 3 then (s.report (s.nameWaiter p stTierFail r)).failReaders p m.tier stTierFail
  else if cause = 1 ∧ m.tier = 3 then ((s.poisonPage p).report (s.nameWaiter p stPoisoned r)).failReaders p m.tier stPoisoned
  else if cause = 1 then
    let r := s.nameWaiter p stPoisoned { r with detail := 0 }
    ((s.poisonPage p).badGranule 0x0B (m.loc * 4096) r.fn r.ctx r.status r.tag).failReaders p m.tier stPoisoned
  else
    let r : ErrRec := { cls := 2, source := 5, code := 0x12, object := p, detail := m.port }
    ((s.poisonPage p).report (s.nameWaiter p stPoisoned r)).failReaders p m.tier stPoisoned
/-- A move of a page whose descriptor cannot be read ends, and what waits for the page with it: readers with POISONED (13 R415; log 107). -/
def State.lostMove (s : State) (m : Move) : State :=
  let p := m.page
  let tier := (s.page p).tier
  let r := s.nameWaiter p stPoisoned { cls := 2 }
  let s := s.endMove m
  let s := if m.started ∧ m.landing ≠ 0 then s.freePool [m.landing] else s
  let s := if m.started ∧ m.kind.inward = false then s.freeHome m.tier m.loc (s.page p).sheets else s
  let s := s.badGranule 8 (s.descAddr p) r.fn r.ctx r.status r.tag
  if m.kind.inward then s.failReaders p tier stPoisoned else s.demoteEnded p false
/-- Moves that hold bounce sheets at once are at most 4,096 (05 R155). -/
def State.bounceFree (s : State) : Bool := decide ((s.tier.moves.filter fun m => m.started && m.tier != 1).length < 4096)
/-- A port has the credits of a move. -/
def State.portReady (s : State) (tier port sheets : Nat) : Bool := tier == 3 || decide (portCredits tier sheets ≤ s.avail (12 + port))
/-- Marks a move started on a tier, port and location. -/
def State.startMove (s : State) (m : Move) (tier port loc landing walker : Nat) : State :=
  let n := portCredits tier (s.page m.page).sheets
  let s := if n = 0 then s else s.takeCredits (12 + port) n
  (s.updPage m.page fun g => { g with moving := true }).updMove m.page fun m =>
    { m with started := true, tier := tier, port := port, loc := loc, landing := landing, walker := some walker, since := s.now }
/-- Starts an inward move: its read is submitted; or it fails because its port is unavailable (05 R165, R167). None: it waits. A STAGE's landing
leaves the landing reserve alone (05 R164). A page that retires is brought in while an instruction waits for it (03 R87, 04 R136, R142). -/
def State.startInward (s : State) (m : Move) : Option State :=
  let g := s.page m.page
  if !(g.state == .sealed || (g.state == .retiring && s.awaited m.page)) || g.tier == 0 then some ((s.endMove m).resumeReaders m.page)
  else
    let port := s.locPort g.tier g.location
    if g.tier ≠ 3 ∧ (s.port port).avail = false then some (s.failInward { m with tier := g.tier, port := port } 0)
    else if !s.portReady g.tier port g.sheets || (g.tier != 1 && (!s.bounceFree || s.passesFirst)) then none
    else
      match s.takeWalker with
      | none => none
      | some (w, s) =>
        match (if m.kind = .stage then s.takeRun g.sheets else s.takePool g.sheets false) with
        | none => none
        | some (run, s) =>
          let s := s.startMove m g.tier port g.location run w
          some (s.emitOut (if g.tier = 3 then .upRead 0 ((s.tier.swapBase + g.location) * 4096) (g.sheets * 4096) else .portRead port g.location g.sheets))
/-- T2 home copies of pages that also have a T0 copy are retired, in order key, until a run of `n` sheets will come free (05 R163). -/
def State.reclaimT2 (s : State) (n : Nat) : List Nat → State
  | [] => s
  | p :: r =>
    let gone := s.ps.retired.flatMap fun x => x.homes.filterMap fun h => if h.1 = 2 then some (fld h.2.1 34 4 * 2 ^ 32 + fld h.2.1 0 34 / 4) else none
    let s' := { s with tier := { s.tier with t2Runs := gone.foldl Tbl.del s.tier.t2Runs } }
    if (s'.findTarget 2 n 0).isSome then s else (s.retireHome p).reclaimT2 n r
/-- Pages with a T2 home copy and a T0 copy, in order key. -/
def State.t2Cached (s : State) : List Nat :=
  sortBy s.keyBefore ((s.ps.pages.filter fun p => p.2.tier = 0 ∧ s.homeTier p.1 = 2 ∧ p.2.moving = false).map (·.1))
/-- The ciphertext of a page's run for a tier, and its tag (12 R372, R373). -/
def State.sealRun (s : State) (p tier : Nat) : Bytes × BitVec 128 :=
  let g := s.page p
  let b := s.t0Read (g.location * 4096) (g.sheets * 4096)
  if tier = 1 then (s.t1Crypt true p g.scope b, 0)
  else
    let key := s.k2 g.scope
    let iv := homeIv p g.version tier
    let c := gcmCrypt key iv b
    (c, BitVec.ofNat 128 (ofLe (gcmTag key iv (homeAad p g g.scope) c)))
/-- An outward move that cannot go: a DEMOTE counts it failed and records it, and the page's class still asks for its placement
(03 R98, 05 R159; log 110); others are given up. -/
def State.noOutward (s : State) (m : Move) (tier : Nat) : State :=
  let s := s.endMove m
  if m.kind = .demote then
    let s := (s.noTarget m.page tier).demoteEnded m.page false
    if 2 ≤ (s.page m.page).cls then s.askMove .placement m.page m.ctx 0 0 else s
  else s
/-- Starts an outward move: encrypts the run and submits its write (05 R162, R163, R165; 12 R371). None: it waits. One whose page has retired, been
poisoned or changed its class since it was asked for ends, and a DEMOTE counts it failed without a record (log 146). -/
def State.startOutward (s : State) (m : Move) : Option State :=
  let p := m.page
  let g := s.page p
  let still := g.state == .sealed && g.tier == 0 && !g.poison && s.homeTier p == 0 &&
    (match m.kind with | .placement => decide (2 ≤ g.cls) | .spill => g.cls == 1 && decide (0 < g.refcount) | _ => true)
  let tiers := match m.kind with | .placement => [g.cls - 1] | .demote => [m.tier] | _ => if s.small then [3] else s.spillTiers
  if !still then some ((s.endMove m).demoteEnded p false)
  else if s.pageBad p then
    some ((((s.endMove m).poisonPage p).badGranule 8 (g.location * 4096) none none 0 0).demoteEnded p false)
  else
    let (pick, s) := s.draw
    match s.needAux p with
    | none => if m.kind = .placement then none else some (s.noOutward m (tiers.headD 0))
    | some s =>
      match tiers.findSome? fun t => if t = 3 then (s.swapRun g.sheets pick).map fun l => (3, 0, l) else (s.findTarget t g.sheets pick).map fun x => (t, x.1, x.2) with
      | none =>
        if m.kind = .demote ∨ s.small then some (s.noOutward m (tiers.headD 0))
        else
          let t := if tiers.contains 2 then s.reclaimT2 g.sheets s.t2Cached else s
          if t.ps.epoch ≠ s.ps.epoch then some t
          else if m.kind = .spill ∧ (s.ps.retired.any fun r => !r.homes.isEmpty) = false then some (s.noOutward m (tiers.headD 0))
          else none
      | some (t, port, loc) =>
        if !s.portReady t port g.sheets || (t != 1 && (!s.bounceFree || s.passesFirst)) then none
        else
          match s.takeWalker with
          | none => none
          | some (w, s) =>
            let s := s.takeHome t loc g.sheets
            let (c, tag) := s.sealRun p t
            let s := s.updAux (s.page p).aux fun a => { a with keyScope := g.scope, tag := tag }
            let s := s.startMove m t port loc 0 w
            let s := s.emitOut (if t = 3 then .upWrite 0 ((s.tier.swapBase + loc) * 4096) c else .portWrite port loc g.sheets c)
            some (if t = 1 then s.emitOut (.portCheck port (s.checkAddr port loc) (checkBytes c)) else s)
/-- One move is granted its credit before another: of the instruction whose context has the lowest VTIME, then the lowest context ID, then the one
asked for first (13 R397); the Gatherer's own moves, which no instruction asked for, after these (log 126). -/
def State.grantBefore (s : State) (a b : Move) : Bool :=
  let v (m : Move) : Nat := (s.ctx m.ctx).vtime
  if a.kind.own != b.kind.own then b.kind.own
  else if a.kind.own || (v a == v b && a.ctx == b.ctx) then decide (a.order < b.order)
  else if v a = v b then decide (a.ctx < b.ctx)
  else decide (v a < v b)
/-- Grants the free credits of the move queue and the prefetch queue to the moves that wait for one, in that order. -/
def State.grantMoves (s : State) : State :=
  (sortBy s.grantBefore (s.tier.moves.filter fun m => !m.started && m.credit == 0)).foldl (fun s m => (s.moveCredit m).1) s
/-- Starts one waiting move if it can and holds its queue credit. -/
def State.tryStart (s : State) (m : Move) : Option State :=
  if m.credit = 0 then none
  else if s.granuleLost (s.descAddr m.page) then some (s.lostMove m)
  else if m.kind.inward then s.startInward m else s.startOutward m
/-- GATHERER_MOVE_START: free credits are granted, and the first waiting move in order that can start starts (05 R165, 13 R397). -/
def execGathererMoveStart (s : State) : Host.Outcome State Fault Refusal :=
  act s fun s =>
    if s.dev.engineDown.get 4 false then s
    else
      let s := s.grantMoves
      let ms := sortBy Move.before (s.tier.moves.filter fun m => !m.started)
      (ms.findSome? s.tryStart).getD s

/-! ## Inward moves (05 R166, R167, R171, R180) -/

/-- The latency estimate after a sample (05 R171). -/
def latAfter (lat x : Nat) : Nat := max x (lat - (lat - x) / 16)
/-- Takes a sample of a move's latency (05 R171). -/
def State.sampleLat (s : State) (m : Move) : State :=
  let bytes := (s.page m.page).sheets * 4096
  let dt := s.now - m.since
  if m.tier = 3 then
    let x := dt - cdiv bytes 95
    { s with tier := { s.tier with swapLat := latAfter s.tier.swapLat x, swapSamples := min (s.tier.swapSamples + 1) 0xFFFFFFFF } }
  else
    let x := dt - cdiv bytes (portRate (s.port m.port).width)
    s.updPort m.port fun u => { u with lat := latAfter u.lat x, samples := min (u.samples + 1) 0xFFFFFFFF }
/-- The plaintext of what was read, or none when its tag does not verify (12 R372, R373). -/
def State.openRun (s : State) (m : Move) (data : Bytes) : Option Bytes :=
  let p := m.page
  let g := s.page p
  let a := s.auxRec g.aux
  if m.tier = 1 then some (s.t1Crypt false p a.keyScope data)
  else
    let key := s.k2 a.keyScope
    let iv := homeIv p g.version m.tier
    if BitVec.ofNat 128 (ofLe (gcmTag key iv (homeAad p g a.keyScope) data)) = a.tag then some (gcmCrypt key iv data) else none
/-- A page lands: the descriptor names T0; one that the Kettle asked for, whatever its move has become, takes its hold and is counted when it comes
late (05 R165, R170, R180), and is dropped again where its layer has left every window (05 R172). A cold one that no reader demanded is dropped
again; one that a reader demanded, once it is read (05 R161; log 119). -/
def State.land (s : State) (m : Move) (b : Bytes) : State :=
  let p := m.page
  let s := s.sampleLat m
  let s := s.t0Write (m.landing * 4096) b
  let s := s.endMove m
  let s := s.updPage p fun g => { g with tier := 0, location := m.landing }
  let g := s.page p
  let kettle := m.byKettle && (s.gath m.gath).live
  let s := if kettle then
      let s := s.updAux g.aux fun a => { a with hold := true, holdPos := m.pos, holdGath := m.gath, holdRead := false }
      let s := if m.pos ≤ (s.gath m.gath).linear then s.countFn (s.gathFn m.gath) 11 1 else s
      if m.pos < (s.gath m.gath).linear then s.endPrefetchHold p else s
    else s
  let s := if g.cls = 0 then s.retireHome p else s
  let s := if m.kind = .demand ∧ s.awaited p then s else s.dropCold p
  let s := if m.byKettle && !s.awaited p && s.leftWindow p && s.canDrop p then s.dropCopy p else s
  let s := s.resumeReaders p
  if kettle then s.kettle m.gath else s
/-- The bytes of a run as its tier holds them: in T1 behind the granule code, whose corrections are counted (13 R412, R414). -/
def State.tierRead (s : State) (m : Move) (data : Bytes) : State × Option Bytes :=
  if m.tier = 1 then
    let n := (s.page m.page).sheets
    match t1Granules 0 ((chunks 32 (128 * n) data).zip (chunks 4 (128 * n) (data.drop (4096 * n)))) with
    | some (c, l) => (l.foldl (fun s i => s.reportCorrected { source := 0x0B, object := m.loc * 4096 + 32 * i }) s, some c)
    | none => (s, none)
  else (s, some data)
/-- Bytes that a tier returns for a run: 4,096 for a sheet, and in T1 its 512 check bytes (13 R414). -/
def runBytes (tier sheets : Nat) : Nat := sheets * (if tier = 1 then 4608 else 4096)
/-- A started inward move's read has returned its run: it lands, or fails the check of its tier. -/
def State.runRead (s : State) (m : Move) (data : Bytes) : State :=
  if s.granuleLost (s.descAddr m.page) then s.lostMove m
  else
    match s.tierRead m data with
    | (s, none) => s.failInward m 1
    | (s, some data) => match s.openRun m data with | some b => s.land m b | none => s.failInward m 2
/-- INWARD_MOVE_LANDED with the stored bytes that the tier returned. -/
def execInwardMoveLanded (page : Nat) (data : Bytes) (s : State) : Host.Outcome State Fault Refusal :=
  act s fun s =>
    match s.moveOf page with
    | some m => if m.started && m.kind.inward && data.length == runBytes m.tier (s.page page).sheets then s.runRead m data else s
    | none => s
/-- INWARD_MOVE_FAILED: cause 0 an error, 1 an uncorrectable granule or a poison indication of T1, or a poisoned read of the swap area. -/
def execInwardMoveFailed (page cause : Nat) (s : State) : Host.Outcome State Fault Refusal :=
  act s fun s =>
    match s.moveOf page with
    | some m => if m.started && m.kind.inward then s.failInward m (if cause = 1 ∧ m.tier ≠ 2 then 1 else 0) else s
    | none => s
/-- Read timeout of a tier in cycles (05 R181). -/
def State.tierTimeout (s : State) (tier : Nat) : Nat :=
  (if tier = 1 then s.tier.t1us else if tier = 2 then s.tier.t2us else s.tier.swapUs) * usCycles
/-- TIER_READ_TIMEOUT (05 R167). -/
def execTierReadTimeout (page : Nat) (s : State) : Host.Outcome State Fault Refusal :=
  act s fun s =>
    match s.moveOf page with
    | some m => if m.started && m.kind.inward && decide (m.since + s.tierTimeout m.tier ≤ s.now) then s.failInward m 3 else s
    | none => s
/-- DEMAND_LANDING_TIMEOUT: no landing run within the source tier's read timeout, counted from the request of the move (05 R164; log 132). -/
def execDemandLandingTimeout (page : Nat) (s : State) : Host.Outcome State Fault Refusal :=
  act s fun s =>
    match s.moveOf page with
    | some m =>
      let g := s.page page
      if m.kind == .demand && !m.started && g.tier != 0 && decide (m.asked + s.tierTimeout g.tier ≤ s.now) && (s.takePool g.sheets false).isNone then
        (s.endMove m).failReaders page g.tier stTimeout
      else s
    | none => s

/-! ## Outward moves (05 R156, R158, R166) -/

/-- OUTWARD_MOVE_DONE: the home copy is recorded; a spill or demotion drops the T0 copy, unless it was asked for meanwhile (05 R165, R166). -/
def execOutwardMoveDone (page : Nat) (s : State) : Host.Outcome State Fault Refusal :=
  act s fun s =>
    match s.moveOf page with
    | some m =>
      if m.started && !m.kind.inward then
        if s.granuleLost (s.descAddr page) then s.lostMove m else
        let g := s.page page
        let s := s.endMove m
        if m.abandoned then (s.retire { homes := [(m.tier, m.loc, g.sheets)] }).demoteEnded page false
        else
          let s := s.updAux g.aux fun a => { a with homeTier := m.tier, homeLoc := m.loc }
          let s := if g.state = .retiring then s
            else if g.cls = 0 then s.retireHome page
            else if m.kind ≠ .placement ∧ m.keep = false then s.dropCopy page
            else s.dropCold page
          s.demoteEnded page true
      else s
    | none => s
/-- A write that was no placement has failed, and the page's class has come to ask for one (05 R159). -/
def State.placeInstead (s : State) (m : Move) : State :=
  let g := s.page m.page
  if m.kind ≠ .placement ∧ 2 ≤ g.cls ∧ g.state = .sealed ∧ g.tier = 0 ∧ g.poison = false then s.askMove .placement m.page m.ctx 0 0 else s
/-- An outward write has failed: the page stays, the port is marked, the failure recorded (05 R166); a placement is not tried again (log 134). -/
def State.failOutward (s : State) (m : Move) : State :=
  let g := s.page m.page
  let s := (s.endMove m).freeHome m.tier m.loc g.sheets
  let s := if m.tier = 3 then s else s.updPort m.port fun u => { u with writeErr := true }
  let s := (s.countDev 14 1).report { cls := 2, source := 5, code := 0x11, object := m.page, detail := m.port }
  (s.placeInstead m).demoteEnded m.page false
/-- OUTWARD_WRITE_FAIL. -/
def execOutwardWriteFail (page : Nat) (s : State) : Host.Outcome State Fault Refusal :=
  act s fun s =>
    match s.moveOf page with
    | some m => if m.started && !m.kind.inward then s.failOutward m else s
    | none => s
/-- TIER_WRITE_TIMEOUT: an NVMe write without completion within T2_US (05 R181). -/
def execTierWriteTimeout (page : Nat) (s : State) : Host.Outcome State Fault Refusal :=
  act s fun s =>
    match s.moveOf page with
    | some m => if m.started && !m.kind.inward && m.tier == 2 && decide (m.since + s.tierTimeout 2 ≤ s.now) then s.failOutward m else s
    | none => s

/-! ## Reclamation (05 R161, R162, R175) -/

/-- The pass has reached its goal: HIGH, or LOW when HIGH is not above it. -/
def State.passDone (s : State) : Bool := decide ((if s.tier.low < s.tier.high then s.tier.high else s.tier.low) ≤ s.freeSheets)
/-- Marks a reclaim pass in progress, or ended. -/
def State.setPassing (s : State) (b : Bool) : State := { s with tier := { s.tier with passing := b } }
/-- Round 1: the first copy in order key that may be dropped. -/
def State.nextDrop (s : State) : Option Nat := (sortBy s.keyBefore ((s.ps.pages.filter fun p => s.canDrop p.1).map (·.1))).head?
/-- Round 2: the first page in order key that may be spilled, that has or finds an auxiliary record, and that a port can take (04 R146). -/
def State.nextSpill (s : State) : Option Nat :=
  (sortBy s.keyBefore ((s.ps.pages.filter fun p => s.canSpill p.1 && (s.moveOf p.1).isNone).map (·.1))).find? fun p =>
    s.auxFor p && s.spillable (s.page p).sheets
/-- Spillable pages that a sequence holds (05 R175). -/
def State.victimPages (s : State) (q : Seq) : List Nat :=
  (q.rangePages 0 q.entries.length 0 q.layers).filter fun p => s.canSpill p && s.auxFor p && !s.held p && (s.moveOf p).isNone
/-- The victim sequence: the greatest age, then the lowest ID (05 R175). -/
def State.victim (s : State) : Option Nat :=
  (s.ps.seqs.foldl (fun (b : Option (Nat × Nat)) q =>
    if q.2.state = 1 ∧ s.victimPages q.2 ≠ [] then
      match b with
      | some (_, a) => if a < s.seqAge q.2 then some (q.1, s.seqAge q.2) else b
      | none => some (q.1, s.seqAge q.2)
    else b) none).map (·.1)
/-- The swap run map once the spills that wait have taken their runs (05 R177). -/
def State.swapAhead (s : State) : Tbl Nat :=
  (s.tier.moves.filter fun m => m.kind == .spill && !m.started).foldl (fun t m =>
    let n := (s.page m.page).sheets
    match pickRun t 0 s.tier.swapSize n 0 with | some a => t.put a n | none => t) s.tier.swapRuns
/-- Asks for the spill of each of a victim's pages while the swap area has a free run for it; whether it had for all of them (05 R175, R177). -/
def State.spillVictim (s : State) (t : Tbl Nat) : List Nat → State × Bool
  | [] => (s, true)
  | p :: r =>
    match pickRun t 0 s.tier.swapSize (s.page p).sheets 0 with
    | none => (s, false)
    | some a => (s.askMove .spill p (s.page p).origin.ctx 0 0).spillVictim (t.put a (s.page p).sheets) r
/-- Round 2 on the LG-4080: one victim; it ends without one, or when the swap area has no free run (05 R175, R177). -/
def State.preempt (s : State) : State :=
  match s.victim with
  | none => s.setPassing false
  | some q =>
    let ps := s.victimPages (s.seq q)
    let (t, whole) := s.spillVictim s.swapAhead ps
    let t := if t.tier.moves.length = s.tier.moves.length then t else t.updSeq q fun y => { y with preempted := true }
    if whole then t else t.setPassing false
/-- RECLAIM_PASS (05 R161): one copy, or one victim, of a pass that FREE_SHEETS below LOW starts and that goes on to its goal, or until nothing more
qualifies (log 23). -/
def execReclaimPass (s : State) : Host.Outcome State Fault Refusal :=
  act s fun s =>
    if s.passDone then s.setPassing false
    else if !s.tier.passing && decide (s.tier.low ≤ s.freeSheets) then s
    else
      let s := s.setPassing true
      match s.nextDrop with
      | some p => s.dropCopy p
      | none =>
        if !s.tier.spillEn then s.setPassing false
        else if s.small then s.preempt
        else
          match s.nextSpill with
          | some p => s.askMove .spill p (s.page p).origin.ctx 0 0
          | none => s.setPassing false

end Sys2Proof.Machine
end

