-- ==== Sys2Proof/Machine/Sealing.lean ====
section
/-! DEFINITION. The Press: seals, summaries, chain hashes, and DIGEST (03 R107, 04 R121 to R130, 08 R255, 09 R279 to R281). -/
namespace Sys2Proof.Machine
open Sys2Proof

/-! ## Summaries (08 R255) -/

/-- An element is a NaN of its width (08 R233). -/
def elNan (w e : Nat) : Bool := if w = 1 then fld e 0 7 == 0x7F else fld e 7 8 == 255 && fld e 0 7 != 0
/-- The NaN written for a dimension (08 R236). -/
def nanOf (w : Nat) : Nat := if w = 1 then 0x7F else 0x7FC0
/-- An element as a number in the order of its values; both zeros are 0. -/
def elKey (w e : Nat) : Int :=
  let top := if w = 1 then 128 else 32768
  if e < top then Int.ofNat e else - Int.ofNat (e - top)
/-- Minimum or maximum of a dimension's elements; where zeros of both signs tie, `z` says which (log 24). -/
def extreme (w : Nat) (z maximum : Bool) : List Nat → Nat
  | [] => 0
  | e :: r =>
    if (e :: r).any (elNan w) then nanOf w
    else
      let b := r.foldl (fun a x => if (if maximum then elKey w a < elKey w x else elKey w x < elKey w a) then x else a) e
      let top := if w = 1 then 128 else 32768
      if elKey w b = 0 ∧ (e :: r).contains 0 ∧ (e :: r).contains top then (if z then top else 0) else b
/-- The summary body of a page's payload (08 R255); of a page without a token, +0 throughout. -/
def summaryOf (w ptok groups dims tokens : Nat) (z : Bool) (payload : Bytes) : Bytes :=
  let toks := (chunks ptok tokens payload).map (elements w)
  (List.range groups).flatMap fun g =>
    let side (m : Bool) : Bytes := (List.range dims).flatMap fun d => leBytes w (extreme w z m (toks.map fun t => t.getD (g * dims + d) 0))
    side false ++ side true

/-! ## Chain hashes (04 R129, R130) -/

/-- The chain hash of a block (04 R129). -/
def chainHash (parent : BitVec 96) (model : Nat) (ids : Bytes) : BitVec 96 :=
  BitVec.ofNat 96 (ofLe ((sha384 (leBytes 12 parent.toNat ++ leBytes 2 model ++ ids)).take 12))
/-- The parent hash of a layer-0 page: some hash; none while it is still to be formed; and whether it never will be. -/
def State.parentHash (s : State) (p : Nat) : Option (BitVec 96) × Bool :=
  let o := (s.page p).origin
  if o.prev = 0 then (some 0, false)
  else
    let q := o.prev - 1
    let g := s.page q
    let r := s.sum g.summary
    if g.version ≠ o.prevVer ∨ g.state = .free ∨ s.sumBad q = true then (none, true)
    else if r.hashed then (some r.chain, false)
    else if g.state = .retiring then (none, true)
    else (none, g.formed && !s.press.hashWait.contains q)
/-- Stores a chain hash in the record header, and in the LASTHASH of every sequence that holds the block (04 R130, R131). -/
def State.storeHash (s : State) (p : Nat) (h : BitVec 96) : State :=
  let g := s.page p
  let s := s.updSum g.summary fun r => { r with chain := h, hashed := true, tokens := g.tokens }
  let holds := s.ps.seqs.filter fun q => q.2.state != 0 && q.2.entries.any fun e => e.base == p
  holds.foldl (fun s q => s.putLastHash q.1 (s.seq q.1).entries) s
/-- The summary record that a page's parent hash stands in is there and cannot be read. -/
def State.parentBad (s : State) (p : Nat) : Bool :=
  let o := (s.page p).origin
  let g := s.page (o.prev - 1)
  o.prev != 0 && g.version == o.prevVer && g.state != .free && s.sumBad (o.prev - 1)
/-- Forms the hash of a sealed layer-0 page when its parent's is there; with a parent that never will be, none is formed, and one whose summary record
cannot be read is poisoned (04 R123; log 156). Whether it waits. -/
def State.formHash (s : State) (p : Nat) : State × Bool :=
  let g := s.page p
  match s.parentHash p with
  | (some h, _) => (s.storeHash p (chainHash h g.origin.model (s.sum g.summary).ids), false)
  | (none, never) => (if s.parentBad p then s.sumFail (g.origin.prev - 1) none none 0 0 else s, !never)
/-- A sealed layer-0 page has its chain hash formed, or waits for its parent's (04 R130). -/
def State.hashPage (s : State) (p : Nat) : State :=
  let (s, waits) := s.formHash p
  if waits then { s with press := { s.press with hashWait := s.press.hashWait ++ [p] } } else s
/-- CHAIN_HASH_FORMED: the first waiting page whose hash can be formed, or never will be (04 R130). -/
def execChainHashFormed (s : State) : Host.Outcome State Fault Refusal :=
  act s fun s =>
    match s.press.hashWait.find? fun p => !(s.formHash p).2 with
    | some p =>
      let (s, _) := s.formHash p
      { s with press := { s.press with hashWait := s.press.hashWait.erase p } }
    | none => s

/-! ## Seals (09 R280, R281) -/

/-- Takes the first page of the seal queue that is not RETIRING; the credits of those that are return (04 R121). -/
def State.nextSeal (s : State) : List Nat → Option Nat × State
  | [] => (none, { s with press := { s.press with queue := [] } })
  | p :: r =>
    if (s.page p).state = .sealing then (some p, { s with press := { s.press with queue := r } }) else (s.freeCredits 316 1).nextSeal r
/-- PRESS_SEAL: an idle pipeline takes a page, weight passes that are due left a pipeline first (09 R293). A payload that cannot be read whole, or a
layer-0 page's token IDs, is found here (04 R123, 09 R281). -/
def execPressSeal (pipe : Nat) (s : State) : Host.Outcome State Fault Refusal :=
  act s fun s =>
    if 8 ≤ pipe ∨ s.dev.pressDown.get pipe false ∨ s.press.pipes.get pipe 0 ≠ 0 ∨ s.passesFirst = true then s
    else
      match s.takeWalker with
      | none => s
      | some (w, s') =>
        match s'.nextSeal s'.press.queue with
        | (none, _) => (s.nextSeal s.press.queue).2
        | (some p, s) =>
          let ids := (s.page p).origin.layer == 0 && s.sumBad p
          let flags := b2n s.press.forceRaw + 2 * b2n (s.pageBad p)
          let s := if s.pageBad p then s.badGranule 8 ((s.page p).location * 4096) none none 0 0 else s
          let s := if ids then s.sumFail p none none 0 0 else s
          { s with press := { s.press with
              pipes := s.press.pipes.put pipe (p + 1), pipeWalker := s.press.pipeWalker.put pipe (w + 1), pipeFlags := s.press.pipeFlags.set pipe flags 0 } }
/-- Ends a pipeline's seal. -/
def State.freePipe (s : State) (pipe : Nat) : State :=
  let w := s.press.pipeWalker.get pipe 0
  let s := if w = 0 then s else s.dropWalker (w - 1)
  let s := { s with press := { s.press with pipes := s.press.pipes.del pipe, pipeWalker := s.press.pipeWalker.del pipe, pipeFlags := s.press.pipeFlags.del pipe } }
  s.freeCredits 316 1
/-- The page's blocks whose pages are all sealed say so in every table (04 R133, R135). -/
def State.markSealed (s : State) (p : Nat) : State :=
  let base := p - (s.page p).origin.layer
  { s with ps := { s.ps with seqs := s.ps.seqs.map fun q => (q.1, { q.2 with entries := q.2.entries.map fun e =>
      if e.base = base ∧ e.isOpen = false ∧ e.sealed = false ∧ ((List.range q.2.layers).all fun l => (s.page (base + l)).formed) = true then { e with sealed := true } else e }) } }
/-- A POOL run of `n` sheets for the Press, none of none. -/
def State.pressRun (s : State) (n : Nat) : Option (List Nat × State) := if n = 0 then some ([], s) else (s.takePool n true).map fun r => ([r.1], r.2)
/-- The sealed form takes its place: the raw escape keeps the head of the open run and retires the rest of it with the `spent` coded sheets written
before; a coded form goes to a new run (04 R125, 09 R280). -/
def State.placeForm (s : State) (p : Nat) (form : Bytes) (raw poison : Bool) (spent : Nat) : Option State :=
  let g := s.page p
  if raw then
    match s.pressRun spent with
    | none => none
    | some (coded, s) =>
      let n := max 1 (cdiv form.length 4096)
      let s := s.updPage p fun g => { g with state := .sealed, formed := true, raw := true, length := form.length, sheets := n, poison := g.poison || poison }
      let (rest, s) := if n < 16 then ([g.location + n], { s with ps := { s.ps with poolRuns := (s.ps.poolRuns.put g.location n).put (g.location + n) (16 - n) } })
        else ([], s)
      some (if rest.isEmpty && coded.isEmpty then s else s.retire { pool := rest ++ coded })
  else
    let n := cdiv form.length 4096
    match s.takePool n true with
    | none => none
    | some (run, s) =>
      let s := s.t0Write (run * 4096) form
      let s := s.updPage p fun g => { g with state := .sealed, formed := true, raw := false, length := form.length, sheets := n, location := run, poison := g.poison || poison }
      some (s.retire { pool := [g.location] })
/-- Coded sheets that a seal in the raw escape has written: none where it never coded; all those of a form as long as its payload; up to as many as
the payload had been read where a granule was bad, a free value (09 R280, R281; log 136). -/
def rawSpent (forced bad : Bool) (length free : Nat) : Nat :=
  let n := cdiv length 4096
  if forced then 0 else if bad then free % (n + 1) else n
/-- PAGE_SEALED: the descriptor, the summary, the credit and the raw sheets; a class that lives below T0 asks for its placement (05 R159). -/
def execPageSealed (pipe : Nat) (s : State) : Host.Outcome State Fault Refusal :=
  act s fun s =>
    let k := s.press.pipes.get pipe 0
    if k = 0 then s
    else
      let p := k - 1
      let g := s.page p
      let flags := s.press.pipeFlags.get pipe 0
      let bad := bit flags 1
      if g.state ≠ .sealing then s.freePipe pipe
      else
        let payload := s.t0Read (g.location * 4096) g.length
        let (form, raw) := storedForm g.format payload (bit flags 0 || bad || g.length == 0)
        let (z, s') := s.draw
        match s'.placeForm p form raw bad (rawSpent (bit flags 0) bad g.length (z / 2)) with
        | none => s
        | some s =>
          let o := g.origin
          let s := s.updSum g.summary fun r => { r with body := summaryOf (formatWidth g.format) o.ptok o.groups o.dims g.tokens (z % 2 == 1) payload }
          let s := s.freePipe pipe
          let s := s.markSealed p
          let s := if o.layer ≠ 0 ∨ bad ∨ g.poison then s else s.hashPage p
          if 2 ≤ g.cls ∧ bad = false ∧ g.poison = false then s.askMove .placement p o.ctx 0 0 else s

/-! ## DIGEST (03 R107) -/

/-- Chain hashes of blocks of token IDs, one after another. -/
def digestChain (model : Nat) : BitVec 96 → List Bytes → Bytes
  | _, [] => []
  | h, b :: r => let h' := chainHash h model b; leBytes 12 h'.toNat ++ digestChain model h' r
/-- DIGEST: it runs on a Press pipeline that is between pages. The bytes after a parent chain hash are reserved (00 R10). -/
def execDigest (f : Nat) (s : State) : Host.Outcome State Fault Refusal :=
  onFlight 0x38 f s fun x s =>
    let a := x.a.toNat
    let n := bCount x.b
    let off := bOffset x.b
    let tpb := fld a 8 8
    let chain := fld a 0 2 == 0
    let head := if chain && !bit a 2 then 32 else 0
    let len := if chain then head + 4 * tpb * n else n
    let c := s.ctx x.ctx
    if s.idlePipes = 0 then s
    else s.awaitGate f (bAwait x.b) off len fun s =>
      let addr := c.inAddr + off
      if s.rangeBad addr len then (s.badGranule 8 addr (some c.function) (some x.ctx) stPoisoned (wTag x.word)).fail f stPoisoned
      else
        let data := s.t0Read addr len
        if head ≠ 0 ∧ ofLe ((data.take 32).drop 12) ≠ 0 then s.fail f stRange
        else
        let out := if chain then
            digestChain (fld a 16 16) (if head = 0 then 0 else BitVec.ofNat 96 (ofLe (data.take 12))) (chunks (4 * tpb) n (data.drop head))
          else sha384 data
        match s.output f out [{ addr := c.outAddr + fld x.c.toNat 0 32, len := out.length }] 1 with
        | none => s
        | some s => s.finish f stOk (BitVec.ofNat 64 out.length) none

end Sys2Proof.Machine
end

