-- ==== Sys2Proof/Machine/Weights.lean ====
section
/-! DEFINITION. Weight images: LOADW, weight passes, and the checks of a layer stream (03 R106, 09 R288 to R297, 12 R383). -/
namespace Sys2Proof.Machine
open Sys2Proof

/-! ## LOADW (03 R106, 09 R292) -/

/-- Indices of the records of layers `l0` onward, `n` of them: the layer's present record, else a free one. -/
def State.wrecPlaces (s : State) (model l0 : Nat) : Nat → Option (List (Nat × Nat))
  | 0 => some []
  | n + 1 =>
    match s.wrecPlaces model l0 n with
    | none => none
    | some l =>
      match s.wrecOf model (l0 + n) with
      | some (i, _) => some (l ++ [(l0 + n, i)])
      | none =>
        match (List.range 4096).find? fun i => !(s.fq.wrecs.get i {}).valid && !(l.any fun p => p.2 == i) with
        | some i => some (l ++ [(l0 + n, i)])
        | none => none
/-- The ATTENDs that began under a record and wait for its clear copy, or read it, keep it while that copy lasts (09 R294). -/
def State.keepRecord (s : State) (r : WRec) : State :=
  let waits (x : Nat × Flight) : Bool :=
    match x.2.job with
    | .attend _ a => a.grec.latent && a.grec.model == r.model && fld x.2.a.toNat 0 8 == r.layer && a.past.isNone
    | _ => false
  if r.valid && r.clear.isSome && s.flights.any waits then
    let k := s.fq.nextPast
    { s with
      fq := { s.fq with past := s.fq.past.put k r, nextPast := k + 1 }
      flights := s.flights.map fun x => if waits x then (x.1, { x.2 with job := match x.2.job with | .attend w a => .attend w { a with past := some k } | j => j }) else x }
  else s
/-- Writes one layer's record; the record it replaces gives up its pages and its clear copy (09 R292, R294; 04 R144). -/
def State.writeWrec (s : State) (i : Nat) (r : WRec) : State :=
  let old := s.fq.wrecs.get i {}
  let s := (s.keepRecord old).dropClear i
  let s := s.updWrec i fun _ => r
  if old.valid then
    let (gone, s) := s.dropRefs ((List.range old.ppl).map (old.page + ·))
    if gone.isEmpty then s else s.retire { pages := gone }
  else s
/-- LOADW. A page that is retiring is to it no page any more: NOT_FOUND (log 129). -/
def execLoadw (f : Nat) (s : State) : Host.Outcome State Fault Refusal :=
  onFlight 0x32 f s fun x s =>
    let a := x.a.toNat
    let l0 := fld a 16 8
    let n := fld a 24 8
    let slot := fld a 32 8
    let page := fld x.b.toNat 0 40
    let ppl := fld x.c.toNat 0 16
    let pages := (List.range (n * ppl)).map (page + ·)
    if 256 < l0 + n then s.fail f stRange
    else if s.slotActivating slot then s.fail f stBusy
    else if !s.slotFor slot (s.fnOf x.ctx) then s.fail f stPermission
    else s.readable f ((pages.filter (· < s.ps.limit)).map s.descAddr) fun s =>
    if pages.any fun p => !s.pageExists p || (s.page p).state == .retiring then s.fail f stNotFound
    else if pages.any fun p => (s.page p).format != 0x10 then s.fail f stRange
    else if pages.any fun p => decide (refMax ≤ (s.page p).refcount) then s.fail f stRange
    else
      match s.wrecPlaces (fld a 0 16) l0 n with
      | none => s.fail f stNoSpace
      | some places =>
        match s.addRefs pages with
        | none => s.allocWait f .table
        | some s =>
          let s := places.foldl (fun s p => s.writeWrec p.2
            { valid := true, model := fld a 0 16, layer := p.1, page := page + ppl * (p.1 - l0), ppl := ppl, slot := slot, keygen := (s.kslot slot).keygen, owner := x.ctx }) s
          let s := s.gaths.foldl (fun s g => if g.2.live && g.2.grec.latent && g.2.grec.model == fld a 0 16 then s.openWindow g.1 else s) s
          s.finish f stOk 0 none

/-! ## Weight passes (09 R288, R293, R295) -/

/-- Bytes of a layer stream that a page carries at most. -/
abbrev wpBytes : Nat := 65488
/-- The status of a layer after a further failure: POISONED stays, and prevails (09 R295). -/
def failedAfter (old st : BitVec 16) : BitVec 16 := if st = stPoisoned ∨ old = 0 then st else old
/-- The error record of a weight failure, with its row of 09 R295. -/
def State.weightReport (s : State) (i page row : Nat) (st : BitVec 16) : State :=
  let r := s.wrec i
  s.report { cls := 2, source := 4, code := 0x10, fn := some (s.fnOf r.owner), ctx := some r.owner, status := st, object := page, detail := row }
/-- The layer of a record fails with a status. -/
def State.layerFails (s : State) (i : Nat) (st : BitVec 16) : State := s.updWrec i fun r => { r with failed := failedAfter r.failed st }
/-- The pass of page `k` of a record has ended. -/
def State.passEnds (s : State) (i k : Nat) : State := s.updWrec i fun r => { r with passed := k :: r.passed, told := false }
/-- A page's pass ends with a failure: recorded, and the layer fails with its status. -/
def State.passFails (s : State) (i page row : Nat) (st : BitVec 16) : State :=
  ((s.weightReport i page row st).layerFails i st).passEnds i (page - (s.wrec i).page)
/-- The envelope of page `k` of a layer obeys 09 R288. -/
def envelopeOk (h : Nat) (r : WRec) (k length : Nat) : Bool :=
  fld h 0 16 == r.model && fld h 16 8 == r.layer && fld h 24 16 == k && fld h 40 16 == r.ppl && fld h 56 8 == 0 && fld h 81 15 == 0 && fld h 192 64 == 0 &&
    decide (1 ≤ fld h 64 17 ∧ fld h 64 17 ≤ wpBytes) && length == 48 + fld h 64 17
/-- A record's clear copy is still there: that of a record in force, or one retired and not yet freed (09 R294). -/
def State.copyLasts (s : State) (i : Nat) : Bool :=
  i < 4096 || (match (s.wrec i).clear with | some run => s.ps.retired.any fun r => r.clear.any fun c => c.1 == run | none => false)
/-- The record that a WEIGHT_PASS of a page serves: record `i`, or a superseded one of the page that ATTENDs still use. -/
def State.passRecord (s : State) (i page : Nat) : Nat :=
  let has (r : WRec) : Bool := decide (r.page ≤ page ∧ page < r.page + r.ppl) && !r.passed.contains (page - r.page)
  if has (s.wrec i) then i
  else match s.fq.past.find? fun r => has r.2 with | some r => 4096 + r.1 | none => i
/-- WEIGHT_PASS: checks, authenticates and decrypts one page of a layer into its clear copy. -/
def State.weightPass (s : State) (w page : Nat) : State :=
  let i := s.passRecord w page
  let r := s.wrec i
  let g := s.page page
  let k := page - r.page
  match r.clear with
  | none => s
  | some run =>
    if !r.valid || r.failed == stPermission || decide (page < r.page ∨ r.ppl ≤ k) || r.passed.contains k || !g.passable (decide (4096 ≤ i)) || !s.copyLasts i then s
    else if s.idlePipes = 0 then s
    else if s.slotActivating r.slot then (if r.told then s else (s.weightReport i page 2 0).updWrec i fun r => { r with told := true })
    else if !s.slotFor r.slot (s.fnOf r.owner) || (s.kslot r.slot).keygen != r.keygen then (s.weightReport i page 1 stPermission).layerFails i stPermission
    else if g.poison then (s.layerFails i stPoisoned).passEnds i k
    else if s.pageBad page then
      (((s.poisonPage page).badGranule 8 (g.location * 4096) (some (s.fnOf r.owner)) (some r.owner) stPoisoned 0).layerFails i stPoisoned).passEnds i k
    else
      let b := s.pageBytes page
      let h := ofLe (b.take 32)
      if !envelopeOk h r k g.length then s.passFails i page 3 stRange
      else
        let key := leBytes 32 (s.kslot r.slot).key.toNat
        let iv := (b.drop 12).take 12
        let ct := (b.drop 32).take (fld h 64 17)
        if gcmTag key iv (b.take 32) ct ≠ (b.drop (32 + fld h 64 17)).take 16 then (s.poisonPage page).passFails i page 4 stPoisoned
        else
          (((s.t0Write (run * 4096 + wpBytes * k) (gcmCrypt key iv ct)).markRead page).passEnds i k).updWrec i fun r => { r with lens := r.lens.set k ct.length 0 }
/-- WEIGHT_PASS. -/
def execWeightPass (wrec page : Nat) (s : State) : Host.Outcome State Fault Refusal := act s fun s => s.weightPass wrec page

/-! ## Layer streams (09 R289 to R291) -/

/-- A tensor of a layer: element width and rows of FP32 values. -/
structure Tensor where
  fp8 : Bool := false
  rows : List (List Nat) := []
deriving DecidableEq, Repr

/-- A directory entry: role, DTYPE, CODED, SPARSE, ROWS, COLS, OFFSET, SLEN, PAYLOAD. -/
structure TDir where
  role : Nat := 0
  dtype : Nat := 0
  coded : Bool := false
  sparse : Bool := false
  rows : Nat := 0
  cols : Nat := 0
  off : Nat := 0
  slen : Nat := 0
  payload : Nat := 0
deriving DecidableEq, Repr

/-- Reads a directory entry. -/
def parseTDir (e : Nat) : TDir :=
  { role := fld e 0 4, dtype := fld e 4 4, coded := bit e 8, sparse := bit e 9, rows := fld e 16 24, cols := fld e 40 16, off := fld e 64 32
    slen := fld e 96 32, payload := fld e 128 32 }
/-- Expected PAYLOAD of a tensor body (09 R291). -/
def TDir.expected (d : TDir) : Nat :=
  let w := if d.dtype = 1 then 1 else 2
  if d.sparse then d.rows * d.cols / 2 * w + d.rows * d.cols / 8 else d.rows * d.cols * w
/-- Bytes of the metadata array. -/
def TDir.meta (d : TDir) : Nat := if d.sparse then d.rows * d.cols / 8 else 0
/-- A directory entry obeys 09 R289. -/
def TDir.ok (d : TDir) (e size : Nat) : Bool :=
  decide (1 ≤ d.role ∧ d.role ≤ 4 ∧ d.dtype < 2 ∧ d.cols % 16 = 0 ∧ d.off % 32 = 0 ∧ d.off + d.slen ≤ size) && !(d.coded && d.dtype == 1) &&
    fld e 10 6 == 0 && fld e 56 8 == 0 && fld e 160 96 == 0
/-- A rank is a multiple of 16 from 16 to 1,024 (09 R290). -/
def rankOk (r : Nat) : Bool := decide (16 ≤ r ∧ r ≤ 1024 ∧ r % 16 = 0)
/-- The shapes of the four factors agree with each other and with the gathering record (09 R290). -/
def shapesOk (g : GRec) (ak bk av bv : TDir) : Bool :=
  let rk := ak.cols
  let rv := av.rows
  rankOk rk && rankOk rv && ak.rows == g.latentW && bk.rows == g.qheads * rk && bk.cols == g.headdim && av.cols == g.latentW &&
    bv.rows == g.qheads * g.headdim && bv.cols == rv
/-- Spreads the two kept values of a run of 4 (09 R291); of two positions that are not in ascending order the first wins where they meet (log 154). -/
def spread (n : Nat) (a b : Nat) : List Nat :=
  (List.range 4).map fun i => if i = n % 4 then a else if i = n / 4 % 4 then b else 0
/-- Dense elements of a sparse tensor. -/
def densify : List Nat → List Nat → List Nat
  | a :: b :: vs, n :: ns => spread n a b ++ densify vs ns
  | _, _ => []
/-- A tensor body expanded: row of 09 R285 that failed (0 none), and the tensor. -/
def expandTensor (d : TDir) (body : Bytes) : Nat × Tensor :=
  let w := if d.dtype = 1 then 1 else 2
  let vals := d.expected - d.meta
  let (row, b) : Nat × Bytes :=
    if d.payload ≠ d.expected then (3, [])
    else if d.coded then expandForm 0x10 (d.slen - d.meta) vals (body.take (d.slen - d.meta))
    else if d.slen ≠ d.payload then (6, []) else (0, body.take vals)
  let es := (elements w b).map (widen w)
  let dense := if d.sparse then densify es ((body.drop (d.slen - d.meta)).flatMap fun x => [x.toNat % 16, x.toNat / 16]) else es
  (row, { fp8 := d.dtype = 1, rows := chunks d.cols d.rows dense })
/-- The factors of a layer: A_K, B_K, A_V, B_V. -/
structure Layer where
  ak : Tensor := {}
  bk : Tensor := {}
  av : Tensor := {}
  bv : Tensor := {}
deriving DecidableEq, Repr

/-- Bytes of the layer stream that the pages of a record carry; none where one before the last carries fewer than it must (09 R288). -/
def WRec.carried (r : WRec) : Option Nat :=
  if (List.range (r.ppl - 1)).all fun k => r.lens.get k 0 == wpBytes then some (wpBytes * (r.ppl - 1) + r.lens.get (r.ppl - 1) 0) else none
/-- A layer stream read for a gathering record, its pages carrying `carried` bytes: OK with the factors, or the row of 09 R295 (5 or 6) and the body
range at fault. -/
def parseLayer (g : GRec) (r : WRec) (carried : Option Nat) (stream : Bytes) : Nat × Nat × Nat × Layer :=
  let h := ofLe (stream.take 64)
  let size := fld h 32 32
  let es := (chunks 32 4 (stream.drop 64)).map ofLe
  let ds := es.map parseTDir
  let of (k : Nat) : TDir := (ds.find? fun d => d.role == k).getD {}
  let apart := (List.range 4).all fun i => (List.range 4).all fun j =>
    i == j || (let a := ds.getD i {}; let b := ds.getD j {}; decide (a.off + a.slen ≤ b.off ∨ b.off + b.slen ≤ a.off))
  if fld h 0 16 ≠ r.model ∨ fld h 16 8 ≠ r.layer ∨ fld h 24 8 ≠ 4 ∨ fld h 64 448 ≠ 0 ∨ carried ≠ some size then (5, 0, 0, {})
  else if !(List.zipWith (fun d e => d.ok e size) ds es).all id || [1, 2, 3, 4].any (fun k => !ds.any fun d => d.role == k) || !apart then (5, 0, 0, {})
  else if !shapesOk g (of 1) (of 2) (of 3) (of 4) then (5, 0, 0, {})
  else
    let t (k : Nat) : Nat × Tensor := expandTensor (of k) ((stream.drop (of k).off).take (of k).slen)
    match [1, 2, 3, 4].find? fun k => (t k).1 != 0 with
    | some k => (6, (of k).off, (of k).slen, {})
    | none => (0, 0, 0, { ak := (t 1).2, bk := (t 2).2, av := (t 3).2, bv := (t 4).2 })

/-- The record that an ATTEND of a layer uses: the superseded one it began under, while its copy lasts; else the present one (09 R294). -/
def State.recordFor (s : State) (model layer : Nat) (past : Option Nat) : Option Nat :=
  let now := (s.wrecOf model layer).map (·.1)
  match past with
  | some k => if s.copyLasts (4096 + k) then some (4096 + k) else now
  | none => now
/-- The stream of a clear copy that starts with its SIZE: the first unreadable granule's page within the layer, or its bytes. -/
def State.readStream (s : State) (run ppl : Nat) : Option Nat × Bytes :=
  let a := run * 4096
  if s.rangeBad a 8 then (some 0, [])
  else
    let n := min (ofLe ((s.t0Read a 8).drop 4)) (ppl * wpBytes)
    match (List.range ppl).find? fun k => s.rangeBad (a + wpBytes * k) (min wpBytes (n - wpBytes * k)) with
    | some k => (some k, [])
    | none => (none, s.t0Read a n)
/-- An uncorrectable granule of a clear copy: the weight page whose plaintext it holds is poisoned, and recorded beside the granule with the row of the
check (09 R285, R286, R295). -/
def State.streamFail (s : State) (i run k : Nat) : State :=
  let r := s.wrec i
  (((s.poisonPage (r.page + k)).badGranule 8 (run * 4096 + wpBytes * k) (some (s.fnOf r.owner)) (some r.owner) stPoisoned 0).report
    { cls := 2, source := 7, code := 0x10, fn := some (s.fnOf r.owner), ctx := some r.owner, status := stPoisoned, object := r.page + k, detail := 8 }).layerFails i stPoisoned
/-- The layer of record `i` for a latent ATTEND: 0 and its factors; 1 still to come; 2 failed with a status, the state recording it. A header or
shapes that break the rules fail the ATTEND alone; a body poisons its pages, and with them the layer, whichever of its checks fails: a digest that
differs too ends with EXPAND_LENGTH (09 R295, R297; log 155). -/
def State.layerFor (s : State) (g : GRec) (i : Nat) : Nat × BitVec 16 × Layer × State :=
  let r := s.wrec i
  if r.failed ≠ 0 then (2, r.failed, {}, s)
  else
    match r.clear with
    | none => (1, 0, {}, s)
    | some run =>
      if !(List.range r.ppl).all r.passed.contains then (1, 0, {}, s)
      else
        match s.readStream run r.ppl with
        | (some k, _) => (2, stPoisoned, {}, s.streamFail i run k)
        | (none, stream) =>
          match parseLayer g r r.carried stream with
          | (0, _, _, l) => (0, 0, l, s)
          | (5, _, _, _) => (2, stRange, {}, s.weightReport i r.page 5 stRange)
          | (_, off, len, _) =>
            let ps := span (off / wpBytes) ((off + max len 1 - 1) / wpBytes + 1)
            (2, 0x0304, {}, ((ps.foldl (fun s k => s.poisonPage (r.page + k)) s).weightReport i (r.page + off / wpBytes) 6 0x0304).layerFails i stPoisoned)

end Sys2Proof.Machine
end

