-- ==== Sys2Proof/Machine/AttendMath.lean ====
section
/-! DEFINITION. The arithmetic of ATTEND and COMBINE: bias, effective queries, page partials, selection, expansion, partial sets (08 R241 to R267). -/
namespace Sys2Proof.Machine
open Sys2Proof

/-! ## The bias table (08 R245 to R247) -/

/-- The distance bucket (08 R247). -/
def bucket (d : Nat) : Nat :=
  if d < 32 then d else min (32 + 4 * (Nat.log2 d - 5) + d / 2 ^ (Nat.log2 d - 2) % 4) 127
/-- DIST and SPANS of a table's header. -/
def biasDist (b : Bytes) : Bool := bit (ofLe (b.take 4)) 8
def biasSpans (b : Bytes) : Nat := fld (ofLe (b.take 4)) 16 4
/-- Length of a table. -/
def biasLen (head : Bytes) (g : GRec) : Nat := 64 + b2n (biasDist head) * g.qheads * 512 + g.members * biasSpans head * 16
/-- bias[h][k]. -/
def biasAt (b : Bytes) (h k : Nat) : Nat := ofLe ((b.drop (64 + 4 * (128 * h + k))).take 4)
/-- The mask spans of member `i`: START, END, VALUE, reserved. -/
def spansOf (b : Bytes) (qheads i : Nat) : List (Nat × Nat × Nat × Nat) :=
  let n := biasSpans b
  (chunks 16 n (b.drop (64 + b2n (biasDist b) * qheads * 512 + i * n * 16))).map fun e =>
    let v := ofLe e
    (fld v 0 32, fld v 32 32, fld v 64 32, fld v 96 32)
/-- The values of a table obey 08 R246 and its reserved fields are 0 (00 R10). -/
def biasValuesOk (b : Bytes) (g : GRec) : Bool :=
  (!biasDist b || (elements 4 ((b.drop 64).take (g.qheads * 512))).all finite) &&
    (List.range g.members).all fun i => (spansOf b g.qheads i).all fun e =>
      !isNan e.2.2.1 && e.2.2.1 != fInf && e.2.2.2 == 0

/-! ## Queries (08 R243, R262) -/

/-- Query head `h` of member `i`, as FP32 codes. -/
def queryOf (g : GRec) (q : Bytes) (i h : Nat) : List Nat :=
  (elements 2 ((q.drop (2 * g.headdim * (g.qheads * i + h))).take (2 * g.headdim))).map ofBf16
/-- Rounds an operand for the factor it multiplies: FP8 where that is stored so, else BF16 (08 R262 to R264); an FP32 code. -/
def operandFor (t : Tensor) (x : Nat) : Nat := if t.fp8 then ofFp8 (fp8 x) else ofBf16 (bf16 x)
/-- The effective query of head `h` (08 R262). -/
def effQuery (g : GRec) (l : Layer) (q : List Nat) (h : Nat) : List Nat :=
  let rk := l.bk.rows.length / max g.qheads 1
  let x := q.map (operandFor l.bk)
  let tt := ((l.bk.rows.drop (h * rk)).take rk).map fun w => operandFor l.ak (dot w x)
  let u := l.ak.rows.map fun w => ofBf16 (bf16 (dot w tt))
  u ++ q.drop (g.headdim - g.rope)
/-- The vector scored against keys: the query, or the effective query. -/
def scoreQuery (g : GRec) (l : Layer) (q : Bytes) (i h : Nat) : List Nat :=
  if g.latent then effQuery g l (queryOf g q i h) h else queryOf g q i h
/-- The group of query head `h` (08 R243). -/
def groupOf (g : GRec) (h : Nat) : Nat := if g.latent then 0 else h / max (g.qheads / max g.kvheads 1) 1

/-! ## Page partials (08 R243, R248) -/

/-- The tokens of a payload, elements as FP32 codes. -/
def tokenRows (g : GRec) (n : Nat) (payload : Bytes) : List (List Nat) :=
  (chunks g.ptok n payload).map fun t => (elements g.width t).map (widen g.width)
/-- Key of a token in a group, and its value (latent: the latent vector). -/
def keyOf (g : GRec) (gr : Nat) (t : List Nat) : List Nat := if g.latent then t else (t.drop (gr * g.headdim)).take g.headdim
def valueOf (g : GRec) (gr : Nat) (t : List Nat) : List Nat :=
  if g.latent then t.take g.latentW else (t.drop ((g.kvheads + gr) * g.headdim)).take g.headdim
/-- Elements of o: HEADDIM, or LATENT. -/
def GRec.odim (g : GRec) : Nat := if g.latent then g.latentW else g.headdim
/-- The score of a query head against the token at position `t`, the query at position `pq` (08 R243). -/
def scoreAt (g : GRec) (bias : Bytes) (i h pq : Nat) (q key : List Nat) (t : Nat) : Nat :=
  let s := fmul (dot q key) g.scale.toNat
  if bias.isEmpty then s
  else
    let s := if biasDist bias then fadd s (biasAt bias h (bucket (pq - t))) else s
    (spansOf bias g.qheads i).foldl (fun s e => if e.1 ≤ t ∧ t < e.2.1 then fadd s e.2.2.1 else s) s
/-- The largest of a list of scores. -/
def maxScore : List Nat → Nat
  | [] => fNegInf
  | s :: r => r.foldl fmax s
/-- The partial of one head on one page: its token rows, the first at position `t0`, the positions after them up to TPP being zero; and whether a contributing element is not finite (08 R248, R252). -/
def pagePartial (g : GRec) (bias : Bytes) (i h pq : Nat) (q : List Nat) (rows : List (List Nat)) (t0 : Nat) : Partial × Bool :=
  let gr := groupOf g h
  let keys := rows.map (keyOf g gr)
  let scores := (List.range keys.length).map fun k => scoreAt g bias i h pq q (keys.getD k []) (t0 + k)
  let badKey := keys.any fun k => !k.all finite
  let zero : Partial := { o := List.replicate g.odim 0 }
  if scores.all (· == fNegInf) then (zero, badKey)
  else
    let m := maxScore scores
    let p := scores.map fun s => ofBf16 (bf16 (fexp (fsub s m)))
    let vals := rows.map (valueOf g gr)
    let rest := List.replicate (g.tpp - p.length) 0
    ({ m := m, l := dot (p ++ rest) (List.replicate g.tpp fOne)
       o := (List.range g.odim).map fun d => dot (p ++ rest) ((vals.map fun v => v.getD d 0) ++ rest) },
     badKey || vals.any fun v => !v.all finite)

/-! ## Outputs (08 R251, R252, R263) -/

/-- The output expansion of a vector (08 R263): BF16 codes. -/
def expandOut (g : GRec) (l : Layer) (h : Nat) (z : List Nat) : List Nat :=
  let zz := z.map (operandFor l.av)
  let y := l.av.rows.map fun w => operandFor l.bv (dot w zz)
  ((l.bv.rows.drop (h * g.headdim)).take g.headdim).map fun w => bf16 (dot w y)
/-- The output elements of a root (08 R251): BF16 codes. -/
def outputOf (g : GRec) (l : Layer) (h : Nat) (r : Partial) : List Nat :=
  if r.l % fSign = 0 then List.replicate g.headdim 0
  else
    let z := r.o.map fun o => fdiv o r.l
    if g.latent then expandOut g l h z else z.map bf16
/-- The o of a root as a partial set carries it (08 R263, R265): FP32 codes. -/
def setOut (g : GRec) (l : Layer) (h : Nat) (r : Partial) : List Nat := if g.latent then (expandOut g l h r.o).map ofBf16 else r.o
/-- The weight elements that contribute to head `h` are finite (08 R252). -/
def weightsFinite (g : GRec) (l : Layer) (h : Nat) : Bool :=
  let rk := l.bk.rows.length / max g.qheads 1
  !g.latent || (l.ak.rows.all (·.all finite) && l.av.rows.all (·.all finite) && ((l.bk.rows.drop (h * rk)).take rk).all (·.all finite) &&
    ((l.bv.rows.drop (h * g.headdim)).take g.headdim).all (·.all finite))
/-- Bytes of a partial record. -/
def recLen (g : GRec) : Nat := 32 + 4 * g.headdim
/-- A partial set's header (08 R266). -/
def setHeader (g : GRec) (layer : Nat) : Bytes :=
  leBytes 64 (g.model + layer * 2 ^ 16 + g.qheads * 2 ^ 24 + g.headdim * 2 ^ 32 + g.members * 2 ^ 64)
/-- A partial record. -/
def setRecord (r : Partial) : Bytes := leBytes 32 (r.m + r.l * 2 ^ 32) ++ r.o.flatMap (leBytes 4)
/-- What an instruction of a gathering puts out: per member and head the BF16 output, all NaN for a head that R252 names, and the record, which holds
the tree root whatever the output (08 R252, R265; log 33). -/
def headResult (g : GRec) (l : Layer) (h : Nat) (r : Partial) (bad : Bool) : List Nat × Partial :=
  (if bad then List.replicate g.headdim 0x7FC0 else outputOf g l h r, { r with o := setOut g l h r })

/-! ## Selection (08 R255 to R258) -/

/-- The bound of one head on a summary group, minima then maxima as FP32 codes (08 R256). -/
def boundOf (q mins maxs : List Nat) : Nat :=
  (List.range q.length).foldl (fun b d => fadd b (fmax (fmul (q.getD d 0) (mins.getD d 0)) (fmul (q.getD d 0) (maxs.getD d 0)))) 0
/-- A page's score for a member: the largest bound over its heads, NaN when any is (08 R256). -/
def pageScore (g : GRec) (qs : List (List Nat)) (body : Bytes) : Nat :=
  let es := (elements g.width body).map (widen g.width)
  maxScore ((List.range qs.length).map fun h =>
    let o := 2 * g.dims * groupOf g h
    boundOf (qs.getD h []) ((es.drop o).take g.dims) ((es.drop (o + g.dims)).take g.dims))
/-- A candidate ranks before another: NaN first, then by descending score, then by ascending block (08 R258). -/
def rankBefore (a b : Nat × Nat × Nat) : Bool :=
  let x := a.2.2
  let y := b.2.2
  if isNan x != isNan y then isNan x
  else if !isNan x && fKey x != fKey y then decide (fKey y < fKey x)
  else decide (a.1 < b.1)
/-- Pages a governor level leaves to choose of `k` (08 R260). -/
def kEff (adaptive : Bool) (level k : Nat) : Nat :=
  if !adaptive ∨ level = 0 then k else if level = 1 then 3 * k / 4 else if level = 2 then k / 2 else k / 4

end Sys2Proof.Machine
end

