-- ==== Sys2Proof/Machine/Attention.lean ====
section
/-! DEFINITION. ATTEND and COMBINE (03 R104, R105; 08 R241 to R272). -/
namespace Sys2Proof.Machine
open Sys2Proof

/-- The flight holds every Quire of the set (02 R40). -/
def State.quiresHeld (s : State) (f : Nat) (m : BitVec 16) : Bool := (quiresOf m).all fun q => s.fq.held.get q 0 == f + 1
/-- A Quire or Folio of the set is marked unavailable (08 R272). -/
def State.unitDown (s : State) (m : BitVec 16) : Bool :=
  (quiresOf m).any fun q => s.dev.quireDown.get q false || (List.range 16).any fun i => s.dev.folioDown.get (16 * q + i) false
/-- Bytes of a gathering's output (03 R104). -/
def GRec.outBytes (g : GRec) : Nat := g.members * g.qheads * g.headdim * 2
/-- Bytes of a partial set (08 R266). -/
def GRec.setBytes (g : GRec) : Nat := 64 + g.members * g.qheads * (32 + 4 * g.headdim)
/-- Rounded up to a multiple of 32. -/
def round32 (n : Nat) : Nat := cdiv n 32 * 32
/-- The checks that ATTEND and COMBINE share: the gathering, LAYER, the unit, the queue pair of an RDMA destination (03 R74, R104; 08 R272; log 22). -/
def State.gathCheck (s : State) (c gi layer : Nat) : BitVec 16 :=
  let g := s.gath gi
  if !g.live then stNotFound
  else if g.owner ≠ c then stPermission
  else if g.grec.layers ≤ layer then stRange
  else if s.unitDown g.grec.qmask then stUnavailable
  else if g.grec.odest = 1 then s.outQp c g.grec.qp
  else stOk
/-- Where an output goes: OUT, and with ODEST 1 or 2 also OADDR + OSTRIDE x LAYER (03 R104, 08 R267). -/
def outDests (g : GRec) (base layer n : Nat) : List Dest :=
  { addr := base, len := n } ::
    if g.odest = 0 then []
    else [{ kind := g.odest, qp := g.qp, rkey := g.rkey.toNat, addr := (g.oaddr + g.ostride * layer) % 2 ^ 64, len := n }]

/-! ## ATTEND: start (03 R104, 05 R171, 08 R241) -/

/-- The start of an ATTEND at a position updates the period estimate (05 R171). -/
def State.notePeriod (s : State) (gi layer : Nat) : State :=
  s.updGath gi fun g =>
    let pos := g.step * g.grec.layers + layer
    let p := match g.lastStart with
      | some (q, t) =>
        if pos = q + 1 then
          let x := s.now - t
          if g.period = 0 then x % 2 ^ 32 else (Int.ofNat g.period + Int.fdiv (Int.ofNat x - Int.ofNat g.period) 8).toNat % 2 ^ 32
        else g.period
      | none => g.period
    { g with period := p, lastStart := some (pos, s.now) }
/-- A member of the snapshot as an ATTEND of a layer attends it (08 R241). -/
def attMember (g : GRec) (layer : Nat) (m : SnapMember) : AttMember :=
  if !m.present then { seq := m.seq }
  else
    { seq := m.seq, tokens := m.next layer g.ptok g.tpp, unsealed := m.unsealed
      blocks := (List.range m.entries.length).map fun b => let e := m.entries.getD b {}; (b, e.base + layer, e.shared) }
/-- Fixes what the ATTEND works on: its step snapshot, queries, bias table and governor level. -/
def State.attendStart (s : State) (f gi layer : Nat) : State :=
  let s := (s.ensureSnap gi).notePeriod gi layer
  let g := s.gath gi
  let x := s.flight f
  let c := s.ctx x.ctx
  let qa := c.inAddr + bOffset x.b
  let ba := g.grec.bias * 4096
  let blen := if g.grec.bias = 0 then 0 else biasLen (s.t0Read ba 4) g.grec
  let bias := s.t0Read ba blen
  if s.rangeBad qa g.grec.outBytes then (s.badGranule 8 qa (some c.function) (some x.ctx) stPoisoned (wTag x.word)).fail f stPoisoned
  else if s.rangeBad ba blen then (s.badGranule 8 ba (some c.function) (some x.ctx) stPoisoned (wTag x.word)).fail f stPoisoned
  else if !s.biasOk x.ctx g.grec || (g.grec.bias != 0 && !biasValuesOk bias g.grec) then s.fail f stRange
  else
    let a : Attending :=
      { grec := g.grec, queries := s.t0Read qa g.grec.outBytes, bias := bias, members := g.snap.map (attMember g.grec layer)
        level := if s.fq.mode then s.fq.forceLevel else s.fq.level }
    (s.setJob f (.attend [] a)).updFlight f fun x => { x with stepAt := g.step }

/-! ## ATTEND: selection (08 R257 to R260) -/

/-- Indices of the recent blocks of a member (08 R257). -/
def recentOf (m : AttMember) (sink recent : Nat) : List Nat :=
  let l := (m.blocks.filter fun b => !b.2.2 && decide (sink ≤ b.1)).map (·.1)
  l.drop (l.length - recent)
/-- All positions of block `b` below T lie inside one span of value -inf (08 R257). -/
def maskedOut (g : GRec) (bias : Bytes) (i b t : Nat) : Bool :=
  !bias.isEmpty && (spansOf bias g.qheads i).any fun e => e.2.2.1 == fNegInf && decide (e.1 ≤ b * g.tpp ∧ min t ((b + 1) * g.tpp) ≤ e.2.1)
/-- The candidate blocks of member `i`: those whose pages were sealed in the snapshot (04 R143, 08 R257). -/
def State.candidates (s : State) (a : Attending) (i : Nat) (m : AttMember) : List (Nat × Nat × Bool) :=
  let rc := recentOf m a.grec.sink a.grec.recent
  m.blocks.filter fun b =>
    !b.2.2 && decide (a.grec.sink ≤ b.1) && !rc.contains b.1 && !m.unsealed.contains b.2.1 && decide (0 < (s.page b.2.1).tokens) && !maskedOut a.grec a.bias i b.1 m.tokens
/-- Selects for one member: the blocks it attends, the candidates chosen, and whether the governor reduced them. -/
def State.selectMember (s : State) (a : Attending) (l : Layer) (i : Nat) (m : AttMember) : AttMember × Bool :=
  let g := a.grec
  if g.budget = 0 ∨ m.tokens = 0 then (if m.tokens = 0 then { m with blocks := [] } else m, false)
  else
    let rc := recentOf m g.sink g.recent
    let fixed := m.blocks.filter fun b => !b.2.2 && (decide (b.1 < g.sink) || rc.contains b.1)
    let k := g.budget - fixed.length
    let n := kEff g.adaptive a.level k
    let qs := (List.range g.qheads).map fun h => scoreQuery g l a.queries i h
    let cs := s.candidates a i m
    let ranked := sortBy rankBefore (cs.map fun b => (b.1, b.2.1, pageScore g qs (s.sum (s.page b.2.1).summary).body))
    let top := (ranked.take n).map (·.1)
    ({ m with
        blocks := m.blocks.filter fun b => b.2.2 || decide (b.1 < g.sink) || rc.contains b.1 || top.contains b.1
        chosen := (cs.filter fun b => top.contains b.1).map (·.2.1) },
     decide (n < min k cs.length))
/-- A candidate's summary record that cannot be read, with its page (08 R259, 13 R415). -/
def State.summaryBad (s : State) (a : Attending) : Option Nat :=
  if a.grec.budget = 0 then none
  else
    ((List.range a.members.length).flatMap fun i => (s.candidates a i (a.members.getD i {})).map (·.2.1)).find? s.sumBad
/-- The pages an ATTEND attends, each once. -/
def Attending.pages (a : Attending) : List Nat := (a.members.flatMap fun m => m.blocks.map (·.2.1)).eraseDups

/-! ## ATTEND: computation (08 R248 to R253) -/

/-- Tokens below T on block `b`. -/
def tokensOn (tpp t b : Nat) : Nat := min tpp (t - b * tpp)
/-- The payloads of pages as one ATTEND reads them, or the first that fails: page, row of 09 R285 (9 poisoned). -/
def State.payloads (s : State) (a : Attending) : List Nat → Except (Nat × Nat) (List (Nat × Bytes))
  | [] => .ok []
  | p :: r =>
    let n := (a.members.map fun m => m.blocks.foldl (fun k b => if b.2.1 = p then max k (tokensOn a.grec.tpp m.tokens b.1) else k) 0).foldl max 0
    if (s.page p).poison then .error (p, 9)
    else
      match s.payload p (n * a.grec.ptok) with
      | (0, b) => (match s.payloads a r with | .ok l => .ok ((p, b) :: l) | .error e => .error e)
      | (row, _) => .error (p, row)
/-- The root of a member and head, and whether R252 names it. -/
def attendHead (a : Attending) (l : Layer) (ps : Tbl (List (List Nat))) (i h : Nat) : Partial × Bool :=
  let g := a.grec
  let m := a.members.getD i {}
  let q := scoreQuery g l a.queries i h
  let parts := m.blocks.map fun b =>
    let n := tokensOn g.tpp m.tokens b.1
    pagePartial g a.bias i h (m.tokens - 1) q ((ps.get b.2.1 []).take n) (b.1 * g.tpp)
  let bad := !m.blocks.isEmpty && (parts.any (·.2) || !(queryOf g a.queries i h).all finite || !weightsFinite g l h)
  if parts.isEmpty then ({ o := List.replicate g.odim 0 }, false) else (tree parts.length (parts.map (·.1)), bad)
/-- Output bytes and partial-set records of heads in member, head order. -/
def packResults (g : GRec) (l : Layer) (rs : List (Partial × Bool)) : Bytes × Bytes :=
  let hs := (List.range rs.length).map fun k => let r := rs.getD k ({}, false); headResult g l (k % max g.qheads 1) r.1 r.2
  (hs.flatMap fun r => unelements 2 r.1, hs.flatMap fun r => setRecord r.2)
/-- Marks what an ATTEND of step `stepAt` has read: stamps, prefetch holds whose copy it used or left unread, cold copies, and the pages it
chose (04 R147, 05 R161, R169). -/
def State.attendMarks (s : State) (gi layer stepAt : Nat) (a : Attending) : State :=
  let s := a.pages.foldl (fun s p =>
    let s := s.stampPage p gi
    let s := if (s.auxRec (s.page p).aux).holdGath = gi then s.markRead p else s
    s.dropCold p) s
  let s := s.countUnread gi (stepAt * a.grec.layers + layer)
  let s := a.members.foldl (fun s m => if m.blocks.isEmpty then s else s.stampSeq m.seq gi) s
  s.updGath gi fun g => { g with selected := (g.selected.filter fun p => p.1 != layer) ++ (a.members.flatMap (·.chosen)).eraseDups.map fun p => (layer, stepAt, p) }
/-- RESULT of ATTEND (03 R108). -/
def Attending.result (a : Attending) : BitVec 64 :=
  let ns := a.members.map (·.blocks.length)
  BitVec.ofNat 64 (a.pages.length % 2 ^ 32 + ns.foldl min (ns.headD 0) % 65536 * 2 ^ 32)
/-- What an ATTEND puts out: what it computed, or free bytes where the host has written its bias table while it ran (08 R246; log 106). -/
def State.attendOut (s : State) (r : Bytes × Bytes) (spoiled : Bool) : (Bytes × Bytes) × State :=
  if spoiled then
    let (out, s) := s.freeBytes r.1.length
    let (recs, s) := s.freeBytes r.2.length
    ((out, recs), s)
  else (r, s)
/-- The cycles for which a Folio's array waits at most on its expander for `n` elements that take the expander `tx` cycles and fill tiles with `rows`
rows: those cycles less those of the array, and 8 (09 R284). -/
def expanderBound (tx n rows : Nat) : Nat := tx - n * (cdiv rows 16 * 16) / 256 + 8
/-- That bound for a page of an ATTEND (08 R253, 09 R282). -/
def State.pageBound (s : State) (a : Attending) (p : Nat) : Nat :=
  let g := a.grec
  let cohort := (a.members.filter fun m => m.blocks.any fun b => b.2.1 == p).length
  let n := s.pageTokens p g.ptok * g.ptok / g.width
  let coded := (s.page p).formed && !(s.page p).raw
  expanderBound (expanderTime g.width n coded (if coded then s.pageBytes p else [])) n (cohort * (if g.latent then g.qheads else g.qheads / max g.kvheads 1))
/-- And for the coded tensors of its layer, whose rows fill at least one tile. -/
def tensorsBound (stream : Bytes) : Nat :=
  ((chunks 32 4 (stream.drop 64)).map fun e => parseTDir (ofLe e)).foldl (fun k d =>
    if d.coded then let n := (d.expected - d.meta) / 2; k + expanderBound (expanderTime 2 n true (stream.drop d.off)) n 16 else k) 0
/-- The same in fabric cycles at an operating point (15 R454). -/
def fabricCycles (point n : Nat) : Nat := cdiv (7 * n) (7 - min point 2)
/-- The waits of an ATTEND on its expanders: up to the bounds of its pages and tensors in all, of which up to all were stall cycles; free values, the
spec giving the bounds alone (09 R284; log 94). -/
def State.expanderWait (s : State) (f : Nat) (a : Attending) : State :=
  let weights := match a.copy with | some (run, ppl) => tensorsBound (s.readStream run ppl).2 | none => 0
  let bound := a.pages.foldl (fun n p => n + s.pageBound a p) weights
  let (v, s) := s.draw
  let (u, s) := s.draw
  let w := v % (fabricCycles s.pwr.point bound + 1)
  let e := u % (w + 1)
  s.updFlight f fun x =>
    { x with waited := if w = 0 then x.waited else addStall x.waited .expander w, stalls := if e = 0 then x.stalls else addStall x.stalls .expander e }
/-- `need` entries pass through pool `i`: each takes its credit and returns it, so that from one to as many as there are of them, or as the pool has,
are taken at once; a free number, the spec not stating the occupation (01 R16, R17, R19; log 94). -/
def State.dipPool (s : State) (i need : Nat) : State :=
  let k := min need (s.avail i)
  let (v, s) := s.draw
  let n := 1 + v % k
  { s with pools := if k = 0 then s.pools else ((s.takeCredits i n).freeCredits i n).pools }
/-- A Quire of a set, and a Folio of it, by a free number: which of them reads and works on a page the spec leaves open (08 R253; log 94). -/
def State.pickQuire (s : State) (m : BitVec 16) : Nat × Nat × State :=
  let (v, s) := s.draw
  let qs := quiresOf m
  (qs.getD (v % max qs.length 1) 0, v / 16 % 16, s)
/-- What an ATTEND or a COMBINE passes through the queues of a Quire: reads of 2 KiB of T0, the bytes of a page to its expander, and partial results to
the combine tree (01 R17, 08 R253, 09 R282). -/
def State.dipQuire (s : State) (m : BitVec 16) (bytes decoded partials : Nat) : State :=
  let (q, i, s) := s.pickQuire m
  ((s.dipPool (28 + q) (cdiv bytes 2048)).dipPool (44 + 16 * q + i) decoded).dipPool (300 + q) partials
/-- The same for every page of an ATTEND, read once each. -/
def State.dipPages (s : State) (a : Attending) : State :=
  a.pages.foldl (fun s p =>
    let n := (s.page p).length
    s.dipQuire a.grec.qmask n n ((a.members.filter fun m => m.blocks.any fun b => b.2.1 == p).length * a.grec.qheads)) s
/-- Computes an ATTEND whose pages are all in T0, and writes its output (08 R265), whose queue pair may have left RTS since it began (10 R305). -/
def State.attendCompute (s : State) (f gi layer : Nat) (a : Attending) (l : Layer) : State :=
  let x := s.flight f
  let c := s.ctx x.ctx
  let g := a.grec
  match s.payloads a a.pages with
  | .error (p, row) => if row = 9 then s.fail f stPoisoned else (s.expandFail x.ctx p row (wTag x.word)).fail f (expandStatus row)
  | .ok ps =>
    let rows := (ps.map fun p => (p.1, tokenRows g g.tpp p.2)).foldl (fun t p => Tbl.put t p.1 p.2) []
    let rs := (List.range (g.members * g.qheads)).map fun k => attendHead a l rows (k / max g.qheads 1) (k % max g.qheads 1)
    let ((out, recs), s) := s.attendOut (packResults g l rs) a.spoiled
    let set := setHeader g layer ++ recs
    let base := c.outAddr + fld x.c.toNat 0 32
    let pad := if c.conf then zeros (round32 out.length - out.length) else []
    let n := out.length
    let (data, ds) : Bytes × List Dest :=
      if g.odest ≠ 0 then (out, outDests g base layer n)
      else if c.conf then (out ++ pad ++ set, [{ addr := base, len := round32 n + set.length }])
      else (out ++ set, [{ addr := base, len := n }, { addr := base + round32 n, off := n, len := set.length }])
    let lost := if g.odest = 1 then s.outQp x.ctx g.qp else stOk
    if lost ≠ stOk then s.fail f lost
    else
    match s.output f data ds 3 with
    | none => s
    | some s => (((s.expanderWait f a).dipPages a).attendMarks gi layer x.stepAt a).finishWrites f (if a.reduced then stBudget else stOk) a.result (some (crc64 out))
/-- The layer's factors from the clear copy an ATTEND found, whose size it has checked. -/
def State.copyLayer (s : State) (a : Attending) (layer : Nat) : Layer :=
  match a.copy with
  | none => {}
  | some (run, ppl) =>
    let b := (s.readStream run ppl).2
    (parseLayer a.grec { model := a.grec.model, layer := layer, ppl := ppl } (some (ofLe ((b.drop 4).take 4))) b).2.2.2
/-- The page of that clear copy, by its place in the layer, of which a granule can no longer be read (09 R285, R297). -/
def State.copyBad (s : State) (a : Attending) : Option Nat := match a.copy with | none => none | some (run, ppl) => (s.readStream run ppl).1
/-- Waits for pages outside T0, their inward moves asked with demand priority (05 R166, R174, 08 R259). -/
def State.attendAwait (s : State) (f : Nat) (ps : List Nat) (a : Attending) (cause : Option Cause) : State :=
  let c := (s.flight f).ctx
  let s := ps.foldl (fun s p => s.askMove .demand p c 0 0) s
  s.waitOn f (.attend ps a) cause
/-- The latent path's wait for its layer (05 R174, 09 R294, R295): the state, and the copy once it is usable. -/
def State.attendLayer (s : State) (f layer : Nat) (a : Attending) : State × Option Attending :=
  match s.recordFor a.grec.model layer a.past with
  | none => (s.fail f stNotFound, none)
  | some i =>
  match s.layerFor a.grec i with
  | (0, _, _, s) => (s.stall f none, some { a with copy := some ((s.wrec i).clear.getD 0, (s.wrec i).ppl) })
  | (1, _, _, s) =>
    let away := ((List.range (s.wrec i).ppl).map ((s.wrec i).page + ·)).filter fun p => (s.page p).tier != 0
    if away.any fun p => (s.page p).poison then (s.fail f stPoisoned, none) else (s.attendAwait f away a (some .weightLate), none)
  | (_, st, _, s) => (s.fail f st, none)
/-- An ATTEND that has chosen its pages computes once all of them are in T0, and asks for the others, one dropped while it waited for
another among them (04 R142, 05 R166). -/
def State.attendPages (s : State) (f gi layer : Nat) (a : Attending) (l : Layer) : State :=
  let away := a.pages.filter fun p => (s.page p).tier != 0
  if away.any fun p => (s.page p).poison then s.fail f stPoisoned
  else if away.isEmpty then ((s.setJob f (.attend [] a)).stall f none).attendCompute f gi layer a l
  else s.attendAwait f away a (away.head?.map fun p => lateCause (s.page p).tier)
/-- Goes on with an ATTEND that waits for nothing: its layer, its selection, its pages, its computation. -/
def State.attendOn (s : State) (f gi layer : Nat) (a : Attending) : State :=
  let (s, a?) := if a.grec.latent && a.copy.isNone then s.attendLayer f layer a else (s, some a)
  match a? with
  | none => s
  | some a =>
    s.readable f ((a.members.flatMap fun m => m.blocks.map (·.2.1)).map s.descAddr) fun s =>
    let x := s.flight f
    match s.copyBad a, s.recordFor a.grec.model layer a.past with
    | some k, some i => (s.streamFail i (a.copy.getD (0, 0)).1 k).fail f stPoisoned
    | some _, none => s.fail f stPoisoned
    | none, _ =>
    let l := s.copyLayer a layer
    if a.selected then
      s.attendPages f gi layer a l
    else
      match s.summaryBad a with
      | some p => (s.sumFail p (some (s.fnOf x.ctx)) (some x.ctx) stPoisoned (wTag x.word)).fail f stPoisoned
      | none =>
        let ms : List (AttMember × Bool) := (List.range a.members.length).map fun i => s.selectMember a l i (a.members.getD i {})
        s.attendPages f gi layer { a with members := ms.map Prod.fst, reduced := ms.any Prod.snd, selected := true } l
/-- The checks of ATTEND beside those it shares (03 R104, 08 R241, R265; log 117). -/
def State.attendCheck (s : State) (x : Flight) (g : Gath) : BitVec 16 :=
  let c := s.ctx x.ctx
  let n := g.grec.outBytes
  let out := fld x.c.toNat 0 32
  if !s.membersOwned g false then stPermission
  else if !s.shapesFit g false || !inRange (bOffset x.b) n c.inLen || !inRange out (if g.grec.odest = 0 then round32 n + g.grec.setBytes else n) c.outLen then stRange
  else stOk
/-- ATTEND. A unit of its set that fails while it runs ends it (08 R272, 13 R412); with the Folio clocks gated by the thermal trip it does not go on
(15 R472). -/
def execAttend (f : Nat) (s : State) : Host.Outcome State Fault Refusal :=
  onFlight 0x30 f s fun x s =>
    let gi := gField x.a
    let layer := fld x.a.toNat 0 8
    match x.job with
    | .writes st res cw => if s.outstanding f then s else s.finish f st res cw
    | .attend w a => if s.unitDown a.grec.qmask then s.fail f stUnavailable else if w.isEmpty && !s.pwr.tripped then s.attendOn f gi layer a else s
    | _ =>
      let g := s.gath gi
      let st := s.gathCheck x.ctx gi layer
      let st2 := s.attendCheck x g
      if st ≠ stOk then s.fail f st
      else if st2 ≠ stOk then s.fail f st2
      else if !s.quiresHeld f g.grec.qmask || s.pwr.tripped then s
      else s.readable f (g.members.flatMap fun m => s.headAddr m :: s.tableAddrs m 0 (s.seq m).entries.length []) fun s => s.awaitGate f (bAwait x.b) (bOffset x.b) g.grec.outBytes fun s =>
        let s := s.attendStart f gi layer
        match (s.flight f).job with
        | .attend [] a => s.attendOn f gi layer a
        | _ => s

/-! ## COMBINE (03 R105, 08 R267) -/

/-- Reads record `k` of a set's records. -/
def readRecord (g : GRec) (b : Bytes) (k : Nat) : Partial :=
  let r := (b.drop (64 + k * recLen g)).take (recLen g)
  { m := ofLe (r.take 4), l := ofLe ((r.drop 4).take 4), o := elements 4 (r.drop 32) }
/-- A set obeys 08 R266 for a gathering record and layer. -/
def setOk (g : GRec) (layer : Nat) (b : Bytes) : Bool :=
  b.take 64 == setHeader g layer &&
    (List.range (g.members * g.qheads)).all fun k => ofLe (((b.drop (64 + k * recLen g)).drop 8).take 24) == 0
/-- R252 names a record: M, L or O is NaN or infinite, the empty partial's M apart. -/
def recordBad (r : Partial) : Bool := !r.isEmpty && !(finite r.m && finite r.l && r.o.all finite)
/-- The output of COMBINE for a record's member and head (08 R267). -/
def combineHead (g : GRec) (sets : List Bytes) (k : Nat) : List Nat :=
  let rs := sets.map fun b => readRecord g b k
  if rs.any recordBad then List.replicate g.headdim 0x7FC0
  else
    let r := tree rs.length rs
    if r.l % fSign = 0 then List.replicate g.headdim 0 else r.o.map fun o => bf16 (fdiv o r.l)
/-- COMBINE. -/
def execCombine (f : Nat) (s : State) : Host.Outcome State Fault Refusal :=
  onFlight 0x31 f s fun x s =>
    match x.job with
    | .writes st res cw => if s.outstanding f then s else s.finish f st res cw
    | _ =>
      let gi := gField x.a
      let layer := fld x.a.toNat 0 8
      let g := (s.gath gi).grec
      let c := s.ctx x.ctx
      let p := bCount x.b
      let n := p * g.setBytes
      let out := fld x.c.toNat 0 32
      let st := s.gathCheck x.ctx gi layer
      if st ≠ stOk then s.fail f st
      else if !inRange (bOffset x.b) n c.inLen || !inRange out g.outBytes c.outLen then s.fail f stRange
      else if !s.quiresHeld f g.qmask || s.pwr.tripped then s
      else s.awaitGate f (bAwait x.b) (bOffset x.b) n fun s =>
        let addr := c.inAddr + bOffset x.b
        if s.rangeBad addr n then (s.badGranule 8 addr (some c.function) (some x.ctx) stPoisoned (wTag x.word)).fail f stPoisoned
        else
          let sets := chunks g.setBytes p (s.t0Read addr n)
          if !sets.all (setOk g layer) then s.fail f stRange
          else
            let data := unelements 2 ((List.range (g.members * g.qheads)).flatMap (combineHead g sets))
            let lost := if g.odest = 1 then s.outQp x.ctx g.qp else stOk
            if lost ≠ stOk then s.fail f lost
            else
            match s.output f data (outDests g (c.outAddr + out) layer data.length) 3 with
            | none => s
            | some s => (s.dipQuire g.qmask n 0 (p * g.members * g.qheads)).finishWrites f stOk (BitVec.ofNat 64 p) (some (crc64 data))

end Sys2Proof.Machine
end

