-- ==== Sys2Proof/Machine/AwlOps.lean ====
section
/-! DEFINITION. The Awl: its commands and its token scan (07 R219 to R232). -/
namespace Sys2Proof.Machine
open Sys2Proof

/-- Automaton `a`. -/
def State.auto (s : State) (a : Nat) : Auto := s.awl.autos.get a {}
/-- Changes automaton `a`. -/
def State.updAuto (s : State) (a : Nat) (f : Auto → Auto) : State := { s with awl := { s.awl with autos := s.awl.autos.upd a {} f } }
/-- Ends an Awl command with a status. -/
def State.awlEnd (s : State) (st : BitVec 16) : State := { s with awl := { s.awl with status := st, loading := none } }
/-- The context may act as a policy context (07 R218, R219). -/
def State.policyActs (s : State) (c : Nat) : Bool :=
  let x := s.ctx c
  x.policy && (x.state == .idle || x.state == .active || x.state == .stopped)

/-! ## Images (07 R220, R221) -/

/-- Header of an image: STATES, CLASSES, VOCAB, START, MAXLEN. -/
def parseAuto (h : Nat) : Auto :=
  { loaded := true, states := fld h 0 17, classes := fld h 32 9, vocab := fld h 48 21, start := fld h 80 16, maxlen := fld h 96 8 }
/-- The header's fields are in range and its reserved fields 0. -/
def autoHeaderOk (h : Nat) : Bool :=
  let a := parseAuto h
  fld h 17 15 == 0 && fld h 41 7 == 0 && fld h 69 11 == 0 && fld h 104 408 == 0 &&
    decide (1 ≤ a.states ∧ a.states ≤ 65536 ∧ 2 ≤ a.classes ∧ a.classes ≤ 256 ∧ 1 ≤ a.vocab ∧ a.vocab ≤ 1048576 ∧ 1 ≤ a.maxlen ∧ a.start < a.states)
/-- Byte offsets of the transition table and the accept map, and the image's length. -/
def Auto.nextAt (a : Auto) : Nat := 64 + round32 a.vocab
def Auto.acceptAt (a : Auto) : Nat := a.nextAt + round32 (a.states * a.classes * 2)
def Auto.imageLen (a : Auto) : Nat := a.acceptAt + cdiv a.states 8
/-- The parts after the header obey 07 R221. -/
def autoBodyOk (a : Auto) (b : Bytes) : Bool :=
  ((b.drop 64).take a.vocab).all (fun c => decide (c.toNat < a.classes)) &&
    (elements 2 ((b.drop a.nextAt).take (a.states * a.classes * 2))).all (fun n => decide (n < a.states)) &&
    decide (ofLe ((b.drop a.acceptAt).take (cdiv a.states 8)) < 2 ^ a.states)

/-- AWL_LOAD (07 R219 to R222). While its run may still come free it stays BUSY, and the command is given again to go on. A granule of the
image that cannot be read ends it with POISONED (DESIGN CHOICE, log 150). -/
def State.awlLoad (s : State) (c a off : Nat) : State :=
  let x := s.ctx c
  let addr := x.inAddr + off
  let h := ofLe (s.t0Read addr 64)
  let img := parseAuto h
  if !s.policyActs c then s.awlEnd stPermission
  else if (s.auto a).loaded then s.awlEnd stBusy
  else if off % 32 ≠ 0 ∨ x.inLen < off + 64 then s.awlEnd stRange
  else if s.rangeBad addr 64 then (s.badGranule 8 addr (some x.function) (some c) stPoisoned 0).awlEnd stPoisoned
  else if !autoHeaderOk h || decide (x.inLen < off + img.imageLen) then s.awlEnd stRange
  else if s.rangeBad addr img.imageLen then (s.badGranule 8 addr (some x.function) (some c) stPoisoned 0).awlEnd stPoisoned
  else
    let b := s.t0Read addr img.imageLen
    if !autoBodyOk img b then s.awlEnd stRange
    else
      match s.takeRun (cdiv img.imageLen 4096) with
      | some (run, s) => ((s.t0Write (run * 4096) b).updAuto a fun _ => { img with owner := c, sheet := run }).awlEnd stOk
      | none => if s.mayYield .pool then { s with awl := { s.awl with loading := some (c, a, off) } } else s.awlEnd stNoSpace
/-- AWL_LOAD: ignored while another command is running (07 R232). -/
def execAwlLoad (ctx auto offset : Nat) (s : State) : Host.Outcome State Fault Refusal :=
  act s fun s =>
    match s.awl.loading with
    | some t => if t = (ctx, auto, offset) then s.awlLoad ctx auto offset else s
    | none => s.awlLoad ctx auto offset
/-- Runs an Awl command of a policy context, unless one is running. -/
def onAwl (ctx : Nat) (s : State) (k : State → State) : Host.Outcome State Fault Refusal :=
  act s fun s => if s.awl.loading.isSome then s else if s.policyActs ctx then k s else s.awlEnd stPermission
/-- Some binding set names the automaton, or a stream record holds it (07 R225). -/
def State.autoUsed (s : State) (a : Nat) : Bool :=
  s.awl.binds.any (fun b => b.2 == a + 1) || s.awl.streams.any fun t => t.2.autos.any fun e => e.2 == a + 1
/-- AWL_UNLOAD (07 R225). -/
def execAwlUnload (ctx auto : Nat) (s : State) : Host.Outcome State Fault Refusal :=
  onAwl ctx s fun s =>
    if !(s.auto auto).loaded then s.awlEnd stNotFound
    else if s.autoUsed auto then s.awlEnd stBusy
    else ((s.updAuto auto fun _ => {}).retire { pool := [(s.auto auto).sheet] }).awlEnd stOk
/-- AWL_BIND (07 R223, R232). -/
def execAwlBind (ctx auto target entry : Nat) (s : State) : Host.Outcome State Fault Refusal :=
  onAwl ctx s fun s =>
    if !(s.auto auto).loaded then s.awlEnd stNotFound
    else if (s.auto auto).poison then s.awlEnd stPoisoned
    else ({ s with awl := { s.awl with binds := s.awl.binds.put (4 * target + entry) (auto + 1) } }).awlEnd stOk
/-- AWL_UNBIND (07 R223, R225). -/
def execAwlUnbind (ctx _auto target entry : Nat) (s : State) : Host.Outcome State Fault Refusal :=
  onAwl ctx s fun s => ({ s with awl := { s.awl with binds := s.awl.binds.del (4 * target + entry) } }).awlEnd stOk

/-! ## The scan (07 R226 to R229) -/

/-- One transition: the next state, and whether it accepts (07 R226). -/
def State.autoStep (s : State) (a : Auto) (state id : Nat) : Nat × Bool :=
  let base := a.sheet * 4096
  let cls := if id < a.vocab then (memRead s.t0 (base + 64 + id)).toNat else 0
  let n := ofLe (s.t0Read (base + a.nextAt + 2 * (state * a.classes + cls)) 2)
  (n, bit (memRead s.t0 (base + a.acceptAt + n / 8)).toNat (n % 8))
/-- Some granule that a transition reads cannot be read. -/
def State.autoBad (s : State) (a : Auto) (state id : Nat) : Bool :=
  let base := a.sheet * 4096
  let cls := if id < a.vocab then (memRead s.t0 (base + 64 + id)).toNat else 0
  let n := ofLe (s.t0Read (base + a.nextAt + 2 * (state * a.classes + cls)) 2)
  (decide (id < a.vocab) && s.rangeBad (base + 64 + id) 1) || s.rangeBad (base + a.nextAt + 2 * (state * a.classes + cls)) 2 ||
    s.rangeBad (base + a.acceptAt + n / 8) 1
/-- Runs entry `k` of a stream record on a token. -/
def State.scanEntry (s : State) (t : Token) (k : Nat) : State :=
  let r := s.stream t.seq
  let ai := r.autos.get k 0
  let q := s.seq t.seq
  let here := t.pos / max q.tpp 1
  if ai = 0 then s
  else
    let a := s.auto (ai - 1)
    let st := r.states.get k 0
    if a.poison then s.fenceClosed t.seq here 2
    else if s.autoBad a st t.id then
      ((s.updAuto (ai - 1) fun a => { a with poison := true }).badGranule 3 (a.sheet * 4096) none none 0 0).fenceClosed t.seq here 2
    else
      let (n, acc) := s.autoStep a st t.id
      let s := s.updStream t.seq fun r => { r with states := r.states.set k n 0 }
      if acc then
        let s := s.fence t.seq ((t.pos + 1 - a.maxlen) / max q.tpp 1)
        (s.updStream t.seq fun r => { r with matchCount := min (r.matchCount + 1) 0xFFFF }).countFn (s.fnOf q.owner) 3 1
      else s
/-- The sheet of a sequence's stream record cannot be read (07 R229). -/
def State.streamBad (s : State) (q : Nat) : Bool :=
  let k := s.awl.streamSheets.get (q / 128) 0
  k != 0 && s.rangeBad ((k - 1) * 4096 + 32 * (q % 128)) 32
/-- Scans one token (07 R226, R229). A stream record that cannot be read is reported when it is found, once. -/
def State.scanToken (s : State) (t : Token) : State :=
  if !(s.stream t.seq).used then s
  else
    let q := s.seq t.seq
    let s := if s.streamBad t.seq then
        let k := s.awl.streamSheets.get (t.seq / 128) 0 - 1
        let s := if (s.stream t.seq).reported.contains 3 then s else s.badGranule 3 (k * 4096 + 32 * (t.seq % 128)) (some (s.fnOf q.owner)) (some q.owner) 0 0
        s.fenceClosed t.seq (t.pos / max q.tpp 1) 3
      else (List.range 4).foldl (fun s k => s.scanEntry t k) s
    s.updStream t.seq fun r => { r with nextPos := r.nextPos + 1 }
/-- AWL_TOKEN_SCAN: the oldest token of an engine's queue; its credit returns (01 R17). -/
def execAwlTokenScan (engine : Nat) (s : State) : Host.Outcome State Fault Refusal :=
  act s fun s =>
    match s.awl.queues.get engine [] with
    | [] => s
    | t :: r =>
      if s.dev.awlDown.get engine false then s
      else
        let s := { s with awl := { s.awl with queues := s.awl.queues.set engine r [] } }
        (s.scanToken t).freeCredits (317 + engine) 1

end Sys2Proof.Machine
end

