-- ==== Sys2Proof/Machine/Spine.lean ====
section
/-! DEFINITION. The Spine's searches, walks, placement, shifts and withdrawals, and its directory slice (06 R183 to R207, R211, R212; 10 R330 to R332). -/
namespace Sys2Proof.Machine
open Sys2Proof

/-! ## Units and keys (06 R183 to R186) -/

def uKey (u : BitVec 144) : BitVec 128 := BitVec.ofNat 128 u.toNat
def uPrio (u : BitVec 144) : Nat := fld u.toNat 128 12
def uValid (u : BitVec 144) : Bool := u.getLsbD 140
def uCont (u : BitVec 144) : Bool := u.getLsbD 141
/-- A unit from its fields. -/
def mkUnit (key prio : Nat) (cont dir : Bool) : BitVec 144 :=
  BitVec.ofNat 144 (key + prio * 2 ^ 128 + 2 ^ 140 + b2n cont * 2 ^ 141 + b2n dir * 2 ^ 142)
/-- The key of a prefix entry or search; scope 0 mixes in the context (06 R184). -/
def prefixKey (scope model ctx : Nat) (hash : BitVec 96) : Nat :=
  scope * 2 ^ 112 + model * 2 ^ 96 + (if scope = 0 then Nat.xor hash.toNat (ctx % 1024 * 2 ^ 86) else hash.toNat)
/-- Partition and row group of a key (06 R185). -/
def keyPart (k : Nat) : Nat := k % 8
def keyGroup (k : Nat) : Nat := fld k 3 6
/-- Bank and row in the bank of a position. -/
def posBank (p : Nat) : Nat := p / 8192
/-- Units of a bank's width. -/
def Bank.units (b : Bank) : Nat := 2 ^ b.width
/-- First place that names an overflow entry. -/
abbrev ovfBase : Nat := 2 ^ 20

/-! ## Searches (06 R188 to R190) -/

/-- The units of the slot at a position, `w` of them. -/
def State.slotUnits (s : State) (p w : Nat) : List (BitVec 144) := (List.range w).map fun i => (s.row (p + i)).unit
/-- Its key. -/
def slotKey (us : List (BitVec 144)) : Nat := us.foldr (fun u a => (uKey u).toNat + 2 ^ 128 * a) 0
/-- Every unit is valid, the first is no continuation, the others are. -/
def wholeEntry : List (BitVec 144) → Bool
  | [] => false
  | u :: r => uValid u && !uCont u && r.all fun v => uValid v && uCont v
/-- The slot at a position matches (06 R188, R189); a probe search may take suspect rows. -/
def State.slotMatches (s : State) (w role key mask : Nat) (suspects : Bool) (p : Nat) : Bool :=
  let b := s.bank (posBank p)
  let us := s.slotUnits p w
  b.units == w && b.role == role && !b.down && p % w == 0 && wholeEntry us && ((s.row p).suspect == false || suspects) &&
    Nat.land (Nat.xor (slotKey us) key) mask == 0 &&
    Nat.land (Nat.xor (posBank p / 16) key) (Nat.land mask 7) == 0 &&
    Nat.land (Nat.xor (p % 8192 / 128) (key / 8)) (Nat.land (mask / 8) 63) == 0
/-- Positions of matching slots, rising. -/
def State.matching (s : State) (w role key mask : Nat) (suspects : Bool) : List Nat :=
  s.spine.rows.keys.filter (s.slotMatches w role key mask suspects)
/-- The winner: highest PRIORITY, then lowest position (06 R190). -/
def State.winner (s : State) (l : List Nat) : Option Nat :=
  l.foldl (fun a p => match a with | none => some p | some q => if uPrio (s.row q).unit < uPrio (s.row p).unit then some p else a) none
/-- All ones over `n` bits. -/
def ones (n : Nat) : Nat := 2 ^ n - 1
/-- A search of role prefix, all bits compared. -/
def State.search (s : State) (key : Nat) : Option Nat := s.winner (s.matching 1 0 key (ones 128) false)
/-- A directory search: unit 0 compared whole, unit 1 not at all (10 R330). -/
def State.dirSearch (s : State) (key : Nat) : Option Nat := s.winner (s.matching 2 1 key (ones 128) false)

/-! ## The overflow table (06 R199 to R201) -/

/-- Sheets of the tier areas at the end of SYS (05 R155). -/
def State.tierArea (s : State) : Nat := if s.small then 1155072 else 3276800
/-- The active k: the smaller of K and the largest whose table fits in SYS (06 R215). -/
def State.activeK (s : State) : Nat :=
  let room := s.regSize 5 - s.tierArea - 32768
  ((List.range 25).filter fun k => decide (k ≤ s.spine.k ∧ 10 ≤ k ∧ 2 ^ k / 16 ≤ room)).foldl max 10
/-- Overflow entry at a place. -/
def State.ovfEntry (s : State) (i : Nat) : RowSlot := s.spine.ovf.get i {}
/-- Changes an overflow entry. -/
def State.updOvf (s : State) (i : Nat) (f : RowSlot → RowSlot) : State :=
  { s with spine := { s.spine with ovf := s.spine.ovf.upd i {} f } }
/-- OVFCNT of a partition and row group (06 R216). -/
def State.ovfCount (s : State) (part group : Nat) : Nat :=
  (s.spine.ovf.filter fun e => uValid e.2.unit && keyPart (uKey e.2.unit).toNat == part && keyGroup (uKey e.2.unit).toNat == group).length
/-- OVFCNT of a key. -/
def State.ovfOf (s : State) (key : Nat) : Nat := s.ovfCount (keyPart key) (keyGroup key)
/-- T0 address of the overflow table. -/
def State.ovfAddr (s : State) : Nat := (s.regBase 5 + 32768) * 4096
/-- The buckets a walk reads, from the home bucket on: up to `n` of them, stopping after one whose CONTINUE is 0; a bucket that cannot be read
ends nothing and contributes nothing. -/
def State.walkBuckets (s : State) : Nat → Nat → List Nat
  | 0, _ => []
  | n + 1, b =>
    let k := 2 ^ s.activeK
    b % k :: if (s.ovfEntry (4 * (b % k))).cont || s.rangeBad (s.ovfAddr + 256 * (b % k)) 256 then s.walkBuckets n (b + 1) else []
/-- The home bucket of a key. -/
def State.homeBucket (s : State) (key : Nat) : Nat := fld key 9 s.activeK
/-- The best match of a walk: highest PRIORITY, then lowest SERIAL (06 R200). -/
def State.walkBest (s : State) (key : Nat) : Option Nat :=
  let es := (s.walkBuckets 4 (s.homeBucket key)).flatMap fun b => if s.rangeBad (s.ovfAddr + 256 * b) 256 then [] else (List.range 4).map (4 * b + ·)
  let ms := es.filter fun e => let u := (s.ovfEntry e).unit; uValid u && (uKey u).toNat == key
  ms.foldl (fun a e =>
    match a with
    | none => some e
    | some d =>
      let x := s.ovfEntry e
      let y := s.ovfEntry d
      if uPrio y.unit < uPrio x.unit ∨ (uPrio y.unit = uPrio x.unit ∧ x.serial < y.serial) then some e else a) none
/-- Records the buckets of a walk that cannot be read (06 R200). -/
def State.walkErrors (s : State) (key : Nat) (fn ctx : Option Nat) : State :=
  ((s.walkBuckets 4 (s.homeBucket key)).filter fun b => s.rangeBad (s.ovfAddr + 256 * b) 256).foldl
    (fun s b => s.badGranule 2 (s.ovfAddr + 256 * b) fn ctx 0 0) s
/-- Where an insertion into the overflow table goes, and the full buckets it passes (06 R201). -/
def State.ovfRoom (s : State) : Nat → Nat → List Nat → Option Nat × List Nat
  | 0, _, l => (none, l)
  | n + 1, b, l =>
    let b := b % 2 ^ s.activeK
    match (List.range 4).find? fun i => !uValid (s.ovfEntry (4 * b + i)).unit with
    | some i => (some (4 * b + i), l)
    | none => s.ovfRoom n (b + 1) (if n = 0 then l else b :: l)
/-- Inserts into the overflow table; none when its four buckets are full. CONTINUE is set in each full bucket passed. -/
def State.ovfInsert (s : State) (key : Nat) (e : RowSlot) : Option Nat × State :=
  let (r, passed) := s.ovfRoom 4 (s.homeBucket key) []
  let s := passed.foldl (fun s b => s.updOvf (4 * b) fun e => { e with cont := true }) s
  match r with
  | some i => (some (ovfBase + i), s.updOvf i fun old => { e with cont := old.cont })
  | none => (none, s)

/-! ## Placement (06 R187, R203, R204) -/

/-- The slot at a position is free: no unit valid, none suspect (06 R203, R211). -/
def State.slotFree (s : State) (w p : Nat) : Bool := (List.range w).all fun i => !uValid (s.row (p + i)).unit && !(s.row (p + i)).suspect
/-- Entries of the segment of a position: slots with a valid unit, in a row or, where the row is suspect, in its shadow copy. -/
def State.segUsed (s : State) (w p : Nat) : Nat :=
  ((List.range (16 / w)).filter fun i => (List.range w).any fun j =>
    let r := s.row (p / 16 * 16 + i * w + j)
    uValid r.unit || (r.suspect && uValid r.slot.unit)).length
/-- The segment can take one more entry (06 R187). -/
def State.segRoom (s : State) (w p : Nat) : Bool := decide (s.segUsed w p < 16 / w - 1)
/-- Slots of a key's row group in the banks of a width and role, in physical order. -/
def State.groupSlots (s : State) (w role key : Nat) : List Nat :=
  ((List.range 16).map fun i => 16 * keyPart key + i).flatMap fun b =>
    let x := s.bank b
    if x.units = w ∧ x.role = role ∧ x.down = false then (List.range (128 / w)).map fun i => 8192 * b + 128 * keyGroup key + i * w else []
/-- Places whose segment, or overflow entry, a LOOKUP holds: those the present probe has hit, in the CAM or by a walk, or the winner of the
last hit (06 R197). -/
def Looking.held (l : Looking) : List Nat := if l.hits.isEmpty then l.win.toList.map (·.1) else l.hits
/-- A LOOKUP holds the segment of a position, or an overflow entry (06 R197). -/
def State.segHeld (s : State) (p : Nat) : Bool :=
  s.flights.any fun f => f.2.phase != .ended &&
    match f.2.job with
    | .lookup l => l.held.any fun q => if p < ovfBase then decide (q < ovfBase) && q / 16 == p / 16 else q == p
    | _ => false
/-- Changes a place wherever position lists hold it (06 R204). -/
def Region.moved (r : Region) (a b : Nat) : Region :=
  let m (t : Tbl Nat) : Tbl Nat := t.map fun e => if e.2 = a then (e.1, b) else e
  { r with places := m r.places, newPlaces := m r.newPlaces, oldPlaces := m r.oldPlaces }
/-- Moves the entry of a slot one slot earlier, rows and row slots (06 R204). -/
def State.shiftOne (s : State) (w p : Nat) : State :=
  let rs := (List.range w).map fun i => s.row (p + i)
  let s := (List.range w).foldl (fun s i => s.updRow (p - w + i) fun _ => rs.getD i {}) s
  let s := (List.range w).foldl (fun s i => s.updRow (p + i) fun _ => {}) s
  let r := (s.row (p - w)).slot
  if w = 1 then s.updRegion r.rindex fun g => g.moved p (p - 1) else s
/-- Writes an entry's units, and its row slot at unit 0. -/
def State.writeEntryAt (s : State) (p : Nat) (us : List (BitVec 144)) (e : RowSlot) : State :=
  (List.range us.length).foldl (fun s i =>
    let u := us.getD i 0
    s.updRow (p + i) fun r => { r with unit := u, slot := if i = 0 then { e with unit := u } else { unit := u } }) s
/-- What a placement finds: a slot; a slot after shifting the segment from a free slot; the overflow table; or a held segment to wait for. -/
inductive Placement where
  | slot (p : Nat)
  | shift (free p : Nat)
  | overflow
  | wait
deriving DecidableEq, Repr
/-- Rules 2 to 6 of 06 R203. -/
def State.place203 (s : State) (w role key mask : Nat) : Placement :=
  let slots := s.groupSlots w role key
  let usable := slots.filter fun p => s.slotFree w p && s.segRoom w p
  match (s.matching w role key mask false).getLast? with
  | none => (match usable.head? with | some p => .slot p | none => .overflow)
  | some l =>
    match usable.find? fun p => decide (l < p) with
    | some p => .slot p
    | none =>
      let before := (span (l / 16 * 16 / w) (l / w)).map (· * w)
      match (before.filter (s.slotFree w)).getLast? with
      | none => .overflow
      | some f =>
        let between := (span (f / w + 1) (l / w + 1)).map (· * w)
        if !s.segRoom w l || between.any (fun p => (List.range w).any fun i => (s.row (p + i)).suspect) then .overflow
        else if s.segHeld l then .wait else .shift f l
/-- Shifts the entries after a free slot up to a slot one slot earlier, the first of them first. -/
def State.shiftRange (s : State) (w free l : Nat) : State := ((span (free / w + 1) (l / w + 1)).map (· * w)).foldl (fun s p => s.shiftOne w p) s

/-- A prefix entry is inserted, with a walk credit for the time of a walk (06 R200): its place, or none where the overflow table is full; and whether its placement search missed with no overflow
entry of the key (10 R331). None at all: it waits for a held segment or a walk credit. -/
def State.insertPrefix (s : State) (key prio : Nat) (e : RowSlot) : Option (Option Nat × Bool × State) :=
  let u := mkUnit key prio false false
  let e := { e with unit := u, serial := s.spine.serial }
  let walks := s.ovfOf key != 0
  let known := walks && (s.walkBest key).isSome
  let fresh := (s.matching 1 0 key (ones 128) false).isEmpty && !known
  let done (r : Option Nat × State) : Option (Option Nat × Bool × State) :=
    some (r.1, fresh, { r.2 with spine := { r.2.spine with serial := if r.1.isSome then (r.2.spine.serial + 1) % 2 ^ 48 else r.2.spine.serial } })
  if walks && s.avail 8 == 0 then none
  else
    let s := if walks then ((s.takeCredits 8 1).walkErrors key none none).freeCredits 8 1 else s
    if known then done (s.ovfInsert key e)
    else
      match s.place203 1 0 key (ones 128) with
      | .slot p => done (some p, s.writeEntryAt p [u] e)
      | .shift f l => done (some l, (s.shiftRange 1 f l).writeEntryAt l [u] e)
      | .overflow => done (s.ovfInsert key e)
      | .wait => none
/-- A withdrawal at a place: the slot and with it the whole unit zeroed, the match latch set (06 R207; log 26). -/
def State.clearPlace (s : State) (w p : Nat) : State :=
  if p < ovfBase then
    (List.range w).foldl (fun s i => s.updRow (p + i) fun _ => {}) s
  else s.updOvf (p - ovfBase) fun e => { cont := e.cont }

/-! ## Suspect rows (06 R211) -/

/-- A row becomes suspect. -/
def State.makeSuspect (s : State) (p : Nat) : State :=
  if (s.row p).suspect then s
  else
    ((s.updRow p fun r => { r with suspect := true }).countDev 11 1).report { cls := 2, source := 2, code := 0x10, object := p }
/-- T0 address of a row slot (06 R192). -/
def State.slotAddr (s : State) (p : Nat) : Nat := s.regBase 5 * 4096 + 64 * p

/-! ## The directory slice (06 R212; 10 R330 to R332) -/

/-- WORKERS of the entry at a position. -/
def State.workersAt (s : State) (p : Nat) : Nat := (uKey (s.row (p + 1)).unit).toNat % 2 ^ 64
/-- Rewrites WORKERS of an entry. -/
def State.setWorkers (s : State) (p v : Nat) : State :=
  let u := mkUnit v 0 true true
  s.updRow (p + 1) fun r => { r with unit := u, slot := { unit := u } }
/-- The directory adds a key of a worker; with no room it drops and counts it (10 R332). -/
def State.dirAdd (s : State) (w : Nat) (key : BitVec 128) : State :=
  let k := key.toNat
  match s.dirSearch k with
  | some p => s.setWorkers p (Nat.lor (s.workersAt p) (2 ^ w))
  | none =>
    let us := [mkUnit k 0x100 false true, mkUnit (2 ^ w) 0 true true]
    let put (s : State) (p : Nat) : State :=
      let s := s.writeEntryAt p us { serial := s.spine.serial }
      { s with spine := { s.spine with serial := (s.spine.serial + 1) % 2 ^ 48 } }
    match s.place203 2 1 k (ones 128) with
    | .slot p => put s p
    | .shift f l => put (s.shiftRange 2 f l) l
    | _ => s.countDev 7 1
/-- The directory deletes a key of a worker. -/
def State.dirDel (s : State) (w : Nat) (key : BitVec 128) : State :=
  match s.dirSearch key.toNat with
  | none => s
  | some p =>
    let v := s.workersAt p
    let v := if bit v w then v - 2 ^ w else v
    if v = 0 then s.clearPlace 2 p else s.setWorkers p v
/-- The directory applies a key of a worker: added, or deleted. -/
def State.dirOp (s : State) (o : Bool × Nat × BitVec 128) : State := if o.1 then s.dirAdd o.2.1 o.2.2 else s.dirDel o.2.1 o.2.2
/-- The keys that wait are applied in their order, each under a credit of the update queue, which it returns when it is done (06 R205, R212). -/
def State.dirDrain (s : State) : State :=
  if s.avail 9 = 0 then s
  else s.spine.dirWait.foldl (fun s o => ((s.takeCredits 9 1).dirOp o).freeCredits 9 1) { s with spine := { s.spine with dirWait := [] } }
/-- A key for the directory slice takes its turn. -/
def State.dirPut (s : State) (add : Bool) (w : Nat) (key : BitVec 128) : State :=
  { s with spine := { s.spine with dirWait := s.spine.dirWait ++ [(add, w, key)] } }.dirDrain
/-- A worker queues a key, or a directory that is its own worker applies it (10 R329, R331); keys of scope 0 never. -/
def State.dirReport (s : State) (add : Bool) (key : Nat) : State :=
  if key / 2 ^ 112 = 0 then s
  else if s.net.role && s.net.selfPeer then
    s.dirPut add s.net.workerId (BitVec.ofNat 128 key)
  else if s.net.worker then
    let n := s.net
    let since := if n.dirAdds.isEmpty && n.dirDels.isEmpty then s.now else n.dirSince
    let k := BitVec.ofNat 128 key
    { s with net := if add then { n with dirAdds := n.dirAdds ++ [k], dirSince := since } else { n with dirDels := n.dirDels ++ [k], dirSince := since } }
  else s

end Sys2Proof.Machine
end

