-- ==== Sys2Proof/Machine/Index.lean ====
section
/-! DEFINITION. LOOKUP with its walks and its record read, PUBLISH and RETRACT (03 R82, R83, R88 to R90; 06 R193 to R207; 10 R328, R331, R333). -/
namespace Sys2Proof.Machine
open Sys2Proof

/-! ## Directory consultations (10 R333) -/

/-- One descent over the directory's entries: matched blocks, and place and scope of the winner (06 R195, 10 R333). -/
def State.dirDescent (s : State) (model : Nat) (scopes : List Nat) (hs : List (BitVec 96)) : Nat → Nat → Option (Nat × Nat) → Nat × Option (Nat × Nat)
  | 0, m, w => (m, w)
  | i + 1, m, w =>
    let t := min (m + 2 ^ i) hs.length
    match (scopes.filter (· != 0)).findSome? fun sc => (s.dirSearch (prefixKey sc model 0 (hs.getD (t - 1) 0))).map fun p => (p, sc) with
    | some r => s.dirDescent model scopes hs i t (some r)
    | none => s.dirDescent model scopes hs i m w
/-- Probes of a descent over `n` blocks: ceil(log2(n + 1)) (06 R195). -/
def probes (n : Nat) : Nat := if n = 0 then 0 else Nat.log2 n + 1
/-- The status of a descent that matched `m` of `n` blocks (06 R195). -/
def matchStatus (m n : Nat) : BitVec 16 := if m = 0 then stMiss else if m = n then stOk else stPartial
/-- The scopes a granule's operand B names (03 R81). -/
def scopesOf (b : Nat) : List Nat := fld b 16 16 :: if bit b 48 ∧ fld b 32 16 ≠ fld b 16 16 then [fld b 32 16] else []
/-- The 32 bytes of a directory record (10 R333). -/
def dirRecord (workers blocks scope model : Nat) (valid trunc : Bool) (st : BitVec 16) : Bytes :=
  leBytes 32 (workers % 2 ^ 64 + blocks % 2 ^ 24 * 2 ^ 64 + scope * 2 ^ 88 + model * 2 ^ 104 + b2n valid * 2 ^ 120 + b2n trunc * 2 ^ 121 + st.toNat * 2 ^ 128)
/-- Most hashes a consultation carries. -/
abbrev dirMost : Nat := 2725
/-- Writes a LOOKUP's output records at OUT, or keeps them as its response's data (03 R82, 10 R318). -/
def State.lookOut (s : State) (f off : Nat) (b : Bytes) : State :=
  let x := s.flight f
  if x.mirror.isSome then s.updFlight f fun x => { x with tenant := x.tenant.take off ++ b }
  else s.t0Write ((s.ctx x.ctx).outAddr + fld x.c.toNat 0 32 + off) b
/-- Ends a consultation: the directory record at OUT + 32, then the LOOKUP's own status and RESULT (10 R333). -/
def State.dirAnswer (s : State) (f : Nat) (rec' : Bytes) (st : BitVec 16) (res : BitVec 64) : State :=
  (s.lookOut f 32 rec').finish f st res none
/-- The scope a directory's answer stands for: the response does not carry it (log 25). -/
def State.answerScope (s : State) (b m : Nat) : Nat × State :=
  match (scopesOf b).filter (· != 0), m with
  | [sc], _ + 1 => (sc, s)
  | [s1, s2], _ + 1 => let (v, s) := s.draw; (if v % 2 = 0 then s1 else s2, s)
  | _, _ => let (v, s) := s.draw; (v % 65536, s)
/-- After the local result: consults the directory where DIR asks for it, or ends (06 R198, 10 R333). `n` counts the list. -/
def State.lookEnd (s : State) (f : Nat) (hs : List (BitVec 96)) (st : BitVec 16) (res : BitVec 64) (record : Bytes) : State :=
  let x := s.flight f
  let b := x.b.toNat
  let s := if record.isEmpty then (if x.mirror.isSome then s.lookOut f 0 (zeros 32) else s) else s.lookOut f 0 record
  if !bit b 49 || (st != stMiss && st != stPartial) then s.finish f st res none
  else if s.net.role && s.net.selfPeer then
    let (m, w) := s.dirDescent (fld b 0 16) (scopesOf b) hs (probes hs.length) 0 none
    match w with
    | some (p, sc) => s.dirAnswer f (dirRecord (s.workersAt p) m sc (fld b 0 16) true false (matchStatus m hs.length)) st res
    | none =>
      let (v, s) := s.draw
      s.dirAnswer f (dirRecord v 0 (v / 2 ^ 32 % 65536) (fld b 0 16) true false stMiss) st res
  else if !s.net.worker then s.finish f st res none
  else
    let q := s.net.dirQp
    let part := hs.take dirMost
    let gran := leBytes 8 0xFFFFFFFF00000010 ++ leBytes 8 (part.length * 2 ^ 32) ++ leBytes 8 (b % 2 ^ 49) ++ zeros 8
    let body := gran ++ part.flatMap fun h => leBytes 12 h.toNat
    let n := (s.qp q).reqNext
    let s := s.setJob f (.dirWait st res record s.now n)
    let s := s.stall f (some .linkLate)
    if (s.qp q).state == .rts then
      (s.updQp q fun y => { y with reqNext := (n + 1) % 2 ^ 32 }).sendMessage q false 0 0 0
        (vangedHeader 1 false true true n 0 0 0 body.length ++ body) 0 false false
    else s

/-! ## LOOKUP (06 R193 to R198) -/

/-- Ends a LOOKUP's descent with MISS. -/
def State.lookMiss (s : State) (f : Nat) (l : Looking) : State := s.lookEnd f l.hashes stMiss 0 []
/-- The search key of a block in a scope (06 R184, R194). -/
def lookKey (x : Flight) (l : Looking) (block scope : Nat) : Nat := prefixKey scope (fld x.b.toNat 0 16) x.ctx (l.hashes.getD block 0)
/-- One search of a probe: a hit's place, a miss, or a walk to wait for (06 R194, R200). -/
def State.probeOne (s : State) (x : Flight) (l : Looking) (block scope : Nat) : Option (Option Nat) :=
  let key := lookKey x l block scope
  match s.search key with
  | some p => some (some p)
  | none =>
    if s.ovfOf key = 0 then some none
    else (l.walked.find? fun w => w.1 == block && w.2.1 == scope).map fun w => w.2.2
/-- A LOOKUP that must walk takes a walk credit, or waits for one; it stalls with cause SPINE_OVF once it holds it (01 R16, R23; 06 R200). -/
def State.walkWait (s : State) (f : Nat) : State := match s.grab f 8 with | (s, held) => s.stall f (if held then some .spineOvf else none)
/-- The descent until it ends or must walk (06 R195). -/
def State.descend (s : State) (f : Nat) : Nat → Looking → State
  | 0, l => if l.win.isNone then s.lookMiss f l else (s.setJob f (.lookup l)).stall f none
  | i + 1, l =>
    let x := s.flight f
    let t := min (l.m + 2 ^ i) l.hashes.length
    let l := { l with walked := l.walked.filter (fun w => w.1 == t - 1), hits := [] }
    let rs := (scopesOf x.b.toNat).map fun sc => (sc, s.probeOne x l (t - 1) sc)
    match rs.find? fun r => r.2.isNone with
    | some (sc, _) => (s.setJob f (.lookup { l with walk := some (t - 1, sc), hits := rs.filterMap fun r => r.2.join })).walkWait f
    | none =>
      match rs.findSome? fun r => match r.2 with | some (some p) => some (p, r.1) | _ => none with
      | some w => s.descend f i { l with m := t, i := i, win := some w }
      | none => s.descend f i { l with i := i }
/-- Starts a descent from its first probe. -/
def State.startDescent (s : State) (f : Nat) (l : Looking) : State :=
  let n := probes l.hashes.length
  s.descend f n { l with m := 0, i := n, win := none, walked := [], walk := none, hits := [] }
/-- The search queue a LOOKUP takes its credit from: most free credits among those under its cap, lowest index first (06 R193). -/
def State.searchQueue (s : State) (f : Nat) : Option Nat :=
  let c := (s.flight f).ctx
  ((List.range 8).filter fun i => s.creditFree c i && !s.creditWaited f i).foldl
    (fun a i => match a with | none => some i | some j => if s.avail j < s.avail i then some i else a) none
/-- Bytes of the hash store of a sequencer in use, and the LOOKUPs it runs (06 R193). -/
def State.hashStore (s : State) (part : Nat) : Nat × Nat :=
  s.flights.foldl (fun a p => match p.2.job with
    | .lookup l => if p.2.holds.contains part ∧ p.2.phase ≠ .ended then (a.1 + 12 * l.hashes.length, a.2 + 1) else a
    | _ => a) (0, 0)
/-- Reads the list and starts the descent, once the sequencer has room for it. -/
def State.lookStart (s : State) (f part : Nat) : State :=
  let x := s.flight f
  let n := bCount x.a
  let (used, runs) := s.hashStore part
  if 12582912 < used + 12 * n ∨ 32 ≤ runs then s
  else
    let inline := x.mirror.isSome && !x.tenant.isEmpty
    let addr := (s.ctx x.ctx).inAddr + bOffset x.a
    let go (s : State) : State :=
      if !inline && s.rangeBad addr (12 * n) then (s.badGranule 8 addr (some (s.fnOf x.ctx)) (some x.ctx) stPoisoned (wTag x.word)).fail f stPoisoned
      else
        let b := if inline then x.tenant else s.t0Read addr (12 * n)
        let s := s.updFlight f fun x => { x with tenant := [] }
        s.startDescent f { hashes := (chunks 12 n b).map fun c => BitVec.ofNat 96 (ofLe c) }
    if inline then go s else s.awaitGate f (bAwait x.a) (bOffset x.a) (12 * n) go
/-- LOOKUP. -/
def execLookup (f : Nat) (s : State) : Host.Outcome State Fault Refusal :=
  onFlight 0x10 f s fun x s =>
    match x.job with
    | .lookup l => if l.walk.isSome || l.i == 0 then s else s.descend f l.i l
    | .dirWait .. => s
    | _ =>
      s.asWalker f fun s =>
        match (s.flight f).holds.find? (· < 8) with
        | some part => s.lookStart f part
        | none =>
          match s.searchQueue f with
          | some part => ((s.takeCredits part 1).updFlight f fun x => { x with holds := part :: x.holds, wantCredit := none }).lookStart f part
          | none => s.updFlight f fun x => { x with wantCredit := x.wantCredit <|> some 0 }
/-- OVERFLOW_WALK: the walk a LOOKUP waits for, under the walk credit it holds; without one it goes on waiting for the credit (06 R200). -/
def execOverflowWalk (f : Nat) (s : State) : Host.Outcome State Fault Refusal :=
  act s fun s =>
    let x := s.flight f
    match x.job with
    | .lookup l =>
      match l.walk with
      | none => s
      | some (b, sc) =>
        if !x.holds.contains 8 then s.walkWait f
        else
          let key := lookKey x l b sc
          let s := s.walkErrors key (some (s.fnOf x.ctx)) (some x.ctx)
          let r := (s.walkBest key).map (ovfBase + ·)
          ((s.ungrab f 8).setJob f (.lookup { l with walk := none, walked := (b, sc, r) :: l.walked, hits := r.toList ++ l.hits })).stall f none
    | _ => s
/-- The 32 bytes of a lookup record (03 R82). -/
def lookRecord (e : RowSlot) (m scope model : Nat) : Bytes :=
  leBytes 32 (e.handle.toNat + m * 2 ^ 64 + scope * 2 ^ 88 + model * 2 ^ 104 + e.region * 2 ^ 128 + e.version * 2 ^ 160)
/-- The read of the winner (06 R197). -/
def State.recordRead (s : State) (f : Nat) (x : Flight) (l : Looking) (p scope : Nat) : State :=
  let cam := p < ovfBase
  let addr := if cam then s.slotAddr p else s.ovfAddr + 64 * (p - ovfBase)
  let e := if cam then (s.row p).slot else s.ovfEntry (p - ovfBase)
  if s.rangeBad addr 64 then (s.badGranule 2 addr (some (s.fnOf x.ctx)) (some x.ctx) stPoisoned (wTag x.word)).fail f stPoisoned
  else if cam ∧ e.unit ≠ (s.row p).unit then
    let s := s.makeSuspect p
    if 3 ≤ l.descents then s.lookMiss f l else s.startDescent f { l with descents := l.descents + 1 }
  else if scope = 0 ∧ e.owner ≠ x.ctx then s.lookMiss f l
  else
    s.lookEnd f l.hashes (matchStatus l.m l.hashes.length) (BitVec.ofNat 64 (l.m + e.handle.toNat % 2 ^ 40 * 2 ^ 24)) (lookRecord e l.m scope (fld x.b.toNat 0 16))
/-- LOOKUP_RECORD_READ. -/
def execLookupRecordRead (f : Nat) (s : State) : Host.Outcome State Fault Refusal :=
  act s fun s =>
    let x := s.flight f
    match x.job with
    | .lookup l =>
      match l.win with
      | some (p, sc) => if l.i = 0 ∧ l.walk.isNone then s.recordRead f x l p sc else s
      | none => s
    | _ => s

/-! ## PUBLISH (03 R88, R89; 06 R206) -/

/-- Flight + 1 of an operation. -/
def UpdOp.flight : UpdOp → Nat
  | .insert f _ _ => f | .carry f _ _ => f | .withdraw f _ _ _ => f
/-- Sends queued operations to the update queue while credits last; the rest are returned (06 R205). -/
def State.queueOps (s : State) (f : Nat) : List UpdOp → Nat × State
  | [] => (0, s)
  | o :: r =>
    let x := s.flight f
    let spare := decide ((s.spine.updq.filter fun o => o.flight == f + 1).length < x.holds.count 9)
    if spare || (s.creditFree x.ctx 9 && !s.creditWaited f 9) then
      let s := if spare then s else (s.takeCredits 9 1).updFlight f fun x => { x with holds := 9 :: x.holds }
      let s := s.updFlight f fun x => { x with wantCredit := none }
      let (n, s) := ({ s with spine := { s.spine with updq := s.spine.updq ++ [o] } }).queueOps f r
      (n + 1, s)
    else (0, s.updFlight f fun x => { x with wantCredit := some 9 })
/-- Operations of a flight still in the update queue. -/
def State.opsLeft (s : State) (f : Nat) : Bool := s.spine.updq.any fun o => o.flight == f + 1
/-- The operation of a PUBLISH. -/
def pubOp (f ri stage : Nat) (t : Nat × Nat) : UpdOp :=
  if t.1 = 0 then .carry (f + 1) ri t.2 else if t.1 = 1 then .insert (f + 1) ri t.2 else .withdraw (f + 1) ri t.2 (if stage = 2 then 1 else 2)
/-- Some page of the range is open and not full (03 R88). -/
def State.rangeOpen (s : State) (q : Seq) (n : Nat) : Bool :=
  (q.rangePages 0 n 0 q.layers).any fun p => let g := s.page p; g.state == .openP && decide (g.length < q.payload)
/-- A block's hash will never be formed (04 R130). -/
def State.neverHashed (s : State) (p : Nat) : Bool :=
  (s.page p).formed && !(s.sum (s.page p).summary).hashed && !s.press.hashWait.contains p
/-- The records a region's hash selects (06 R206; log 13). -/
def regionPlaces (scope rid owner : Nat) : List Nat :=
  let h := Config.regionHash scope rid (if scope = 0 then owner else 0) % 65536
  (List.range 16).map fun i => 16 * h + i
/-- Leading equal chain hashes (06 R206). -/
def commonPrefix : List (BitVec 96) → List (BitVec 96) → Nat
  | a :: r, b :: t => if a = b then 1 + commonPrefix r t else 0
  | _, _ => 0
/-- A PUBLISH_CONFLICT is reported to both contexts (10 R328). -/
def State.conflict (s : State) (c : Nat) (r : Region) (digest : BitVec 96) (tag : BitVec 16) : State :=
  let old := r.hashes.getLastD 0
  let s := s.report { cls := 1, source := 9, code := 0x11, fn := some (s.fnOf c), ctx := some c, status := stConflict, tag := tag
                      object := r.rid + r.version * 2 ^ 32, detail := r.scope + r.owner * 2 ^ 16, ext := digest.toNat + old.toNat * 2 ^ 96 }
  let a := s.fnOf c
  let b := s.fnOf r.owner
  let s := s.countFn a 4 1
  let s := if a = b then s else s.countFn b 4 1
  s.irq b (s.ctx r.owner).vector (s.ctx r.owner).share false
/-- Gives every page an auxiliary record, as a later second reference will need (04 R146). -/
def State.needAuxAll (s : State) : List Nat → Option State
  | [] => some s
  | p :: r => match s.needAux p with | some s => s.needAuxAll r | none => none
/-- Takes the decision of 03 R88 on a version, and starts its operations. -/
def State.publishStart (s : State) (f : Nat) (x : Flight) (q : Seq) (n : Nat) : State :=
  let rid := fld x.b.toNat 0 32
  let ver := fld x.b.toNat 32 32
  let scope := fld x.c.toNat 0 16
  let es := q.entries.take n
  let hs := es.map fun e => (s.sum (s.page e.base).summary).chain
  let old := s.findRegion scope rid x.ctx
  let bases := es.map (·.base)
  let begin_ (s : State) (ri : Nat) (r : Region) : State :=
    if !s.refRoom bases q.layers then s.fail f stRange
    else
      match s.needAuxAll (blockPages bases q.layers) with
      | none => s.allocWait f .table
      | some s =>
        let j := if r.committed then commonPrefix r.hashes hs else 0
        let s := s.updRegion ri fun _ =>
          { r with used := true, scope := scope, rid := rid, owner := if r.committed then r.owner else x.ctx, publishing := true, newVersion := ver, newEntries := es
                   newHashes := hs, newOwner := x.ctx, newHead := { q with entries := [], tree := [] }, newPlaces := [], saved := [], fresh := [] }
        s.setJob f (.publish ri 0 ((List.range n).map fun b => (if b < j then 0 else 1, b)))
  match old with
  | some (ri, r) =>
    if r.retracting then s.fail f stBusy
    else if r.publishing then s
    else if !r.committed ∨ r.version < ver then begin_ s ri r
    else if ver < r.version then s.finish f stSuperseded (BitVec.ofNat 64 r.version) none
    else if r.hashes.getLastD 0 = hs.getLastD 0 then s.finish f stOk (BitVec.ofNat 64 n) none
    else (s.conflict x.ctx r (hs.getLastD 0) (wTag x.word)).finish f stConflict (BitVec.ofNat 64 r.version) none
  | none =>
    match (regionPlaces scope rid x.ctx).find? fun i => !(s.region i).used with
    | none => s.fail f stNoSpace
    | some ri => begin_ s ri {}
/-- A page's owner scope after a publication into `scope`: the scope first published into (04 R120; log 112). -/
def State.ownScope (s : State) (scope p : Nat) : State := s.updPage p fun g => { g with scope := if g.scope = 0 then scope else g.scope }
/-- The keys a PUBLISH inserted that no entry held before go to the directory after step 3 of 06 R206 (10 R331). -/
def State.reportFresh (s : State) (ri : Nat) : State :=
  let r := s.region ri
  (r.fresh.foldl (fun s b => s.dirReport true (prefixKey r.scope r.newHead.model r.newOwner (r.newHashes.getD b 0))) s).updRegion ri fun r => { r with fresh := [] }
/-- Step 4 of 06 R206: the version commits, and its pages have an owner scope; the old snapshot is released. -/
def State.publishCommit (s : State) (f ri : Nat) : State :=
  let s := s.reportFresh ri
  let r := s.region ri
  let q := r.newHead
  let bases := r.newEntries.map (·.base)
  let s := match s.addRefs (blockPages bases q.layers) with | some s => s | none => s
  let s := (blockPages bases q.layers).foldl (fun s p => s.ownScope r.scope p) s
  let n := r.newEntries.length
  let nOld := r.entries.length
  let carried := r.places.filter fun p => r.newPlaces.all fun t => t.1 != p.1
  let j := if r.committed then commonPrefix r.hashes r.newHashes else 0
  let s := s.updRegion ri fun r =>
    { r with
      committed := true, version := r.newVersion, entries := r.newEntries, hashes := r.newHashes, owner := r.newOwner, model := q.model, layers := q.layers
      tpp := q.tpp, ptok := q.ptok, format := q.format, groups := q.groups, dims := q.dims
      places := r.newPlaces.foldl (fun t p => Tbl.put t p.1 p.2) (carried.filter fun p => decide (p.1 < j))
      oldPlaces := r.places.filter fun p => decide (j ≤ p.1)
      newPlaces := [], saved := [], newEntries := [], newHashes := [], newHead := {} }
  let s := bases.foldl (fun s b => s.reclass b q.layers (s.flight f).ctx) s
  let s := if r.committed then s.dropBlocks (r.entries.map (·.base)) r.layers (s.flight f).ctx [] else s
  s.setJob f (.publish ri 1 ((span j nOld).map fun b => (2, b))) |>.updFlight f fun x => { x with result := BitVec.ofNat 64 n }
/-- The end of an undone PUBLISH: a fresh record is free again. -/
def State.publishUndone (s : State) (ri : Nat) : State :=
  let r := s.region ri
  if r.committed then s.updRegion ri fun r => { r with publishing := false, newPlaces := [], newEntries := [], newHashes := [], newOwner := 0, newVersion := 0, newHead := {}, saved := [], recov := none }
  else s.updRegion ri fun _ => {}
/-- Goes on with a PUBLISH that has begun: operations to the update queue, then its next stage (06 R206). -/
def State.publishOn (s : State) (f ri stage : Nat) (todo : List (Nat × Nat)) : State :=
  let (k, s) := s.queueOps f (todo.map (pubOp f ri stage))
  let rest := todo.drop k
  let s := if k = 0 then s else s.setJob f (.publish ri stage rest)
  if !rest.isEmpty || s.opsLeft f then s
  else if stage = 0 then
    let s := s.publishCommit f ri
    match (s.flight f).job with
    | .publish _ _ [] => (s.updRegion ri fun r => { r with publishing := false, oldPlaces := [] }).finish f stOk (s.flight f).result none
    | _ => s
  else if stage = 1 then (s.updRegion ri fun r => { r with publishing := false, oldPlaces := [] }).finish f stOk (s.flight f).result none
  else (s.publishUndone ri).fail f (if (s.ctx (s.flight f).ctx).state = .resetting then stAborted else stNoSpace)
/-- PUBLISH. One that waits reads the table again, as it then is, each time it is tried (DESIGN CHOICE, log 147). -/
def execPublish (f : Nat) (s : State) : Host.Outcome State Fault Refusal :=
  onFlight 0x14 f s fun x s =>
    let qi := sSeq x.a
    let q := s.seq qi
    let n := sBlock x.a
    match x.job with
    | .publish ri stage todo => s.publishOn f ri stage todo
    | _ =>
      let st := s.seqCheck x.ctx qi
      s.readable f [s.headAddr qi] fun s =>
      if st ≠ stOk then s.fail f st
      else if q.entries.length < n ∨ n = 0 then s.fail f stRange
      else s.readable f (s.tableAddrs qi 0 n (q.rangePages 0 n 0 q.layers)) fun s =>
      if s.rangeOpen q n then s.fail f stRange
      else s.asWalker f fun s =>
        let ps := q.rangePages 0 n 0 q.layers
        let heads := (q.entries.take n).map (·.base)
        match heads.find? s.sumBad with
        | some p => (s.sumFail p (some (s.fnOf x.ctx)) (some x.ctx) stPoisoned (wTag x.word)).fail f stPoisoned
        | none =>
        if heads.any s.neverHashed then s.fail f stRange
        else if ps.any (fun p => !(s.page p).formed) || heads.any (fun p => !(s.sum (s.page p).summary).hashed) ||
            (s.awl.queues.get (qi % 16) []).any (fun t => t.seq == qi && decide (t.pos < n * q.tpp)) ||
            (s.flights.any fun p => match p.2.job with | .append _ ts _ _ => ts.any (fun t => t.seq == qi && decide (t.pos < n * q.tpp)) | _ => false) then s
        else if (q.entries.take n).any (·.fenced) then s.fail f stFenced
        else
          let s := s.publishStart f x q n
          match (s.flight f).job with
          | .publish ri stage todo => s.publishOn f ri stage todo
          | _ => s

/-! ## RETRACT (03 R90, 06 R207) -/

/-- The end of a RETRACT: the snapshot is released and the record freed. -/
def State.retractDone (s : State) (ri c : Nat) : State :=
  let r := s.region ri
  (s.updRegion ri fun _ => {}).dropBlocks (r.entries.map (·.base)) r.layers c []
/-- Goes on with a RETRACT. -/
def State.retractOn (s : State) (f ri : Nat) (todo : List Nat) : State :=
  let (k, s) := s.queueOps f (todo.map fun b => .withdraw (f + 1) ri b 0)
  let rest := todo.drop k
  let s := s.setJob f (.retract ri rest)
  if !rest.isEmpty || s.opsLeft f then s
  else
    let n := (s.region ri).entries.length
    (s.retractDone ri (s.flight f).ctx).finish f stOk (BitVec.ofNat 64 n) none
/-- RETRACT. -/
def execRetract (f : Nat) (s : State) : Host.Outcome State Fault Refusal :=
  onFlight 0x15 f s fun x s =>
    match x.job with
    | .retract ri todo => s.retractOn f ri todo
    | _ =>
      match s.findRegion (fld x.b.toNat 0 16) (fld x.a.toNat 0 32) x.ctx with
      | none => s.fail f stNotFound
      | some (ri, r) =>
        if r.retracting then s.fail f stBusy
        else if r.publishing then s
        else if !r.committed ∨ r.version ≠ fld x.a.toNat 32 32 then s.fail f stNotFound
        else (s.updRegion ri fun r => { r with retracting := true }).retractOn f ri (List.range r.entries.length)

end Sys2Proof.Machine
end

