-- ==== Sys2Proof/Machine/SpineOps.lean ====
section
/-! DEFINITION. The update engine, the scrubber, probe searches and the Spine's registers (06 R203 to R217). -/
namespace Sys2Proof.Machine
open Sys2Proof

/-- Takes the oldest operation out of the update queue and returns its credit. -/
def State.popOp (s : State) (f : Nat) : State :=
  let s := { s with spine := { s.spine with updq := s.spine.updq.tail } }
  if f = 0 ∨ (s.flight? (f - 1)).isNone then s
  else ((s.ungrab (f - 1) 9).updFlight (f - 1) fun x => { x with progress := s.now }).dirDrain
/-- PRIORITY of a new entry by the class of its page (06 R202). -/
def classPriority (c : Nat) : Nat := 0xB00 - 0x100 * c
/-- The queued operations of a flight, numbered from 1, leave the update queue and return their credits. -/
def State.dropOps (s : State) (f : Nat) : State :=
  let n := (s.spine.updq.filter fun o => o.flight == f).length
  let s := { s with spine := { s.spine with updq := s.spine.updq.filter fun o => o.flight != f } }
  (List.range n).foldl (fun s _ => s.ungrab (f - 1) 9) s
/-- A version that does not commit: its PUBLISH drops its queued operations and restores the carried slots, wherever shifts have moved
their entries (06 R206). -/
def State.publishRestore (s : State) (f ri : Nat) : State :=
  let r := s.region ri
  let s := s.dropOps f
  let s := r.saved.foldl (fun s e =>
    let back (w : RowSlot) : RowSlot := { w with version := e.2.version, handle := e.2.handle, rindex := e.2.rindex }
    match r.places.find? fun p => p.1 == e.1 with
    | some (_, p) => if p < ovfBase then s.updRow p fun w => { w with slot := back w.slot } else s.updOvf (p - ovfBase) back
    | none => s) s
  s.updRegion ri fun r => { r with saved := [], fresh := [] }
/-- A failed insertion: the slots are restored, and what was inserted is withdrawn (06 R206). -/
def State.publishFails (s : State) (f ri : Nat) : State :=
  (s.publishRestore f ri).setJob (f - 1) (.publish ri 2 ((s.region ri).newPlaces.map fun p => (2, p.1)))
/-- SPINE_INSERTION (06 R203): the oldest operation, an insertion. -/
def execSpineInsertion (s : State) : Host.Outcome State Fault Refusal :=
  act s fun s =>
    match s.spine.updq with
    | .insert f ri b :: _ =>
      let r := s.region ri
      let e := r.newEntries.getD b {}
      let key := prefixKey r.scope r.newHead.model r.newOwner (r.newHashes.getD b 0)
      let slot : RowSlot := { region := r.rid, version := r.newVersion, block := b, handle := s.handle e.base, owner := r.newOwner, rindex := ri }
      match s.insertPrefix key (classPriority (s.page e.base).cls) slot with
      | none => s
      | some (some p, fresh, s) =>
        (s.updRegion ri fun r => { r with newPlaces := r.newPlaces.put b p, fresh := if fresh then r.fresh ++ [b] else r.fresh }).popOp f
      | some (none, _, s) => s.publishFails f ri
    | _ => s
/-- SPINE_CARRY (06 R206): VERSION, HANDLE and RINDEX of a carried block's slot are rewritten in place. -/
def execSpineCarry (s : State) : Host.Outcome State Fault Refusal :=
  act s fun s =>
    match s.spine.updq with
    | .carry f ri b :: _ =>
      let r := s.region ri
      let h := s.handle (r.newEntries.getD b {}).base
      let new (e : RowSlot) : RowSlot := { e with version := r.newVersion, handle := h, rindex := ri }
      match r.places.find? fun p => p.1 == b with
      | none => s.popOp f
      | some (_, p) =>
        let old := if p < ovfBase then (s.row p).slot else s.ovfEntry (p - ovfBase)
        let s := if p < ovfBase then s.updRow p fun w => { w with slot := new w.slot } else s.updOvf (p - ovfBase) new
        (s.updRegion ri fun r => { r with saved := r.saved.put b old }).popOp f
    | _ => s
/-- The position list an operation of a withdrawal names. -/
def Region.listOf (r : Region) (l : Nat) : Tbl Nat := if l = 0 then r.places else if l = 1 then r.newPlaces else r.oldPlaces
/-- Removes a block from it. -/
def Region.unlist (r : Region) (l b : Nat) : Region :=
  if l = 0 then { r with places := r.places.del b } else if l = 1 then { r with newPlaces := r.newPlaces.del b } else { r with oldPlaces := r.oldPlaces.del b }
/-- A withdrawn key that no entry holds any more is reported to the directory (10 R331). -/
def State.reportGone (s : State) (key : Nat) : State :=
  if (s.search key).isSome || (s.ovfOf key != 0 && (s.walkBest key).isSome) then s else s.dirReport false key

/-! ## Recovery (13 R406, R411) -/

/-- The reserved update-queue credits of resets (13 R411). -/
abbrev recoveryOps : Nat := 16
/-- Withdrawals that recoveries still need and that are not in the update queue. -/
def State.toRecover (s : State) : List UpdOp :=
  s.spine.regions.flatMap fun (e : Nat × Region) =>
    match e.2.recov with
    | some l => ((e.2.listOf l).map fun p => UpdOp.withdraw 0 e.1 p.1 l).filter fun o => !s.spine.updq.contains o
    | none => []
/-- Recoveries go on: at most 16 of their withdrawals are in the update queue at once (13 R411). -/
def State.recoverMore (s : State) : State :=
  { s with spine := { s.spine with updq := s.spine.updq ++ s.toRecover.take (recoveryOps - (s.spine.updq.filter fun o => o.flight == 0).length) } }
/-- A recovery whose last entry is withdrawn ends: the region is freed, the version undone, or the superseded version gone (06 R206, R209). -/
def State.recoverEnd (s : State) (ri : Nat) : State :=
  let r := s.region ri
  match r.recov with
  | none => s
  | some l =>
    if !(r.listOf l).isEmpty then s
    else if l = 0 then s.retractDone ri r.owner
    else if l = 1 then s.publishUndone ri
    else s.updRegion ri fun r => { r with publishing := false, recov := none }
/-- A recovery of a region starts with a position list. -/
def State.recover (s : State) (ri l : Nat) : State := ((s.updRegion ri fun r => { r with recov := some l }).recoverEnd ri).recoverMore
/-- A PUBLISH stops with a status. Before its commit it is undone; after it the commit stays, and what is left to withdraw is withdrawn (13 R406). -/
def State.publishStop (s : State) (f ri stage : Nat) (st : BitVec 16) : State :=
  if stage = 1 then ((s.dropOps (f + 1)).fail f st).recover ri 2 else ((s.publishRestore (f + 1) ri).fail f st).recover ri 1
/-- A RETRACT that stops leaves the region, with the entries it has not withdrawn. -/
def State.retractStop (s : State) (f ri : Nat) (st : BitVec 16) : State :=
  ((s.dropOps (f + 1)).updRegion ri fun r => { r with retracting := false }).fail f st
/-- A begun instruction stops at its next safe point: an uncommitted PUBLISH is undone, and of a committed one and of a RETRACT what has been
written stays (13 R406; log 141). -/
def State.stopFlight (s : State) (f : Nat) (st : BitVec 16) : State :=
  match (s.flight f).job with
  | .publish ri stage _ => s.publishStop f ri stage st
  | .retract ri _ => s.retractStop f ri st
  | _ => s.fail f st
/-- SPINE_WITHDRAWAL (06 R207): through the region's position list; it waits for a segment that a LOOKUP holds (06 R197). -/
def execSpineWithdrawal (s : State) : Host.Outcome State Fault Refusal :=
  act s fun s =>
    match s.spine.updq with
    | .withdraw f ri b l :: _ =>
      let r := s.region ri
      match (r.listOf l).find? fun p => p.1 == b with
      | none => ((s.popOp f).recoverEnd ri).recoverMore
      | some (_, p) =>
        if s.segHeld p then s
        else
          let key := (uKey (if p < ovfBase then (s.row p).unit else (s.ovfEntry (p - ovfBase)).unit)).toNat
          let s := (s.clearPlace 1 p).updRegion ri fun r => r.unlist l b
          (((s.reportGone key).popOp f).recoverEnd ri).recoverMore
    | _ => s

/-! ## Scrubber and probe searches (06 R210, R213, R217) -/

/-- SCRUB_ROW: the next row against its shadow copy. -/
def execScrubRow (s : State) : Host.Outcome State Fault Refusal :=
  act s fun s =>
    if !s.spine.scrubEn then s
    else
      let p := s.spine.scrubAt
      let s := { s with spine := { s.spine with scrubAt := (p + 1) % 1048576 } }
      let r := s.row p
      if r.suspect then s
      else if s.rangeBad (s.slotAddr p) 64 then (s.badGranule 2 (s.slotAddr p) none none 0 0).makeSuspect p
      else if r.unit ≠ r.slot.unit then s.makeSuspect p
      else s
/-- A number from the eight probe registers. -/
def probeNum (t : Tbl (BitVec 64)) : Nat := (List.range 8).foldr (fun i a => (t.get i 0).toNat + 2 ^ 64 * a) 0
/-- PROBE_SEARCH: a write of SP_PROBE_CTL; GO runs one search. WIDTH 3 finds nothing, and a search that finds nothing leaves POSITION and SUSPECT
at 0 (DESIGN CHOICE, log 148). -/
def execProbeSearch (v : BitVec 64) (s : State) : Host.Outcome State Fault Refusal :=
  act s fun s =>
    let n := v.toNat
    let p := { s.spine with probeWidth := fld n 2 2, probeRole := fld n 4 1, probeSuspects := bit n 5, probeAfter := bit n 8, probeStart := fld n 16 20 }
    let s := { s with spine := p }
    if !bit n 0 then s
    else
      let w := 2 ^ p.probeWidth
      let found := if p.probeWidth = 3 then none else
        s.winner ((s.matching w p.probeRole (probeNum p.probeKey) (Nat.land (probeNum p.probeMask) (ones (128 * w))) p.probeSuspects).filter fun q =>
          !p.probeAfter || decide (p.probeStart < q))
      { s with spine := { s.spine with
          probeDone := true, probeHit := found.isSome, probeSuspect := (found.map fun q => (s.row q).suspect).getD false, probePos := found.getD 0 } }

/-! ## Registers (06 R215, R216) -/

/-- Entries of a bank, and its suspect rows. -/
def State.bankEntries (s : State) (b : Nat) : Nat := (s.spine.rows.filter fun r => posBank r.1 == b && uValid r.2.unit && !uCont r.2.unit).length
def State.bankSuspect (s : State) (b : Nat) : Nat := (s.spine.rows.filter fun r => posBank r.1 == b && r.2.suspect).length
/-- SP_BANK_WRITE. -/
def execSpBankWrite (bank : Nat) (v : BitVec 64) (s : State) : Host.Outcome State Fault Refusal :=
  act s fun s =>
    let w := fld v.toNat 0 2
    let r := fld v.toNat 2 1
    let b := s.bank bank
    let clear (x : Bank) : Bank := { x with cfgErr := x.cfgErr && !bit v.toNat 4 }
    if 128 ≤ bank then s
    else if w = b.width ∧ r = b.role then s.updBank bank clear
    else if s.bankEntries bank = 0 ∧ s.bankSuspect bank = 0 ∧ ((w = 0 ∧ r = 0) ∨ (w = 1 ∧ r = 1) ∨ w = 2) then
      s.updBank bank fun x => { clear x with width := w, role := r }
    else s.updBank bank fun x => { x with cfgErr := true }
/-- SP_OVF_WRITE. -/
def execSpOvfWrite (v : BitVec 64) (s : State) : Host.Outcome State Fault Refusal :=
  act s fun s =>
    let k := fld v.toNat 0 5
    if s.spine.ovf.any (fun e => uValid e.2.unit) || decide (k < 10 ∨ 24 < k) then s
    else { s with spine := { s.spine with k := k, ovf := [] } }

end Sys2Proof.Machine
end

