-- ==== Sys2Proof/Machine/Put.lean ====
section
/-! DEFINITION. PUT_PAGES: its checks, its reads, the pages it creates and its structural edit (10 R323 to R325). -/
namespace Sys2Proof.Machine
open Sys2Proof

/-- The sequence a PUT_PAGES writes, or as it would create it (10 R323). -/
def State.putSeq (s : State) (c : Nat) (p : Putting) : Seq :=
  if !p.fresh then s.seq p.seq
  else if p.weight then { owner := c, model := p.model, layers := 1, format := 0x10, weight := true }
  else
    let r := p.grec
    { owner := c, model := r.model, layers := r.layers, tpp := r.tpp, ptok := r.ptok, format := r.format, groups := r.groups, dims := r.dims }

/-- The sequence's own checks of a PUT_PAGES of `k` blocks (03 R74, 10 R324). -/
def State.putSeqCheck (s : State) (c q k : Nat) (weight : Bool) : BitVec 16 :=
  let y := s.seq q
  if y.state = 0 then stOk
  else if y.owner ≠ c then stPermission
  else if y.state = 2 ∨ y.weight ≠ weight ∨ 2 ^ 24 < y.entries.length + k then stRange
  else if (match y.entries.getLast? with | some e => e.isOpen | none => false) then stRange
  else stOk

/-- Issues the next read of a PUT_PAGES on its queue pair (10 R323). -/
def State.putRead (s : State) (f : Nat) (p : Putting) : State :=
  let x := s.flight f
  let q := match x.mirror with | some (q, _) => q | none => 0
  let y := s.putSeq x.ctx p
  let slot := p.addr + 65536 * p.made
  let s := s.setJob f (.put p)
  if (s.qp q).state ≠ .rts then s.fail f stRemote
  else if p.weight then
    if p.head.isEmpty then s.sendRead q 2 slot p.rkey 32 (f + 1) else s.sendRead q 2 (slot + 32) p.rkey (16 + fld (ofLe p.head) 64 17) (f + 1)
  else if p.head.isEmpty then s.sendRead q 2 (p.taddr + 4 * y.tpp * (p.made / max y.layers 1)) p.rkey (4 * y.tpp) (f + 1)
  else s.sendRead q 2 slot p.rkey y.payload (f + 1)

/-- Takes a run of `n` sheets out of an extent (10 R324). -/
def State.extRun (s : State) (e n : Nat) : Option (Nat × State) :=
  let s := { s with ps := { s.ps with reserved := s.ps.reserved - n } }
  (s.takePool n true).map fun (r, s) => (r, s.updExt e fun x => { x with left := x.left - n })

/-- Creates the next page, SEALED, from what was read of it, its block's chain hash formed over that of the block before, or waiting for it (04 R130,
10 R324); or what it lacks. -/
def State.putPage (s : State) (f : Nat) (p : Putting) (data : Bytes) : Except Short (Putting × State) :=
  let c := (s.flight f).ctx
  let y := s.putSeq c p
  let layers := max y.layers 1
  let b := p.made / layers
  let l := p.made % layers
  let page := p.base + p.made
  let prev := if b = 0 then lastPage y.entries else p.base + (b - 1) * layers + 1
  let (form, raw) := if p.weight then (p.head ++ data, false) else storedForm y.format data s.press.forceRaw
  let n := max 1 (cdiv form.length 4096)
  match s.extRun p.ext n with
  | none => .error .pool
  | some (run, s) =>
    match (if p.weight then some (0, s) else s.takeSum (sumUnits y.format y.ptok y.tpp)) with
    | none => .error .table
    | some (sm, s) =>
      let s := s.t0Write (run * 4096) form
      let (z, s) := s.draw
      let v := (s.page page).version
      let s := s.updPage page fun _ =>
        { state := .sealed, sheets := n, raw := raw, cls := p.cls, format := y.format, length := form.length, tokens := y.tpp, location := run, refcount := 1
          summary := sm, version := v, formed := true
          origin := { ctx := c, seq := p.seq, block := y.entries.length + b, layer := l, ptok := y.ptok, tpp := y.tpp, groups := y.groups, dims := y.dims, model := y.model
                      prev := prev, prevVer := (s.page (prev - 1)).version } }
      let s := if p.weight then s else s.updSum sm fun _ =>
        { tokens := y.tpp, ids := if l = 0 then p.head else [], body := summaryOf (formatWidth y.format) y.ptok y.groups y.dims y.tpp (z % 2 == 1) data }
      let s := if p.weight ∨ l ≠ 0 then s else s.hashPage page
      let last := l + 1 == layers
      .ok ({ p with made := p.made + 1, head := if last then [] else p.head }, s)

/-- The structural edit that adds the blocks, and the end (10 R324, R325). A key-value sequence that it creates copies its context's
binding set (07 R223; log 34). The spec states no RESULT: a free value (log 3). -/
def State.putDone (s : State) (f : Nat) (p : Putting) : State :=
  let c := (s.flight f).ctx
  let st := s.putSeqCheck c p.seq p.blocks p.weight
  s.readable f (s.headAddr p.seq :: s.lastAddrs p.seq) fun s =>
  if st ≠ stOk then s.fail f st
  else if (s.seq p.seq).state = 0 ∧ !p.fresh then s.fail f stNotFound
  else
    let y := s.putSeq c p
    let made := if (s.seq p.seq).state ≠ 0 then some s
      else if p.weight then s.newSeq p.seq y {}
      else s.newSeq p.seq y (s.freshStream (s.bindSet c) 0)
    match made with
    | none => s.fail f stNoSpace
    | some n =>
      let y := n.seq p.seq
      let fenced := y.fenceOn || (n.stream p.seq).used
      let bases := (List.range p.blocks).map fun b => p.base + b * y.layers
      let es := bases.map fun a => ({ base := a, version := (n.page a).version, filled := y.tpp, sealed := true, fenced := fenced, cls := p.cls } : Entry)
      match n.edit p.seq y.entries.length (y.entries ++ es) with
      | none => s.fail f stNoSpace
      | some (old, s) =>
        let s := if old.isEmpty then s else s.retire { seqSheets := old }
        let s := s.updSeq p.seq fun q => { q with fenceOn := fenced }
        let s := if p.weight then s else s.putLastHash p.seq (s.seq p.seq).entries
        let s := if (s.stream p.seq).used then s.updStream p.seq fun t => { t with nextPos := t.nextPos + p.blocks * y.tpp } else s
        let s := bases.foldl (fun s a => s.reclass a y.layers c) s
        let s := if 2 ≤ p.cls then (blockPages bases y.layers).foldl (fun s i => s.askMove .placement i c 0 0) s else s
        let (v, s) := s.draw
        s.finish f (s.quotaStatus c) (BitVec.ofNat 64 v) none

/-- A read of a PUT_PAGES has returned: token IDs, an envelope header, or a page (10 R323). None: it waits for an allocation (04 R149). -/
def State.putData (s : State) (f : Nat) (data : Bytes) : Option State :=
  let x := s.flight f
  match x.job with
  | .put p =>
    if p.head.isEmpty then
      if p.weight ∧ (fld (ofLe data) 64 17 = 0 ∨ wpBytes < fld (ofLe data) 64 17) then some (s.fail f stRange)
      else some (s.putRead f { p with head := data })
    else if !p.weight && (List.range 8).all fun i => s.dev.pressDown.get i false then none
    else
      match s.putPage f p data with
      | .error k => if s.mayYield k then none else some (s.fail f stNoSpace)
      | .ok (p', s) =>
        let s := s.setJob f (.put p')
        some (if p'.total ≤ p'.made then s.putDone f p' else s.putRead f p')
  | _ => some s

end Sys2Proof.Machine
end

