-- ==== Sys2Proof/Machine/Rdma.lean ====
section
/-! DEFINITION. Frames received, the meter, and RoCE as responder and requester (10 R300 to R316, 11 R339 to R342). -/
namespace Sys2Proof.Machine
open Sys2Proof

/-! ## Opcodes (10 R301, R306; BTH numbers PRESUMED, log 35) -/

/-- Kind of an inbound opcode: 0 Send, 1 Write, 2 Read Request, 3 Acknowledge, 4 Read Response, 5 none that the device takes. -/
def opKind (op : Nat) : Nat :=
  if [0, 1, 2, 4, 0xC0].contains op then 0
  else if [6, 7, 8, 0xA, 0xC1].contains op then 1
  else if op = 0xC ∨ op = 0xC2 then 2
  else if op = 0x11 ∨ op = 0xC4 then 3
  else if (0xD ≤ op ∧ op ≤ 0x10) ∨ op = 0xC3 then 4
  else 5
/-- The queue pair takes the opcode (10 R301). -/
def Qp.takes (x : Qp) (op : Nat) : Bool := opKind op != 5 && (decide (op < 0xC0) || x.multipath) && (opKind op != 0 || x.vanged)
/-- A packet of the opcode starts a standard message. -/
def opFirst (op : Nat) : Bool := op == 0 || op == 4 || op == 6 || op == 0xA
/-- A packet of the opcode ends a standard Send. -/
def opLast (op : Nat) : Bool := op == 2 || op == 4
/-- `a - b` among packet sequence numbers. -/
def psnSub (a b : Nat) : Nat := (a + 2 ^ 24 - b % 2 ^ 24) % 2 ^ 24
/-- ns of a fabric cycle: 20 / 21 ns each (00 R8). -/
def nsOf (c : Nat) : Nat := c * 20 / 21

/-! ## Frames received (10 R300, 11 R339 to R341) -/

/-- Bytes in the ingress packet buffer (10 R311). -/
def State.heldBytes (s : State) : Nat := s.net.qps.foldl (fun a q => q.2.held.foldl (fun a p => a + p.2.payload.length) a) 0
/-- Bytes of the ingress packet buffer. -/
abbrev ingressSize : Nat := 16777216
/-- Pre-colour of a DSCP: 0 green, 1 yellow, else red (11 R340, R358). -/
def State.dscpColor (s : State) (d : Nat) : Nat := fld (s.eg.dscp.get (d / 32 % 2) 0).toNat (2 * (d % 32)) 2
/-- Colours a frame and takes its tokens: 0 green, 1 yellow, 2 red (11 R340; RFC 2698, RFC 4115). -/
def Meter.run (m : Meter) (pre len : Nat) : Nat × Meter :=
  let b := len * 256
  let pre := if m.aware then pre else 0
  if !m.mode then
    if 2 ≤ pre ∨ m.ptok < b then (2, m)
    else if pre = 1 ∨ m.ctok < b then (1, { m with ptok := m.ptok - b })
    else (0, { m with ptok := m.ptok - b, ctok := m.ctok - b })
  else if pre = 0 ∧ b ≤ m.ctok then (0, { m with ctok := m.ctok - b })
  else if pre ≤ 1 ∧ b ≤ m.ptok then (1, { m with ptok := m.ptok - b })
  else (2, m)
/-- The meter of a frame's subscriber; whether it is accepted (11 R339, R341). -/
def State.metered (s : State) (sub : Nat) (fr : Rx) : Bool × State :=
  let m := s.eg.meters.get sub {}
  if !m.en || decide (3 ≤ opKind fr.pkt.op) then (true, s)
  else
    let (c, m) := m.run (s.dscpColor fr.dscp) fr.len
    let s := { s with eg := { s.eg with meters := s.eg.meters.set sub m {} } }
    let fn := (s.sub sub).function
    if c = 0 then (true, s)
    else if c = 1 then
      let s := s.countFn fn 5 1
      if s.heldBytes < s.eg.yellowLimit * 1024 then (true, s) else (false, s.countFn fn 6 1)
    else (false, s.countFn fn 7 1)
/-- A frame that passed the checks, for its queue pair (10 R301, R304, R305). -/
def State.toQp (s : State) (q : Nat) (p : Packet) : State :=
  let x := s.qp q
  match x.state with
  | .error => s.countDev 5 1
  | .rtr | .rts => if x.takes p.op then { s with net := { s.net with accepted := s.net.accepted ++ [(q, p)] } } else s.qpError q 5
  | _ => s
/-- Ports of the present mode (10 R299). -/
def State.netPorts (s : State) : Nat := s.lanes / (8 / 2 ^ s.net.mode)
/-- Ethernet port `p`. -/
def State.netPort (s : State) (p : Nat) : NetPort := s.net.ports.get p {}
/-- A lane of port `p` is marked unavailable (00 R6; 10 R299: port p uses lanes p·w to p·w + w − 1). -/
def State.portDown (s : State) (p : Nat) : Bool :=
  let w := 8 / 2 ^ s.net.mode
  (List.range w).any fun k => s.dev.laneDown.get (p * w + k) false
/-- Port `p` exists in the mode, is available and its link is up. -/
def State.portUp (s : State) (p : Nat) : Bool := decide (p < s.netPorts) && (s.netPort p).linkUp && !s.portDown p
/-- FRAME_RX. -/
def execFrameRx (port : Nat) (fr : Rx) (s : State) : Host.Outcome State Fault Refusal :=
  act s fun s =>
    if !s.portUp port || s.dev.engineDown.get 6 false then s
    else
      let s := s.countDev 15 1
      if 4352 < fr.len ∨ fr.encapOk = false ∨ fr.fcsOk = false then s.countDev 0 1
      else
        let s := if fr.ce then s.countDev 1 1 else s
        if fr.control ∨ 16384 ≤ fr.qpn then s else
        let (ok, s) := s.metered (s.qp fr.qpn).subscriber fr
        if ok then s.toQp fr.qpn fr.pkt else s

/-- Takes the oldest accepted packet of a queue pair when it is of the kind a command stands for. -/
def onPacket (q : Nat) (kind : Packet → Bool) (s : State) (k : Packet → State → State) : Host.Outcome State Fault Refusal :=
  act s fun s =>
    match s.net.accepted.find? fun p => p.1 == q with
    | some (_, p) => if kind p then k p { s with net := { s.net with accepted := s.net.accepted.erase (q, p) } } else s
    | none => s

/-! ## Acknowledging (10 R306, R308) -/

/-- A PSN above RQ_PSN has been received. -/
def Qp.holdsPsn (x : Qp) (psn : Nat) : Bool := x.above.any fun a => a.1 == psn
/-- The received bitmap after the cumulative PSN. -/
def Qp.bitmap (x : Qp) : Nat :=
  (List.range 64).foldl (fun a i => if x.holdsPsn ((x.rqPsn + i) % 2 ^ 24) then a + 2 ^ i else a) 0
/-- Sends an acknowledgement of what has been received. -/
def State.acknowledge (s : State) (q path ts : Nat) : State :=
  let x := s.qp q
  let b : Bypass := { kind := b2n x.multipath, qp := q, psn := psnSub x.rqPsn 1, ts := ts, path := path, bitmap := if x.multipath then x.bitmap else 0 }
  (s.sendBypass x.port b).updQp q fun x => { x with unacked := 0 }
/-- RQ_PSN advances past every contiguous received PSN. -/
def advancePsn : Nat → Nat → List Nat → Nat × List Nat
  | 0, r, l => (r, l)
  | k + 1, r, l => if l.contains r then advancePsn k ((r + 1) % 2 ^ 24) (l.erase r) else (r, l)
/-- Marks `n` PSNs from `psn` as received; the receive gap starts, goes on or ends: a gap that RQ_PSN has newly reached began with the
first arrival above it (10 R308). -/
def Qp.receive (x : Qp) (psn n now : Nat) : Qp :=
  let l := x.above ++ (List.range n).map fun i => ((psn + i) % 2 ^ 24, now)
  let (r, rest) := advancePsn l.length x.rqPsn (l.map (·.1))
  let l := l.filter fun a => rest.contains a.1
  { x with rqPsn := r, above := l, unacked := x.unacked + 1
           gapAt := if l.isEmpty then none else if r = x.rqPsn then x.gapAt <|> some now else some (l.foldl (fun t a => min t a.2) now) }
/-- The PSN check of a data packet: new, a duplicate, or discarded (10 R308). A PSN already received above RQ_PSN is a duplicate (log 36). -/
def State.psnCheck (s : State) (q : Nat) (p : Packet) (k : State → State) : State :=
  let x := s.qp q
  let d := psnSub p.psn x.rqPsn
  if d < 2 ^ 22 ∧ x.holdsPsn p.psn = false then k s
  else if d < 2 ^ 22 ∨ 2 ^ 24 - 2 ^ 22 ≤ d then (s.countDev 2 1).acknowledge q p.path p.ts
  else s.countDev 3 1

/-! ## Registrations (10 R314) -/

/-- T0 address of a registration's first byte. -/
def State.regAddr (s : State) (r : Reg) : Nat :=
  let c := s.ctx r.ctx
  r.offset + (match r.kind with
    | 0 => c.inAddr
    | 1 => c.outAddr
    | 2 => (c.ring r.ring).base * 4096
    | _ => c.cbase * 4096)
/-- The registration that admits an access of `n` bytes at `va`: `bit` 0 write, 1 read. -/
def State.regAllows (s : State) (q rkey va n acc : Nat) : Option Nat :=
  let i := rkey % 65536
  let r := s.reg i
  if r.valid && !r.revoking && r.gen == fld rkey 16 16 && r.ctx == (s.qp q).owner && bit r.access acc && decide (va + n ≤ r.length) then some i else none

/-! ## Placement (10 R310, R311) -/

/-- Largest message, and largest Send. -/
abbrev msgMax : Nat := 16777216
abbrev sendMax : Nat := 32768
/-- PMTU slots of a message of `n` bytes. -/
def slotsOf (n mtu : Nat) : Nat := max 1 (cdiv n mtu)
/-- A PSN has been received. -/
def Qp.received (x : Qp) (psn : Nat) : Bool := decide (2 ^ 23 ≤ psnSub psn x.rqPsn) || x.holdsPsn psn
/-- Where an inbound packet goes. -/
inductive Target where
  /-- slot `i` of a message -/
  | into (m : InMsg) (i : Nat)
  /-- its first packet has not arrived -/
  | hold
  /-- nothing to place it in: discarded, not acknowledged -/
  | drop
  /-- refused under a cause of 10 R304 -/
  | bad (cause : Nat)
deriving DecidableEq, Repr
/-- A new message can be tracked (10 R311). -/
def State.tracks (s : State) (x : Qp) : Bool :=
  decide (x.msgs.length < 256 ∧ s.net.qps.foldl (fun a q => a + q.2.msgs.length) 0 < 65536)
/-- Position of a message among its queue pair's, oldest first. -/
def Qp.ageOf (x : Qp) (m : InMsg) : Nat := (if m.multi then psnSub m.first x.peerMsn else psnSub m.first x.rqPsn + 2 ^ 23) % 2 ^ 24
/-- Messages, or for a standard peer packets, before message `m` of which nothing has come: each may be an older Send's. -/
def Qp.missing (x : Qp) (m : InMsg) : Nat :=
  let d := if m.multi then psnSub m.first x.peerMsn else psnSub m.first x.rqPsn
  if 2 ^ 23 ≤ d then 0
  else if m.multi then
    d - (x.peerDone.filter fun n => decide (psnSub n x.peerMsn < d)).length - (x.msgs.filter fun n => n.multi && decide (psnSub n.first x.peerMsn < d) && !x.peerDone.contains n.first).length
  else d - (x.above.filter fun a => decide (psnSub a.1 x.rqPsn < d)).length
/-- A receive slot is free for a Send that starts at `m`, with one left for every older message that has not come: Sends take slots in
their order (10 R317; log 37). -/
def Qp.slotFor (x : Qp) (m : InMsg) : Bool := decide (x.slots.length + (x.msgs.filter (·.isSend)).length + x.missing m < x.rslots + 1)
/-- The message of a packet of a multipath message. -/
def State.multiTarget (s : State) (q : Nat) (p : Packet) (send : Bool) : Target :=
  let x := s.qp q
  match x.msgs.find? fun m => m.multi && m.first == p.msn with
  | some m => if p.offset % x.mtu = 0 ∧ m.isSend = send then .into m (p.offset / x.mtu) else .bad 5
  | none =>
    let m : InMsg := { first := p.msn, multi := true, mlen := some p.mlen, isSend := send, va := p.va, since := s.now }
    if (if send then sendMax else msgMax) < p.mlen ∨ p.offset % x.mtu ≠ 0 then .bad 5
    else if send then (if s.tracks x && x.slotFor m then .into m (p.offset / x.mtu) else .drop)
    else
      match s.regAllows q p.rkey p.va p.mlen 0 with
      | none => .bad 4
      | some r => if s.tracks x then .into { m with reg := r + 1 } (p.offset / x.mtu) else .drop
/-- The message of a packet of a standard Write. -/
def State.writeTarget (s : State) (q : Nat) (p : Packet) : Target :=
  let x := s.qp q
  if opFirst p.op then
    if msgMax < p.mlen then .bad 5
    else
      match s.regAllows q p.rkey p.va p.mlen 0 with
      | none => .bad 4
      | some r => if s.tracks x then .into { first := p.psn, mlen := some p.mlen, reg := r + 1, va := p.va, since := s.now } 0 else .drop
  else
    match x.msgs.find? fun m => !m.multi && !m.isSend && decide (psnSub p.psn m.first < slotsOf (m.mlen.getD 0) x.mtu) with
    | some m => .into m (psnSub p.psn m.first)
    | none => .hold
/-- The message of a packet of a standard Send: the last one begun before it whose PSNs up to it have all arrived (log 38). -/
def State.sendTarget (s : State) (q : Nat) (p : Packet) : Target :=
  let x := s.qp q
  if opFirst p.op then
    let m : InMsg := { first := p.psn, isSend := true, since := s.now }
    if s.tracks x && x.slotFor m then .into m 0 else .drop
  else
    let near := (x.msgs.filter fun m => !m.multi && m.isSend && decide (psnSub p.psn m.first < 2 ^ 22)).foldl
      (fun (a : Option InMsg) m => match a with
        | none => some m
        | some b => if psnSub p.psn m.first < psnSub p.psn b.first then some m else some b) none
    match near with
    | some m =>
      let i := psnSub p.psn m.first
      match m.mlen with
      | some n => if i < slotsOf n x.mtu then .into m i else .hold
      | none => if (List.range i).all fun j => x.received ((m.first + j) % 2 ^ 24) then .into m i else .hold
    | none => .hold
/-- Where a data packet goes. -/
def State.targetOf (s : State) (q : Nat) (p : Packet) : Target :=
  let send := opKind p.op == 0
  if 0xC0 ≤ p.op then s.multiTarget q p send else if send then s.sendTarget q p else s.writeTarget q p

/-! ## Completion of messages (10 R312) -/

/-- A message's bytes, in order of their offsets. -/
def InMsg.bytes (m : InMsg) : Bytes := (sortBy (fun a b => decide (a.1 < b.1)) m.body).flatMap (·.2)
/-- What the completion of a Write does. -/
def State.writeDone (s : State) (m : InMsg) : State :=
  let r := s.reg (m.reg - 1)
  match r.kind with
  | 0 => s.updCtx r.ctx fun c => c.setLanding (r.offset + m.va) (m.mlen.getD 0)
  | 4 => if m.mlen = some 8 then s.doorbell (s.fnOf r.ctx) r.ctx (ofLe m.bytes) else s
  | _ => s
/-- Every earlier message of the queue pair has completed. -/
def Qp.isNext (x : Qp) (m : InMsg) : Bool :=
  if m.multi then decide (psnSub x.peerMsn ((m.first + 1) % 2 ^ 24) < 2 ^ 23)
  else decide (psnSub x.rqPsn ((m.first + slotsOf (m.mlen.getD 0) x.mtu) % 2 ^ 24) < 2 ^ 23)
/-- Hands complete Sends to the Vanged executor, in order. -/
def State.handSends (s : State) (q : Nat) : Nat → State
  | 0 => s
  | k + 1 =>
    let x := s.qp q
    let ready := (x.msgs.filter fun m => m.done && x.isNext m).foldl
      (fun (a : Option InMsg) m => match a with | none => some m | some b => if x.ageOf m < x.ageOf b then some m else some b) none
    match ready with
    | some m => (s.updQp q fun x => { x with msgs := x.msgs.erase m, slots := x.slots ++ [m.bytes] }).handSends q k
    | none => s
/-- The peer's multipath message `msn` has completed (10 R312). -/
def Qp.msnDone (x : Qp) (msn : Nat) : Qp :=
  let (r, l) := advancePsn (x.peerDone.length + 1) x.peerMsn (msn :: x.peerDone)
  { x with peerMsn := r, peerDone := l }
/-- Message `m` has all its bytes. -/
def State.messageDone (s : State) (q : Nat) (m : InMsg) : State :=
  let s := if m.multi then s.updQp q fun x => x.msnDone m.first else s
  let s := s.updQp q fun x => { x with unacked := 16, msgs := (x.msgs.filter fun n => !(n.first == m.first && n.multi == m.multi)) ++ (if m.isSend then [{ m with done := true }] else []) }
  if m.isSend then s else s.writeDone m
/-- The length that slot `i` must carry; none while the message's length is not known and this is not its last packet. -/
def lenOk (m : InMsg) (i len mtu : Nat) : Bool :=
  match m.mlen with
  | some n => decide (i < slotsOf n mtu) && len == min mtu (n - i * mtu)
  | none => len == mtu
/-- Places a packet in slot `i` of a message; a length that breaks 10 R310 is an invalid request (log 39). -/
def State.placeAt (s : State) (q : Nat) (p : Packet) (m : InMsg) (i : Nat) : State :=
  let x := s.qp q
  let off := i * x.mtu
  let n := p.payload.length
  let m := if m.isSend && !m.multi && opLast p.op then { m with mlen := some (off + n) } else m
  if (m.isSend && decide (sendMax < off + n)) || !lenOk m i n x.mtu then s.qpError q 5
  else
    let r := s.reg (m.reg - 1)
    let keep := m.isSend || r.kind == 4
    let m := { m with got := if m.got.contains i then m.got else i :: m.got, body := if keep then (off, p.payload) :: m.body else m.body }
    let s := if keep then s else (s.t0Write (s.regAddr r + m.va + off) p.payload).hostWrote s
    if m.mlen.isSome && m.got.length == slotsOf (m.mlen.getD 0) x.mtu then s.messageDone q m
    else s.updQp q fun x => { x with msgs := (x.msgs.filter fun n => !(n.first == m.first && n.multi == m.multi)) ++ [m] }
/-- Places what was held and can now be placed. -/
def State.drainHeld (s : State) (q : Nat) : List (Nat × Packet) → State
  | [] => s
  | h :: r =>
    let s := match s.targetOf q h.2 with
      | .into m i => (s.updQp q fun x => { x with held := x.held.erase h }).placeAt q h.2 { m with since := min m.since h.1 } i
      | _ => s
    if (s.qp q).state == .rtr || (s.qp q).state == .rts then s.drainHeld q r else s
/-- After a data packet: complete Sends are handed on, and an acknowledgement goes at a completed message or after 16 packets (10 R308). -/
def State.afterData (s : State) (q : Nat) (p : Packet) : State :=
  if (s.qp q).state == .rtr || (s.qp q).state == .rts then
    let s := s.handSends q (s.qp q).msgs.length
    if 16 ≤ (s.qp q).unacked then s.acknowledge q p.path p.ts else s
  else s
/-- A Send or a Write packet. -/
def State.dataPacket (s : State) (q : Nat) (p : Packet) : State :=
  s.psnCheck q p fun s =>
    match s.targetOf q p with
    | .bad c => s.qpError q c
    | .drop => s
    | .hold =>
      if ingressSize < s.heldBytes + p.payload.length ∨ 256 ≤ (s.qp q).held.length then s.countDev 4 1
      else
        let s := s.updQp q fun x => { x.receive p.psn 1 s.now with held := x.held ++ [(s.now, p)] }
        let s := s.drainHeld q (s.qp q).held
        s.afterData q p
    | .into m i =>
      let s := s.updQp q fun x => x.receive p.psn 1 s.now
      let s := s.placeAt q p m i
      let s := s.drainHeld q (s.qp q).held
      s.afterData q p
/-- INBOUND_RDMA_WRITE. -/
def execInboundRdmaWrite (qp : Nat) (s : State) : Host.Outcome State Fault Refusal :=
  onPacket qp (fun p => opKind p.op == 1) s fun p s => s.dataPacket qp p
/-- INBOUND_SEND. -/
def execInboundSend (qp : Nat) (s : State) : Host.Outcome State Fault Refusal :=
  onPacket qp (fun p => opKind p.op == 0) s fun p s => s.dataPacket qp p

/-! ## Inbound reads (10 R301, R314) -/

/-- INBOUND_RDMA_READ_REQUEST: a message that its one packet completes, and that is acknowledged as such (10 R308, R312; log 40); granules of
the range that cannot be read give free values (log 40). -/
def execInboundRdmaReadRequest (qp : Nat) (s : State) : Host.Outcome State Fault Refusal :=
  onPacket qp (fun p => opKind p.op == 2) s fun p s =>
    s.psnCheck qp p fun s =>
      if msgMax < p.mlen then s.qpError qp 5
      else
        match s.regAllows qp p.rkey p.va p.mlen 1 with
        | none => s.qpError qp 4
        | some i =>
          let r := s.reg i
          let a := s.regAddr r + p.va
          let s := s.updQp qp fun x =>
            let y := { x.receive p.psn (slotsOf p.mlen x.mtu) s.now with unacked := 16 }
            if p.op = 0xC2 then y.msnDone p.msn else y
          let (b, s) := if s.rangeBad a p.mlen then (s.badGranule 8 a (some (s.fnOf r.ctx)) (some r.ctx) 0 0).freeBytes p.mlen else (s.t0Read a p.mlen, s)
          (s.sendReadResponse qp p.psn p.msn b).afterData qp p

/-! ## Acknowledgements (10 R307, R309) -/

/-- One update of a path by an acknowledgement of `b` bytes with sample `x` (10 R309). -/
def Path.ack (w : Path) (n : Net) (b x now : Nat) : Path :=
  let dmin := min w.dmin x
  let target := dmin + n.targetNs
  if x ≤ target then { w with dmin := dmin, w := min (n.wMax * 256) (w.w + cdiv (n.ai * b) (max w.w 1)) }
  else if x ≤ now - w.lastDec then { dmin := dmin, w := max (n.wMin * 256) (w.w - w.w * n.beta * (x - target) / (256 * x)), lastDec := now }
  else { w with dmin := dmin }
/-- Removes acknowledged packets and their queued retransmissions, and lets what they served end. -/
def State.retireSent (s : State) (q : Nat) (gone : SentPkt → Bool) : State :=
  let x := s.qp q
  let l := x.sent.filter gone
  let fl := ((l.map fun p => p.frame.flight).filter (· != 0)).map (· - 1)
  let s := s.updQp q fun x => { x with sent := x.sent.filter fun p => !gone p }
  let s := s.dropFrames fun f => f.qp == q && f.again && l.any fun p => p.psn == f.psn
  s.settleWrites fl.eraseDups
/-- Bytes of payload of packets on a path. -/
def ackBytes (l : List SentPkt) (path : Nat) : Nat := l.foldl (fun a p => if p.path = path then a + p.frame.payload.length else a) 0
/-- Takes a round-trip sample on a path (10 R309). -/
def State.sample (s : State) (q path b x : Nat) : State :=
  s.updQp q fun y => { y with rttNs := x % 2 ^ 32, path := y.path.upd path {} fun w => w.ack s.net b x (nsOf s.now) }
/-- A packet's PSN is at or before `psn`. -/
def SentPkt.upTo (p : SentPkt) (psn : Nat) : Bool := decide (psnSub psn p.psn < 2 ^ 23)
/-- Acknowledges every packet up to a PSN of a standard queue pair (10 R307, R309). -/
def State.ackStandard (s : State) (q psn : Nat) : State :=
  let x := s.qp q
  if !(x.sent.any fun p => p.upTo psn) || decide (2 ^ 23 ≤ psnSub (psnSub x.sqPsn 1) psn) then s
  else
    let gone (p : SentPkt) : Bool := p.upTo psn && !p.isRead
    let b := ackBytes (x.sent.filter gone) 0
    let s := match x.sent.find? fun p => p.psn == psn && !p.isRead with
      | some p => if p.tries = 0 then s.sample q 0 b (nsOf s.now - nsOf p.since) else s
      | none => s
    s.retireSent q gone
/-- A Multipath Acknowledge: cumulative PSN and bitmap (10 R306, R307, R309). -/
def State.ackMulti (s : State) (q : Nat) (p : Packet) : State :=
  let x := s.qp q
  let hit (k : SentPkt) : Bool := k.upTo p.msn || (decide (psnSub k.psn ((p.msn + 1) % 2 ^ 24) < 64) && bit p.bitmap (psnSub k.psn ((p.msn + 1) % 2 ^ 24)))
  if decide (2 ^ 23 ≤ psnSub (psnSub x.sqPsn 1) p.msn) then s
  else
    let fresh := x.sent.filter fun k => hit k && !k.acked
    let s := if fresh.any fun k => k.path == p.path && k.tries == 0 && nsOf k.since % 2 ^ 32 == p.ts then
        s.sample q p.path (ackBytes fresh p.path) ((nsOf s.now + 2 ^ 32 - p.ts) % 2 ^ 32) else s
    let s := s.updQp q fun x => { x with sent := x.sent.map fun k => if hit k && !k.acked then { k with acked := true, ackedAt := s.now } else k }
    let s := s.dropFrames fun f => f.qp == q && f.again && fresh.any fun k => k.psn == f.psn
    let s := s.retireSent q fun k => k.upTo p.msn && !k.isRead
    s.settleWrites ((fresh.map fun k => k.frame.flight).filter (· != 0) |>.map (· - 1) |>.eraseDups)
/-- INBOUND_ACKNOWLEDGE. -/
def execInboundAcknowledge (qp : Nat) (s : State) : Host.Outcome State Fault Refusal :=
  onPacket qp (fun p => opKind p.op == 3 && p.nak == 0) s fun p s =>
    if (s.qp qp).state != .rts then s else if p.op = 0xC4 then s.ackMulti qp p else s.ackStandard qp p.psn

/-! ## Retransmission (10 R304, R307) -/

/-- A retransmission of the PSN is queued already. -/
def State.requeued (s : State) (q psn : Nat) : Bool := (s.queued q).any fun f => f.again && f.psn == psn
/-- Sends a packet again; one more than RETRY puts the queue pair into ERROR. -/
def State.resend (s : State) (q : Nat) (p : SentPkt) : State :=
  let x := s.qp q
  if x.state != .rts || s.requeued q p.psn then s
  else if x.retry ≤ p.tries then s.qpError q 1
  else
    let s := s.updQp q fun x => { x with sent := x.sent.map fun k => if k.psn = p.psn then { k with tries := k.tries + 1, waits := true } else k }
    s.enqueue q p.frame.svc [{ p.frame with again := true, psn := p.psn }]
/-- INBOUND_NAK. A sequence error sends again from a standard peer only: toward a multipath peer only the bitmaps and ACK_US do (10 R307). -/
def execInboundNak (qp : Nat) (s : State) : Host.Outcome State Fault Refusal :=
  onPacket qp (fun p => opKind p.op == 3 && p.nak != 0) s fun p s =>
    let x := s.qp qp
    if x.state != .rts || !(x.sent.any fun k => decide (psnSub p.psn k.psn < k.frame.psns)) then s
    else if p.nak = 1 then
      if x.multipath then s else
      let s := s.ackStandard qp (psnSub p.psn 1)
      (s.qp qp).sent.foldl (fun s k => if psnSub k.psn p.psn < 2 ^ 23 then s.resend qp k else s) s
    else s.qpError qp (if p.nak = 3 then 2 else 3)
/-- RETRANSMIT_TIMEOUT: ACK_US after the last send of a packet. -/
def execRetransmitTimeout (qp psn : Nat) (s : State) : Host.Outcome State Fault Refusal :=
  act s fun s =>
    let x := s.qp qp
    match x.sent.find? fun p => p.psn == psn with
    | some p =>
      if x.state == .rts && !p.acked && decide (p.since + x.ackUs * usCycles ≤ s.now) && !s.requeued qp psn then
        (s.updQp qp fun x => { x with path := x.path.upd p.path {} fun w => { w with w := s.net.wMin * 256 } }).resend qp p
      else s
    | none => s
/-- The receive gap of a queue pair has lasted REORDER_US (10 R308). -/
def State.gapNak (s : State) (q : Nat) : State :=
  let x := s.qp q
  match x.gapAt with
  | some t =>
    if t + s.net.reorderUs * usCycles ≤ s.now ∧ (x.state = .rtr ∨ x.state = .rts) then
      let s := s.updQp q fun x => { x with gapAt := none }
      if x.multipath then s.acknowledge q 0 0 else s.sendBypass x.port { kind := 2, qp := q, psn := x.rqPsn }
    else s
  | none => s
/-- REORDER_GAP_TIMEOUT: as responder the gap is answered; toward a multipath peer, packets that a later acknowledged one has passed
for REORDER_US since they were last sent go again (10 R307). -/
def execReorderGapTimeout (qp : Nat) (s : State) : Host.Outcome State Fault Refusal :=
  act s fun s =>
    let s := s.gapNak qp
    let x := s.qp qp
    if !x.multipath then s
    else
      let late (p : SentPkt) : Bool := !p.acked && x.sent.any fun k =>
        k.acked && k.psn != p.psn && p.upTo k.psn && decide (max k.ackedAt p.since + s.net.reorderUs * usCycles ≤ s.now)
      (x.sent.filter late).foldl (fun s p => s.resend qp p) s
/-- MESSAGE_TIMEOUT: a message, or a held packet of one whose first packet has not come, MSG_US after it began (10 R310). -/
def execMessageTimeout (qp msg : Nat) (s : State) : Host.Outcome State Fault Refusal :=
  act s fun s =>
    let x := s.qp qp
    let late (t : Nat) : Bool := decide (t + s.net.msgUs * usCycles ≤ s.now)
    if (x.msgs.any fun m => m.first == msg && !m.done && late m.since) || (x.held.any fun h => h.2.psn == msg && late h.1) then s.qpError qp 6 else s

/-! ## Read responses (10 R301, R323) -/

/-- The index of a response among its request's. -/
def respIndex (p : Packet) (k : SentPkt) (mtu : Nat) : Nat := if 0xC0 ≤ p.op then p.offset / mtu else psnSub p.psn k.psn
/-- Bytes of a read's responses, in order. -/
def SentPkt.data (k : SentPkt) : Bytes := (sortBy (fun a b => decide (a.1 < b.1)) k.got).flatMap (·.2)
/-- INBOUND_READ_RESPONSE: the last response of a read delivers its data to the PUT_PAGES that issued it. -/
def execInboundReadResponse (qp : Nat) (s : State) : Host.Outcome State Fault Refusal :=
  onPacket qp (fun p => opKind p.op == 4) s fun p s =>
    let x := s.qp qp
    let own (k : SentPkt) : Bool := k.isRead &&
      if 0xC0 ≤ p.op then k.frame.op == 0xC2 && k.frame.msn == p.msn else k.frame.op == 0xC && decide (psnSub p.psn k.psn < k.frame.psns)
    match x.sent.find? own with
    | none => s
    | some k =>
      let i := respIndex p k x.mtu
      if x.state != .rts || decide (k.frame.psns ≤ i) then s
      else
        let k' := { k with got := if k.got.any (fun g => g.1 == i) then k.got else (i, p.payload) :: k.got }
        if k'.got.length < k.frame.psns then s.updQp qp fun x => { x with sent := x.sent.map fun j => if j.psn = k.psn then k' else j }
        else
          let s' := s.retireSent qp fun j => j.psn == k.psn
          match s'.putData (k.frame.flight - 1) k'.data with
          | some s => s
          | none => { s with net := { s.net with accepted := (qp, p) :: s.net.accepted } }

end Sys2Proof.Machine
end

