-- ==== Sys2Proof/Machine/Vanged.lean ====
section
/-! DEFINITION. The Vanged executor: request headers, mirrored requests, PUT_PAGES, extents, and the directory's messages (10 R317 to R333). -/
namespace Sys2Proof.Machine
open Sys2Proof

/-! ## Requests (10 R317, R318, R321) -/

/-- A request as its receive slot holds it. -/
structure VReq where
  typ : Nat := 0
  inline : Bool := false
  reqSeq : Nat := 0
  extent : Nat := 0
  body : Bytes := []
deriving DecidableEq, Repr

/-- Type of request a message is, 16 more for a directory message; 0 where it has none of the table (10 R318). -/
def vangedKind (h : Nat) : Nat :=
  let t := fld h 8 8
  if bit h 18 ∧ (t = 1 ∨ t = 4) then t + 16 else if 1 ≤ t ∧ t ≤ 9 then t else 0
/-- EXTENT of a response to a header: the extent of PUT_PAGES and EXTENT_RETURN, else 0 (10 R317). -/
def extentOf (h : Nat) : Nat := if fld h 8 8 = 3 ∨ fld h 8 8 = 8 then fld h 128 32 else 0
/-- Granule word `i` of a body. -/
def bodyWord (b : Bytes) (i : Nat) : BitVec 64 := BitVec.ofNat 64 (ofLe ((b.drop (8 * i)).take 8))
/-- Body bytes of a kind of request (10 R318, R331, R333). -/
def bodyLen (kind : Nat) (inline : Bool) (b : Bytes) : Nat :=
  match kind with
  | 1 => if inline then 32 + 12 * bCount (bodyWord b 1) else 32
  | 17 => 32 + 12 * bCount (bodyWord b 1)
  | 20 => 32 + 16 * (fld (ofLe (b.take 8)) 0 32 + fld (ofLe (b.take 8)) 32 32)
  | 2 => 64
  | 3 => 64
  | 4 => 32
  | 5 => 32
  | 6 => 32
  | 7 => 32
  | _ => 0
/-- The header is of version 1, its reserved fields are 0 and its lengths fit (10 R318). -/
def headerOk (h kind len : Nat) (body : Bytes) : Bool :=
  fld h 0 4 == 1 && fld h 4 4 == 0 && fld h 19 13 == 0 && fld h 72 24 == 0 && fld h 192 64 == 0 && len == 32 + fld h 160 32 &&
    (kind == 0 || body.length == bodyLen kind (bit h 17) body)
/-- Why a request does not begin: its status, else OK (10 R318, R321). -/
def Qp.refuses (x : Qp) (h kind len : Nat) (body : Bytes) : BitVec 16 :=
  let n := fld h 32 32
  if !headerOk h kind len body then stRange
  else if kind = 0 then stOpcode
  else if n ≠ x.expect then stRange
  else if later32 n x.credit then stBusy
  else stOk
/-- Takes the oldest request of a queue pair when it is of a kind, or of no known kind: refused requests are answered, others begin
and use up their REQ_SEQ (10 R318). A request whose owner is ORPHANED ends so (13 R401). -/
def onRequest (kind q : Nat) (s : State) (k : VReq → State → State) : Host.Outcome State Fault Refusal :=
  act s fun s =>
    let x := s.qp q
    match x.slots with
    | [] => s
    | m :: rest =>
      let h := ofLe (m.take 32)
      let t := vangedKind h
      let body := m.drop 32
      if bit h 16 || !(t == kind || t == 0) then s
      else
        let st := x.refuses h t m.length body
        let n := fld h 32 32
        if st ≠ stOk then (s.updQp q fun x => { x with slots := rest }).sendResponse q (fld h 8 8) n (extentOf h) 0 st 0 none [] []
        else
          let s := s.updQp q fun x => { x with slots := rest, expect := (n + 1) % 2 ^ 32, running := x.running ++ [n] }
          if (s.ctx x.owner).state = .orphaned then s.respond q (fld h 8 8) n (extentOf h) 0 stOrphaned 0 none [] []
          else k { typ := fld h 8 8, inline := bit h 17, reqSeq := n, extent := fld h 128 32, body := body } s

/-! ## Mirrored requests (10 R318) -/

/-- Selectors all 0xFF and flags 0, but CATCHWORD for ATTEND. -/
def mirrorOk (w : BitVec 64) (op : Nat) : Bool :=
  wOpcode w == op && fld w.toNat 32 32 == 0xFFFFFFFF && fld w.toNat 8 8 == (if op = 0x30 ∧ wCatchword w then 16 else 0)
/-- The owner as the range checks of a mirrored request see it: what the message carries or the response takes is not checked against its buffers (log 41). -/
def mirrorCtx (x : Ctx) (op : Nat) (inline : Bool) : Ctx :=
  if op = 0x10 then { x with outSheets := 1048576, inSheets := if inline then 1048576 else x.inSheets }
  else if op = 0x25 then { x with inSheets := 1048576 } else x
/-- Fields that a mirrored request fixes (10 R318). -/
def mirrorFields (op : Nat) (inline : Bool) (a c : BitVec 64) : Bool :=
  if op = 0x10 then fld c.toNat 0 32 == 0 && (!inline || (bOffset a == 0 && !bAwait a))
  else if op = 0x25 then fld c.toNat 0 32 == 0 else true
/-- Starts a mirrored request as an instruction of the owner; one that fails its range checks ends at once. -/
def State.mirrored (s : State) (q op : Nat) (r : VReq) (tenant : Bytes) : State :=
  let o := (s.qp q).owner
  let w := bodyWord r.body 0
  let a := bodyWord r.body 1
  let b := bodyWord r.body 2
  let c := bodyWord r.body 3
  let x := s.ctx o
  let st := if !mirrorOk w op || !mirrorFields op r.inline a c then stRange
    else
      let st := s.dispatchCheck (mirrorCtx x op r.inline) {} w a b c
      if st = stOk ∧ (op = 0x30 ∨ op = 0x25) ∧ x.conf then stPermission else st
  let f := s.nextFlight
  let s := { s with nextFlight := f + 1 }
  let w := if wOpcode w = op then w else w &&& ~~~(0xFF : BitVec 64) ||| BitVec.ofNat 64 op
  let s := s.setFlight f { ctx := o, word := w, a := a, b := b, c := c, since := s.now, progress := s.now, mirror := some (q, r.reqSeq), tenant := tenant }
  if st = stOk then s else s.fail f st
/-- A mirrored request of a kind begins once a layout is active (04 R119). -/
def mirror (kind op q : Nat) (s : State) (tenant : VReq → Bytes) : Host.Outcome State Fault Refusal :=
  onRequest kind q (s) fun r s => s.mirrored q op r (tenant r)
/-- VANGED_LOOKUP. -/
def execVangedLookup (qp : Nat) (s : State) : Host.Outcome State Fault Refusal :=
  if s.ps.layoutValid then mirror 1 0x10 qp s fun r => if r.inline then r.body.drop 32 else [] else act s fun s => s
/-- VANGED_GET_PAGES. -/
def execVangedGetPages (qp : Nat) (s : State) : Host.Outcome State Fault Refusal :=
  if s.ps.layoutValid then mirror 2 0x25 qp s fun r => r.body.drop 32 else act s fun s => s
/-- VANGED_PUBLISH. -/
def execVangedPublish (qp : Nat) (s : State) : Host.Outcome State Fault Refusal :=
  if s.ps.layoutValid then mirror 4 0x14 qp s fun _ => [] else act s fun s => s
/-- VANGED_ATTEND. -/
def execVangedAttend (qp : Nat) (s : State) : Host.Outcome State Fault Refusal :=
  if s.ps.layoutValid then mirror 5 0x30 qp s fun _ => [] else act s fun s => s
/-- VANGED_STEP (10 R322). -/
def execVangedStep (qp : Nat) (s : State) : Host.Outcome State Fault Refusal :=
  if s.ps.layoutValid then mirror 6 0x33 qp s fun _ => [] else act s fun s => s

/-! ## LOAD (10 R320) -/

/-- RESULT of a LOAD: gauges, multipath capability, interface 1.MINOR (02 R65, R66). -/
def State.loadResult (s : State) : BitVec 64 :=
  mkWord [(0, s.net.gFolio), (8, s.net.gT0), (16, s.net.gSpine), (24, s.net.gPool), (32, 1), (40, 1), (48, s.dev.minor)]
/-- VANGED_LOAD. -/
def execVangedLoad (qp : Nat) (s : State) : Host.Outcome State Fault Refusal :=
  onRequest 9 qp s fun r s => s.respond qp 9 r.reqSeq 0 0 stOk s.loadResult none [] []

/-! ## Extents (10 R326, R327) -/

/-- Index and generation of an extent ID. -/
def extIndex (id : Nat) : Nat := fld id 0 12
def extGen (id : Nat) : Nat := fld id 12 20
/-- The ID names a granted extent of a subscriber that is not being withdrawn. -/
def State.extOk (s : State) (id sub : Nat) : Bool :=
  let e := s.extent (extIndex id)
  e.granted && !e.withdrawing && e.gen == extGen id && e.sub == sub
/-- Sheets that a subscriber's extents still reserve (log 42). -/
def State.extUsed (s : State) (sub : Nat) : Nat := s.net.exts.foldl (fun a e => if e.2.granted ∧ e.2.sub = sub then a + e.2.left else a) 0
/-- An extent index that is not in use: the pick when it is free, else the lowest (log 7). -/
def State.freeExt (s : State) (pick : Nat) : Option Nat :=
  let free (i : Nat) : Bool := !(s.extent i).granted
  if free (pick % 4096) then some (pick % 4096) else (List.range 4096).find? free
/-- EXTENT_GRANT. -/
def execExtentGrant (qp : Nat) (s : State) : Host.Outcome State Fault Refusal :=
  onRequest 7 qp s fun r s =>
    let b := ofLe r.body
    let u := (s.qp qp).subscriber
    let n := min (min (fld b 0 28) ((s.sub u).extLimit * 256 - s.extUsed u)) (s.freeSheets - s.tier.landing)
    let stop (st : BitVec 16) : State := s.respond qp 7 r.reqSeq 0 0 st 0 none [] []
    if fld b 28 228 ≠ 0 then stop stRange
    else if n = 0 then stop stNoSpace
    else
      let (v, s) := s.draw
      match s.freeExt v with
      | none => stop stNoSpace
      | some i =>
        let s := s.updExt i fun e => { gen := e.gen, granted := true, sub := u, left := n }
        let s := { s with ps := { s.ps with reserved := s.ps.reserved + n } }
        s.respond qp 7 r.reqSeq 0 0 stOk (mkWord [(0, i), (12, (s.extent i).gen), (32, n)]) none [] []
/-- EXTENT_RETURN: the withdrawal begins; the response is written at its end. -/
def execExtentReturn (qp : Nat) (s : State) : Host.Outcome State Fault Refusal :=
  onRequest 8 qp s fun r s =>
    if s.extOk r.extent (s.qp qp).subscriber then s.updExt (extIndex r.extent) fun e => { e with withdrawing := true, returnTo := some (qp, r.reqSeq) }
    else s.respond qp 8 r.reqSeq r.extent 0 stRevoked 0 none [] []
/-- EXTENT_WITHDRAWN: the last begun request naming it has ended. -/
def execExtentWithdrawn (e : Nat) (s : State) : Host.Outcome State Fault Refusal :=
  act s fun s =>
    let x := s.extent e
    if !x.granted || !x.withdrawing || x.begun != 0 then s
    else
      let s := { s with ps := { s.ps with reserved := s.ps.reserved - x.left } }
      let s := s.updExt e fun x => { gen := (x.gen + 1) % 2 ^ 20 }
      let s := match x.returnTo with
        | some (q, n) => s.respond q 8 n (e + x.gen * 4096) 0 stOk (BitVec.ofNat 64 x.left) none [] []
        | none => s
      if x.revokedBy = 0 then s else s.updSet (x.revokedBy - 1) fun c => { c with extBusy := false, extStatus := stOk }

/-! ## PUT_PAGES (10 R323, R324) -/

/-- Reserved bits of the body are 0 (00 R10). -/
def putRsvOk (b : Nat) : Bool := fld b 27 5 == 0 && fld b 44 4 == 0 && fld b 72 24 == 0 && fld b 272 240 == 0
/-- What a body asks for. -/
def parsePut (b ext : Nat) : Putting :=
  { seq := fld b 0 24, weight := bit b 24, cls := fld b 25 2, model := fld b 256 16, blocks := fld b 48 24, rkey := fld b 96 32
    addr := fld b 128 64, taddr := fld b 192 64, ext := ext }
/-- Begins a PUT_PAGES that is flight `f` on its queue pair's subscriber `sub`. -/
def State.putStart (s : State) (f sub b id : Nat) : State :=
  let c := (s.flight f).ctx
  let p := parsePut b (extIndex id)
  let fresh := (s.seq p.seq).state == 0
  let gi := fld b 32 12
  let p := { p with fresh := fresh, grec := if fresh && !p.weight then (s.gath gi).grec else {} }
  let st := s.putSeqCheck c p.seq p.blocks p.weight
  let y := s.putSeq c p
  let n := p.blocks * max y.layers 1
  if !putRsvOk b || p.blocks == 0 || !s.classOk p.cls then s.fail f stRange
  else s.readable f (s.headAddr p.seq :: s.lastAddrs p.seq) fun s =>
  if st ≠ stOk then s.fail f st
  else if fresh && !p.weight && !(s.gath gi).live then s.fail f stNotFound
  else if fresh && !p.weight && (s.gath gi).owner != c then s.fail f stPermission
  else if !s.extOk id sub then s.fail f stRevoked
  else if (s.extent p.ext).left < 16 * n then s.fail f stNoSpace
  else
    let (v, s) := s.draw
    match s.pagePick n v with
    | none => s.fail f stNoSpace
    | some base =>
      let s := s.updExt p.ext fun e => { e with begun := e.begun + 1 }
      s.putRead f { p with base := base, total := n }
/-- An earlier request of the queue pair that names the same sequence or gathering is not complete (02 R54, 10 R318). -/
def State.putWaits (s : State) (q b : Nat) : Bool :=
  let mine : Flight := { word := putWord, a := BitVec.ofNat 64 b, mirror := some (q, 0) }
  s.flights.any fun p => p.2.line == mine.line && mine.names.any fun n => p.2.names.contains n
/-- PUT_PAGES. -/
def execPutPages (qp : Nat) (s : State) : Host.Outcome State Fault Refusal :=
  if !s.ps.layoutValid || (match (s.qp qp).slots with | m :: _ => s.putWaits qp (ofLe ((m.drop 32).take 64)) | [] => false) then act s fun s => s
  else onRequest 3 qp s fun r s =>
    let b := ofLe r.body
    let f := s.nextFlight
    let s := { s with nextFlight := f + 1 }
    let s := s.setFlight f { ctx := (s.qp qp).owner, word := putWord, a := BitVec.ofNat 64 b, c := BitVec.ofNat 64 r.extent, since := s.now, progress := s.now, mirror := some (qp, r.reqSeq) }
    s.putStart f (s.qp qp).subscriber b r.extent

end Sys2Proof.Machine
end

