-- ==== Sys2Proof/Machine/Directory.lean ====
section
/-! DEFINITION. The pod directory's messages and a worker's consultations (10 R329 to R333). -/
namespace Sys2Proof.Machine
open Sys2Proof

/-- Keys a directory message holds at most. -/
abbrev dirKeysMost : Nat := 2044
/-- DIR_KEY_FLUSH: a worker's queued keys go out; a message that its queue pair cannot send is counted (10 R331). -/
def execDirKeyFlush (qp : Nat) (s : State) : Host.Outcome State Fault Refusal :=
  act s fun s =>
    let n := s.net
    if !n.worker || n.dirQp != qp || (n.dirAdds.isEmpty && n.dirDels.isEmpty) then s
    else
      let adds := n.dirAdds.take dirKeysMost
      let dels := n.dirDels.take (dirKeysMost - adds.length)
      let s := { s with net := { n with dirAdds := n.dirAdds.drop adds.length, dirDels := n.dirDels.drop dels.length, dirSince := s.now } }
      let body := leBytes 32 (adds.length + dels.length * 2 ^ 32) ++ (adds ++ dels).flatMap fun k => leBytes 16 k.toNat
      let x := s.qp qp
      if x.state ≠ .rts then s.countDev 6 1
      else
        (s.updQp qp fun x => { x with reqNext := (x.reqNext + 1) % 2 ^ 32 }).sendMessage qp false 2 0 0
          (vangedHeader 4 false false true x.reqNext 0 0 0 body.length ++ body) 0 false true
/-- The worker that a queue pair belongs to, for directory messages (10 R329, R332). -/
def State.workerOf (s : State) (q : Nat) : Option Nat :=
  if s.net.role && (s.qp q).dirPeer then (List.range 64).find? fun w => s.net.peers.get w 0 == q + 16384 else none
/-- DIR_KEY_MESSAGE: additions, then deletions (10 R332). -/
def execDirKeyMessage (qp : Nat) (s : State) : Host.Outcome State Fault Refusal :=
  onRequest 20 qp s fun r s =>
    match s.workerOf qp with
    | none => s.respond qp 4 r.reqSeq 0 0 stPermission 0 none [] []
    | some w =>
      let adds := fld (ofLe (r.body.take 8)) 0 32
      let dels := fld (ofLe (r.body.take 8)) 32 32
      let keys := (chunks 16 (adds + dels) (r.body.drop 32)).map fun k => BitVec.ofNat 128 (ofLe k)
      let s := (keys.take adds).foldl (fun s k => s.dirPut true w k) s
      let s := (keys.drop adds).foldl (fun s k => s.dirPut false w k) s
      let (v, s) := s.draw
      s.respond qp 4 r.reqSeq 0 0 stOk (BitVec.ofNat 64 v) none [] []
/-- The granule of a directory LOOKUP is one a worker sends: opcode 0x10 with selectors 0xFF and flags 0, A's OFFSET and AWAIT 0, no field of it
reserved or unused by the directory set (00 R10; 10 R318, R333). -/
def dirGranuleOk (body : Bytes) : Bool :=
  let a := bodyWord body 1
  let b := (bodyWord body 2).toNat
  mirrorOk (bodyWord body 0) 0x10 && bOffset a == 0 && fld a.toNat 56 8 == 0 && bCount a != 0 && fld b 49 15 == 0 && bodyWord body 3 == 0
/-- DIR_LOOKUP: the descent over the directory's entries; with no match WORKERS is a free value (10 R333). -/
def execDirLookup (qp : Nat) (s : State) : Host.Outcome State Fault Refusal :=
  onRequest 17 qp s fun r s =>
    match s.workerOf qp with
    | none => s.respond qp 1 r.reqSeq 0 0 stPermission 0 none [] []
    | some _ =>
      if !dirGranuleOk r.body then s.respond qp 1 r.reqSeq 0 0 stRange 0 none [] [] else
      let b := (bodyWord r.body 2).toNat
      let n := bCount (bodyWord r.body 1)
      let hs := (chunks 12 n (r.body.drop 32)).map fun h => BitVec.ofNat 96 (ofLe h)
      let (m, w) := s.dirDescent (fld b 0 16) (scopesOf b) hs (probes n) 0 none
      let (v, s) := s.draw
      let workers := match w with | some (p, _) => s.workersAt p | none => v
      s.respond qp 1 r.reqSeq 0 0 (matchStatus m n) (BitVec.ofNat 64 m) none [] (leBytes 32 (workers % 2 ^ 64))
/-- A LOOKUP's list was cut (10 R333 TRUNC). -/
def Flight.cut (x : Flight) : Bool := decide (dirMost < bCount x.a)
/-- DIR_LOOKUP_RESPONSE: the oldest message of a queue pair is a response; on the queue pair to the directory it answers the LOOKUP that
asked. The device uses no other response (10 R333). -/
def execDirLookupResponse (qp : Nat) (s : State) : Host.Outcome State Fault Refusal :=
  act s fun s =>
    match (s.qp qp).slots with
    | [] => s
    | m :: rest =>
      let h := ofLe (m.take 32)
      if !bit h 16 then s
      else
        let s := s.updQp qp fun x => { x with slots := rest }
        let n := fld h 32 32
        let asked (p : Nat × Flight) : Bool := match p.2.job with | .dirWait _ _ _ _ r => r == n | _ => false
        if qp ≠ s.net.dirQp ∨ fld h 8 8 ≠ 1 then s
        else
          match s.flights.find? asked with
          | none => s
          | some (f, x) =>
            match x.job with
            | .dirWait st res _ _ _ =>
              let e := ofLe ((m.drop 32).take 32)
              let md := fld e 64 24
              let (sc, s) := s.answerScope x.b.toNat md
              s.dirAnswer f (dirRecord (ofLe ((m.drop 64).take 8)) md sc (fld x.b.toNat 0 16) true x.cut (BitVec.ofNat 16 (fld e 16 16))) st res
            | _ => s
/-- DIR_LOOKUP_TIMEOUT: MSG_US without an answer; what only an answer tells is a free value (10 R333). -/
def execDirLookupTimeout (f : Nat) (s : State) : Host.Outcome State Fault Refusal :=
  act s fun s =>
    let x := s.flight f
    match x.job with
    | .dirWait st res _ since _ =>
      if since + s.net.msgUs * usCycles ≤ s.now then
        let (w, s) := s.draw
        let (v, s) := s.draw
        s.dirAnswer f (dirRecord w v (v / 2 ^ 24 % 65536) (fld x.b.toNat 0 16) false x.cut stTimeout) st res
      else s
    | _ => s

end Sys2Proof.Machine
end

