-- ==== Sys2Proof/Machine/Egress.lean ====
section
/-! DEFINITION. The egress scheduler: arbitration, shapers, meters' ticks, time gates and queue sampling (11 R335 to R351, R356). -/
namespace Sys2Proof.Machine
open Sys2Proof

/-! ## Time gates (11 R348 to R351) -/

/-- Units of network time in a nanosecond. -/
abbrev netUnit : Nat := 5376000000000
/-- Network time in whole ns. -/
def State.netNs (s : State) : Nat := s.ptp.time / netUnit
/-- Gate block of port `p`. -/
def State.gcl (s : State) (p : Nat) : Gcl := s.eg.gcl.get p {}
/-- Changes the gate block of port `p`. -/
def State.updGcl (s : State) (p : Nat) (f : Gcl → Gcl) : State := { s with eg := { s.eg with gcl := s.eg.gcl.upd p {} f } }
/-- GATES and INTERVAL of a list entry. -/
def gclGates (e : BitVec 64) : Nat := fld e.toNat 0 6
def gclInterval (e : BitVec 64) : Nat := fld e.toNat 32 32
/-- The slices of a cycle from `start` on: entry, start, end, gates. The last entry lasts to the end of the cycle; what lies beyond is cut off. -/
def Gcl.slices (g : Gcl) : Nat → Nat → Nat → List (Nat × Nat × Nat × Nat)
  | 0, _, _ => []
  | k + 1, i, start =>
    let e := g.oper.get i 0
    let stop := if i + 1 = g.operLen then g.operCycle else min (start + gclInterval e) g.operCycle
    (if start < stop then [(i, start, stop, gclGates e)] else []) ++ g.slices k (i + 1) stop
/-- The slices of the operational list. -/
def Gcl.cycle (g : Gcl) : List (Nat × Nat × Nat × Nat) := g.slices g.operLen 0 0
/-- The list is in force at a time. -/
def Gcl.running (g : Gcl) (ns : Nat) : Bool := g.en && g.operLen != 0 && decide (g.operBase ≤ ns)
/-- Entry and gate states at a time (11 R349). -/
def Gcl.at_ (g : Gcl) (ns : Nat) : Nat × Nat :=
  if !g.en then (0, 0x3F)
  else if !g.running ns then (0, g.deflt)
  else
    let x := (ns - g.operBase) % max g.operCycle 1
    match g.cycle.find? fun c => decide (x < c.2.2.1) with
    | some c => (c.1, c.2.2.2)
    | none => (0, g.deflt)
/-- The next time at which the operational list closes service `v`'s gate, which is open at `ns`; none: never. -/
def Gcl.listCloses (g : Gcl) (ns v : Nat) : Option Nat :=
  if !g.en ∨ g.operLen = 0 then none
  else
    let c := g.cycle
    let two := c ++ c.map fun x => (x.1, x.2.1 + g.operCycle, x.2.2.1 + g.operCycle, x.2.2.2)
    if ns < g.operBase then (two.find? fun x => !bit x.2.2.2 v).map fun x => g.operBase + x.2.1
    else
      let o := (ns - g.operBase) % max g.operCycle 1
      (two.find? fun x => decide (o < x.2.1) && !bit x.2.2.2 v).map fun x => ns - o + x.2.1
/-- The pending change in force: OPER_BASE is its change time (11 R351). -/
def Gcl.changed (g : Gcl) : Gcl := { g with pending := false, oper := g.next, operLen := g.nextLen, operBase := g.changeT, operCycle := g.nextCycle }
/-- The next time at which the schedule closes service `v`'s gate, which is open at `ns`, a pending change being part of the schedule from
its change time on; none: never (11 R349 to R351). -/
def Gcl.closes (g : Gcl) (ns v : Nat) : Option Nat :=
  if g.en ∧ g.pending ∧ ns < g.changeT then
    match g.listCloses ns v with
    | some t => if t < g.changeT then some t else if bit (g.changed.at_ g.changeT).2 v then g.changed.listCloses g.changeT v else some g.changeT
    | none => if bit (g.changed.at_ g.changeT).2 v then g.changed.listCloses g.changeT v else some g.changeT
  else g.listCloses ns v
/-- A service that waits for its gate to open again, after a closing that was due: it still waits while the gate has not closed, and for
the closing of the schedule as it now is; with none left it waits no more (11 R350; log 120). -/
def Gcl.reshut (g : Gcl) (base ns : Nat) (t : Tbl Nat) : Tbl Nat :=
  (List.range 6).foldl (fun t v =>
    if ns < t.get (base + v) 0 ∧ bit (g.at_ ns).2 v = true then t.set (base + v) ((g.closes ns v).getD 0) 0
    else t.del (base + v)) t
/-- ENTRY and GATES follow the network time. -/
def State.refreshGates (s : State) (p : Nat) : State :=
  let ns := s.netNs
  let s := { s with eg := { s.eg with shut := (s.gcl p).reshut (8 * p) ns s.eg.shut } }
  s.updGcl p fun g => { g with entry := (g.at_ ns).1, gates := (g.at_ ns).2 }
/-- All ports' gates follow a step of the network time (11 R349). -/
def State.refreshAll (s : State) : State := (List.range 8).foldl (fun s p => s.refreshGates p) s
/-- The admin schedule is refused (11 R351). -/
def Gcl.adminBad (g : Gcl) : Bool :=
  decide (g.adminLen < 1 ∨ 256 < g.adminLen ∨ g.adminCycle < 1000 ∨ 1000000000 < g.adminCycle ∨ 1000000000 ≤ g.adminNs ∨ g.adminRsv ≠ 0) ||
    (List.range g.adminLen).any fun i => let e := g.admin.get i 0; decide (gclInterval e < 64) || fld e.toNat 6 26 != 0
/-- The change time of a COMMIT (11 R351). -/
def Gcl.changeTime (g : Gcl) (time : Nat) : Nat :=
  let base := g.adminSec * 1000000000 + g.adminNs
  let least := cdiv time netUnit + 2000
  if least ≤ base then base else base + cdiv (least - base) g.adminCycle * g.adminCycle
/-- COMMIT. -/
def State.gclCommit (s : State) (p : Nat) (rsv : Bool) : State :=
  let g := s.gcl p
  if g.adminBad || rsv then s.updGcl p fun g => { g with cfgErr := true }
  else
    s.updGcl p fun g => { g with
      pending := true, changeT := g.changeTime s.ptp.time, next := g.admin.filter fun e => decide (e.1 < g.adminLen), nextLen := g.adminLen, nextCycle := g.adminCycle }
/-- A write of GCL_CTL. -/
def State.gclWrite (s : State) (p v : Nat) : State :=
  let rsv := decide (fld v 4 4 ≠ 0 ∨ fld v 14 2 ≠ 0 ∨ fld v 25 7 ≠ 0 ∨ fld v 41 7 ≠ 0 ∨ fld v 62 2 ≠ 0)
  let s := s.updGcl p fun g => { g with en := bit v 0, cfgErr := g.cfgErr && !bit v 3, deflt := fld v 8 6, adminLen := fld v 16 9 }
  let s := if bit v 1 then s.gclCommit p rsv else s
  s.refreshGates p
/-- GCL_COMMIT. -/
def execGclCommit (port : Nat) (v : BitVec 64) (s : State) : Host.Outcome State Fault Refusal :=
  act s fun s => if port < s.lanes then s.gclWrite port v.toNat else s
/-- GCL_CHANGE_TIME: network time has reached T; trace point 7 (14 R442). -/
def execGclChangeTime (port : Nat) (s : State) : Host.Outcome State Fault Refusal :=
  act s fun s =>
    let g := s.gcl port
    if g.pending ∧ g.changeT ≤ s.netNs then
      ((s.updGcl port Gcl.changed).refreshGates port).trace 7 [port]
    else s
/-- GCL_ENTRY_CHANGE. -/
def execGclEntryChange (port : Nat) (s : State) : Host.Outcome State Fault Refusal := act s fun s => if port < s.lanes then s.refreshGates port else s

/-! ## Ticks (11 R335, R340, R342, R346, R347) -/

/-- Ticks begun. -/
def State.ticks (s : State) : Nat := s.now / 1024 + 1
/-- The fields of EG_METER_s from its two words. -/
def meterOf (w0 w1 : Nat) : Meter :=
  { cir := fld w0 0 32, pir := fld w0 32 32, cbs := fld w1 0 24, pbs := fld w1 24 24, mode := bit w1 48, aware := bit w1 49, en := bit w1 50 }
/-- A meter's tick: a write takes effect, then the buckets gain. -/
def Meter.tick (m : Meter) : Meter :=
  let n := meterOf m.w0.toNat m.w1.toNat
  let m := if !m.dirty then m
    else
      let full := n.en && !m.en
      { n with w0 := m.w0, w1 := m.w1, ctok := if full then n.cbs * 256 else min m.ctok (n.cbs * 256), ptok := if full then n.pbs * 256 else min m.ptok (n.pbs * 256) }
  { m with ctok := min (m.cbs * 256) (m.ctok + m.cir), ptok := min (m.pbs * 256) (m.ptok + m.pir) }
/-- METER_TICK: one tick of every meter. -/
def execMeterTick (s : State) : Host.Outcome State Fault Refusal :=
  act s fun s =>
    if s.eg.meterTicks < s.ticks then
      { s with eg := { s.eg with meterTicks := s.eg.meterTicks + 1, meters := s.eg.meters.foldl (fun t m => t.set m.1 m.2.tick {}) [] } }
    else s
/-- A shaper's refill: it adopts what was written, or gains. -/
def Shaper.refill (h : Shaper) : Shaper :=
  match h.written with
  | some v =>
    let rate := fld v.toNat 0 32
    let burst := fld v.toNat 32 24
    let en := bit v.toNat 56
    let t : Int := if en && !h.en then Int.ofNat (burst * 256) else min (h.tokens + Int.ofNat rate) (Int.ofNat (burst * 256))
    { rate := rate, burst := burst, en := en, tokens := t }
  | none => { h with tokens := min (h.tokens + Int.ofNat h.rate) (Int.ofNat (h.burst * 256)) }
/-- SHAPER_REFILL: one tick of every shaper. -/
def execShaperRefill (s : State) : Host.Outcome State Fault Refusal :=
  act s fun s =>
    if s.eg.shaperTicks < s.ticks then
      { s with eg := { s.eg with
          shaperTicks := s.eg.shaperTicks + 1
          ssh := s.eg.ssh.foldl (fun t h => t.set h.1 h.2.refill {}) []
          subSh := s.eg.subSh.foldl (fun t h => t.set h.1 h.2.refill {}) [] } }
    else s
/-- A shaper lets a frame start. -/
def Shaper.open (h : Shaper) : Bool := !h.en || decide (0 < h.tokens)
/-- Starting a frame of `n` bytes. -/
def Shaper.debit (h : Shaper) (n : Nat) : Shaper := if h.en then { h with tokens := h.tokens - Int.ofNat (n * 256) } else h

/-! ## Selection (10 R309, 11 R343 to R345, R350) -/

/-- Bytes unacknowledged on a path (10 R309; log 43: payload bytes). A packet that waits to be sent again is on no path (log 44). -/
def Qp.unackedOn (x : Qp) (i : Nat) : Nat :=
  x.sent.foldl (fun a p => if p.path = i ∧ p.acked = false ∧ p.waits = false then a + p.frame.payload.length else a) 0
/-- The path a packet would take: the most free window, the lowest index among equals. -/
def Qp.bestPath (x : Qp) : Nat :=
  if !x.multipath then 0
  else
    let free (i : Nat) : Nat := (x.path.get i {}).w - x.unackedOn i
    (List.range (x.paths + 1)).foldl (fun b i => if free b < free i then i else b) 0
/-- The window of the path it would take lets a frame pass, new or sent again (11 R343); RTR, where no window is set, sends its read responses
(10 R303, R309; log 44). -/
def Qp.admits (x : Qp) (f : Frame) : Bool :=
  (f.isResponse && x.state == .rtr) || (x.state == .rts && let i := x.bestPath; decide (x.unackedOn i + f.payload.length ≤ (x.path.get i {}).w))
/-- The next frame of a queue pair in a queue: retransmissions first. -/
def nextOf (q : Nat) (l : List Frame) : Option Frame := (l.find? fun f => f.qp == q && f.again) <|> l.find? fun f => f.qp == q
/-- The frame whose turn it is in a queue: queue pairs take turns in ascending order (log 45). -/
def State.queueNext (s : State) (k : Nat) : Option Frame :=
  let l := s.eg.queues.get k []
  let ready := (l.map (·.qp)).eraseDups.filterMap fun q => match nextOf q l with | some f => if (s.qp q).admits f then some f else none | none => none
  let last := s.eg.qpTurn.get k 0
  let key (f : Frame) : Nat := if last ≤ f.qp then f.qp - last else f.qp + 2 ^ 14
  ready.foldl (fun (a : Option Frame) f => match a with | none => some f | some b => if key f < key b then some f else some b) none
/-- The state of a round: member reached last + 1, and deficits by key `base + member`. -/
structure Round where
  turn : Nat := 0
  deficit : Tbl Nat := []
deriving DecidableEq, Repr
/-- The member the round reaches after the one it reached last, among ascending eligible members with the length of their next frame. -/
def Round.next (r : Round) (ms : List (Nat × Nat)) : Option (Nat × Nat) := (ms.find? fun m => decide (r.turn ≤ m.1)) <|> ms.head?
/-- Deficit round robin among eligible members (11 R345): the member that sends, and the round then. Members of the round (`mem`) that are
passed while not eligible lose their deficit. -/
def Round.run (base n : Nat) (mem : Nat → Bool) (quantum : Nat → Nat) (ms : List (Nat × Nat)) : Nat → Round → Option (Nat × Round)
  | 0, _ => none
  | k + 1, r =>
    match r.next ms with
    | none => none
    | some (m, len) =>
      let passed (i : Nat) : Bool := if r.turn ≤ m then decide (r.turn ≤ i ∧ i < m) else decide (r.turn ≤ i ∨ i < m)
      let d : Tbl Nat := r.deficit.filter fun e => !(decide (base ≤ e.1 ∧ e.1 < base + n) && mem (e.1 - base) && passed (e.1 - base))
      let have_ := Tbl.get d (base + m) 0 + quantum m
      let r := { turn := m + 1, deficit := Tbl.set d (base + m) have_ 0 }
      if len ≤ have_ then some (m, r) else Round.run base n mem quantum ms k r
/-- One choice: the member reached last goes on while its deficit lasts, else the round moves on; a member that was eligible when it was reached
keeps what is left (11 R345). -/
def Round.choose (base n : Nat) (mem : Nat → Bool) (quantum : Nat → Nat) (ms : List (Nat × Nat)) (r : Round) : Option (Nat × Round) :=
  match ms.find? fun m => decide (m.1 + 1 = r.turn) with
  | some (m, len) => if len ≤ r.deficit.get (base + m) 0 then some (m, r) else Round.run base n mem quantum ms (70 * (ms.length + 1)) r
  | none => Round.run base n mem quantum ms (70 * (ms.length + 1)) r
/-- After a frame of `len` bytes: the deficit falls, to 0 when the member has emptied. -/
def Round.sent (r : Round) (key len : Nat) (empty : Bool) : Round := { r with deficit := if empty then r.deficit.del key else r.deficit.set key (r.deficit.get key 0 - len) 0 }

/-- Ready subscribers of a service on a port, with their next frames (11 R344). -/
def State.readySubs (s : State) (p v : Nat) : List (Nat × Frame) :=
  s.eg.queues.filterMap fun (k : Nat × List Frame) =>
    if k.1 / 2048 = p ∧ k.1 % 8 = v then
      let sub := k.1 / 8 % 256
      if (s.eg.subSh.get sub {}).open then (s.queueNext k.1).map fun f => (sub, f) else none
    else none
/-- Quanta in bytes. -/
def State.svcQuantumOf (s : State) (v : Nat) : Nat := 64 * s.eg.svcQuantum.get v 128
def State.subQuantumOf (s : State) (sub : Nat) : Nat := 64 * s.eg.subQuantum.get sub 128
/-- PRIO of a service; a stored value is PRIO + 1. -/
def State.prioOf (s : State) (v : Nat) : Nat := let n := s.eg.prio.get v 0; if n = 0 then [6, 3, 3, 7, 1, 5].getD v 0 else n - 1
/-- The frame a service would send from a port, and its subscribers' round then. -/
def State.svcNext (s : State) (p v : Nat) : Option (Nat × Frame × Round) :=
  let ready := s.readySubs p v
  let base := 2048 * p + 256 * v
  match Round.choose base 256 (fun _ => true) s.subQuantumOf (ready.map fun m => (m.1, m.2.len)) { turn := s.eg.subTurn.get (8 * p + v) 0, deficit := s.eg.subDeficit } with
  | some (sub, r) => (ready.find? fun m => m.1 == sub).map fun m => (sub, m.2, r)
  | none => none
/-- Line rate of a port in GB/s (11 R350). -/
def State.lineRate (s : State) : Nat := 200 / 2 ^ s.net.mode
/-- The frame's transmission ends before the gate closes (11 R350). -/
def State.fits (s : State) (p v len : Nat) : Bool :=
  match (s.gcl p).closes s.netNs v with
  | none => true
  | some t => decide (s.ptp.time * s.lineRate + (len + 20) * netUnit ≤ t * netUnit * s.lineRate)
/-- The service's gate and shaper let it send (11 R344), and it does not wait for its gate to open again (11 R350). -/
def State.svcOpen (s : State) (p v : Nat) : Bool :=
  bit ((s.gcl p).at_ s.netNs).2 v && (s.eg.ssh.get (8 * p + v) {}).open && decide (s.eg.shut.get (8 * p + v) 0 ≤ s.netNs)
/-- Eligible services with their frames. -/
def State.eligible (s : State) (p : Nat) : List (Nat × Nat × Frame × Round) :=
  (List.range 6).filterMap fun v => if s.svcOpen p v then (match s.svcNext p v with | some x => if s.fits p v x.2.1.len then some (v, x) else none | none => none) else none
/-- Services whose selected frame does not fit wait for their gates to open again (11 R350). -/
def State.shutOut (s : State) (p : Nat) : State :=
  (List.range 6).foldl (fun s v =>
    match (if s.svcOpen p v then s.svcNext p v else none), (s.gcl p).closes s.netNs v with
    | some x, some t => if s.fits p v x.2.1.len then s else { s with eg := { s.eg with shut := s.eg.shut.put (8 * p + v) t } }
    | _, _ => s) s

/-! ## Sending (11 R344) -/

/-- A multipath packet carries its send time (10 R306). -/
def Qp.stamp (x : Qp) (now : Nat) (f : Frame) : Frame := if x.multipath then { f with ts := nsOf now % 2 ^ 32 } else f
/-- A frame starts on a port: a new packet takes its PSN and path and waits for its acknowledgement (10 R305, R309). -/
def State.startFrame (s : State) (p : Nat) (f : Frame) : State :=
  let x := s.qp f.qp
  let i := x.bestPath
  let f := x.stamp s.now f
  let s := s.countDev 16 1
  if f.isResponse then s.emitOut (.frame p i f.psn f)
  else if f.again then
    (s.updQp f.qp fun x => { x with sent := x.sent.map fun k => if k.psn = f.psn then { k with since := s.now, path := i, waits := false } else k }).emitOut (.frame p i f.psn f)
  else
    (s.updQp f.qp fun y => { y with sqPsn := (y.sqPsn + f.psns) % 2 ^ 24, sent := y.sent ++ [{ psn := y.sqPsn, frame := f, path := i, since := s.now }] }).emitOut (.frame p i x.sqPsn f)
/-- Sends subscriber `sub`'s frame of service `v`: queue, deficits and shapers. -/
def State.sendFrame (s : State) (p v sub : Nat) (f : Frame) (subs svcs : Round) : State :=
  let k := queueIdx p sub v
  let l := (s.eg.queues.get k []).erase f
  let e := s.eg
  let s := { s with eg := { e with queues := e.queues.set k l [], qpTurn := e.qpTurn.put k (f.qp + 1) } }
  let subs := subs.sent (2048 * p + 256 * v + sub) f.len l.isEmpty
  let none_ := !(s.eg.queues.any fun k => k.1 / 2048 == p && k.1 % 8 == v)
  let svcs := svcs.sent (8 * p + v) f.len none_
  let s := { s with eg := { s.eg with
      subDeficit := subs.deficit, subTurn := s.eg.subTurn.put (8 * p + v) subs.turn
      svcDeficit := svcs.deficit, svcTurn := s.eg.svcTurn.put (8 * p + s.prioOf v) svcs.turn
      ssh := s.eg.ssh.upd (8 * p + v) {} fun h => h.debit f.len, subSh := s.eg.subSh.upd sub {} fun h => h.debit f.len } }
  s.startFrame p f
/-- A bypass frame starts; a Delay_Req takes its egress timestamp (11 R338, R353). -/
def State.startBypass (s : State) (p : Nat) (b : Bypass) : State :=
  let s := (s.countDev 16 1).emitOut (.bypass p b)
  if b.kind = 5 then { s with ptp := { s.ptp with delayReq := some (Int.ofNat (s.netNs + s.ptp.txNs), b.psn) } } else s
/-- FRAME_TX: a frame boundary of a port. -/
def execFrameTx (port : Nat) (s : State) : Host.Outcome State Fault Refusal :=
  act s fun s =>
    if !s.portUp port || s.dev.engineDown.get 7 false then s
    else
      match s.eg.bypass.get port [] with
      | b :: r => ({ s with eg := { s.eg with bypass := s.eg.bypass.set port r [] } }).startBypass port b
      | [] =>
        let s := s.shutOut port
        let all := s.eligible port
        let top := all.foldl (fun a m => max a (s.prioOf m.1)) 0
        let ms := all.filter fun m => s.prioOf m.1 == top
        match Round.choose (8 * port) 8 (fun v => s.prioOf v == top) s.svcQuantumOf (ms.map fun m => (m.1, m.2.2.1.len)) { turn := s.eg.svcTurn.get (8 * port + top) 0, deficit := s.eg.svcDeficit } with
        | none => s
        | some (v, svcs) =>
          match ms.find? fun m => m.1 == v with
          | some m => s.sendFrame port v m.2.1 m.2.2.1 m.2.2.2 svcs
          | none => s

/-! ## Queue sampling (11 R356) -/

/-- The bin of a value. -/
def binOf (shift y : Nat) : Nat := if y = 0 then 0 else if y < 2 ^ shift then 1 else min 15 (Nat.log2 (y / 2 ^ shift) + 2)
/-- Frames of a queue's messages not yet sent. -/
def notSent (l : List Frame) : List Frame := l.filter fun f => !f.again
/-- Depth and delay of a queue. -/
def State.queueSample (s : State) (l : List Frame) : Nat × Nat :=
  let u := notSent l
  let oldest := u.foldl (fun a f => min a f.since) s.now
  (u.foldl (fun a f => a + f.payload.length) 0, if u.isEmpty then 0 else nsOf (s.now - oldest))
/-- HIST_SAMPLE: every queue once; a queue without work counts in its bins 0. -/
def execHistSample (s : State) : Host.Outcome State Fault Refusal :=
  act s fun s =>
    if s.now / 1024 < s.eg.histNext then s
    else
      let bins := s.eg.queues.foldl (fun t k =>
        let (d, y) := s.queueSample k.2
        let i := binOf s.eg.depthShift d
        let j := binOf s.eg.delayShift y
        let t := if i = 0 then t else t.upd (32 * k.1 + i) 0 (· + 1)
        if j = 0 then t else t.upd (32 * k.1 + 16 + j) 0 (· + 1)) s.eg.bins
      { s with eg := { s.eg with bins := bins, samples := s.eg.samples + 1, histNext := s.eg.histNext + s.eg.histInterval } }
/-- Bin `i` of a queue, as it reads. -/
def Eg.bin (e : Eg) (q i : Nat) : Nat :=
  let half := i / 16 * 16
  let rest := (List.range 15).foldl (fun a j => a + e.bins.get (32 * q + half + j + 1) 0) 0
  min 0xFFFFFFFF (if i % 16 = 0 then e.samples - e.cleared.get q 0 - rest else e.bins.get (32 * q + i) 0)
/-- A queue exists: services 0 to 5 of the part's ports (11 R343). -/
def State.queueExists (s : State) (q : Nat) : Bool := decide (q % 8 < 6 ∧ q / 2048 < s.lanes)
/-- HIST_COPY: a write of EG_HIST_CMD. -/
def execHistCopy (v : BitVec 64) (s : State) : Host.Outcome State Fault Refusal :=
  act s fun s =>
    let q := fld v.toNat 0 14
    let b := (List.range 32).map fun i => (i, if s.queueExists q then s.eg.bin q i else 0)
    let e := { s.eg with histData := b.filter fun x => x.2 != 0, histDone := true, histSat := b.any fun x => x.2 == 0xFFFFFFFF }
    let e := if bit v.toNat 14 then { e with bins := e.bins.filter fun x => x.1 / 32 != q, cleared := e.cleared.set q e.samples 0 } else e
    { s with eg := e }

end Sys2Proof.Machine
end

