-- ==== Sys2Proof/Machine/Time.lean ====
section
/-! DEFINITION. The time unit (11 R353 to R355, R358; 15 R466). -/
namespace Sys2Proof.Machine
open Sys2Proof

/-- Changes the time unit. -/
def State.updPtp (s : State) (f : Ptp → Ptp) : State := { s with ptp := f s.ptp }
/-- PTP_STATUS.STATE of a state, as 11 R358 numbers them. -/
def PtpState.num : PtpState → Nat
  | .disabled => 0 | .listening => 1 | .uncalibrated => 2 | .locked => 3 | .holdover => 4
/-- The time unit's state changes: trace point 6 (11 R355, 14 R442). -/
def State.ptpTo (s : State) (x : PtpState) : State := if s.ptp.state = x then s else (s.updPtp fun p => { p with state := x }).trace 6 [x.num]
/-- An Ethernet port's message is one the time unit takes (11 R353). -/
def State.ptpTakes (s : State) (m : PtpMsg) : Bool :=
  s.ptp.en && m.port == s.ptp.port && m.transport == s.ptp.transport && m.domain == s.ptp.domain && s.portUp m.port && !s.dev.engineDown.get 8 false
/-- Fabric cycles in a second. -/
abbrev secCycles : Nat := 1050000000
/-- Cycles of an interval given as its base-2 logarithm + 128. -/
def intervalCycles (l : Nat) : Nat := if 128 ≤ l then secCycles * 2 ^ (l - 128) else secCycles / 2 ^ (128 - l)

/-! ## Parent selection (11 R353: the best master clock algorithm; log 46) -/

/-- `a` is better than `b`: the data set comparison. -/
def Foreign.better (a b : Foreign) : Bool :=
  let k (x : Foreign) : List Nat :=
    if a.gmId = b.gmId then [x.steps, x.clockId.toNat, x.portNum]
    else [x.prio1, x.cls, x.accuracy, x.variance, x.prio2, x.gmId.toNat]
  let rec go : List Nat → List Nat → Bool
    | x :: xs, y :: ys => if x = y then go xs ys else decide (x < y)
    | _, _ => false
  go (k a) (k b)
/-- Announces have gone on: the last is not older than 3 intervals. -/
def Foreign.alive (a : Foreign) (now : Nat) : Bool := decide (now < a.since + 3 * intervalCycles a.logInt)
/-- It qualifies: two Announces within 4 intervals, fewer than 255 steps. -/
def Foreign.qualifies (a : Foreign) (now : Nat) : Bool :=
  a.alive now && decide (a.steps < 255) && match a.before with | some t => decide (a.since ≤ t + 4 * intervalCycles a.logInt) | none => false
/-- The best of those that qualify. -/
def State.bestForeign (s : State) : Option Foreign :=
  (s.ptp.foreign.filter fun a => a.qualifies s.now).foldl (fun b a => match b with | none => some a | some c => if a.better c then some a else some c) none
/-- The parent follows the best master; LISTENING ends when there is one (11 R355). -/
def State.selectParent (s : State) : State :=
  match s.bestForeign with
  | none => s
  | some a =>
    let s := s.updPtp fun p => { p with parent := true, clockId := a.clockId, parentPort := a.portNum }
    if s.ptp.state = .listening then (s.updPtp fun p => { p with good := 0, lastSync := s.now }).ptpTo .uncalibrated else s
/-- PTP_ANNOUNCE. -/
def execPtpAnnounce (m : PtpMsg) (s : State) : Host.Outcome State Fault Refusal :=
  act s fun s =>
    if !s.ptpTakes m then s
    else
      let same (a : Foreign) : Bool := a.clockId == m.clockId && a.portNum == m.portNum
      let old := s.ptp.foreign.find? same
      let a : Foreign :=
        { prio1 := m.prio1, cls := m.cls, accuracy := m.accuracy, variance := m.variance, prio2 := m.prio2, gmId := m.gmId, steps := m.steps
          clockId := m.clockId, portNum := m.portNum, since := s.now, before := old.map (·.since), logInt := (m.logInterval + 128).toNat }
      (s.updPtp fun p => { p with foreign := (p.foreign.filter fun b => !same b) ++ [a] }).selectParent
/-- ANNOUNCE_TIMEOUT: the parent's Announces have ended. -/
def execAnnounceTimeout (s : State) : Host.Outcome State Fault Refusal :=
  act s fun s =>
    let mine (a : Foreign) : Bool := a.clockId == s.ptp.clockId && a.portNum == s.ptp.parentPort
    if !s.ptp.parent || s.ptp.foreign.any (fun a => mine a && a.alive s.now) then s
    else
      let s := s.updPtp fun p => { p with foreign := p.foreign.filter fun a => !mine a, parent := false, clockId := 0, parentPort := 0 }
      if s.bestForeign.isSome then s.selectParent
      else if s.ptp.state = .uncalibrated ∨ s.ptp.state = .locked then s.ptpTo .listening else s

/-! ## The servo (11 R354) -/

/-- Quotient of an integer whose rounding the spec does not state: the floor, or one more when it is not exact (log 47). -/
def State.divFree (s : State) (a : Int) (b : Nat) : Int × State :=
  let q := floorDiv a b
  if q * Int.ofNat b = a then (q, s) else let (v, s) := s.draw; (q + Int.ofNat (v % 2), s)
/-- A value of 64 bits, two's complement. -/
def int64 (i : Int) : Nat := (BitVec.ofInt 64 i).toNat
/-- A path delay sample. -/
def State.delaySample (s : State) (x : Int) : State :=
  if s.ptp.mpdSet then let (d, s) := s.divFree (x - s.ptp.mpd) 16; s.updPtp fun p => { p with mpd := p.mpd + d }
  else s.updPtp fun p => { p with mpd := x, mpdSet := true }
/-- Clamps to plus or minus `m`. -/
def clampInt (v : Int) (m : Int) : Int := if v < -m then -m else if m < v then m else v
/-- The servo acts on an offset in ns. -/
def State.servo (s : State) (o : Int) : State :=
  let s := s.updPtp fun p => { p with offset := o }
  if Int.ofNat s.ptp.stepNs ≤ Int.ofNat o.natAbs then
    let s := s.updPtp fun p => { p with time := (Int.ofNat p.time - o * Int.ofNat netUnit).toNat, integ := 0, steps := min (p.steps + 1) 0xFF }
    s.refreshAll.report { cls := 1, source := 9, code := 0x13, detail := int64 o }
  else
    s.updPtp fun p =>
      let integ := p.integ + Int.ofNat p.ki * o
      { p with integ := integ, adj := clampInt (Int.ofNat p.kp * o * 16 + integ) (100000 * 256) }
/-- UNCALIBRATED becomes LOCKED after 16 consecutive small offsets (11 R355). -/
def State.countGood (s : State) (o : Int) : State :=
  if s.ptp.state = .uncalibrated then
    let n := if o.natAbs < 100 then s.ptp.good + 1 else 0
    let s := s.updPtp fun p => { p with good := n }
    if 16 ≤ n then s.ptpTo .locked else s
  else s
/-- A completed exchange: the mean of both directions. -/
def State.exchange (s : State) (t1 t2 t3 t4 : Int) : State := let (x, s) := s.divFree ((t2 - t1) + (t4 - t3)) 2; s.delaySample x
/-- A Sync whose sending time is known: offset, servo, and a delay exchange that waited for it. -/
def State.syncKnown (s : State) (t1 t2 : Int) : State :=
  let o := t2 - t1 - s.ptp.mpd
  let s := (s.updPtp fun p => { p with pair := some (t1, t2) }).servo o
  let s := s.countGood o
  match s.ptp.receipt, s.ptp.delayReq with
  | some t4, some (t3, _) => (s.updPtp fun p => { p with receipt := none, delayReq := none }).exchange t1 t2 t3 t4
  | _, _ => s
/-- PTP_SYNC: from the parent; one Delay_Req is sent for it. -/
def execPtpSync (m : PtpMsg) (s : State) : Host.Outcome State Fault Refusal :=
  act s fun s =>
    let p := s.ptp
    if !s.ptpTakes m || !p.parent || p.state == .listening || m.clockId != p.clockId || m.portNum != p.parentPort then s
    else
      let t2 := Int.ofNat s.netNs - Int.ofNat p.rxNs
      let s := s.updPtp fun p => { p with
        lastSync := s.now, good := if p.state = .holdover then 0 else p.good
        delayReq := none, receipt := none, pair := none, nextReq := (p.nextReq + 1) % 65536, twoStep := if m.twoStep then some (t2, m.correction, m.seq) else none }
      let s := if p.state = .holdover then s.ptpTo .uncalibrated else s
      let s := s.sendBypass p.port { kind := 5, psn := p.nextReq }
      if m.twoStep then s else s.syncKnown (m.origin + m.correction) t2
/-- PTP_FOLLOW_UP: nothing outside UNCALIBRATED and LOCKED, for HOLDOVER holds adj until a Sync (11 R355). -/
def execPtpFollowUp (m : PtpMsg) (s : State) : Host.Outcome State Fault Refusal :=
  act s fun s =>
    match s.ptp.twoStep with
    | some (t2, c, n) =>
      if s.ptpTakes m && (s.ptp.state == .uncalibrated || s.ptp.state == .locked) && m.clockId == s.ptp.clockId && m.portNum == s.ptp.parentPort && m.seq == n then
        (s.updPtp fun p => { p with twoStep := none }).syncKnown (m.origin + m.correction + c) t2
      else s
    | none => s
/-- PTP_DELAY_RESP. -/
def execPtpDelayResp (m : PtpMsg) (s : State) : Host.Outcome State Fault Refusal :=
  act s fun s =>
    match s.ptp.delayReq with
    | some (t3, n) =>
      if s.ptpTakes m && m.clockId == s.ptp.clockId && m.portNum == s.ptp.parentPort && m.seq == n then
        let t4 := m.origin - m.correction
        match s.ptp.pair with
        | some (t1, t2) => (s.updPtp fun p => { p with delayReq := none }).exchange t1 t2 t3 t4
        | none => s.updPtp fun p => { p with receipt := some t4 }
      else s
    | none => s
/-- SYNC_TIMEOUT: a Sync whose Follow_Up has not come is given up with it (11 R355). -/
def execSyncTimeout (s : State) : Host.Outcome State Fault Refusal :=
  act s fun s =>
    if (s.ptp.state = .uncalibrated ∨ s.ptp.state = .locked) ∧ s.ptp.lastSync + s.ptp.syncTimeout * 1050000 ≤ s.now then
      ((s.updPtp fun p => { p with twoStep := none }).ptpTo .holdover).report { cls := 1, source := 9, code := 0x12, detail := int64 s.ptp.offset }
    else s

/-! ## Registers (11 R355, R358; 15 R466) -/

/-- A write of PTP_CONTROL. -/
def State.ptpWrite (s : State) (v : Nat) : State :=
  let s := s.updPtp fun p => { p with
    en := bit v 0, transport := if fld v 1 2 = 3 then p.transport else fld v 1 2, port := fld v 4 3, domain := fld v 8 8, stepNs := fld v 16 24
    kp := fld v 40 8, ki := fld v 48 8, syncTimeout := if fld v 56 8 = 0 then p.syncTimeout else fld v 56 8 }
  if !bit v 0 then
    (s.ptpTo .disabled).updPtp fun p => { p with parent := false, clockId := 0, parentPort := 0, foreign := [], twoStep := none, pair := none, delayReq := none, receipt := none, good := 0 }
  else if s.ptp.state = .disabled then s.ptpTo .listening
  else s
/-- PTP_ENABLE_WRITE. -/
def execPtpEnableWrite (v : BitVec 64) (s : State) : Host.Outcome State Fault Refusal := act s fun s => s.ptpWrite v.toNat
/-- PTP_TIME_SEC_READ. -/
def execPtpTimeSecRead (s : State) : Host.Outcome State Fault Refusal :=
  act s fun s =>
    let ns := s.netNs
    (s.updPtp fun p => { p with latchedNs := ns % 1000000000 }).emitOut (.readData (leBytes 8 (ns / 1000000000 % 2 ^ 48)))
/-- PPS_EDGE: PTP_PPS is high for the first 100 ms of each second of network time. -/
def execPpsEdge (s : State) : Host.Outcome State Fault Refusal :=
  act s fun s => { s with dev := { s.dev with pps := decide (s.netNs % 1000000000 < 100000000) } }

end Sys2Proof.Machine
end

