-- ==== Sys2Proof/Machine/NetRegs.lean ====
section
/-! DEFINITION. Commands of the network registers: queue pairs, registrations, extents, port mode, directory role (10 R299, R302 to R305,
R314 to R316, R327, R329, R334; 16 R487, R488). -/
namespace Sys2Proof.Machine
open Sys2Proof

/-- The command set a command was written to: BAR0's, or that of a function's BAR2 (16 R487). -/
def setKey (bar fn : Nat) : Nat := if bar = 0 then 0 else fn + 1
/-- The function a command acts for; none for the BAR0 set, which acts on any function's objects (16 R488). -/
def actingFn (bar fn : Nat) : Option Nat := if bar = 0 then none else some fn
/-- The acting function may act on an object of function `g`. -/
def mayAct (a : Option Nat) (g : Nat) : Bool := match a with | none => true | some f => f == g

/-! ## Queue pairs -/

/-- A state's number (10 R302). -/
def QpState.num : QpState → Nat
  | .reset => 0 | .init => 1 | .rtr => 2 | .rts => 3 | .error => 4
/-- Queue pairs 0 to 16,383. -/
abbrev qpCount : Nat := 16384
/-- The 512 bits of a queue pair's context (10 R302). -/
def Qp.context (q : Qp) : Nat :=
  let fs : List (Nat × Nat) :=
    [(0, q.state.num), (8, q.function), (16, q.owner), (32, q.port), (35, b2n q.ipv6), (36, b2n q.multipath), (37, b2n q.vanged),
     (38, b2n q.dirPeer), (40, q.paths), (44, q.pmtu), (48, q.subscriber), (56, q.rslots), (60, q.sgid), (64, q.destQpn), (96, q.sqPsn),
     (128, q.rqPsn), (152, q.retry), (160, q.peerMac.toNat), (208, q.vlan), (224, q.dscp), (240, q.ackUs), (256, q.peerIp.toNat),
     (384, q.sport), (400, q.errCause), (448, q.path.foldl (fun a p => a + p.2.w) 0 % 2 ^ 32), (480, q.rttNs)]
  fs.foldl (fun a p => a + p.2 * 2 ^ p.1) 0
/-- The reserved fields of a context (10 R302), lowest bit and width. -/
abbrev qpReserved : List (Nat × Nat) :=
  [(3, 5), (26, 6), (39, 1), (46, 2), (59, 1), (88, 8), (120, 8), (220, 4), (230, 10), (408, 40)]
/-- The context that 512 bits spell: the read-write fields; the read-only ones keep what they hold, and nothing of earlier transport is left. -/
def Qp.fromContext (q : Qp) (v : Nat) : Qp :=
  { function := fld v 8 8, owner := fld v 16 10, port := fld v 32 3, ipv6 := bit v 35, multipath := bit v 36, vanged := bit v 37
    dirPeer := bit v 38, paths := fld v 40 4, pmtu := fld v 44 2, subscriber := fld v 48 8, rslots := fld v 56 3, sgid := fld v 60 4
    destQpn := fld v 64 24, sqPsn := fld v 96 24, rqPsn := fld v 128 24, retry := fld v 152 8, peerMac := BitVec.ofNat 48 (fld v 160 48)
    vlan := fld v 208 12, dscp := fld v 224 6, ackUs := fld v 240 16, peerIp := BitVec.ofNat 128 (fld v 256 128), sport := fld v 384 16
    errCause := q.errCause, rttNs := q.rttNs, path := q.path, rsvBad := qpReserved.any fun p => fld v p.1 p.2 != 0 }
/-- Ends a command on a queue pair with its status. -/
def State.qpEnd (s : State) (k : Nat) (st : BitVec 16) : State := s.updSet k fun c => { c with qpStatus := st }
/-- A command on a queue pair of the acting function; of another function's it ends with PERMISSION (16 R488). -/
def qpCommand (bar fn qp : Nat) (s : State) (k : Nat → State → State) : Host.Outcome State Fault Refusal :=
  act s fun s =>
    let q := qp % qpCount
    if mayAct (actingFn bar fn) (s.qp q).function then k q s else s.qpEnd (setKey bar fn) stPermission
/-- The eight data words of a command set as 512 bits. -/
def CmdSet.dataBits (c : CmdSet) : Nat := (List.range 8).foldl (fun a i => a + (c.data.get i 0).toNat * 2 ^ (64 * i)) 0
/-- QP_READ. -/
def execQpRead (bar fn qp : Nat) (s : State) : Host.Outcome State Fault Refusal :=
  qpCommand bar fn qp s fun q s =>
    let v := (s.qp q).context
    s.updSet (setKey bar fn) fun c =>
      { c with qpStatus := stOk, data := (List.range 8).foldl (fun d i => d.set i (BitVec.ofNat 64 (fld v (64 * i) 64)) 0) c.data }
/-- QP_WRITE: the context is replaced, in RESET only. -/
def execQpWrite (bar fn qp : Nat) (s : State) : Host.Outcome State Fault Refusal :=
  qpCommand bar fn qp s fun q s =>
    let k := setKey bar fn
    if (s.qp q).state = .reset then
      (s.updQp q fun x => x.fromContext (s.cmdSet k).dataBits).qpEnd k stOk
    else s.qpEnd k stRange
/-- The checks of TO_INIT that end with RANGE (10 R303, R334). -/
def State.initOk (s : State) (q : Nat) : Bool :=
  let x := s.qp q
  !x.rsvBad && decide (2 ≤ q) && (s.ctx x.owner).function == x.function && decide (x.port < s.netPorts) && !s.portDown x.port &&
    x.pmtu != 3 && x.retry != 0 && x.ackUs != 0 && (x.paths == 0 || x.multipath) && (x.rslots == 0 || x.vanged) &&
    s.net.srcs.get (16 * x.port + x.sgid) 0 != 0
/-- A queue pair enters a state, with its trace point (14 R442). -/
def State.qpTo (s : State) (q : Nat) (st : QpState) : State :=
  let s := s.updQp q fun x => { x with state := st }
  s.trace 1 [q, st.num, (s.qp q).errCause]
/-- TO_INIT. -/
def execToInit (bar fn qp : Nat) (s : State) : Host.Outcome State Fault Refusal :=
  qpCommand bar fn qp s fun q s =>
    let k := setKey bar fn
    let x := s.qp q
    if x.state ≠ .reset ∨ s.initOk q = false then s.qpEnd k stRange
    else if (s.sub x.subscriber).function ≠ x.function then s.qpEnd k stPermission
    else
      let s := s.updQp q fun x => { x with sent := [], msgs := [], held := [], above := [], gapAt := none, unacked := 0, slots := [], running := [], msn := 0, peerMsn := 0, peerDone := [] }
      (s.qpTo q .init).qpEnd k stOk
/-- TO_RTR. -/
def execToRtr (bar fn qp : Nat) (s : State) : Host.Outcome State Fault Refusal :=
  qpCommand bar fn qp s fun q s =>
    let k := setKey bar fn
    if (s.qp q).state = .init then (s.qpTo q .rtr).qpEnd k stOk else s.qpEnd k stRange
/-- TO_RTS: EXPECT 1, CREDIT the subscriber's REQ_WINDOW, every window w_init and every dmin the largest value (10 R309, R318, R321). -/
def execToRts (bar fn qp : Nat) (s : State) : Host.Outcome State Fault Refusal :=
  qpCommand bar fn qp s fun q s =>
    let k := setKey bar fn
    if (s.qp q).state = .rtr then
      let w := (s.sub (s.qp q).subscriber).reqWindow
      let p : Path := { w := s.net.wInit * 256, dmin := 2 ^ 32 - 1, lastDec := 0 }
      let s := s.updQp q fun x =>
        { x with expect := 1, credit := w, reqNext := 1, path := (List.range (x.paths + 1)).foldl (fun t i => Tbl.set t i p {}) ([] : Tbl Path) }
      (s.qpTo q .rts).qpEnd k stOk
    else s.qpEnd k stRange
/-- TO_RESET: from INIT or ERROR. -/
def execToReset (bar fn qp : Nat) (s : State) : Host.Outcome State Fault Refusal :=
  qpCommand bar fn qp s fun q s =>
    let k := setKey bar fn
    match (s.qp q).state with
    | .init | .error => (s.qpReset q).qpEnd k stOk
    | _ => s.qpEnd k stRange
/-- TO_ERROR: from RTR or RTS, with cause 0x08 (10 R304). -/
def execToError (bar fn qp : Nat) (s : State) : Host.Outcome State Fault Refusal :=
  qpCommand bar fn qp s fun q s =>
    let k := setKey bar fn
    match (s.qp q).state with
    | .rtr | .rts => (s.qpError q 8).qpEnd k stOk
    | _ => s.qpEnd k stRange

/-! ## Registrations -/

/-- Bytes of the object of a kind, and the accesses it allows; none where the kind is none of the table or the ring is not in T0 (10 R314). -/
def Ctx.object (x : Ctx) (kind ring : Nat) : Option (Nat × List Nat) :=
  match kind with
  | 0 => some (x.inSheets * 4096, [1, 2, 3])
  | 1 => some (x.outSheets * 4096, [2])
  | 2 => if (x.ring ring).loc = 1 then some (2 ^ (6 + (x.ring ring).size) * 32, [1]) else none
  | 3 => if x.cloc = 1 then some (2 ^ (6 + x.csize) * 32, [2]) else none
  | 4 => some (8, [1])
  | _ => none
/-- A registration that is not in use, of 65,536: the one the pick names when it is free, else the lowest (log 7). -/
def State.freeReg (s : State) (pick : Nat) : Option Nat :=
  let i := pick % 65536
  if (s.reg i).valid then (List.range 65536).find? fun j => !(s.reg j).valid else some i
/-- Ends a command on a registration with its status. -/
def State.regEnd (s : State) (k : Nat) (st : BitVec 16) : State := s.updSet k fun c => { c with regStatus := st }
/-- CREATE. -/
def execCreate (bar fn : Nat) (s : State) : Host.Outcome State Fault Refusal :=
  act s fun s =>
    let k := setKey bar fn
    let c := s.cmdSet k
    let d0 := c.regData0.toNat
    let d1 := c.regData1.toNat
    let ctx := fld d0 0 10
    let kind := fld d0 10 3
    let access := fld d0 16 2
    let off := fld d1 0 32
    let len := fld d1 32 32
    if c.regBusy then s
    else
      let good := match (s.ctx ctx).object kind (fld d0 13 3) with
        | some (size, allowed) => allowed.contains access && decide (off + len ≤ size) && (kind != 4 || (off == 0 && len == 8))
        | none => false
      if !good then s.regEnd k stRange
      else if !mayAct (actingFn bar fn) (s.ctx ctx).function then s.regEnd k stPermission
      else
        let (v, s) := s.draw
        match s.freeReg v with
        | none => s.regEnd k stNoSpace
        | some i =>
          let s := s.updReg i fun r => { r with valid := true, revoking := false, ctx := ctx, kind := kind, ring := fld d0 13 3, access := access, offset := off, length := len, revokedBy := 0 }
          s.updSet k fun c => { c with regStatus := stOk, regKey := BitVec.ofNat 32 (i + (s.reg i).gen * 65536) }
/-- REVOKE: the fence, at once (10 R316). -/
def execRevoke (bar fn reg : Nat) (s : State) : Host.Outcome State Fault Refusal :=
  act s fun s =>
    let k := setKey bar fn
    let i := reg % 65536
    let r := s.reg i
    if (s.cmdSet k).regBusy then s
    else if !r.valid || r.revoking then s.regEnd k stNotFound
    else if !mayAct (actingFn bar fn) (s.ctx r.ctx).function then s.regEnd k stPermission
    else (s.updReg i fun r => { r with revoking := true, revokedBy := k + 1 }).updSet k fun c => { c with regBusy := true }
/-- A message admitted under registration `i` is in progress. -/
def State.regInUse (s : State) (i : Nat) : Bool := s.net.qps.any fun q => q.2.msgs.any fun m => m.reg == i + 1
/-- REVOCATION_END. -/
def execRevocationEnd (reg : Nat) (s : State) : Host.Outcome State Fault Refusal :=
  act s fun s =>
    let i := reg % 65536
    let r := s.reg i
    if !r.valid || !r.revoking || s.regInUse i then s
    else
      let s := s.updReg i fun r => { gen := (r.gen + 1) % 65536 }
      if r.revokedBy = 0 then s else s.updSet (r.revokedBy - 1) fun c => { c with regBusy := false, regStatus := stOk }
/-- Revokes every registration of a context (10 R316, 13 R406). -/
def State.revokeRegs (s : State) (c : Nat) : State :=
  { s with net := { s.net with regs := s.net.regs.map fun (r : Nat × Reg) => if r.2.valid && r.2.ctx == c then (r.1, { r.2 with revoking := true }) else r } }

/-! ## Extents -/

/-- EXTENT_REVOKE: begins the withdrawal of an extent (10 R327). -/
def execExtentRevoke (bar fn e : Nat) (s : State) : Host.Outcome State Fault Refusal :=
  act s fun s =>
    let k := setKey bar fn
    let x := s.extent (extIndex e)
    let done (st : BitVec 16) : State := s.updSet k fun c => { c with extStatus := st }
    if (s.cmdSet k).extBusy then s
    else if !x.granted || x.gen != extGen e then done stNotFound
    else if !mayAct (actingFn bar fn) (s.sub x.sub).function then done stPermission
    else if x.withdrawing then done stRevoked
    else (s.updExt (extIndex e) fun x => { x with withdrawing := true, revokedBy := k + 1 }).updSet k fun c => { c with extBusy := true }
/-- Withdraws every extent of the subscribers of a function (10 R327). -/
def State.withdrawExts (s : State) (f : Nat) : State :=
  { s with net := { s.net with exts := s.net.exts.map fun (x : Nat × Ext) =>
      if x.2.granted && (s.sub x.2.sub).function == f then (x.1, { x.2 with withdrawing := true }) else x } }

/-! ## Ports and the directory role -/

/-- Changes port `p` of the network. -/
def State.updNetPort (s : State) (p : Nat) (f : NetPort → NetPort) : State := { s with net := { s.net with ports := s.net.ports.upd p {} f } }
/-- Ports whose link is not enabled are down. -/
def State.dropLinks (s : State) : State :=
  (List.range 8).foldl (fun s p => if s.net.linkEn.getLsbD p then s else s.updNetPort p fun x => { x with linkUp := false }) s
/-- A write of NET_CONTROL: a change of MODE is refused while a link is enabled, and MODE 0 on the LG-4080 (10 R299). -/
def State.netControl (s : State) (v : Nat) : State :=
  let m := fld v 0 2
  let s := { s with net := { s.net with cfgErr := s.net.cfgErr && !bit v 16 } }
  let s :=
    if m = s.net.mode then s
    else if s.net.linkEn = 0 ∧ ¬ (m = 0 ∧ s.small) then { s with net := { s.net with mode := m } }
    else { s with net := { s.net with cfgErr := true } }
  ({ s with net := { s.net with linkEn := BitVec.ofNat 8 (fld v 8 8) } }).dropLinks
/-- NET_MODE_WRITE. -/
def execNetModeWrite (v : BitVec 64) (s : State) : Host.Outcome State Fault Refusal := act s fun s => s.netControl v.toNat
/-- Every partition holds a directory bank (06 R212). -/
def State.dirBanks (s : State) : Bool := (List.range 8).all fun p => (List.range 16).any fun b => let x := s.bank (16 * p + b); x.units == 2 && x.role == 1
/-- A write of NET_DIR_CONTROL: ROLE = 1 is refused where a partition holds no directory bank (10 R329). -/
def State.dirControl (s : State) (v : Nat) : State :=
  let refused := bit v 0 && !s.dirBanks
  { s with net := { s.net with
      role := if refused then s.net.role else bit v 0
      dirCfgErr := (s.net.dirCfgErr && !bit v 3) || refused
      worker := bit v 1
      selfPeer := bit v 2
      workerId := fld v 4 6
      dirQp := fld v 16 14 } }
/-- DIR_ROLE_WRITE. -/
def execDirRoleWrite (v : BitVec 64) (s : State) : Host.Outcome State Fault Refusal := act s fun s => s.dirControl v.toNat
/-- ETHERNET_LINK_CHANGE: a link comes up only where the port exists, is enabled and available. -/
def execEthernetLinkChange (port : Nat) (up : Bool) (s : State) : Host.Outcome State Fault Refusal :=
  act s fun s =>
    if 8 ≤ port then s
    else if up then
      if decide (port < s.netPorts) && s.net.linkEn.getLsbD port && !s.portDown port then s.updNetPort port fun x => { x with linkUp := true } else s
    else s.updNetPort port fun x => { x with linkUp := false }

end Sys2Proof.Machine
end

