-- ==== Sys2Proof/Machine/Contexts.lean ====
section
/-! DEFINITION. Contexts: enable, resume, the scheduler, host loss, leases and context reset (02 R26 to R37, 07 R218, 12 R374, 13 R395 to
R397, R400 to R411). -/
namespace Sys2Proof.Machine
open Sys2Proof

/-! ## Enable (02 R29) -/

/-- `n` free values as one number of 64 n bits: what the entropy source gives (12 R368; log 3). -/
def State.drawBits (s : State) : Nat → Nat × State
  | 0 => (0, s)
  | n + 1 => let (v, s) := s.draw; let (r, s) := s.drawBits n; (v + 2 ^ 64 * r, s)
/-- The DRBG takes 384 bits of entropy into its working state (12 R368). -/
def State.stirDrbg (s : State) : State :=
  let (e, s) := s.drawBits 6
  let g := Drbg.update (s.sec.drbgKey, s.sec.drbgV) (leBytes 48 e)
  { s with sec := { s.sec with drbg := 0, drbgKey := g.1, drbgV := g.2 } }
/-- One request of the DRBG for words of 64 bits, as one number (12 R368). -/
def State.drbg (s : State) (words : Nat) : Nat × State :=
  let (b, g) := Drbg.generate (s.sec.drbgKey, s.sec.drbgV) (8 * words)
  (ofLe b, { s with sec := { s.sec with drbg := s.sec.drbg + 1, drbgKey := g.1, drbgV := g.2 } })
/-- The first sheet and the length in bytes of a ring or buffer lie wholly within the context buffer reservation (04 R115). -/
def State.inReservation (s : State) (sheet bytes : Nat) : Bool :=
  decide (s.regBase 4 ≤ sheet ∧ sheet * 4096 + bytes ≤ (s.regBase 4 + s.regSize 4) * 4096)
/-- A command ring is well described. -/
def State.ringOk (s : State) (r : Ring) : Bool :=
  !r.enable || (decide (r.size ≤ 10 ∧ r.loc ≤ 1) && (r.loc != 1 || s.inReservation r.base (32 * 2 ^ (6 + r.size))))
/-- A buffer is well described. -/
def State.bufferOk (s : State) (sheet n : Nat) : Bool :=
  n == 0 || (s.inReservation sheet (4096 * n) && decide (sheet + n ≤ 262144 * s.pchFitted))
/-- Lowest free policy slot (07 R218). -/
def State.freePolicy (s : State) : Option Nat := (List.range 8).find? fun i => s.awl.policy.get i 0 == 0
/-- The descriptor passes the checks of an enable (02 R29, 12 R374). -/
def State.enableOk (s : State) (c : Nat) : Bool :=
  let x := s.ctx c
  let k := s.sec.ctxs.get c {}
  s.dev.operational && decide (x.csize ≤ 10 ∧ x.cloc ≤ 1) && x.rings.all (fun r => s.ringOk r.2) && x.rings.any (fun r => r.2.enable) &&
    (x.cloc != 1 || s.inReservation x.cbase (32 * 2 ^ (6 + x.csize))) && s.bufferOk x.inSheet x.inSheets && s.bufferOk x.outSheet x.outSheets &&
    (s.fn x.function).enabled && (!x.policy || s.freePolicy.isSome) && s.ps.layoutActive &&
    (!x.conf || (decide (k.sealLoc ≤ 1) && (k.sealLoc != 1 || s.inReservation k.sealBase (32 * 2 ^ (6 + x.csize))) && s.sec.configOk))
/-- A new context key (12 R374). -/
def State.newKey (s : State) (c : Nat) : State :=
  let (v, s) := s.drbg 4
  let k := s.sec.ctxs.get c {}
  { s with sec := { s.sec with ctxs := s.sec.ctxs.set c { k with key := BitVec.ofNat 256 v, keygen := (k.keygen + 1) % 65536, keyValid := true, exported := false, oseq := 0 } {} } }
/-- A write of ENABLE = 1. -/
def State.enableCtx (s : State) (c : Nat) : State :=
  let x := s.ctx c
  if 1024 ≤ c ∨ x.state ≠ .disabled then s
  else if !s.enableOk c then s.updCtx c fun x => { x with cfgErr := true }
  else
    let s := match x.policy, s.freePolicy with
      | true, some i => { s with awl := { s.awl with policy := s.awl.policy.put i (c + 1) } }
      | _, _ => s
    let s := if x.conf then s.newKey c else s
    s.ctxTo c .idle
/-- CONTEXT_ENABLE. -/
def execContextEnable (ctx : Nat) (s : State) : Host.Outcome State Fault Refusal := act s fun s => s.enableCtx ctx

/-- A write of RESUME = 1: fetching starts again at FETCH_n, FAULT_MORE is cleared (02 R33, R34, R61). -/
def State.resume (s : State) (c : Nat) : State :=
  let x := s.ctx c
  if x.state = .stopped then
    let s := s.updCtx c fun x => { x with faultMore := 0 }
    let work := x.rings.any (fun r => r.2.enable && r.2.fetch != r.2.tail) || s.inFlight c
    (s.ctxTo c (if work then .active else .idle)).noteWant c
  else s
/-- RESUME: by the descriptor (`bar` 0), or by the context window of the owning function (16 R489, R490). -/
def execResume (bar fn ctx : Nat) (s : State) : Host.Outcome State Fault Refusal :=
  act s fun s => if bar = 0 ∨ (s.ctx ctx).function = fn then s.resume ctx else s

/-! ## The scheduler (13 R395 to R397) -/

/-- `a` comes before `b` in scheduler order: lower VTIME, then lower context ID. -/
def State.before (s : State) (a b : Nat) : Bool :=
  let va := (s.ctx a).vtime
  let vb := (s.ctx b).vtime
  decide (va < vb ∨ (va = vb ∧ a < b))
/-- The first of some contexts in scheduler order. -/
def State.firstCtx (s : State) (l : List Nat) : Option Nat :=
  l.foldl (fun a c => match a with | none => some c | some b => if s.before c b then some c else a) none
/-- Resident contexts. -/
def State.residents (s : State) : List Nat := (s.ctxs.filter fun p => p.2.resident).map (·.1)
/-- Resident slots that a function's contexts hold. -/
def State.slotsOf (s : State) (f : Nat) : Nat := (s.ctxs.filter fun p => p.2.resident && p.2.function == f).length
/-- The wanting context that the scheduler serves next; one whose function holds MAX_SLOTS is skipped (13 R396). -/
def State.nextWanting (s : State) : Option Nat :=
  s.firstCtx ((s.ctxs.map (·.1)).filter fun c =>
    let m := (s.fn (s.fnOf c)).maxSlots
    s.wants c && (m == 0 || decide (s.slotsOf (s.fnOf c) < m)))
/-- Lowest free slot of the 256 (02 R36). -/
def State.freeSlot (s : State) : Option Nat := (List.range 256).find? fun i => !(s.ctxs.any fun p => p.2.resident && p.2.slot == i)
/-- SLOT_GRANT. -/
def execSlotGrant (s : State) : Host.Outcome State Fault Refusal :=
  act s fun s =>
    match s.nextWanting, s.freeSlot with
    | some c, some i => s.updCtx c fun x => { x with resident := true, slot := i, slotSince := s.now, wanting := false }
    | _, _ => s
/-- A context may leave its slot: nothing in flight, or a WAIT alone (02 R37). -/
def State.mayLeave (s : State) (c : Nat) : Bool :=
  match s.flights.filter fun p => p.2.ctx == c && p.2.mirror.isNone with
  | [] => true
  | [p] => wOpcode p.2.word == 0x02 && p.2.phase != .ended
  | _ => false
/-- The resident context that the scheduler swaps out for a wanting one (13 R396). -/
def State.leaver (s : State) (want : Nat) : Option Nat :=
  let l := s.residents.filter s.mayLeave
  match s.firstCtx (l.filter fun c => (s.ctx c).state == .idle) with
  | some c => some c
  | none =>
    (l.filter fun c => let x := s.ctx c; decide (x.slotSince + s.slice ≤ s.now) && decide ((s.ctx want).vtime < x.vtime)).foldl
      (fun a c => match a with | none => some c | some b => if (s.ctx b).vtime < (s.ctx c).vtime then some c else a) none
/-- Takes a context out of its slot; its fetch buffers are invalidated (02 R36, R39). -/
def Ctx.swapOut (x : Ctx) : Ctx := { x.rings.foldl (fun y p => y.updRing p.1 fun r => { r with buf := [] }) x with resident := false, slot := 0, slotSince := 0 }
/-- CONTEXT_SWAP_OUT: frees a slot, the one the rule chooses, while none is free and a context wants one. -/
def execContextSwapOut (slot : Nat) (s : State) : Host.Outcome State Fault Refusal :=
  act s fun s =>
    match s.nextWanting, s.freeSlot with
    | some w, none =>
      match s.leaver w with
      | some c => if (s.ctx c).slot = slot then (s.updCtx c Ctx.swapOut).noteWant c else s
      | none => s
    | _, _ => s
/-- SCHEDULER_TICK: VTIME of every resident context rises by 4,096 / SHARE, at least 1 (13 R395). -/
def execSchedulerTick (s : State) : Host.Outcome State Fault Refusal :=
  act s fun s => s.residents.foldl (fun s c => s.updCtx c fun x => { x with vtime := x.vtime + max 1 (4096 / max x.share 1) }) s
/-- `a` comes before `b` in the order of contended grants: context, then dispatch (13 R397). -/
def State.flightBefore (s : State) (a b : Nat × Flight) : Bool :=
  if a.2.ctx = b.2.ctx then decide (a.1 < b.1) else s.before a.2.ctx b.2.ctx
/-- The first of some waiters. -/
def State.firstFlight (s : State) (l : List (Nat × Flight)) : Option Nat :=
  (l.foldl (fun (a : Option (Nat × Flight)) p => match a with | none => some p | some b => if s.flightBefore p b then some p else a) none).map (·.1)
/-- The page move that waits for a queue credit of pool `i` and gets it first. -/
def State.firstMove (s : State) (i : Nat) : Option Move :=
  (s.tier.moves.filter fun m => m.kind.pool == i && m.credit == 0 && s.mayCredit m).foldl
    (fun a m => match a with
      | none => some m
      | some b => if s.before m.ctx b.ctx ∨ (m.ctx = b.ctx ∧ m.order < b.order) then some m else a) none
/-- A waiter's choice among the search queues is this pool: it has the most free credits of those at which its context is below the cap, or
as many as the best and a lower index (06 R193). Every other pool is the only one waited for. -/
def State.choosesPool (s : State) (c pool : Nat) : Bool :=
  decide (8 ≤ pool) || (List.range 8).all fun i => !s.creditFree c i || decide (s.avail i < s.avail pool ∨ (s.avail i = s.avail pool ∧ pool ≤ i))
/-- What a granted credit lets an instruction do at once: a LOOKUP that waited for a walk credit now stalls on its walk (06 R200). -/
def Flight.granted (x : Flight) (pool : Nat) : Flight :=
  let y := { x with holds := pool :: x.holds, wantCredit := none }
  match x.job with
  | .lookup l => if pool = 8 ∧ l.walk.isSome then { y with stallOn := some .spineOvf } else y
  | _ => y
/-- CREDIT_GRANT: a free credit of pool `pool` goes to its first waiter. -/
def execCreditGrant (pool : Nat) (s : State) : Host.Outcome State Fault Refusal :=
  act s fun s =>
    match s.firstFlight (s.flights.filter fun p => p.2.phase != .ended && p.2.awaits pool && s.creditFree p.2.ctx pool && s.choosesPool p.2.ctx pool) with
    | some f => (s.takeCredits pool 1).updFlight f fun x => x.granted pool
    | none =>
      if pool = 10 ∨ pool = 11 then
        match s.firstMove pool with
        | some m => (s.moveCredit m).1
        | none => s
      else s
/-- A dispatched ATTEND or COMBINE that waits for the Quires of its gathering (02 R40). -/
def State.quireWaiter (s : State) (p : Nat × Flight) : Bool :=
  let op := wOpcode p.2.word
  let gi := gField p.2.a
  (op == 0x30 || op == 0x31) && p.2.phase == .dispatched && s.mayBegin p.1 p.2 && s.gathCheck p.2.ctx gi (fld p.2.a.toNat 0 8) == stOk
/-- Grants in order, to the first waiter whose whole set is free and wanted by none before it. -/
def State.grantQuires (s : State) : Nat → List (Nat × Flight) → List Nat → State
  | 0, _, _ => s
  | n + 1, l, taken =>
    match s.firstFlight l with
    | none => s
    | some f =>
      let m := quiresOf (s.gath (gField (s.flight f).a)).grec.qmask
      if m.all fun q => s.fq.held.get q 0 == 0 && !taken.contains q then
        ({ s with fq := { s.fq with held := m.foldl (fun t q => Tbl.put t q (f + 1)) s.fq.held } }).begin f
      else s.grantQuires n (l.filter fun p => p.1 != f) (taken ++ m)
/-- What a grant of Quires adds to PM_PAUSE: 3 µs to ungate the Folio clocks out of P3, and what is left of a wake for each flight
granted in it (15 R457). -/
def State.wakeFor (s : State) (granted : Nat) : State :=
  let p := s.pwr
  if granted = 0 then s
  else if p.idle then
    { s with pwr := { p with idle := false, transitions := min (p.transitions + 1) 0xFFFFFFFF, pauseCycles := p.pauseCycles + 3 * usCycles } }.trace 3 [3, p.point]
  else { s with pwr := { p with pauseCycles := p.pauseCycles + granted * (p.wakeAt - s.now) } }
/-- QUIRE_GRANT; none after the thermal trip (15 R472). -/
def execQuireGrant (s : State) : Host.Outcome State Fault Refusal :=
  act s fun s =>
    let l := s.flights.filter s.quireWaiter
    if s.pwr.tripped then s
    else
      let t := s.grantQuires l.length l []
      t.wakeFor (l.filter fun p => (t.flight p.1).phase != .dispatched).length

/-! ## Host loss (13 R400 to R402) -/

/-- Fabric cycles in a millisecond. -/
abbrev msCycles : Nat := 1050000
/-- HEARTBEAT: a 64-bit write. -/
def execHeartbeat (fn bytes : Nat) (s : State) : Host.Outcome State Fault Refusal :=
  act s fun s =>
    if bytes = 8 ∧ (s.fn fn).enabled then
      s.updFn fn fun x => { x with beats := min (x.beats + 1) 0xFFFFFFFF, beatAt := s.now, silent := false }
    else s
/-- What a ring has fetched and not dispatched ends without effect, and is counted (02 R35, 13 R405). -/
def State.dropFetched (s : State) (c : Nat) : State :=
  let x := s.ctx c
  let n := x.rings.foldl (fun a p => a + p.2.fetched.length) 0
  (s.updCtx c fun x => x.rings.foldl (fun y p => y.updRing p.1 fun r => { r.cancel with fetched := [] }) x).countFn x.function 20 n
/-- A context becomes ORPHANED: its WAITs end at once, fetched instructions end without effect (02 R35, 13 R401). -/
def State.orphan (s : State) (c : Nat) : State :=
  let s := (s.dropFetched c).ctxTo c .orphaned
  let s := s.updCtx c fun x => { x with orphanAt := some s.now, wanting := false }
  s.flights.foldl (fun s p =>
    if p.2.ctx == c && p.2.mirror.isNone && wOpcode p.2.word == 0x02 && p.2.phase != .ended then s.fail p.1 stOrphaned else s) s
/-- HEARTBEAT_TIMEOUT: AGE_MS reaches HB_MS. -/
def execHeartbeatTimeout (fn : Nat) (s : State) : Host.Outcome State Fault Refusal :=
  act s fun s =>
    let x := s.fn fn
    if !x.enabled || x.hbMs == 0 || x.silent || decide (s.now < x.beatAt + x.hbMs * msCycles) then s
    else
      let cs := (s.ctxs.filter fun p => p.2.function == fn && (p.2.state == .idle || p.2.state == .active || p.2.state == .stopped)).map (·.1)
      let s := s.updFn fn fun x => { x with orphaned := true, silent := true }
      let s := cs.foldl State.orphan s
      let s := s.report { cls := 1, source := 0x0E, code := 0x11, fn := some fn, object := fn, detail := cs.length }
      s.countFn fn 27 1
/-- Every holder tally and hint of a sequence's blocks becomes T0-with-spill and cold (13 R402). -/
def State.coolSeq (s : State) (q c : Nat) : State :=
  let x := s.seq q
  let s := s.updSeq q fun y => { y with entries := y.entries.map fun e => { e with cls := 1, hint := 2 } }
  x.entries.foldl (fun s e => s.reclass e.base x.layers c) s
/-- ORPHAN_HOLD_EXPIRED: HOLD_S seconds after the entry to ORPHANED. -/
def execOrphanHoldExpired (ctx : Nat) (s : State) : Host.Outcome State Fault Refusal :=
  act s fun s =>
    let x := s.ctx ctx
    match x.orphanAt with
    | some t =>
      if x.state = .orphaned ∧ t + (s.fn x.function).holdS * secCycles ≤ s.now then
        let s := s.updCtx ctx fun x => { x with orphanAt := none }
        let s := (s.ps.seqs.filter fun p => p.2.state != 0 && p.2.owner == ctx).foldl (fun s p => s.coolSeq p.1 ctx) s
        s.report { cls := 1, source := 0x0E, code := 0x12, fn := some x.function, ctx := some ctx, object := x.function, detail := 1 }
      else s
    | none => s

/-! ## Context reset (13 R405 to R407, R411) -/

/-- Ends an instruction of a context that is being reset; nothing is written for it. -/
def State.resetFlight (s : State) (f : Nat) : State :=
  let s := if (s.flight f).phase = .ended then s else s.stopFlight f stAborted
  if (s.flight f).mirror.isNone && (s.flight f).phase == .ended then s.dropFlight f else s
/-- Discards the queued Awl tokens of a sequence (13 R405). -/
def State.dropTokens (s : State) (q : Nat) : State :=
  let e := q % 16
  let l := s.awl.queues.get e []
  let n := (l.filter fun t => t.seq == q).length
  ({ s with awl := { s.awl with queues := s.awl.queues.set e (l.filter fun t => t.seq != q) [] } }).freeCredits (317 + e) n
/-- Starts the retraction of the context's regions of scope 0, with recovery credits (06 R209, 13 R411). -/
def State.retractOwn (s : State) (c : Nat) : State :=
  (s.spine.regions.filter fun r => r.2.used && r.2.scope == 0 && r.2.owner == c && r.2.committed && !r.2.publishing && !r.2.retracting).foldl
    (fun s r => (s.updRegion r.1 fun x => { x with retracting := true }).recover r.1 0) s
/-- Erases a context's key: KEY_VALID and AUTH_SESSION are cleared, KEYGEN stays (12 R374, R386). -/
def State.eraseKey (s : State) (c : Nat) : State :=
  let k := s.sec.ctxs.get c {}
  { s with sec := { s.sec with ctxs := s.sec.ctxs.set c { k with key := 0, keyValid := false, exported := false, auth := 0, oseq := 0 } {} } }
/-- Steps 2 to 6 of a context reset. -/
def State.resetRun (s : State) (c : Nat) : State :=
  let s := s.updCtx c fun x => { x with resetAt := some s.now }
  let s := s.dropFetched c
  let s := (s.flights.filter fun p => p.2.ctx == c).foldl (fun s p => s.resetFlight p.1) s
  let s := (s.net.qps.filter fun q => q.2.owner == c && q.2.state != .reset).foldl (fun s q => s.qpReset q.1) s
  let s := s.revokeRegs c
  let s := (s.gaths.filter fun g => g.2.live && g.2.owner == c).foldl (fun s g => s.dissolve g.1) s
  let s := (s.ps.seqs.filter fun q => q.2.state != 0 && q.2.owner == c).foldl (fun s q => (s.dropTokens q.1).releaseWhole q.1) s
  let s := (s.retractOwn c).eraseKey c
  s.updCtx c fun x => { x.rings.foldl (fun y p => y.updRing p.1 fun r => { r with latch := 0 }) x with x := [], vtime := 0, wanting := false, landing := [], orphanAt := none }
/-- Context resets that run. -/
def State.resetsRunning (s : State) : Nat := (s.ctxs.filter fun p => p.2.resetAt.isSome).length
/-- Starts a context reset: step 1 at once, the others when fewer than 16 run. -/
def State.startReset (s : State) (c : Nat) : State :=
  let x := s.ctx c
  if x.state = .disabled ∨ x.state = .resetting then s
  else
    let s := (s.ctxTo c .resetting).trace 2 [1, c]
    if s.resetsRunning < 16 then s.resetRun c else s
/-- CONTEXT_RESET: a write of ENABLE = 0. -/
def execContextReset (ctx : Nat) (s : State) : Host.Outcome State Fault Refusal := act s fun s => s.startReset ctx
/-- Nothing of the context is left to stop or to release. -/
def State.resetDone (s : State) (c : Nat) : Bool :=
  !(s.flights.any fun p => p.2.ctx == c && p.2.phase != .ended) &&
    !(s.spine.regions.any fun r => r.2.used && r.2.scope == 0 && r.2.owner == c)
/-- A context that a reset has left: DISABLED, its configured fields as they were (13 R405; ring counters: log 11). -/
def Ctx.cleared (x : Ctx) : Ctx :=
  { x.rings.foldl (fun y p => y.updRing p.1 fun r => { r.cancel with fetch := 0, tail := 0, left := 0, latch := 0, buf := [], fetched := [] }) x with
    ctail := 0, chead := 0, cused := 0, cphase := true, resident := false, slot := 0, slotSince := 0, faultStatus := 0, faultTag := 0, faultRing := 0, faultMore := 0
    x := [], landing := [], vtime := 0, wanting := false, orphanAt := none, resetAt := none }
/-- CONTEXT_RESET_FINISHED: step 7; the next reset that waits then runs. -/
def execContextResetFinished (ctx : Nat) (s : State) : Host.Outcome State Fault Refusal :=
  act s fun s =>
    let x := s.ctx ctx
    if x.state ≠ .resetting ∨ x.resetAt = none then s
    else
      let s := s.retractOwn ctx
      if !s.resetDone ctx then s
      else
        let s := (s.flights.filter fun p => p.2.ctx == ctx && p.2.mirror.isNone).foldl (fun s p => s.dropFlight p.1) s
        let s := s.updCtx ctx Ctx.cleared
        let s := { s with awl := { s.awl with policy := s.awl.policy.filter fun p => p.2 != ctx + 1 } }
        let s := (s.ctxTo ctx .disabled).trace 2 [1, ctx]
        match (s.ctxs.filter fun p => p.2.state == .resetting && p.2.resetAt.isNone).map (·.1) with
        | c :: _ => s.resetRun c
        | [] => s

/-! ## Leases (13 R410) -/

/-- A flight holds a lease of a kind, numbered from 1, and the object it names: the edit lock of the sequence whose blocks an APPEND allocates, or whose table
an ATTACH, FORK or RELEASE allocates, the hold of a gathering by a begun GSET, the retracting mark of a region, the segment hold of a LOOKUP, a walker slot (13 R410; log 17). -/
def State.lease (s : State) (f kind : Nat) : Option Nat :=
  let x := s.flight f
  match kind, x.job with
  | 1, .growing held _ =>
    if x.a.getLsbD 52 then
      let g := s.gath (gField x.a)
      some (g.snap.getD (g.needy.getD held.length 0) {}).seq
    else some (fld x.a.toNat 28 24)
  | 1, .allocating =>
    let op := wOpcode x.word
    if op = 0x11 ∨ op = 0x13 then some (sSeq x.a) else if op = 0x12 then some (fld x.b.toNat 0 24) else none
  | 2, _ => if wOpcode x.word = 0x40 ∧ x.phase = .begun then some (gField x.a) else none
  | 3, .retract ri _ => some ri
  | 4, .lookup l => l.held.head?
  | 5, _ => x.walker
  | _, _ => none
/-- LEASE_EXPIRED: the holder has made no progress for LOCK_US. -/
def execLeaseExpired (f kind : Nat) (s : State) : Host.Outcome State Fault Refusal :=
  act s fun s =>
    let x := s.flight f
    match s.lease f kind with
    | none => s
    | some o =>
      if x.phase = .ended ∨ s.now < x.progress + s.lockUs * usCycles then s
      else
        let fn := s.fnOf x.ctx
        let s := s.report { cls := 2, source := 0x0E, code := 0x10, fn := some fn, ctx := some x.ctx, status := stAborted, tag := wTag x.word, object := o, detail := kind }
        (s.countFn fn 28 1).stopFlight f stAborted

end Sys2Proof.Machine
end

