-- ==== Sys2Proof/Machine/Control.lean ====
section
/-! DEFINITION. The control instructions (03 R77 to R80). -/
namespace Sys2Proof.Machine
open Sys2Proof

/-- NOP: ends with OK (03 R77). -/
def execNop (f : Nat) (s : State) : Host.Outcome State Fault Refusal := onFlight 0x00 f s fun _ s => s.finish f stOk 0 none

/-- FENCE: ends once the instructions it names have completed (02 R55). -/
def execFence (f : Nat) (s : State) : Host.Outcome State Fault Refusal :=
  onFlight 0x01 f s fun x s => if x.waitsFor.any fun g => (s.flight? g).isSome then s else s.finish f stOk 0 none

/-- What a WAIT may watch: its own function's counters and gatherings (03 R74, R78). -/
def State.waitCheck (s : State) (x : Flight) : BitVec 16 :=
  if fld x.a.toNat 0 8 = 0 then stOk
  else
    let g := s.gath (gField x.a)
    if !g.live then stNotFound else if s.fnOf g.owner = s.fnOf x.ctx then stOk else stPermission

/-- A WAIT whose value has reached TARGET ends, once its context is resident (02 R36, 03 R78). -/
def State.endWait (s : State) (f : Nat) (x : Flight) : State :=
  match s.waitValue x with
  | some v => if x.b.toNat ≤ v ∧ (s.ctx x.ctx).resident then s.finish f stOk (BitVec.ofNat 64 v) none else s
  | none => s

/-- WAIT: begins to watch a signal counter or a step counter (03 R78). -/
def execWait (f : Nat) (s : State) : Host.Outcome State Fault Refusal :=
  onFlight 0x02 f s fun x s => let st := s.waitCheck x; if st = stOk then s.endWait f x else s.fail f st

/-- WAIT_SATISFIED (03 R78). -/
def execWaitSatisfied (f : Nat) (s : State) : Host.Outcome State Fault Refusal :=
  onFlight 0x02 f s fun x s => if s.waitCheck x = stOk then s.endWait f x else s

/-- WAIT_TIMEOUT: LIMIT microseconds from dispatch (03 R78). -/
def execWaitTimeout (f : Nat) (s : State) : Host.Outcome State Fault Refusal :=
  onFlight 0x02 f s fun x s =>
    let limit := fld x.c.toNat 0 32
    if limit ≠ 0 ∧ x.since + limit * usCycles ≤ s.now ∧ s.waitMet x = false then s.fail f stTimeout else s

/-- Adds to a signal counter, which saturates and then sets its overflow bit, is recorded and signalled (03 R78, 13 R421). -/
def State.addSignal (s : State) (fn i inc : Nat) : State × Nat :=
  let old := (s.fn fn).sig.get i 0
  let new := min (old + inc) cntMax
  let hit := decide (new = cntMax ∧ old ≠ cntMax)
  let s := s.updFn fn fun x => { x with sig := x.sig.set i new 0, sigOvf := if hit then x.sigOvf.set i true false else x.sigOvf }
  (if hit then s.saturates fn i else s, new)

/-- SIGNAL: takes effect after every earlier instruction of its ring has completed (02 R56). -/
def execSignal (f : Nat) (s : State) : Host.Outcome State Fault Refusal :=
  onFlight 0x03 f s fun x s =>
    if (s.ringFlights x.ctx x.ring).any fun p => p.1 < f then s
    else
      let (s, v) := s.addSignal (s.fnOf x.ctx) (fld x.a.toNat 0 6) x.b.toNat
      (s.finish f stOk (BitVec.ofNat 64 v) none).noteWants

/-- SET (03 R77). -/
def execSet (f : Nat) (s : State) : Host.Outcome State Fault Refusal := onFlight 0x04 f s fun x s => s.finish f stOk x.a none

/-- ADDX: the sum modulo 2^64 (03 R77). -/
def execAddx (f : Nat) (s : State) : Host.Outcome State Fault Refusal := onFlight 0x05 f s fun x s => s.finish f stOk (x.a + x.b) none

/-- A branch condition on compared values (03 R79). -/
def branchTaken (cond : Nat) (b c : BitVec 64) (latch : BitVec 16) : Bool :=
  match cond with
  | 0 => true
  | 1 => b == c
  | 2 => b != c
  | 3 => b.ult c
  | 4 => !b.ult c
  | 5 => b.slt c
  | 6 => !b.slt c
  | 7 => latch != 0
  | _ => latch == 0

/-- Redirects a ring's fetch to a signed offset from an index; what was fetched beyond is dropped (02 R52). -/
def State.redirect (s : State) (c ring index off : Nat) : State :=
  let t := (Int.ofNat index + signed 16 off) % 65536
  s.updCtx c fun x => x.updRing ring fun r =>
    { r.cancel with fetched := [], fetch := t.toNat, left := r.left + Int.ofNat (sub16 r.fetch index) - signed 16 off }

/-- BRANCH (03 R79): the latch conditions wait for every earlier instruction of the ring to end, and clear the latch (02 R53). -/
def execBranch (f : Nat) (s : State) : Host.Outcome State Fault Refusal :=
  onFlight 0x06 f s fun x s =>
    let cond := fld x.a.toNat 16 4
    let latch := ((s.ctx x.ctx).ring x.ring).latch
    let tests := cond == 7 || cond == 8
    if tests && (s.ringFlights x.ctx x.ring).any fun p => p.1 < f && p.2.phase != .ended then s
    else
      let taken := branchTaken cond x.b x.c latch
      let s := if tests then s.updCtx x.ctx fun c => c.updRing x.ring fun r => { r with latch := 0 } else s
      let s := s.finish f stOk (BitVec.ofNat 64 (b2n taken + if tests then latch.toNat * 2 ^ 16 else 0)) none
      if taken then s.redirect x.ctx x.ring x.index (fld x.a.toNat 0 16) else s

/-- LOOP: counts down and branches while the result is not 0 (03 R80). -/
def execLoop (f : Nat) (s : State) : Host.Outcome State Fault Refusal :=
  onFlight 0x07 f s fun x s =>
    let v := if x.c = 0 then 0 else x.c - 1
    let s := s.finish f stOk v none
    if v = 0 then s else s.redirect x.ctx x.ring x.index (fld x.a.toNat 0 16)

end Sys2Proof.Machine
end

