-- ==== Sys2Proof/Machine/Layout.lean ====
section
/-! DEFINITION. The page-space layout, the budget governor and the load gauges (04 R115, R116, R119; 08 R260, R261, R273; 10 R320). -/
namespace Sys2Proof.Machine
open Sys2Proof

/-! ## COMMIT (04 R119) -/

/-- Sheets of the Spine areas of SYS before the overflow table (06 R214), and of the smallest overflow table. -/
abbrev spineSheets : Nat := 32768
abbrev ovfLeast : Nat := 64
/-- Number, base and size of a region. -/
abbrev Span := Nat × Nat × Nat
/-- The first region, by index, that is empty, lies beyond T0 or overlaps one of a lower index (log 18). -/
def badSpan (t0 : Nat) : List Span → List Span → Option Nat
  | [], _ => none
  | (i, b, n) :: r, before =>
    if n = 0 ∨ t0 < b + n ∨ before.any (fun x => decide (b < x.2.1 + x.2.2 ∧ x.2.1 < b + n)) then some i else badSpan t0 r ((i, b, n) :: before)
/-- ERR_REGION of a layout; none when it passes the checks on the layout itself. Of several that fail, the order of the checks here decides
(log 131). -/
def State.layoutBad (s : State) (base size : Tbl Nat) (limit : Nat) : Option Nat :=
  let sz (r : Nat) : Nat := size.get r 0
  match badSpan s.t0Sheets ((List.range 7).map fun r => (r, base.get r 0, sz r)) [] with
  | some r => some r
  | none =>
    if sz 0 * 4096 < limit * 32 then some 0
    else if sz 1 ≤ 131072 then some 1
    else if sz 6 < 65536 then some 6
    else if sz 5 < spineSheets + ovfLeast + s.tierArea then some 5
    else if limit % 2 ^ 20 ≠ 0 ∨ limit < 2 ^ 20 ∨ 0xFFF00000 < limit then some 8
    else none
/-- The conditions on the device's state. -/
def State.layoutIdle (s : State) : Bool :=
  s.ctxs.all (fun c => c.2.state == .disabled) && s.ps.pages.all (fun p => p.2.state == .free) && s.spine.regions.all fun r => !r.2.used
/-- A write of PS_CONTROL: LAYOUT_ERR is cleared by 1, and COMMIT asks for the pending layout. -/
def State.commit (s : State) (v : Nat) : State :=
  let s := if bit v 2 then { s with ps := { s.ps with layoutErr := false } } else s
  if !bit v 0 then s
  else
    let bad := if s.layoutIdle then s.layoutBad s.ps.pBase s.ps.pSize s.ps.pLimit else some 15
    match bad with
    | some r => { s with ps := { s.ps with layoutErr := true, errRegion := r } }
    | none =>
      { s with ps := { s.ps with
          base := s.ps.pBase, size := s.ps.pSize, limit := s.ps.pLimit, layoutValid := false, layoutActive := true, pages := [], seqs := [] } }
/-- COMMIT. -/
def execCommit (v : BitVec 64) (s : State) : Host.Outcome State Fault Refusal := act s fun s => s.commit v.toNat
/-- LAYOUT_INIT_DONE. -/
def execLayoutInitDone (s : State) : Host.Outcome State Fault Refusal :=
  act s fun s => if s.ps.layoutActive then { s with ps := { s.ps with layoutValid := true } } else s

/-! ## The budget governor (08 R261) -/

/-- The level in force: FORCE_LEVEL under MODE 1, else that of the governor. -/
def Fq.inForce (q : Fq) : Nat := if q.mode then q.forceLevel else q.level
/-- The level an interval leaves, and the count of intervals below 15/16 of the limits, from `n` samples of package power that sum to `sum` uW and
the peak die temperature. -/
def Fq.evaluate (q : Fq) (sum n : Nat) (temp : Int) : Fq :=
  let limit := q.powerW * 1000000 * n
  let hot := Int.ofNat q.tempC
  if q.mode then q
  else if limit < sum ∨ hot < temp then { q with level := min (q.level + 1) 3, below := 0 }
  else if 16 * sum < 15 * limit ∧ 16 * temp < 15 * hot then
    if q.below = 15 then { q with level := q.level - 1, below := 0 } else { q with below := q.below + 1 }
  else { q with below := 0 }
/-- Settings written in the interval take effect at its end (08 R273). -/
def Fq.adopt (q : Fq) : Fq :=
  let g := q.govW.toNat
  let l := q.limitW.toNat
  let q := { q with mode := bit g 0, forceLevel := fld g 1 2, powerW := fld l 0 12, tempC := fld l 16 8, interval := if fld l 32 16 = 0 then q.interval else fld l 32 16 }
  if q.mode then { q with level := q.forceLevel, below := 0 } else q
/-- Sum and number of an interval's samples of package power, and the peak of its die temperatures; the last sample where none fell into it (15 R470;
log 152). -/
def Pwr.interval (p : Pwr) : Nat × Nat × Int :=
  if p.powerCount = 0 then (p.lastPower, 1, p.dieC) else (p.powerSum, p.powerCount, p.diePeak.getD p.dieC)
/-- GOVERNOR_INTERVAL, INTERVAL × 1,024 cycles after the last one: the governor evaluates the telemetry's mean power and peak temperature of the interval
that ends (15 R470) under the settings that stood in it, then takes up the written ones (DESIGN CHOICE, log 152). What the command names as power and
temperature is that telemetry, and is not used besides. -/
def execGovernorInterval (_power _temp : Nat) (s : State) : Host.Outcome State Fault Refusal :=
  act s fun s =>
    let due := s.fq.govFrom + s.fq.interval * 1024
    if s.now < due then s
    else
      let x := s.pwr.interval
      let q := { (s.fq.evaluate x.1 x.2.1 x.2.2).adopt with govFrom := due }
      let old := s.fq.inForce
      let s := { s with fq := q, pwr := { s.pwr with powerSum := 0, powerCount := 0, diePeak := none } }
      if q.inForce = old then s else s.trace 4 [old, q.inForce]

/-! ## Load gauges (10 R320) -/

/-- Cycles of an interval of the gauges, and the search credits of pools 0 to 7 (01 R17). -/
abbrev loadCycles : Nat := 65536
def State.searchCredits (s : State) : Nat := (List.range 8).foldl (fun a i => a + if s.poolExists i then poolLimit i else 0) 0
/-- ⌊255 × a / b⌋, at most 255. -/
def gauge (a b : Nat) : Nat := min (255 * a / max b 1) 255
/-- Folio-cycles of an interval: 256 Folios, or 128 (00 R3). -/
def State.folioCycles (s : State) : Nat := (if s.small then 128 else 256) * loadCycles
/-- 1,050 times the bytes T0 moves at its rate in an interval: 2,048 GB/s for each stack of 64 pseudo-channels is 32,000 bytes a microsecond for each
pseudo-channel, and 1,050 cycles are a microsecond (01 R14, R15). -/
def State.t0Bytes1050 (s : State) : Nat := 32000 * s.pchFitted * loadCycles
/-- LOAD_INTERVAL, at the end of an interval: the gauges of Folio-cycles worked and of bytes read from and written to T0 in it, whose counts the command
carries (log 68), of the mean of the search credits in use, and of the POOL from what is free at its end. -/
def execLoadInterval (folio read written : Nat) (s : State) : Host.Outcome State Fault Refusal :=
  act s fun s =>
    let p := s.regSize 6
    if s.now < s.net.loadDue then s
    else
      { s with net := { s.net with
          loadDue := s.net.loadDue + loadCycles, spineUse := 0
          gFolio := gauge folio s.folioCycles, gT0 := gauge (1050 * (read + written)) s.t0Bytes1050
          gSpine := gauge s.net.spineUse (loadCycles * s.searchCredits)
          gPool := gauge (p - s.freeSheets) p } }

end Sys2Proof.Machine
end

