-- ==== Sys2Proof/Machine/Security.lean ====
section
/-! DEFINITION. The Colophon: SPDM, key slots, context keys, debug, the DRBG (12 R359 to R391). -/
namespace Sys2Proof.Machine
open Sys2Proof

/-- Byte `i` of a message. -/
def msgByte (m : Bytes) (i : Nat) : Nat := (m.getD i 0).toNat
/-- Bytes `lo` to `lo + n` of a message. -/
def msgPart (m : Bytes) (lo n : Nat) : Bytes := (m.drop lo).take n
/-- Session `i` (12 R378). -/
def State.session (s : State) (i : Nat) : Session := s.sec.sessions.get i {}
/-- Sessions open (12 R391 OPEN_SESSIONS). -/
def State.sessionsOpen (s : State) : Nat := (s.sec.sessions.filter fun p => p.2.live).length
/-- The SPDM connection of a transport (12 R378). -/
def State.conn (s : State) (t : Nat) : SpdmConn := s.sec.conns.get t {}
/-- Changes it. -/
def State.updConn (s : State) (t : Nat) (f : SpdmConn → SpdmConn) : State := { s with sec := { s.sec with conns := s.sec.conns.upd t {} f } }
/-- Changes key slot `i` (12 R391). -/
def State.updSlot (s : State) (i : Nat) (f : KSlot → KSlot) : State := { s with sec := { s.sec with slots := s.sec.slots.upd i {} f } }
/-- Changes CO_CTX_c (12 R391). -/
def State.updCoCtx (s : State) (c : Nat) (f : CoCtx → CoCtx) : State := { s with sec := { s.sec with ctxs := s.sec.ctxs.upd c {} f } }
/-- Writes bytes into a buffer of registers. -/
def putBuf (t : Tbl (BitVec 8)) (base : Nat) : Bytes → Tbl (BitVec 8)
  | [] => t
  | b :: r => putBuf (t.set base b 0) (base + 1) r
/-- The first `n` bytes of a buffer of registers. -/
def getBuf (t : Tbl (BitVec 8)) (base n : Nat) : Bytes := (List.range n).map fun i => t.get (base + i) 0

/-! ## Images in the boot flash (14 R434, R435) -/

/-- Image `i`. -/
def State.image (s : State) (i : Nat) : Image := s.fw.images.get i {}
/-- Changes image `i`. -/
def State.updImage (s : State) (i : Nat) (f : Image → Image) : State := { s with fw := { s.fw with images := s.fw.images.upd i {} f } }
/-- The bytes that FW_STAGE has put into a bank; the erased value 0xFF is what a byte not listed reads as. -/
def Image.bank (x : Image) (b : Bool) : Tbl (BitVec 8) := if b then x.bankB else x.bankA
/-- The sectors of a bank that FW_STAGE has erased. -/
def Image.erased (x : Image) (b : Bool) : Tbl Bool := if b then x.erasedB else x.erasedA
/-- Bytes of a bank of image `i`: what FW_STAGE put into erased sectors, what the flash held before in the others (log 48). -/
def Image.bytes (x : Image) (i : Nat) (b : Bool) (lo n : Nat) : Bytes :=
  (List.range n).map fun k => if (x.erased b).get ((lo + k) / 4096) false then (x.bank b).get (lo + k) 0xFF else Config.flashByte i b (lo + k)
/-- The header of a bank names image `i`, is valid, and fits with body and signatures (14 R435); the length of the signed body. -/
def Image.bodyLen (x : Image) (i : Nat) (b : Bool) : Option Nat :=
  let h := x.bytes i b 0 64
  let n := ofLe (msgPart h 8 4)
  if msgByte h 0 = i ∧ msgByte h 1 = 1 ∧ ofLe (msgPart h 2 2) = 0 ∧ ofLe (msgPart h 12 52) = 0 ∧ 64 + n + 16608 ≤ 0x400000 then some (64 + n) else none
/-- Digest of the signed body and VERSION of what a bank holds: of the bytes staged, or of what the bank was found to hold (log 48). -/
def State.bankFound (s : State) (i : Nat) (b : Bool) : BitVec 384 × Nat :=
  let x := s.image i
  if (x.erased b).isEmpty then (if b then (x.foundB, x.verB) else (x.foundA, x.verA))
  else
    match x.bodyLen i b with
    | some n => (BitVec.ofNat 384 (ofLe (sha384 (x.bytes i b 0 n))), ofLe (msgPart (x.bytes i b 0 64) 4 4))
    | none => (0, 0)

/-! ## Measurements (12 R365 to R367) -/

/-- The security-state block, as a number of 128 bits (12 R366). -/
def State.secState (s : State) : Nat :=
  let c := s.sec
  c.debug + 4 * b2n c.ide + 8 * b2n (c.spRestarting.get 0 false) + 16 * b2n (c.spRestarting.get 1 false) + 32 * b2n (c.spRestarting.get 2 false) +
    64 * b2n c.identityOk + 128 * b2n c.entropyOk + 256 * b2n s.dev.operational + 2 ^ 16 * c.activations + 2 ^ 32 * c.spRestarts +
    2 ^ 48 * (if s.dev.operational then s.dev.minor else 0) + 2 ^ 56
/-- The value of measurement block `i` (12 R365). -/
def State.measValue (s : State) (i : Nat) : Bytes :=
  if i = 7 then leBytes 16 s.secState
  else if i = 1 then leBytes 48 Config.romDigest.toNat
  else leBytes 48 (s.sec.meas.get i 0).toNat
/-- Measurement block `i` in DMTF measurement specification format (DSP0274, log 10). -/
def State.measBlock (s : State) (i : Nat) : Bytes :=
  let v := s.measValue i
  let ty := (Config.measType i).toNat + if i = 7 then 128 else 0
  leBytes 1 i ++ leBytes 1 1 ++ leBytes 2 (3 + v.length) ++ leBytes 1 ty ++ leBytes 2 v.length ++ v

/-! ## SPDM messages (12 R378 to R381; DSP0274, log 10) -/

/-- An SPDM ERROR response. -/
def spdmError (code data : Nat) : Bytes := leBytes 1 0x13 ++ leBytes 1 0x7F ++ leBytes 1 code ++ leBytes 1 data
abbrev erInvalidRequest : Nat := 0x01
abbrev erBusy : Nat := 0x03
abbrev erUnexpected : Nat := 0x04
abbrev erUnspecified : Nat := 0x05
abbrev erUnsupported : Nat := 0x07
abbrev erSessionLimit : Nat := 0x0A
abbrev erSessionRequired : Nat := 0x0B
abbrev erVersion : Nat := 0x41
/-- Keeps the signed message M of a connection (12 R379). -/
def State.keepM (s : State) (t : Nat) (m : Bytes) : State := { s with sec := { s.sec with lastM := s.sec.lastM.put t m } }
/-- Discards it. -/
def State.dropM (s : State) (t : Nat) : State := { s with sec := { s.sec with lastM := s.sec.lastM.del t } }
/-- A signed response: the signature over M under the DeviceID RSA key, and M is kept (12 R379). -/
def State.signed (s : State) (t : Nat) (req unsigned : Bytes) : Bytes × State :=
  let m := req ++ unsigned
  (unsigned ++ Config.rsaSign s.sec.rsaKey m, s.keepM t m)
/-- 32 bytes of the DRBG for a nonce (12 R368). -/
def State.nonce32 (s : State) : Bytes × State := let (v, s) := s.drbg 4; (leBytes 32 v, s)

/-- GET_MEASUREMENTS: the number of blocks, one block or all of them, from one instant (12 R365, R367). -/
def State.getMeasurements (s : State) (t : Nat) (m : Bytes) : Bytes × State :=
  let sig := msgByte m 2 % 2 == 1
  let op := msgByte m 3
  let need := if sig then 45 else 12
  if m.length ≠ need ∨ (7 < op ∧ op ≠ 255) then (spdmError erInvalidRequest 0, s)
  else if sig && !s.sec.identityOk then (spdmError erUnexpected 0, s)
  else
    let ids := if op = 0 then [] else if op = 255 then [1, 2, 3, 4, 5, 6, 7] else [op]
    let blocks := (ids.map s.measBlock).flatten
    let (nonce, s) := s.nonce32
    let r := leBytes 1 0x13 ++ leBytes 1 0x60 ++ leBytes 1 (if op = 0 then 7 else 0) ++ leBytes 1 (if sig then msgByte m 36 % 16 else 0) ++
      leBytes 1 ids.length ++ leBytes 3 blocks.length ++ blocks ++ nonce ++ leBytes 2 0 ++ msgPart m (need - 8) 8
    if sig then s.signed t m r else (r, s)
/-- The certificate chain of slot 0 or 1 (12 R378). -/
def State.chain (s : State) (slot : Nat) : Bytes := if slot = 0 then s.dev.flash.chain0 else s.dev.flash.chain1
/-- Measurement summary hash of a CHALLENGE: over the blocks of the trusted computing base, or over all. -/
def State.measSummary (s : State) (kind : Nat) : Bytes :=
  if kind = 0 then [] else sha384 ((([1, 2, 3, 4, 5, 6, 7].filter fun i => kind == 255 || Config.tcbBlock i).map s.measBlock).flatten)
/-- CHALLENGE of slot 0 or 1: a signed CHALLENGE_AUTH with the digest of the slot's chain, a nonce, the summary asked for, no opaque data and the
requester's context (12 R379). -/
def State.challenge (s : State) (t : Nat) (m : Bytes) : Bytes × State :=
  let slot := msgByte m 2
  let kind := msgByte m 3
  if m.length ≠ 44 ∨ 1 < slot ∨ !(kind == 0 || kind == 1 || kind == 255) then (spdmError erInvalidRequest 0, s)
  else if !s.sec.identityOk then (spdmError erUnexpected 0, s)
  else
    let (nonce, s) := s.nonce32
    s.signed t m (leBytes 1 0x13 ++ leBytes 1 0x03 ++ leBytes 1 slot ++ leBytes 1 3 ++ sha384 (s.chain slot) ++ nonce ++ s.measSummary kind ++ leBytes 2 0 ++
      msgPart m 36 8)
/-- The ML-KEM-1024 key among the opaque data elements of a KEY_EXCHANGE: StandardID 0x04, Oserzen's VendorID, type 0x01 (12 R380). -/
def findKem : Nat → Bytes → Option Bytes
  | 0, _ => none
  | k + 1, e =>
    let vlen := msgByte e 1
    let dlen := ofLe (msgPart e (2 + vlen) 2)
    let data := msgPart e (4 + vlen) dlen
    if e.length < 4 then none
    else if msgByte e 0 = 4 ∧ ofLe (msgPart e 2 vlen) = Config.pen.toNat ∧ dlen = 1569 ∧ data.length = 1569 ∧ msgByte data 0 = 1 then some (data.drop 1)
    else findKem k (e.drop ((4 + vlen + dlen + 3) / 4 * 4))
/-- A session ID that no open session has: the requester's half, and the Colophon's, which the spec leaves open (log 3). -/
def State.newSession (s : State) (reqId : Nat) : Nat × State :=
  let (v, s) := s.draw
  let cand := (List.range 10).map fun i => reqId + 65536 * ((v + i) % 65535 + 1)
  ((cand.find? fun i => !(s.session i).live).getD 0, s)
/-- The opaque data of a KEY_EXCHANGE_RSP: one element of Oserzen's type 0x02, the ML-KEM ciphertext, padded to 4 bytes (12 R380). -/
def kemOpaque (ct : BitVec 12544) : Bytes :=
  leBytes 1 1 ++ zeros 3 ++ leBytes 1 4 ++ leBytes 1 4 ++ leBytes 4 Config.pen.toNat ++ leBytes 2 1569 ++ leBytes 1 2 ++ leBytes 1568 ct.toNat ++ zeros 3
/-- KEY_EXCHANGE: a hybrid exchange opens a session. Its DHE secret is the 48 bytes of secp384r1, then the 32 of ML-KEM (12 R378, R380). -/
def State.keyExchange (s : State) (t : Nat) (m : Bytes) : Bytes × State :=
  let olen := ofLe (msgPart m 136 2)
  let kind := msgByte m 2
  if m.length ≠ 138 + olen ∨ 1 < msgByte m 3 ∨ !(kind == 0 || kind == 1 || kind == 255) then (spdmError erInvalidRequest 0, s) else
  match findKem olen (msgPart m 142 (olen - 4)) with
  | none => (spdmError erInvalidRequest 0, s)
  | some kem =>
    if !s.sec.identityOk then (spdmError erUnexpected 0, s)
    else if 8 ≤ s.sessionsOpen then (spdmError erSessionLimit 0, s)
    else
      let (id, s) := s.newSession (ofLe (msgPart m 4 2))
      let (nonce, s) := s.nonce32
      let (z, s) := s.nonce32
      let dh := Config.ecdh (msgPart m 40 96) z
      let ml := Config.mlKem kem z
      let data := kemOpaque ml.1
      let (r, s) := s.signed t m (leBytes 1 0x13 ++ leBytes 1 0x64 ++ leBytes 1 60 ++ leBytes 1 0 ++ leBytes 2 (id / 65536) ++ leBytes 1 0 ++ leBytes 1 (msgByte m 3) ++
        nonce ++ leBytes 96 dh.1.toNat ++ s.measSummary kind ++ leBytes 2 data.length ++ data)
      let keys := Config.sessionKeys (leBytes 48 dh.2.toNat ++ leBytes 32 ml.2.toNat) (m ++ r)
      let s := { s with sec := { s.sec with sessions := s.sec.sessions.put id { live := true, since := s.now, transport := t, reqKey := keys.1, rspKey := keys.2 } } }
      (r ++ leBytes 48 (Config.verifyData keys.2 (m ++ r)).toNat, s)
/-- A response being fetched in a session goes with it. -/
def SpdmConn.endSession (c : SpdmConn) (id : Nat) : SpdmConn := if c.outSession = id then { c with outData := [], outSession := 0 } else c
/-- A session ends; authorisations that name it lapse (12 R369, R382). -/
def State.endSession (s : State) (id : Nat) : State :=
  { s with sec := { s.sec with
      sessions := s.sec.sessions.del id
      conns := s.sec.conns.map fun p => (p.1, p.2.endSession id)
      slots := s.sec.slots.foldl (fun t p => if p.2.auth = id then Tbl.set t p.1 { p.2 with auth := 0 } {} else t) s.sec.slots
      ctxs := s.sec.ctxs.foldl (fun t p => if p.2.auth = id then Tbl.set t p.1 { p.2 with auth := 0 } {} else t) s.sec.ctxs } }
/-- Ends every session. -/
def State.endSessions (s : State) : State := s.sec.sessions.foldl (fun s p => s.endSession p.1) s

/-! ## Vendor-defined messages (12 R381, R382) -/

/-- A vendor-defined response with its payload. -/
def vendorResponse (payload : Bytes) : Bytes :=
  leBytes 1 0x13 ++ leBytes 1 0x7E ++ leBytes 2 0 ++ leBytes 2 4 ++ leBytes 1 4 ++ leBytes 4 Config.pen.toNat ++ leBytes 2 payload.length ++ payload
/-- Payload of a vendor-defined response: OP, STATUS, 2 reserved bytes, data. -/
def vendorPayload (op st : Nat) (data : Bytes) : Bytes := leBytes 1 op ++ leBytes 1 st ++ leBytes 2 0 ++ data
/-- The payload of a vendor-defined request of Oserzen. -/
def vendorRequest (m : Bytes) : Option Bytes :=
  let n := ofLe (msgPart m 11 2)
  if ofLe (msgPart m 4 2) = 4 ∧ msgByte m 6 = 4 ∧ ofLe (msgPart m 7 4) = Config.pen.toNat ∧ m.length = 13 + n ∧ 1 ≤ n then some (m.drop 13) else none
/-- GET_PQ_SIGNATURE: over M, when the request is the next after the signed response (12 R379). -/
def State.pqSignature (s : State) (t : Nat) : Bytes × State :=
  if !s.sec.identityOk then (spdmError erUnexpected 0, s)
  else
    match s.sec.lastM.find? fun p => p.1 == t with
    | some p => (vendorResponse (vendorPayload 1 0 (Config.slhSign s.sec.slhKey p.2)), s)
    | none => (vendorResponse (vendorPayload 1 2 []), s)
/-- Installs a weight key: the slot becomes ACTIVATING (12 R382). -/
def KSlot.release (x : KSlot) (key : BitVec 256) : KSlot :=
  { x with state := .activating, key := key, keygen := (x.keygen + 1) % 65536, stale := false }
/-- KEY_RELEASE. -/
def State.keyRelease (s : State) (sid : Nat) (p : Bytes) : Bytes × State :=
  let slot := msgByte p 1
  let answer (st : Nat) : Bytes := vendorResponse (vendorPayload 2 st [])
  if s.sec.debug = 2 then (answer 4, s)
  else if p.length ≠ 37 ∨ ofLe (msgPart p 2 3) ≠ 0 then (answer 5, s)
  else if (s.sec.slots.get slot {}).auth ≠ sid then (answer 1, s)
  else
    let s := s.updSlot slot fun x => x.release (BitVec.ofNat 256 (ofLe (msgPart p 5 32)))
    (vendorResponse (vendorPayload 2 0 (leBytes 2 (s.sec.slots.get slot {}).keygen)), s)
/-- An erased slot keeps its KEYGEN (12 R391). -/
def KSlot.erase (x : KSlot) : KSlot := { x with state := .empty, key := 0 }
/-- KEY_ERASE. -/
def State.keyErase (s : State) (sid : Nat) (p : Bytes) : Bytes × State :=
  let slot := msgByte p 1
  if p.length ≠ 2 then (vendorResponse (vendorPayload 3 5 []), s)
  else if (s.sec.slots.get slot {}).auth ≠ sid then (vendorResponse (vendorPayload 3 1 []), s)
  else (vendorResponse (vendorPayload 3 0 []), s.updSlot slot KSlot.erase)
/-- GET_CONTEXT_KEY. -/
def State.contextKey (s : State) (sid : Nat) (p : Bytes) : Bytes × State :=
  let c := ofLe (msgPart p 1 2)
  let k := s.sec.ctxs.get c {}
  if s.sec.debug = 2 then (vendorResponse (vendorPayload 4 4 []), s)
  else if p.length ≠ 3 ∨ 1024 ≤ c then (vendorResponse (vendorPayload 4 5 []), s)
  else if k.auth ≠ sid then (vendorResponse (vendorPayload 4 1 []), s)
  else if !k.keyValid then (vendorResponse (vendorPayload 4 3 []), s)
  else (vendorResponse (vendorPayload 4 0 (leBytes 2 k.keygen ++ leBytes 32 k.key.toNat)), s.updCoCtx c fun x => { x with exported := true })
/-- A vendor-defined request; all but GET_PQ_SIGNATURE need a session. -/
def State.vendor (s : State) (t sid : Nat) (m : Bytes) : Bytes × State :=
  match vendorRequest m with
  | none => (spdmError erInvalidRequest 0, s)
  | some p =>
    let op := msgByte p 0
    if op = 1 then s.pqSignature t
    else if op < 2 ∨ 4 < op then (spdmError erInvalidRequest 0, s)
    else if sid = 0 then (spdmError erSessionRequired 0, s)
    else if op = 2 then s.keyRelease sid p
    else if op = 3 then s.keyErase sid p
    else s.contextKey sid p

/-! ## Discovery (12 R378; DSP0274, log 10) -/

abbrev erDecrypt : Nat := 0x06
abbrev erLarge : Nat := 0x0F
/-- Version 1.3, and no other. -/
def spdmVersions : Bytes := leBytes 1 0x10 ++ leBytes 1 0x04 ++ zeros 3 ++ leBytes 1 1 ++ leBytes 2 0x1300
/-- Flags of CAPABILITIES: CERT, CHAL, MEAS with signature, MEAS_FRESH, ENCRYPT, MAC, KEY_EX, HBEAT, KEY_UPD, CHUNK. -/
def spdmFlags : Nat := [1, 2, 4, 5, 6, 7, 9, 13, 14, 17].foldl (fun a i => a + 2 ^ i) 0
/-- DataTransferSize and MaxSPDMmsgSize. -/
abbrev spdmTransfer : Nat := 65536
abbrev spdmLargest : Nat := 262144
/-- GET_CAPABILITIES: the requester's transfer size is kept; CTExponent 17. -/
def State.capabilities (s : State) (t : Nat) (m : Bytes) : Bytes × State :=
  let n := ofLe (msgPart m 12 4)
  if m.length < 20 ∨ n < 42 ∨ ofLe (msgPart m 16 4) < n then (spdmError erInvalidRequest 0, s)
  else
    (leBytes 1 0x13 ++ leBytes 1 0x61 ++ zeros 3 ++ leBytes 1 17 ++ zeros 2 ++ leBytes 4 spdmFlags ++ leBytes 4 spdmTransfer ++ leBytes 4 spdmLargest,
      s.updConn t fun c => { c with peerSize := n })
/-- What of an algorithm structure is supported: DHE secp384r1, AEAD AES-256-GCM, no requester key, the SPDM key schedule. -/
def algSupported (ty : Nat) : Nat := if ty = 2 then 0x10 else if ty = 3 then 2 else if ty = 5 then 1 else 0
/-- NEGOTIATE_ALGORITHMS: DMTF measurements, SHA-384, TPM_ALG_RSAPSS_3072, and what the requester's structures and the device have in common. -/
def spdmAlgorithms (m : Bytes) : Bytes :=
  let n := msgByte m 2
  let sel (lo w k : Nat) : Bytes := leBytes w (Nat.land (ofLe (msgPart m lo w)) k)
  let tables := (chunks 4 n (m.drop 32)).flatMap fun a => a.take 2 ++ leBytes 2 (Nat.land (ofLe (msgPart a 2 2)) (algSupported (msgByte a 0)))
  if ofLe (msgPart m 4 2) ≠ m.length ∨ m.length ≠ 32 + 4 * n then spdmError erInvalidRequest 0
  else
    leBytes 1 0x13 ++ leBytes 1 0x63 ++ leBytes 1 n ++ zeros 1 ++ leBytes 2 (36 + 4 * n) ++ sel 6 1 1 ++ zeros 1 ++ leBytes 4 4 ++ sel 8 4 8 ++ sel 12 4 2 ++
      zeros 16 ++ tables
/-- GET_DIGESTS: slots 0 and 1. -/
def State.digests (s : State) : Bytes := leBytes 1 0x13 ++ leBytes 1 0x01 ++ leBytes 1 3 ++ leBytes 1 3 ++ sha384 (s.chain 0) ++ sha384 (s.chain 1)
/-- GET_CERTIFICATE: a portion of a chain, and what remains after it. -/
def State.certificate (s : State) (m : Bytes) : Bytes :=
  let slot := msgByte m 2 % 16
  let at_ := ofLe (msgPart m 4 2)
  let c := (s.chain slot).drop at_
  let part := c.take (ofLe (msgPart m 6 2))
  if m.length ≠ 8 ∨ 1 < slot ∨ c.isEmpty then spdmError erInvalidRequest 0
  else leBytes 1 0x13 ++ leBytes 1 0x02 ++ leBytes 1 slot ++ zeros 1 ++ leBytes 2 part.length ++ leBytes 2 (min (c.length - part.length) 65535) ++ part

/-! ## Requests in a session (12 R369, R378; DSP0274, log 10) -/

/-- Changes a session. -/
def State.updSession (s : State) (id : Nat) (f : Session → Session) : State := { s with sec := { s.sec with sessions := s.sec.sessions.upd id {} f } }
/-- A response without data. -/
def spdmPlain (code p1 p2 : Nat) : Bytes := leBytes 1 0x13 ++ leBytes 1 code ++ leBytes 1 p1 ++ leBytes 1 p2
/-- FINISH: the requester's verify data hold; the keys of the session replace those of the handshake. -/
def State.finishSession (s : State) (sid : Nat) (m : Bytes) : Bytes × State :=
  let x := s.session sid
  if x.finished then (spdmError erUnexpected 0, s)
  else if !Config.finishOk x.reqKey m then (spdmError erDecrypt 0, s.endSession sid)
  else
    let k := Config.dataKeys (x.reqKey, x.rspKey)
    (spdmPlain 0x65 0 0, s.updSession sid fun x => { x with finished := true, reqKey := k.1, rspKey := k.2 })
/-- KEY_UPDATE: 1 updates the request key, 2 both, 3 verifies the new one. -/
def State.keyUpdate (s : State) (sid : Nat) (m : Bytes) : Bytes × State :=
  let op := msgByte m 2
  if op = 0 ∨ 3 < op then (spdmError erInvalidRequest 0, s)
  else
    (spdmPlain 0x69 op (msgByte m 3), s.updSession sid fun x =>
      { x with reqKey := if op = 3 then x.reqKey else Config.nextKey x.reqKey, rspKey := if op = 2 then Config.nextKey x.rspKey else x.rspKey })
/-- HEARTBEAT, KEY_UPDATE and END_SESSION of an established session; FINISH of one that is not. -/
def State.inSession (s : State) (sid code : Nat) (m : Bytes) : Bytes × State :=
  if sid = 0 then (spdmError erSessionRequired 0, s)
  else if code = 0xE5 then s.finishSession sid m
  else if code = 0xE8 then (spdmPlain 0x68 0 0, s)
  else if code = 0xE9 then s.keyUpdate sid m
  else (spdmPlain 0x6C 0 0, s.endSession sid)

/-! ## Requests (12 R378, R387 to R389) -/

/-- Request codes that the Colophon does not support (12 R378): PSK_EXCHANGE, GET_CSR, SET_CERTIFICATE, GET_ENDPOINT_INFO. -/
def spdmSupported (code : Nat) : Bool :=
  [0x81, 0x82, 0x83, 0x84, 0x85, 0x86, 0xE0, 0xE1, 0xE3, 0xE4, 0xE5, 0xE8, 0xE9, 0xEC, 0xFE].contains code
/-- The answer to a request that comes whole, once the Colophon firmware runs. -/
def State.spdmWhole (s : State) (t sid : Nat) (m : Bytes) : Bytes × State :=
  let code := msgByte m 1
  let forget : State := s.dropM t
  if m.length < 4 then (spdmError erInvalidRequest 0, forget)
  else if msgByte m 0 ≠ 0x13 ∧ !(code = 0x84 ∧ msgByte m 0 = 0x10) then (spdmError erVersion 0, forget)
  else if !spdmSupported code then (spdmError erUnsupported code, forget)
  else if sid ≠ 0 ∧ !(s.session sid).finished ∧ code ≠ 0xE5 then (spdmError erUnexpected 0, forget)
  else if code = 0xFE then
    let (r, x) := s.vendor t sid m
    (r, x.dropM t)
  else if code = 0xE0 then forget.getMeasurements t m
  else if code = 0x83 then forget.challenge t m
  else if code = 0xE4 then forget.keyExchange t m
  else if code = 0x84 then (spdmVersions, forget)
  else if code = 0xE1 then forget.capabilities t m
  else if code = 0xE3 then (spdmAlgorithms m, forget)
  else if code = 0x81 then (s.digests, forget)
  else if code = 0x82 then (s.certificate m, forget)
  else forget.inSession sid code m
/-- A response as the requester can take it: one longer than its transfer size waits to be fetched in chunks, in the session it belongs to (12 R382). -/
def State.sized (s : State) (t sid : Nat) (r : Bytes) : Bytes × State :=
  let c := s.conn t
  if c.peerSize = 0 ∨ r.length ≤ c.peerSize then (r, s)
  else
    let h := (c.outHandle + 1) % 256
    (spdmError erLarge 0 ++ leBytes 1 h, s.updConn t fun c => { c with outHandle := h, outNext := 0, outData := r, outSession := sid })
/-- The answer to a whole request, in the size the requester takes; a response still being fetched is dropped. -/
def State.spdmSized (s : State) (t sid : Nat) (m : Bytes) : Bytes × State :=
  let s := if (s.conn t).outData.isEmpty then s else s.updConn t fun c => { c with outData := [] }
  let (r, s) := s.spdmWhole t sid m
  s.sized t sid r
/-- CHUNK_SEND: chunks in order, all in one session or outside any, make a request, which the last of them answers. Any other discards M (12 R379). -/
def State.chunkSend (s : State) (t sid : Nat) (m : Bytes) : Bytes × State :=
  let c := s.conn t
  let last := msgByte m 2 % 2 == 1
  let h := msgByte m 3
  let seq := ofLe (msgPart m 4 2)
  let n := ofLe (msgPart m 8 4)
  let head := if seq = 0 then 16 else 12
  let total := if seq = 0 then ofLe (msgPart m 12 4) else c.inTotal
  let got := (if seq = 0 then [] else c.inData) ++ m.drop head
  let clear : State := s.updConn t fun c => { c with inTotal := 0, inData := [], inSession := 0 }
  let fits := decide (m.length = head + n ∧ 0 < n ∧ got.length ≤ total ∧ total ≤ spdmLargest) && (seq == 0 || (h == c.inHandle && seq == c.inNext && c.inTotal != 0 && c.inSession == sid)) &&
    last == decide (got.length = total)
  if !fits then (spdmError erInvalidRequest 0, clear.dropM t)
  else if last then
    let (r, s) := if msgByte got 1 = 0x85 ∨ msgByte got 1 = 0x86 then (spdmError erInvalidRequest 0, clear.dropM t) else clear.spdmSized t sid got
    (spdmPlain 0x05 0 h ++ leBytes 2 seq ++ r, s)
  else (spdmPlain 0x05 0 h ++ leBytes 2 seq, (s.dropM t).updConn t fun c => { c with inHandle := h, inNext := seq + 1, inTotal := total, inData := got, inSession := sid })
/-- CHUNK_GET: the next chunk of a response that waits, in its session alone; it discards M (12 R379, R382). -/
def State.chunkGet (s : State) (t sid : Nat) (m : Bytes) : Bytes × State :=
  let c := s.conn t
  let seq := ofLe (msgPart m 4 2)
  let s := s.dropM t
  if m.length < 6 ∨ c.outData.isEmpty ∨ c.outSession ≠ sid ∨ msgByte m 3 ≠ c.outHandle ∨ seq ≠ c.outNext then (spdmError erInvalidRequest 0, s)
  else
    let n := c.peerSize - if seq = 0 then 16 else 12
    let part := c.outData.take n
    let rest := c.outData.drop n
    (spdmPlain 0x06 (b2n rest.isEmpty) c.outHandle ++ leBytes 2 seq ++ zeros 2 ++ leBytes 4 part.length ++ (if seq = 0 then leBytes 4 c.outData.length else []) ++ part,
      s.updConn t fun c => { c with outNext := seq + 1, outData := rest })
/-- The answer to a request. -/
def State.spdmAnswer (s : State) (t sid : Nat) (m : Bytes) : Bytes × State :=
  let code := msgByte m 1
  if (code = 0x85 ∨ code = 0x86) ∧ msgByte m 0 = 0x13 ∧ 4 ≤ m.length then
    if sid ≠ 0 ∧ !(s.session sid).finished then (spdmError erUnexpected 0, s.dropM t)
    else if code = 0x85 then s.chunkSend t sid m
    else s.chunkGet t sid m
  else s.spdmSized t sid m
/-- Sends a response on a transport: sealed under a session's key with its number, and into CO_RSP on the Colophon mailbox. -/
def State.spdmReply (s : State) (t sid : Nat) (k : BitVec 256 × Nat) (r : Bytes) : State :=
  let b := if sid = 0 then r else Config.sessionSeal k.1 k.2 r
  if t = 3 then { s with sec := { s.sec with rsp := putBuf s.sec.rsp 0 b, rspLen := b.length, mboxDone := true } }
  else s.emitOut (.response t b)
/-- An MCTP binding is served: 0 SMBus, 1 I3C, where the strap enables its pins, 2 PCIe; service processor 2 runs them (12 R378, R387; 15 R463). -/
def State.busUp (s : State) (b : Nat) : Bool := decide (b < 3) && (s.sp 2).state == .ready && (b != 1 || s.dev.i3c)
/-- The transport carries requests: an MCTP binding, or the Colophon mailbox, 3. -/
def State.transportUp (s : State) (t : Nat) : Bool := t == 3 || s.busUp t
/-- An SPDM request on a transport, in session `sid` or outside any (0); nothing from the assertion of a reset of level 5 or 6 on (12 R389). -/
def State.spdm (s : State) (t sid : Nat) (m : Bytes) : State :=
  if !s.transportUp t || s.dev.draining then s
  else
    match s.sec.state with
    | .reset => s
    | .rom => if s.sec.fwFailed then s.spdmReply t 0 (0, 0) (spdmError erUnspecified 0) else s
    | .activating => (s.dropM t).spdmReply t 0 (0, 0) (spdmError erBusy 0)
    | .running =>
      if sid ≠ 0 ∧ !((s.session sid).live && (s.session sid).transport == t) then s
      else
        let x := s.session sid
        let s := if sid = 0 then s else s.updSession sid fun x => { x with since := s.now, sent := x.sent + 1 }
        let (r, s) := s.spdmAnswer t sid m
        s.spdmReply t sid (if msgByte m 1 = 0xE9 then (s.session sid).rspKey else x.rspKey, x.sent) r
/-- OP of a vendor-defined request of Oserzen, else 0. -/
def vendorOp (m : Bytes) : Nat :=
  if msgByte m 1 = 0xFE then (match vendorRequest m with | some p => msgByte p 0 | none => 0) else 0

/-- SPDM_GET_MEASUREMENTS. -/
def execSpdmGetMeasurements (transport : Nat) (msg : List (BitVec 8)) (s : State) : Host.Outcome State Fault Refusal :=
  act s fun s => if msgByte msg 1 = 0xE0 then s.spdm transport 0 msg else s
/-- SPDM_CHALLENGE. -/
def execSpdmChallenge (transport : Nat) (msg : List (BitVec 8)) (s : State) : Host.Outcome State Fault Refusal :=
  act s fun s => if msgByte msg 1 = 0x83 then s.spdm transport 0 msg else s
/-- SPDM_KEY_EXCHANGE. -/
def execSpdmKeyExchange (transport : Nat) (msg : List (BitVec 8)) (s : State) : Host.Outcome State Fault Refusal :=
  act s fun s => if msgByte msg 1 = 0xE4 then s.spdm transport 0 msg else s
/-- SPDM_REQUEST: any request, in a session or outside. -/
def execSpdmRequest (transport session : Nat) (msg : List (BitVec 8)) (s : State) : Host.Outcome State Fault Refusal :=
  act s fun s => s.spdm transport session msg
/-- GET_PQ_SIGNATURE. -/
def execGetPqSignature (transport : Nat) (msg : List (BitVec 8)) (s : State) : Host.Outcome State Fault Refusal :=
  act s fun s => if vendorOp msg = 1 then s.spdm transport 0 msg else s
/-- KEY_RELEASE, in a session. -/
def execKeyRelease (session : Nat) (msg : List (BitVec 8)) (s : State) : Host.Outcome State Fault Refusal :=
  act s fun s => if vendorOp msg = 2 then s.spdm (s.session session).transport session msg else s
/-- KEY_ERASE, in a session. -/
def execKeyErase (session : Nat) (msg : List (BitVec 8)) (s : State) : Host.Outcome State Fault Refusal :=
  act s fun s => if vendorOp msg = 3 then s.spdm (s.session session).transport session msg else s
/-- GET_CONTEXT_KEY, in a session. -/
def execGetContextKey (session : Nat) (msg : List (BitVec 8)) (s : State) : Host.Outcome State Fault Refusal :=
  act s fun s => if vendorOp msg = 4 then s.spdm (s.session session).transport session msg else s
/-- SLOT_LOADED (12 R382). -/
def execSlotLoaded (slot : Nat) (s : State) : Host.Outcome State Fault Refusal :=
  act s fun s => if (s.sec.slots.get slot {}).state = .activating then s.updSlot slot fun x => { x with state := .loaded } else s
/-- SPDM_SESSION_TIMEOUT: no message within the heartbeat period, 60 s (12 R369, R378). -/
def execSpdmSessionTimeout (session : Nat) (s : State) : Host.Outcome State Fault Refusal :=
  act s fun s =>
    let x := s.session session
    if x.live && decide (x.since + 60 * secCycles ≤ s.now) then s.endSession session else s

/-! ## CO_CMD (12 R382, R384, R391) -/

/-- Runs a command of CO_CMD while the Colophon firmware runs: BUSY while it is activated, ignored before it has started and once a reset of level 5 or
6 is asserted (12 R388, R389). -/
def State.coCmd (s : State) (f : State → BitVec 16 × State) : State :=
  if s.dev.draining then s else
  match s.sec.state with
  | .running => let (st, s) := f s; { s with sec := { s.sec with cmdStatus := st } }
  | .activating => { s with sec := { s.sec with cmdStatus := stBusy } }
  | _ => s
/-- AUTH_SLOT: the authorisation replaces the earlier one, and FUNCTION is set. -/
def State.authSlot (s : State) (slot session fn : Nat) : State :=
  s.coCmd fun s => if 256 ≤ slot then (stRange, s) else (stOk, s.updSlot slot fun x => { x with auth := session, function := fn })
/-- AUTH_CTX. -/
def State.authCtx (s : State) (c session : Nat) : State :=
  s.coCmd fun s => if 1024 ≤ c then (stRange, s) else (stOk, s.updCoCtx c fun x => { x with auth := session })
/-- ERASE_SLOT. -/
def State.eraseSlot (s : State) (slot : Nat) : State :=
  s.coCmd fun s => if 256 ≤ slot then (stRange, s) else (stOk, s.updSlot slot KSlot.erase)
/-- DEBUG1: debug level 1, or the level already above it. -/
def State.debug1 (s : State) : State := s.coCmd fun s => (stOk, { s with sec := { s.sec with debug := max s.sec.debug 1 } })
/-- The debug token in CO_REQ is good: DEVICE_ID, nonce, both signatures (12 R384). -/
def State.tokenOk (s : State) : Bool :=
  let body := getBuf s.sec.req 0 96
  body == leBytes 48 s.sec.deviceId.toNat ++ leBytes 48 s.sec.nonce.toNat && Config.tokenSigned body (getBuf s.sec.req 96 16608)
/-- DEBUG2: in MANAGEMENT_ONLY, before any interface-version message. -/
def State.debug2 (s : State) : State :=
  s.coCmd fun s =>
    if !s.dev.operational && !s.sec.helloSeen && s.tokenOk then (stOk, { s with sec := { s.sec with debug := 2 } }) else (stPermission, s)
/-- A write of CO_CMD (12 R391). -/
def State.coCmdWrite (s : State) (v : Nat) : State :=
  let target := fld v 8 10
  match fld v 0 4 with
  | 1 => s.authSlot target (fld v 32 32) (fld v 24 8)
  | 2 => s.authCtx target (fld v 32 32)
  | 3 => s.eraseSlot target
  | 4 => s.debug1
  | 5 => s.debug2
  | _ => s.coCmd fun s => (stRange, s)
/-- A secured request of the Colophon mailbox names its session in its first 4 bytes. One that does not authenticate under that session is rejected
(12 R378; log 10); before the firmware runs and while it is activated the answer is that of every other request (12 R364, R388). -/
def State.coSecured (s : State) (m : Bytes) : State :=
  let sid := ofLe (m.take 4)
  let x := s.session sid
  if s.sec.state ≠ .running then s.spdm 3 0 m
  else if sid = 0 ∨ !(x.live && x.transport == 3) ∨ s.dev.draining then s
  else
    match Config.sessionOpen x.reqKey m with
    | some p => s.spdm 3 sid p
    | none => (s.updSession sid fun x => { x with sent := x.sent + 1 }).spdmReply 3 sid (x.rspKey, x.sent) (spdmError erDecrypt 0)
/-- A write of CO_MBOX_CTL: GO submits the request in CO_REQ and clears DONE (12 R391). -/
def State.coMbox (s : State) (v : Nat) : State :=
  let n := fld v 0 17
  if !bit v 31 ∨ n = 0 ∨ 65536 < n ∨ s.dev.draining then s
  else
    let m := getBuf s.sec.req 0 n
    let s := { s with sec := { s.sec with mboxDone := false } }
    if bit v 30 then s.coSecured m else s.spdm 3 0 m
/-- AUTH_SLOT. -/
def execAuthSlot (slot session fn : Nat) (s : State) : Host.Outcome State Fault Refusal := act s fun s => s.authSlot slot session fn
/-- AUTH_CTX. -/
def execAuthCtx (ctx session : Nat) (s : State) : Host.Outcome State Fault Refusal := act s fun s => s.authCtx ctx session
/-- ERASE_SLOT. -/
def execEraseSlot (slot : Nat) (s : State) : Host.Outcome State Fault Refusal := act s fun s => s.eraseSlot slot
/-- DEBUG1. -/
def execDebug1 (s : State) : Host.Outcome State Fault Refusal := act s State.debug1
/-- DEBUG2. -/
def execDebug2 (s : State) : Host.Outcome State Fault Refusal := act s State.debug2

/-! ## Activation, entropy, Link IDE (12 R368, R369, R383, R388) -/

/-- Measurement block `i` takes a digest. -/
def State.setMeas (s : State) (i : Nat) (d : BitVec 384) : State := { s with sec := { s.sec with meas := s.sec.meas.set i d 0 } }
/-- COLOPHON_ACTIVATION_END. -/
def execColophonActivationEnd (s : State) : Host.Outcome State Fault Refusal :=
  act s fun s =>
    if s.sec.state ≠ .activating then s
    else
      let (d, v) := s.bankFound 0 (s.image 0).activeB
      let s := (s.setMeas 2 d).updImage 0 fun x => { x with version := v }
      { s with sec := { s.sec with
          state := .running, activations := min (s.sec.activations + 1) 0xFFFF
          slots := s.sec.slots.map fun (p : Nat × KSlot) => (p.1, if p.2.state = .loaded then { p.2 with stale := true } else p.2) } }
/-- DRBG_RESEED: due after 2^20 requests; the outcome of the health test is the entropy source's. After a failure the DRBG keeps its seed. -/
def execDrbgReseed (ok : Bool) (s : State) : Host.Outcome State Fault Refusal :=
  act s fun s =>
    if s.sec.drbg < 2 ^ 20 then s
    else if ok then { s with sec := { s.sec with entropyOk := true } }.stirDrbg
    else { s with sec := { s.sec with drbg := 0, entropyOk := false } }.report { cls := 2, source := 0x0C, code := 0x13 }
/-- An IDE_KM object of PCIe 6.0 (log 14): KEY_PROG stores the key of a stream and sub-stream, K_SET_GO brings the link to the secure state,
K_SET_STOP out of it. -/
def State.ideKm (s : State) (m : Bytes) : State :=
  let obj := msgByte m 0
  if obj = 0x02 then
    if m.length < 40 then s
    else { s with sec := { s.sec with ideKeys := s.sec.ideKeys.put (msgByte m 3 * 256 + msgByte m 5) (BitVec.ofNat 256 (ofLe (msgPart m 8 32))) } }
  else if obj = 0x04 then if s.sec.ideKeys.isEmpty then s else { s with sec := { s.sec with ide := true } }
  else if obj = 0x05 then { s with sec := { s.sec with ide := false } }
  else s
/-- IDE_KM: the root port programs the keys of the upstream link, in a session. -/
def execIdeKm (session : Nat) (msg : List (BitVec 8)) (s : State) : Host.Outcome State Fault Refusal :=
  act s fun s => if s.sec.state = .running ∧ (s.session session).live then s.ideKm msg else s

end Sys2Proof.Machine
end

