-- ==== Sys2Proof/Machine/Power.lean ====
section
/-! DEFINITION. Operating points, automatic idle, sensors, thermal policy and trip (15 R448, R454 to R457, R470 to R472, R474). -/
namespace Sys2Proof.Machine
open Sys2Proof

/-- Voltage of VDD_FQ in a point, in mV (15 R454). -/
def pointMv (p : Nat) : Nat := if p = 0 then 800 else if p = 1 then 740 else 680
/-- The Folio clocks' pause while their source switches, 2 µs (15 R456). -/
abbrev switchPause : Nat := 2100
/-- The active point: the slower of REQUEST and the thermal ceiling (15 R455). -/
def Pwr.target (p : Pwr) : Nat := max p.request p.ceiling
/-- PM_STATUS.POINT (15 R474). -/
def Pwr.reading (p : Pwr) : Nat := if p.idle then 3 else p.point
/-- Changes the power state; a change of POINT is counted and traced (14 R442, 15 R474). -/
def State.setPwr (s : State) (p : Pwr) : State :=
  let old := s.pwr.reading
  if p.reading = old then { s with pwr := p }
  else { s with pwr := { p with transitions := min (p.transitions + 1) 0xFFFFFFFF } }.trace 3 [old, p.reading]
/-- Service processor 0 is READY (14 R428). -/
def State.sp0Ready (s : State) : Bool := (s.sp 0).state == .ready

/-- OPERATING_POINT_CHANGE: service processor 0 begins a change of active point; `avsOk` is whether the regulator answers the command. A
change in P3 waits for its end. -/
def execOperatingPointChange (avsOk : Bool) (s : State) : Host.Outcome State Fault Refusal :=
  act s fun s =>
    let p := s.pwr
    let t := p.target
    if !s.sp0Ready || p.idle || t == p.point || p.rising.isSome then s
    else
      let s := s.emitOut (.avs (pointMv t))
      if t < p.point then s.setPwr { p with avsOk := avsOk, rising := some (t, s.now), backMv := p.mv, mv := if avsOk then pointMv t else p.mv }
      else s.setPwr { p with avsOk := avsOk, mv := if avsOk then pointMv t else p.mv, point := t, pauseCycles := p.pauseCycles + switchPause }
/-- VOLTAGE_IN_REGULATION: a faster change pauses and switches. -/
def execVoltageInRegulation (s : State) : Host.Outcome State Fault Refusal :=
  act s fun s =>
    match s.pwr.rising with
    | some (t, _) =>
      if s.sp0Ready then s.setPwr { s.pwr with rising := none, mv := pointMv t, point := t, pauseCycles := s.pwr.pauseCycles + switchPause } else s
    | none => s
/-- REGULATION_TIMEOUT: 200 µs without a report; the voltage command is reversed. Whether the regulator answers this one is a free value (log 3). -/
def execRegulationTimeout (s : State) : Host.Outcome State Fault Refusal :=
  act s fun s =>
    match s.pwr.rising with
    | some (_, c) =>
      if s.sp0Ready && decide (c + 200 * usCycles ≤ s.now) then
        let (v, s) := s.draw
        let p := s.pwr
        let ok := v % 2 == 1
        { s with pwr := { p with rising := none, changeFail := true, avsOk := ok, mv := if ok then p.backMv else p.mv } }.emitOut (.avs p.backMv)
      else s
    | none => s
/-- A write of PM_CTL (15 R457, R474). -/
def State.pmCtl (s : State) (v : Nat) : State :=
  let p := s.pwr
  let auto := bit v 2
  let q := { p with
    request := if fld v 0 2 = 3 then p.request else fld v 0 2, autoIdle := auto, idleUs := if fld v 8 16 = 0 then p.idleUs else fld v 8 16
    idleFrom := if auto && !p.autoIdle then s.now else p.idleFrom }
  if !auto && p.idle then s.setPwr { q with idle := false, wakeAt := s.now + 3 * usCycles } else s.setPwr q
/-- PM_CTL_WRITE. -/
def execPmCtlWrite (v : BitVec 64) (s : State) : Host.Outcome State Fault Refusal := act s fun s => s.pmCtl v.toNat
/-- IDLE_ENTRY: no Quire held for IDLE_US. -/
def execIdleEntry (s : State) : Host.Outcome State Fault Refusal :=
  act s fun s =>
    let p := s.pwr
    if p.autoIdle && !p.idle && s.fq.held.isEmpty && decide (p.idleFrom + p.idleUs * usCycles ≤ s.now) then s.setPwr { p with idle := true } else s
/-- The thermal policy on one sample (15 R471). -/
def Pwr.thermal (p : Pwr) (die : Int) (temps : List Int) : Pwr :=
  let hot := decide (Int.ofNat p.throttleC ≤ die) || temps.any fun t => decide (Int.ofNat p.hbmThrottleC ≤ t)
  let cool := decide (die ≤ Int.ofNat p.releaseC) && temps.all fun t => decide (t ≤ Int.ofNat p.hbmThrottleC - 5)
  let p := { p with hot := if hot ∧ p.wait = 0 then p.hot + 1 else 0, wait := p.wait - 1, cool := if cool then p.cool + 1 else 0 }
  if p.hot = 10 then { p with ceiling := min (p.ceiling + 1) 2, hot := 0, wait := 100 }
  else if p.cool = 1000 then { p with ceiling := p.ceiling - 1, cool := 0 }
  else p
/-- Rails whose current is read over AVSBus, by rail select: voltage in mV and maximum current in A; VDD_FQ at its commanded voltage (15 R447, R448). -/
def railsRead (small : Bool) (mv : Nat) : List (Nat × Nat) :=
  if small then [(mv, 290), (750, 150), (750, 25), (1050, 30), (750, 25), (1200, 9)]
  else [(mv, 520), (750, 240), (750, 60), (1050, 60), (750, 50), (1200, 20)]
/-- The other rails: VDD_AON, VDD_IO and VPP_HBM. -/
def railsFixed (small : Bool) : List (Nat × Nat) := [(750, 4), (1800, 1), (1800, if small then 2 else 4)]
/-- Package power in uW: the currents read, in mA by rail select, and the maximum of each rail that did not answer or is not read (15 R448, R470). -/
def State.packagePower (s : State) (currents : List (Option Nat)) : Nat :=
  let read := ((railsRead s.small s.pwr.mv).zipIdx).map fun (r, i) => r.1 * (currents.getD i none).getD (r.2 * 1000)
  read.foldl (· + ·) 0 + (railsFixed s.small).foldl (fun a r => a + r.1 * (r.2 * 1000)) 0
/-- Sensors 11 to 17 as they stand (14 R445). -/
def State.sensorsNow (s : State) : Tbl Nat :=
  let sp (n : Nat) : Nat := match (s.sp n).state with | .stopped => 0 | .restarting => 1 | .ready => 2
  [(11, s.fq.inForce), (12, s.loadByte), (13, s.pwr.reading), (14, b2n s.dev.operational), (15, sp 0), (16, sp 1), (17, sp 2)].foldl
    (fun (t : Tbl Nat) x => t.set x.1 x.2 0) []
/-- SENSOR_SAMPLE: the millisecond sample of the sensor hub, with the currents read over AVSBus; service processor 0 applies its policy, and the hardware
trip acts without it. Power in whole W is the floor, or one more where it is not exact (log 159). -/
def execSensorSample (die : Int) (temps : List Int) (currents : List (Option Nat)) (s : State) : Host.Outcome State Fault Refusal :=
  act s fun s =>
    let top := temps.foldl max (temps.headD 0)
    let uw := s.packagePower currents
    let (v, s) := s.draw
    let w := uw / 1000000 + if uw % 1000000 = 0 then 0 else v % 2
    let p := { s.pwr with dieC := die, hbmC := top, powerW := min w 4095, lastPower := uw, powerSum := s.pwr.powerSum + uw, powerCount := s.pwr.powerCount + 1,
                          diePeak := some (max die (s.pwr.diePeak.getD die)), stackC := (List.range 8).foldl (fun t i => Tbl.set t i (temps.getD i 0) 0) ([] : Tbl Int) }
    let p := if s.sp0Ready then p.thermal die temps else p
    let s := { s with pwr := p }
    let s := { s with pwr := { s.pwr with sensed := s.sensorsNow } }
    if 115 ≤ die ∨ temps.any (fun t => decide (100 ≤ t)) then { s with pwr := { s.pwr with tripped := true }, dev := { s.dev with thermTripN := true } } else s

end Sys2Proof.Machine
end

