-- ==== Sys2Proof/Machine/Functions.lean ====
section
/-! DEFINITION. Functions, function-level reset, interrupts, counters, upstream completions (13 R392 to R394, R398, R399, R404, R407, R408,
R416, R421, R424; 16 R484 to R486). -/
namespace Sys2Proof.Machine
open Sys2Proof

/-! ## Links and configuration requests (15 R459; 16 R477) -/

/-- Link that carries a function: STRAP_BIF and LINK1_FIRST. -/
def State.linkOf (s : State) (fn : Nat) : Nat := if s.dev.bifPin && decide (s.dev.link1First ≤ fn) then 1 else 0
/-- A function exists: function 0, or a virtual function up to NumVFs while VF Enable is 1 (13 R392). -/
def State.fnPresent (s : State) (fn : Nat) : Bool := fn == 0 || (s.dev.vfEnable && decide (fn ≤ s.dev.numVfs ∧ fn ≤ 255))
/-- A link is configuration-ready (15 R458 step 10). -/
def Dev.cfgOpen (d : Dev) (link : Nat) : Bool := if link = 0 then d.cfgReady else d.dl1
/-- Answers of PCIe 6.0 other than success: Configuration Request Retry Status, Unsupported Request. -/
abbrev ansRetry : Nat := 1
abbrev ansUr : Nat := 2
/-- A configuration request on a link: before the link is configuration-ready it is answered with Retry Status and does nothing (15 R459). -/
def State.onConfig (s : State) (link : Nat) (k : State → State) : State := if s.dev.cfgOpen link then k s else s.emitOut (.cfgAnswer ansRetry)

/-! ## Function-level reset and SR-IOV -/

/-- A function's own registers after its reset: signal counters, function counters, ORPHANED and MSI-X (13 R408). -/
def Fn.cleared (x : Fn) : Fn :=
  { x with orphaned := false, silent := false, sig := [], sigOvf := [], cnt := [], cntOvf := [], msix := [], msixEn := false, fnMask := false
           bar0 := 0, bar2 := 0, bar4 := 0, memEn := false }
/-- Weight keys released to a function are erased (12 R386). -/
def State.eraseSlots (s : State) (f : Nat) : State :=
  { s with sec := { s.sec with slots := s.sec.slots.foldl (fun t p => if p.2.function = f ∧ p.2.state ≠ .empty then Tbl.set t p.1 (KSlot.erase p.2) {} else t) s.sec.slots } }
/-- Contexts of a function that are not DISABLED. -/
def State.liveCtxs (s : State) (f : Nat) : List Nat := (s.ctxs.filter fun p => p.2.function == f && p.2.state != .disabled).map (·.1)
/-- The reset of one function: every context of it to RESETTING, its queue pairs, registrations, extents, counters, keys, those of its DISABLED contexts
too (12 R386; 13 R404, R408). -/
def State.flrOne (s : State) (f : Nat) : State :=
  if !(s.fn f).enabled then s
  else
    let s := s.trace 2 [2, f]
    let s := (s.liveCtxs f).foldl State.startReset s
    let s := (s.sec.ctxs.filter fun p => s.fnOf p.1 == f).foldl (fun s p => s.eraseKey p.1) s
    let s := (s.net.qps.filter fun q => q.2.function == f && q.2.state != .reset).foldl (fun s q => s.qpReset q.1) s
    let s := { s with net := { s.net with regs := s.net.regs.map fun (r : Nat × Reg) => if r.2.valid && s.fnOf r.2.ctx == f then (r.1, { r.2 with revoking := true }) else r } }
    let s := ((s.withdrawExts f).eraseSlots f).updFn f Fn.cleared
    let s := { s with net := { s.net with sets := s.net.sets.del (f + 1) } }
    { s with err := { s.err with aer := s.err.aer.del f } }.trace 2 [2, f]
/-- Virtual function `n` exists under a VF Enable and a NumVFs (13 R392). -/
def vfExists (enable : Bool) (num n : Nat) : Bool := enable && decide (1 ≤ n ∧ n ≤ num)
/-- A write of VF Enable and NumVFs: vanishing functions are reset in ascending order before it takes effect (13 R393). -/
def State.vfConfig (s : State) (enable : Bool) (num : Nat) : State :=
  let num := min num 255
  let ids := (List.range 256).drop 1
  let s := (ids.filter fun n => (s.fn n).enabled && !vfExists enable num n).foldl State.flrOne s
  let s := ids.foldl (fun s n => if (s.fn n).enabled = vfExists enable num n then s else s.updFn n fun x => { x with enabled := vfExists enable num n }) s
  { s with dev := { s.dev with vfEnable := enable, numVfs := num } }
/-- A function-level reset; that of function 0 also resets its SR-IOV capability, so that every virtual function vanishes (PCIe 6.0, log 14). -/
def State.flr (s : State) (f : Nat) : State := if f = 0 then (s.vfConfig false 0).flrOne 0 else s.flrOne f
/-- VF_CONFIG_WRITE, a configuration request of link 0. -/
def execVfConfigWrite (enable : Bool) (num : Nat) (s : State) : Host.Outcome State Fault Refusal := act s fun s => s.onConfig 0 fun s => s.vfConfig enable num
/-- FUNCTION_LEVEL_RESET, a configuration request of the link that carries the function. -/
def execFunctionLevelReset (fn : Nat) (s : State) : Host.Outcome State Fault Refusal := act s fun s => s.onConfig (s.linkOf fn) fun s => s.flr fn

/-! ## Vectors and interrupts -/

/-- A vector range may be given to function `f` (13 R394). -/
def State.rangeOk (s : State) (f base count : Nat) : Bool :=
  !(f != 0 && (s.fn f).enabled) && decide (base + count ≤ 16384 ∧ count ≤ 2048) &&
    s.fns.all fun p => p.1 == f || count == 0 || p.2.vecCount == 0 || decide (base + count ≤ p.2.vecBase ∨ p.2.vecBase + p.2.vecCount ≤ base)
/-- A write of FN_VEC_f; a refused one changes nothing but CFG_ERR. -/
def State.fnVec (s : State) (f v : Nat) : State :=
  let x := s.fn f
  let base := fld v 0 14
  let count := fld v 16 12
  if (base = x.vecBase ∧ count = x.vecCount) ∨ s.rangeOk f base count then
    s.updFn f fun x => { x with vecBase := base, vecCount := count, errVector := fld v 32 11 }
  else s.updFn f fun x => { x with cfgErr := true }
/-- FN_VEC_WRITE. -/
def execFnVecWrite (fn : Nat) (v : BitVec 64) (s : State) : Host.Outcome State Fault Refusal := act s fun s => if fn < 256 then s.fnVec fn v.toNat else s
/-- Sends the message of a function vector, counting it when it leaves (13 R398, R422). -/
def State.message (s : State) (f i : Nat) : State :=
  let (s, sent) := s.sendMsix f i
  if sent then s.countFn f 25 1 else s
/-- MSIX_HOLDOFF_EXPIRY: the smallest effective holdoff of the pending requests has elapsed since the first (13 R399). -/
def execMsixHoldoffExpiry (vm : Nat) (s : State) : Host.Outcome State Fault Refusal :=
  act s fun s =>
    let x := s.vms.get vm {}
    match s.fns.find? fun p => decide (p.2.vecBase ≤ vm ∧ vm < p.2.vecBase + p.2.vecCount) with
    | some p =>
      if x.pending = 0 ∨ s.now < x.first + x.least * usCycles then s
      else { s with vms := s.vms.set vm { x with pending := 0, first := 0, least := 0 } {} }.message p.1 (vm - p.2.vecBase)
    | none => s
/-- A kept request of an unmasked vector is signalled once (13 R398). -/
def State.release (s : State) (f i : Nat) : State :=
  let x := s.fn f
  let e := x.msix.get i {}
  if e.pending && e.unmasked && x.msixEn && !x.fnMask && decide (i < x.vecCount) then
    (s.updFn f fun x => { x with msix := x.msix.set i { e with pending := false } {} }).message f i
  else s
/-- MSIX_UNMASK: the mask bit of a table entry is cleared. -/
def execMsixUnmask (fn entry : Nat) (s : State) : Host.Outcome State Fault Refusal :=
  act s fun s =>
    if entry < 2048 then
      (s.updFn fn fun x => { x with msix := x.msix.set entry { (x.msix.get entry {}) with unmasked := true } {} }).release fn entry
    else s

/-! ## Counters and the error ring -/

/-- A write of CNT_CMD: a counter and its overflow bit are zeroed (13 R421, R424). -/
def State.cntCmd (s : State) (v : Nat) : State :=
  let i := fld v 0 6
  if bit v 8 then { s with err := { s.err with cnt := s.err.cnt.set i 0 0, ovf := s.err.ovf.set i false false } }
  else s.updFn (fld v 16 8) fun x => { x with cnt := x.cnt.set i 0 0, cntOvf := x.cntOvf.set i false false }
/-- CNT_CMD. -/
def execCntCmd (v : BitVec 64) (s : State) : Host.Outcome State Fault Refusal := act s fun s => s.cntCmd v.toNat
/-- A write of SIG_CLEAR: the signal counters of the mask and their overflow bits are zeroed (16 R485). -/
def State.sigClear (s : State) (f : Nat) (v : BitVec 64) : State :=
  s.updFn f fun x => { x with sig := x.sig.filter fun p => !v.getLsbD p.1, sigOvf := x.sigOvf.filter fun p => !v.getLsbD p.1 }
/-- SIG_CLEAR. -/
def execSigClear (fn : Nat) (v : BitVec 64) (s : State) : Host.Outcome State Fault Refusal := act s fun s => s.sigClear fn v
/-- A write of ERR_HEAD; one beyond TAIL is ignored (13 R424). -/
def State.errHead (s : State) (v : Nat) : State :=
  let h := fld v 0 32
  if (s.err.tail + 2 ^ 32 - h) % 2 ^ 32 < 2 ^ 31 then { s with err := { s.err with head := h } } else s
/-- ERR_HEAD_WRITE. -/
def execErrHeadWrite (v : BitVec 64) (s : State) : Host.Outcome State Fault Refusal := act s fun s => s.errHead v.toNat

/-! ## Upstream completions (13 R416) -/

/-- The swap-area read of a page ends: 0 with data, 1 UR or CA, 2 timeout, 3 poisoned. -/
def State.swapCompletion (s : State) (page result : Nat) (data : Bytes) : State :=
  match s.moveOf page with
  | none => s
  | some m =>
    if !(m.started && m.kind.inward && m.tier == 3) then s
    else if result = 0 then (if data.length = runBytes 3 (s.page page).sheets then s.runRead m data else s)
    else (s.upAer 0 result).failInward m (if result = 1 then 0 else if result = 2 then 3 else 1)
/-- UPSTREAM_READ_COMPLETION, of a swap-area read or of a ring fetch. -/
def execUpstreamReadCompletion (swap : Bool) (ctx ring page result : Nat) (data : List (BitVec 8)) (s : State) : Host.Outcome State Fault Refusal :=
  act s fun s => if swap then s.swapCompletion page result data else s.fetchCompletion ctx ring result data

end Sys2Proof.Machine
end

