-- ==== Sys2Proof/Machine/Ports.lean ====
section
/-! DEFINITION. Downstream ports and failing units (00 R6; 04 R117; 06 R205; 05 R154, R181; 07 R229; 13 R404, R408, R412, R414; 14 R428, R439, R440; 15 R461). -/
namespace Sys2Proof.Machine
open Sys2Proof

/-! ## Ports -/

/-- Service processor 2 is READY: it enumerates (14 R425). -/
def State.sp2Ready (s : State) : Bool := (s.sp 2).state == .ready
/-- A port's enumeration state as a number (14 R446). -/
def EnumState.num : EnumState → Nat
  | .idle => 0 | .training => 1 | .enumerating => 2 | .accepted => 3 | .rejected => 4 | .linkDown => 5
/-- Enumeration steps of trace point 5: port, step, outcome (14 R442). -/
def State.tracePort (s : State) (p : Nat) (e : EnumState) (outcome : Nat) : State :=
  s.trace 5 [p, e.num, outcome]
/-- Every move in progress on a port fails; a write sets WRITE_ERR (05 R167, 13 R408). -/
def State.failPortMoves (s : State) (p : Nat) : State :=
  (s.tier.moves.filter fun m => m.started && (m.tier == 1 || m.tier == 2) && m.port == p).foldl
    (fun s m => if m.kind.inward then s.failInward m 0 else s.failOutward m) s
/-- A port becomes unavailable. -/
def State.portOff (s : State) (p : Nat) (e : EnumState) : State :=
  let s := s.updPort p fun x => { x with avail := false, linkUp := false, enum := e }
  (s.failPortMoves p).tracePort p e 0
/-- The reset of a port: its moves fail, its link trains again (13 R404, R408). -/
def State.portReset (s : State) (p : Nat) : State := (s.trace 2 [3, p]).portOff p .training
/-- A write of PORT_RESET; it waits while service processor 2 is not READY (14 R428). The LG-4080 has no port (00 R5). -/
def State.portResetWrite (s : State) (p : Nat) : State :=
  if 16 ≤ p ∨ s.small then s
  else if s.sp2Ready then s.portReset p
  else s.updPort p fun x => { x with resetWaits := true }
/-- PORT_RESET. -/
def execPortReset (port : Nat) (s : State) : Host.Outcome State Fault Refusal := act s fun s => s.portResetWrite port
/-- What follows from a port's link: enumeration when it is up, link down else, with a record for a port that was in use (14 R439). A port reset ends
with it (13 R404, 14 R442). -/
def State.linkSeen (s : State) (p : Nat) : State :=
  let x := s.port p
  let s := if x.enum = .training then s.trace 2 [3, p] else s
  if x.linkUp then (s.updPort p fun x => { x with enum := .enumerating }).tracePort p .enumerating 0
  else
    let s := if x.avail then s.report { cls := 2, source := 0x0B, code := 0x10, object := p } else s
    s.portOff p .linkDown
/-- DOWNSTREAM_LINK_EVENT: latched while service processor 2 is not READY. -/
def execDownstreamLinkEvent (port : Nat) (up : Bool) (s : State) : Host.Outcome State Fault Refusal :=
  act s fun s =>
    if 16 ≤ port ∨ s.small then s
    else
      let s := s.updPort port fun x => { x with linkUp := up }
      if s.sp2Ready then s.linkSeen port else s.updPort port fun x => { x with latched := true }
/-- What waited for service processor 2 on the ports (14 R428, 15 R461). -/
def State.portsResume (s : State) : State :=
  (List.range 16).foldl (fun s p =>
    let x := s.port p
    let s := s.updPort p fun x => { x with latched := false, resetWaits := false }
    if x.resetWaits then s.portReset p
    else if x.latched || (x.linkUp && (x.enum == .idle || x.enum == .enumerating)) then s.linkSeen p
    else s) s
/-- Sheets of a device: of 4,608 bytes in CXL memory, of 4,096 on a drive (05 R153, 13 R414). -/
def portSheets (kind capacity : Nat) : Nat := if kind = 1 then capacity / 4608 else min (capacity / 4096) (2 ^ 34)
/-- First estimate of a tier's latency (05 R181). -/
def portLat (kind : Nat) : Nat := if kind = 1 then 2100 else 105000
/-- Why a port is rejected (14 R439, R446): 1 neither a Type-3 memory device nor a drive, 2 a memory device that needs CXL.cache, offers dynamic capacity or
is too small, 3 the format of namespace 1, 4 an admin command that failed, 5 one that timed out; 0 accepted. A drive is asked in the order of its steps
(log 157). -/
def rejectOf (kind capacity : Nat) (d : PortFound) : Nat :=
  if kind = 1 then (if !d.type3 then 1 else if d.needsCache || d.dynamic || decide (capacity < 4608) then 2 else 0)
  else if kind = 2 then
    let late (i : Nat) : Bool := match d.stuck with | some (j, _) => decide (j ≤ i) | none => false
    let code := match d.stuck with | some (_, true) => 5 | _ => 4
    if late 2 then code else if d.block ≠ 4096 ∨ d.metadata ≠ 0 then 3 else if late 4 then code else 0
  else 1
/-- What service processor 2 does on the port, up to the step that rejects it (14 R439). -/
def enumSteps (kind capacity : Nat) (d : PortFound) : List Nat :=
  if kind = 1 then (if rejectOf kind capacity d = 0 then [1, 2] else [1])
  else if kind = 2 then
    let upTo := match d.stuck with | some (j, _) => j | none => 4
    let upTo := if 2 < upTo ∧ (d.block ≠ 4096 ∨ d.metadata ≠ 0) then 2 else upTo
    (List.range (min upTo 4)).map (· + 3)
  else []
/-- ENUMERATION_DONE: what service processor 2 found: kind (1 CXL memory, 2 NVMe drive), link width, what the steps told, identity. -/
def execEnumerationDone (port kind width : Nat) (found : PortFound) (vendor : Nat) (serial : BitVec 160) (capacity : Nat) (s : State) : Host.Outcome State Fault Refusal :=
  act s fun s =>
    let x := s.port port
    if !s.sp2Ready || x.enum != .enumerating || s.small || decide (16 ≤ port) then s
    else
      let code := rejectOf kind capacity found
      let s := (enumSteps kind capacity found).foldl (fun s c => s.emitOut (.portCommand port c)) s
      if code ≠ 0 then
        let s := s.updPort port fun x => { x with avail := false, enum := .rejected, reject := code, vendor := vendor, serial := serial, capacity := capacity }
        (s.report { cls := 2, source := 0x0B, code := 0x11, object := port }).tracePort port .rejected code
      else
        let s := s.updPort port fun x => { x with
          kind := kind, width := fld width 0 3, avail := true, sheets := portSheets kind capacity, enum := .accepted, reject := 0
          lat := if x.kind = kind then x.lat else portLat kind, samples := if x.kind = kind then x.samples else 0
          vendor := vendor, serial := serial, capacity := capacity }
        s.tracePort port .accepted 0

/-! ## Failing units -/

/-- PCH_FAILED (04 R117). -/
def execPchFailed (pch : Nat) (s : State) : Host.Outcome State Fault Refusal :=
  act s fun s =>
    if s.pchFitted ≤ pch ∨ s.dev.pchDown.get pch false then s
    else { s with dev := { s.dev with pchDown := s.dev.pchDown.put pch true } }.report { cls := 2, source := 8, code := 0x10, object := pch }
/-- Tokens of engine `e` that an APPEND still holds. -/
def Job.tokensOf (e : Nat) : Job → List Token
  | .append _ ts _ _ => ts.filter fun t => t.seq % 16 == e
  | _ => []
/-- The same APPEND without them. -/
def Job.dropTokens (e : Nat) : Job → Job
  | .append ps ts st res => .append ps (ts.filter fun t => t.seq % 16 != e) st res
  | j => j
/-- The tokens queued to a failed Awl engine, or held for it by an APPEND, count as scanned, and their sequences are fenced from the block of the
first (07 R229). -/
def State.awlFails (s : State) (e : Nat) : State :=
  let q := s.awl.queues.get e []
  let held := s.flights.flatMap fun x => x.2.job.tokensOf e
  let s := { s with
    awl := { s.awl with queues := s.awl.queues.del e }
    flights := s.flights.map fun (x : Nat × Flight) => (x.1, { x.2 with job := x.2.job.dropTokens e, wantCredit := if x.2.wantCredit = some (317 + e) then none else x.2.wantCredit }) }
  let s := (q ++ held).foldl (fun s t =>
    let s := if (s.stream t.seq).reported.contains 1 then s.fence t.seq (t.pos / max (s.seq t.seq).tpp 1) else s.fenceClosed t.seq (t.pos / max (s.seq t.seq).tpp 1) 1
    s.updStream t.seq fun r => { r with nextPos := max r.nextPos (t.pos + 1) }) s
  s.freeCredits (317 + e) q.length
/-- Source of an engine's error records (13 R419, 16 R482): context engine, Spine three times, Gatherer, Kettle, network three times. -/
def engineSource (i : Nat) : Nat := if i = 0 then 1 else if i < 4 then 2 else if i = 4 then 5 else if i = 5 then 6 else 9
/-- The instructions that have begun and need an engine that is lost end with UNIT_UNAVAILABLE (13 R412). -/
def State.engineLost (s : State) (i : Nat) : State :=
  (s.flights.filter fun p => p.2.phase == .begun && p.2.engines.contains i).foldl (fun s p => s.stopFlight p.1 stUnavailable) s
/-- A unit is marked unavailable: kind 0 Folio, 1 Press pipeline, 2 Awl engine, 3 Ethernet lane, 4 engine, 5 Quire, 6 Spine bank whose row write
did not read back (06 R205). The spec gives no code but for a Folio and a bank: a free one (log 3), and a class by log 28. -/
def State.markDown (s : State) (kind i : Nat) : State :=
  let (v, s) := s.draw
  let code := v % 65536
  let d := s.dev
  match kind with
  | 0 => if 16 * s.quires ≤ i ∨ d.folioDown.get i false then s
         else { s with dev := { d with folioDown := d.folioDown.put i true } }.report { cls := 3, source := 7, code := 0x11, object := i }
  | 1 => if 8 ≤ i ∨ d.pressDown.get i false then s
         else { s with dev := { d with pressDown := d.pressDown.put i true } }.report { cls := 2, source := 4, code := code, object := i }
  | 2 => if 16 ≤ i ∨ d.awlDown.get i false then s
         else ({ s with dev := { d with awlDown := d.awlDown.put i true } }.report { cls := 2, source := 3, code := code, object := i }).awlFails i
  | 3 => if s.lanes ≤ i ∨ d.laneDown.get i false then s
         else { s with dev := { d with laneDown := d.laneDown.put i true } }.report { cls := 2, source := 9, code := code, object := i }
  | 4 => if 9 ≤ i ∨ d.engineDown.get i false then s
         else ({ s with dev := { d with engineDown := d.engineDown.put i true } }.report { cls := 3, source := engineSource i, code := code, object := i }).engineLost i
  | 5 => if s.quires ≤ i ∨ d.quireDown.get i false then s
         else { s with dev := { d with quireDown := d.quireDown.put i true } }.report { cls := 3, source := 7, code := code, object := i }
  | 6 => if 128 ≤ i ∨ (s.bank i).down then s
         else (s.updBank i fun x => { x with down := true }).report { cls := 3, source := 2, code := 0x11, object := i }
  | _ => s
/-- UNIT_MARKED_UNAVAILABLE. -/
def execUnitMarkedUnavailable (kind index : Nat) (s : State) : Host.Outcome State Fault Refusal := act s fun s => s.markDown kind index

end Sys2Proof.Machine
end

