-- ==== Sys2Proof/Machine/Firmware.lean ====
section
/-! DEFINITION. Service processors, the firmware mailbox, firmware update, management buses (14 R425 to R446). -/
namespace Sys2Proof.Machine
open Sys2Proof

/-! ## Responses of the mailbox (14 R429) -/

/-- A response: the device's MAJOR and MINOR, the OP and TAG of the request, status and payload (14 R429). -/
def fwResponse (m : Bytes) (st : BitVec 16) (p : Bytes) : Bytes :=
  leBytes 2 1 ++ leBytes 1 (msgByte m 2) ++ leBytes 1 1 ++ msgPart (m ++ zeros 6) 4 2 ++ leBytes 2 st.toNat ++ leBytes 4 p.length ++ zeros 4 ++ p
/-- The response of the request in progress goes into FW_RSP. -/
def State.fwDone (s : State) (st : BitVec 16) (p : Bytes) : State :=
  let r := fwResponse s.fw.request st p
  { s with fw := { s.fw with rsp := putBuf s.fw.rsp 0 r, rspLen := r.length, mboxDone := true, mboxBusy := false, mboxHeld := false, request := [] } }

/-! ## Restarts (14 R426, R427) -/

/-- A service processor restarts: steps 1 and 2 of R427 up to the verification; the measurement names the image being started (12 R367). A mailbox request
in progress on service processor 2, not held, ends with ABORTED, but the FW_ACTIVATE that starts the restart (14 R428, R433, R437; log 31). -/
def State.spRestart (s : State) (n : Nat) (activation : Bool) : State :=
  let x := s.image (n + 1)
  let (d, v) := s.bankFound (n + 1) x.activeB
  let s := ((s.trace 2 [4, n]).setMeas (4 + n) d).updSp n fun p =>
    { p with state := .restarting, restarts := min (p.restarts + 1) 0xFFFFFFFF, kickAt := s.now, verified := false, activation := activation }
  let s := { s with sec := { s.sec with spRestarting := s.sec.spRestarting.put n true, spRestarts := min (s.sec.spRestarts + 1) 0xFFFF } }
  let s := s.fwEvent 1 [n, v]
  if n = 2 ∧ !activation ∧ s.fw.mboxBusy ∧ !s.fw.mboxHeld ∧ s.dev.served then s.fwDone stAborted [] else s
/-- WATCHDOG_EXPIRY: the count of a running processor reaches WD_MS. -/
def execWatchdogExpiry (n : Nat) (s : State) : Host.Outcome State Fault Refusal :=
  act s fun s =>
    let x := s.sp n
    if 3 ≤ n ∨ x.state = .stopped ∨ s.now < x.kickAt + x.wdMs * msCycles then s
    else (s.report { cls := 1, source := 0x0D, code := 0x10, object := n }).spRestart n false
/-- A write of FW_SP_n: the key 0x5A restarts a processor that is not STOPPED; WD_MS of 100 or more is taken (14 R446). -/
def State.spWrite (s : State) (n v : Nat) : State :=
  if 3 ≤ n then s
  else
    let s := if 100 ≤ fld v 16 16 then s.updSp n fun p => { p with wdMs := fld v 16 16 } else s
    if fld v 8 8 = 0x5A ∧ (s.sp n).state ≠ .stopped then s.spRestart n false else s
/-- SP_RESTART_WRITE. -/
def execSpRestartWrite (n : Nat) (v : BitVec 64) (s : State) : Host.Outcome State Fault Refusal := act s fun s => s.spWrite n v.toNat
/-- WATCHDOG_COUNT_RESTART, by the processor's own firmware. -/
def execWatchdogCountRestart (n : Nat) (s : State) : Host.Outcome State Fault Refusal :=
  act s fun s => if n < 3 ∧ (s.sp n).state ≠ .stopped then s.updSp n fun p => { p with kickAt := s.now } else s

/-! ## Messages (14 R429 to R432, R440) -/

/-- HOLD of a HELLO response (14 R432). -/
def State.hold (s : State) : Nat := if !s.sec.configOk then 1 else if s.sec.fwFailed then 2 else if s.sec.seedFailed then 3 else 0
/-- An answer: status and payload, and the state it leaves. -/
abbrev Answer := BitVec 16 × Bytes × State
/-- HELLO of a major and a minor number. -/
def State.hello (s : State) (major minor : Nat) : Answer :=
  let ok := decide (major = 1) && (s.dev.operational || s.hold == 0)
  let st := if major ≠ 1 then stRange else if ok then stOk else stUnavailable
  let s := if ok && !s.dev.operational then { s with dev := { s.dev with operational := true, minor := min minor 0 }, sec := { s.sec with helloSeen := true } } else s
  let s := s.fwEvent (if ok then 3 else 4) [major + 256 * minor]
  (st, leBytes 4 (b2n s.dev.operational + 16 * s.hold), s)
/-- GET_INFO. -/
def State.getInfo (s : State) : Bytes :=
  (List.range 4).flatMap fun i => let x := s.image i; leBytes 16 (x.version + 2 ^ 32 * b2n x.activeB + 2 ^ 33 * b2n x.staged)
/-- Another image than `i` is being activated (14 R436). -/
def State.otherActivation (s : State) (i : Nat) : Bool :=
  (s.sec.state == .activating && i != 0) || (List.range 3).any fun n => (s.sp n).activation && (s.sp n).state == .restarting && i != n + 1
/-- Erases the 4 KiB sectors of a range of a bank and programs bytes there. -/
def flashWrite (t : Tbl (BitVec 8)) (off : Nat) (b : Bytes) : Tbl (BitVec 8) :=
  let lo := off / 4096 * 4096
  let hi := (off + b.length + 4095) / 4096 * 4096
  (List.range b.length).foldl (fun t i => Tbl.set t (off + i) (b.getD i 0) 0xFF) (t.filter fun p => decide (p.1 < lo ∨ hi ≤ p.1))
/-- The sectors of a range count as erased. -/
def flashErase (t : Tbl Bool) (off n : Nat) : Tbl Bool :=
  (List.range (cdiv (off + n) 4096 - off / 4096)).foldl (fun t i => Tbl.put t (off / 4096 + i) true) t
/-- The Colophon firmware has failed and image `i` is not its recovery image (12 R364; log 140). -/
def State.onlyRecovery (s : State) (i : Nat) : Bool := s.sec.fwFailed && i != 0
/-- A chunk of `n` bytes at `off` breaks R436: only the last chunk of an image, of those staged since the one at offset 0, may be of another length than
a multiple of 4,096 (DESIGN CHOICE how far that reaches, log 48). -/
def Fw.chunkBad (x : Fw) (off n : Nat) : Bool :=
  decide (61440 < n) || (off != 0 && ((x.stageShort && decide (x.stageTop < off + n)) || (n % 4096 != 0 && decide (off + n < x.stageTop))))
/-- What the next chunk is held against. -/
def Fw.chunkTaken (x : Fw) (i off n : Nat) : Fw :=
  let fresh := off == 0 || x.staging != i + 1
  { x with staging := i + 1, stageTop := if fresh then off + n else max x.stageTop (off + n)
           stageShort := if fresh || decide (x.stageTop ≤ off + n) then n % 4096 != 0 else x.stageShort }
/-- FW_STAGE erases the sectors of the range, no others, and programs the data (14 R436). -/
def State.fwStage (s : State) (p : Bytes) : Answer :=
  let i := msgByte p 0
  let off := ofLe (msgPart p 4 4)
  let data := p.drop 16
  if ofLe (msgPart p 1 3) ≠ 0 ∨ ofLe (msgPart p 8 8) ≠ 0 ∨ 3 < i ∨ 0x400000 < off + data.length ∨ (s.fw.staging = i + 1 ∧ s.fw.chunkBad off data.length) then (stRange, [], s)
  else if s.onlyRecovery i then (stPermission, [], s)
  else if (s.fw.staging ≠ 0 ∧ s.fw.staging ≠ i + 1) ∨ s.otherActivation i then (stBusy, [], s)
  else
    let s := s.updImage i fun x =>
      if x.activeB then { x with staged := false, bankA := flashWrite x.bankA off data, erasedA := flashErase x.erasedA off data.length, foundA := 0, verA := 0 }
      else { x with staged := false, bankB := flashWrite x.bankB off data, erasedB := flashErase x.erasedB off data.length, foundB := 0, verB := 0 }
    (stOk, [], { s with fw := s.fw.chunkTaken i off data.length })
/-- Records what a bank holds. -/
def Image.found (x : Image) (b : Bool) (d : BitVec 384) (v : Nat) : Image :=
  if b then { x with foundB := d, verB := v } else { x with foundA := d, verA := v }
/-- What a check of a bank finds: NOT_FOUND, PERMISSION, or OK with the digest and VERSION (14 R436). -/
def State.checkBank (s : State) (i : Nat) (b : Bool) : BitVec 16 × BitVec 384 × Nat :=
  let x := s.image i
  let (d, v) := s.bankFound i b
  if (x.erased b).isEmpty then
    if d ≠ 0 then (stOk, d, v)
    else match Config.flashImage i (b2n b) with
      | none => (stNotFound, 0, 0)
      | some (ok, d, v) => if ok then (stOk, d, v) else (stPermission, 0, 0)
  else
    match x.bodyLen i b with
    | none => (stNotFound, 0, 0)
    | some n => if Config.imageSigned (x.bytes i b 0 n) (x.bytes i b n 16608) then (stOk, d, v) else (stPermission, 0, 0)
/-- FW_VERIFY of the inactive bank; the Colophon checks it, and cannot while it is activated. -/
def State.fwVerify (s : State) (p : Bytes) : Answer :=
  let i := msgByte p 0
  if 3 < i ∨ ofLe (msgPart p 1 15) ≠ 0 then (stRange, [], s)
  else if s.onlyRecovery i then (stPermission, [], s)
  else if s.sec.state = .activating then (stBusy, [], s)
  else
    let s := if s.fw.staging = i + 1 then { s with fw := { s.fw with staging := 0, stageTop := 0, stageShort := false } } else s
    let b := !(s.image i).activeB
    let (st, d, v) := s.checkBank i b
    if st = stOk then
      (stOk, leBytes 48 d.toNat, s.updImage i fun x => let y := { x with staged := true }; if (x.erased b).isEmpty then y.found b d v else y)
    else (st, [], s)
/-- FW_ACTIVATE. -/
def State.fwActivate (s : State) (p : Bytes) : Answer :=
  let i := msgByte p 0
  if ofLe (msgPart p 1 15) ≠ 0 then (stRange, [], s)
  else if 3 < i ∨ (s.image i).staged = false then (stNotFound, [], s)
  else if s.onlyRecovery i then (stPermission, [], s)
  else if (List.range 3).any (fun n => (s.sp n).state == .restarting) || s.sec.state == .activating || s.fw.staging != 0 then (stBusy, [], s)
  else
    let s := s.updImage i fun x => { x with activeB := !x.activeB, staged := false }
    let s := s.fwEvent 2 [i, (s.bankFound i (s.image i).activeB).2]
    if i ≠ 0 then (stOk, [], s.spRestart (i - 1) true)
    else if s.sec.fwFailed then (stOk, [], { s with dev := { s.dev with imageRead := s.dev.imageRead.del 0 } })
    else
      let s := s.endSessions
      (stOk, [], { s with sec := { s.sec with state := .activating } })
/-- PORT_INFO. -/
def State.portInfo (s : State) (p : Nat) : Bytes :=
  let x := s.port p
  leBytes 4 (x.enum.num + 2 ^ 8 * x.reject + 2 ^ 16 * x.vendor) ++ zeros 4 ++ leBytes 20 x.serial.toNat ++ leBytes 8 x.capacity ++ zeros 28
/-- 4 bytes of a signed reading. -/
def reading (v : Int) : Bytes := leBytes 4 (BitVec.ofInt 32 v).toNat
/-- A stack is absent: beyond the variant, or all its pseudo-channels out of the interleave (04 R116). -/
def State.stackAbsent (s : State) (k : Nat) : Bool := decide (s.pchFitted ≤ 64 * k) || (List.range 64).all fun j => s.dev.pchOut.get (64 * k + j) false
/-- The sensor readings of the PLDM table, in sensor-ID order, all of the last millisecond sample (14 R431, R445). -/
def State.sensors (s : State) : Bytes :=
  let at_ (id : Nat) : Nat := s.pwr.sensed.get id 0
  reading s.pwr.powerW ++ reading s.pwr.dieC ++
    ((List.range 8).flatMap fun k => if s.stackAbsent k then leBytes 4 (Config.absentReading (3 + k)).toNat else reading (s.pwr.stackC.get k 0)) ++
    reading (at_ 11 : Nat) ++ reading (at_ 12 : Nat) ++ (List.range 5).flatMap fun n => leBytes 4 (Config.stateReading (13 + n) (at_ (13 + n))).toNat
/-- A LEN that an OP admits; none for an unknown OP (14 R430, R431). -/
def opLen (op len : Nat) : Option Bool :=
  match op with
  | 0x01 | 0x02 | 0x31 => some (len == 0)
  | 0x10 => some (decide (16 < len ∧ len ≤ 16 + 61440))
  | 0x11 | 0x12 | 0x20 => some (len == 16)
  | 0x30 => some (len == 8)
  | _ => none
/-- OPs that a management bus is served (14 R444), and OPs of the Colophon's recovery subset (14 R438). -/
def busOp (op : Nat) : Bool := op == 0x02 || op == 0x20 || op == 0x31
def recoveryOp (op : Nat) : Bool := op == 0x01 || op == 0x02 || op == 0x10 || op == 0x11 || op == 0x12
/-- The answer to a request: `bus` over MCTP, `recovery` by the Colophon in place of service processor 2, which answers BUSY while it is activated. Of
another MAJOR only HELLO and GET_INFO are decoded (14 R430, R438, R444). -/
def State.fwAnswer (s : State) (bus recovery : Bool) (m : Bytes) : Answer :=
  let major := msgByte m 0
  let op := msgByte m 2
  let p := m.drop 16
  if recovery && s.sec.state == .activating then (stBusy, [], s)
  else if major ≠ 1 ∧ op ≠ 0x01 ∧ op ≠ 0x02 then (stRange, [], s)
  else
    match opLen op p.length with
    | none => (stOpcode, [], s)
    | some fits =>
      if bus && !busOp op then (stPermission, [], s)
      else if recovery && !recoveryOp op then (stBusy, [], s)
      else if !fits || decide (m.length < 16 ∨ msgByte m 3 / 2 ≠ 0 ∨ ofLe (msgPart m 12 4) ≠ 0 ∨ ofLe (msgPart m 8 4) ≠ p.length) then (stRange, [], s)
      else
        match op with
        | 0x01 => s.hello major (msgByte m 1)
        | 0x02 => (stOk, s.getInfo, s)
        | 0x10 => s.fwStage p
        | 0x11 => s.fwVerify p
        | 0x12 => s.fwActivate p
        | 0x20 => if 16 ≤ msgByte p 0 ∨ ofLe (msgPart p 1 15) ≠ 0 then (stRange, [], s) else (stOk, s.portInfo (msgByte p 0), s)
        | 0x30 => (stOk, [], { s with fw := { s.fw with traceMask := BitVec.ofNat 64 (ofLe p) } })
        | _ => (stOk, s.sensors, s)
/-! ## The mailbox (14 R428, R433, R437, R438) -/

/-- Answers the request in progress. -/
def State.fwRun (s : State) (recovery : Bool) : State :=
  let (st, p, s) := s.fwAnswer false recovery s.fw.request
  s.fwDone st p
/-- The request in progress is handled, or held: by service processor 2 when it is READY, by the Colophon in its place when it is STOPPED. -/
def State.fwServe (s : State) : State :=
  let hold : State := { s with fw := { s.fw with mboxHeld := true } }
  if !s.fw.mboxBusy then s
  else if !s.dev.served then hold
  else
    match (s.sp 2).state, s.sec.state with
    | .ready, _ => s.fwRun false
    | .stopped, .running => s.fwRun true
    | .stopped, .activating => s.fwRun true
    | _, _ => hold
/-- The mailbox is served once T0 is zeroed and service processor 2 is ready, or has no image to run (15 R458, R459; 14 R438); a request held
until then is handled. -/
def State.startServing (s : State) : State :=
  let sp := (s.sp 2).state
  let due := s.dev.zeroed && (sp == .ready || (sp == .stopped && s.dev.imageRead.get 3 false))
  let s := if due && !s.dev.served then { s with dev := { s.dev with served := true }, fw := { s.fw with goAt := s.now } } else s
  s.fwServe
/-- A request of a source: 3 the mailbox of the physical function, 0 to 2 an MCTP binding. -/
def State.fwSubmit (s : State) (src : Nat) (m : Bytes) : State :=
  if src = 3 then
    if s.fw.mboxBusy then s
    else { s with fw := { s.fw with mboxDone := false, mboxBusy := true, mboxHeld := false, goAt := s.now, request := m } }.fwServe
  else if s.busUp src then
    let (st, p, s) := s.fwAnswer true false m
    s.emitOut (.response src (fwResponse m st p))
  else s
/-- A write of FW_MBOX_CTL (14 R446). -/
def State.fwMbox (s : State) (v : Nat) : State :=
  let n := fld v 0 17
  if !bit v 31 ∨ n < 16 ∨ 65536 < n then s else s.fwSubmit 3 (getBuf s.fw.req 0 n)
/-- A row's request: submitted when its OP is the row's. -/
def fwRow (op src : Nat) (m : Bytes) (s : State) : Host.Outcome State Fault Refusal :=
  act s fun s => if msgByte m 2 = op then s.fwSubmit src m else s
/-- HELLO. -/
def execHello (src : Nat) (msg : List (BitVec 8)) (s : State) : Host.Outcome State Fault Refusal := fwRow 0x01 src msg s
/-- GET_INFO. -/
def execGetInfo (src : Nat) (msg : List (BitVec 8)) (s : State) : Host.Outcome State Fault Refusal := fwRow 0x02 src msg s
/-- FW_STAGE. -/
def execFwStage (src : Nat) (msg : List (BitVec 8)) (s : State) : Host.Outcome State Fault Refusal := fwRow 0x10 src msg s
/-- FW_VERIFY. -/
def execFwVerify (src : Nat) (msg : List (BitVec 8)) (s : State) : Host.Outcome State Fault Refusal := fwRow 0x11 src msg s
/-- FW_ACTIVATE. -/
def execFwActivate (src : Nat) (msg : List (BitVec 8)) (s : State) : Host.Outcome State Fault Refusal := fwRow 0x12 src msg s
/-- PORT_INFO. -/
def execPortInfo (src : Nat) (msg : List (BitVec 8)) (s : State) : Host.Outcome State Fault Refusal := fwRow 0x20 src msg s
/-- TRACE_SET. -/
def execTraceSet (src : Nat) (msg : List (BitVec 8)) (s : State) : Host.Outcome State Fault Refusal := fwRow 0x30 src msg s
/-- SENSORS. -/
def execSensors (src : Nat) (msg : List (BitVec 8)) (s : State) : Host.Outcome State Fault Refusal := fwRow 0x31 src msg s
/-- MAILBOX_TIMEOUT: 2 s after GO the hardware answers TIMEOUT and restarts service processor 2 (14 R433). -/
def execMailboxTimeout (s : State) : Host.Outcome State Fault Refusal :=
  act s fun s =>
    if !s.fw.mboxBusy || !s.dev.served || decide (s.now < s.fw.goAt + 2 * secCycles) then s
    else
      let s := s.fwDone stTimeout []
      if (s.sp 2).state = .stopped then s
      else (s.report { cls := 1, source := 0x0D, code := 0x10, object := 2 }).spRestart 2 false

/-! ## Ready (14 R427, R428) -/

/-- Service processor 1 copies what it has not copied yet into the log ring: error records, then the trace FIFO. -/
def State.copyLogs (s : State) : State :=
  let n := min ((s.err.tail + 2 ^ 32 - s.fw.copied) % 2 ^ 32) 1024
  let s := (List.range n).foldl (fun s i =>
    let q := (s.err.tail + 2 ^ 32 - n + i) % 2 ^ 32
    match s.err.ring.find? fun p => p.1 == q % 1024 && p.2.seq == q with
    | some p => s.logEntry 1 0 [] (some p.2)
    | none => s) s
  let s := s.fw.traceFifo.foldl (fun s e =>
    let t := s.logEntry e.kind e.point e.data none
    { t with fw := { t.fw with log := t.fw.log.upd (s.fw.logTail % 2048) {} fun x => { x with cycle := e.cycle } } }) s
  { s with fw := { s.fw with traceFifo := [], copied := s.err.tail } }
/-- SP_READY: a started processor reports ready and resumes its duties; service processor 2 not before T0 is zeroed (15 R459). A restart ends with it:
trace point 2 (14 R442). -/
def execSpReady (n : Nat) (s : State) : Host.Outcome State Fault Refusal :=
  act s fun s =>
    let x := s.sp n
    if 3 ≤ n ∨ x.state ≠ .restarting ∨ x.verified = false ∨ (n = 2 ∧ s.dev.zeroed = false) then s
    else
      let s := s.updSp n fun p => { p with state := .ready, activation := false, kickAt := s.now }
      let again := s.sec.spRestarting.get n false
      let s := { s with sec := { s.sec with spRestarting := s.sec.spRestarting.del n } }
      let s := if again then s.trace 2 [4, n] else s
      if n = 1 then s.copyLogs else if n = 2 then s.portsResume.startServing else s

/-! ## Management buses (14 R443, R445) -/

/-- MCTP_CONTROL: Set Endpoint ID assigns the binding's endpoint ID. -/
def execMctpControl (binding : Nat) (msg : List (BitVec 8)) (s : State) : Host.Outcome State Fault Refusal :=
  act s fun s =>
    if !s.busUp binding then s
    else
      let set := msgByte msg 1 == 1 && decide (msg.length = 4 ∧ msgByte msg 2 % 4 ≤ 1)
      let s := if set then { s with fw := { s.fw with eids := s.fw.eids.set binding (msgByte msg 3) 0 } } else s
      s.emitOut (.response binding (Config.mctpResponse msg (s.fw.eids.get binding 0)))
/-- PLDM_REQUEST: readings and FRU data. -/
def execPldmRequest (binding : Nat) (msg : List (BitVec 8)) (s : State) : Host.Outcome State Fault Refusal :=
  act s fun s =>
    if !s.busUp binding then s
    else
      let fru := leBytes 1 (if s.small then 2 else 1) ++ leBytes 8 s.dev.serial.toNat ++ (List.range 4).flatMap fun i => leBytes 4 (s.image i).version
      s.emitOut (.response binding (Config.pldmResponse msg (s.sensors ++ fru)))

end Sys2Proof.Machine
end

