-- ==== Sys2Proof/Machine/Startup.lean ====
section
/-! DEFINITION. Device resets, brown-out, start-up (12 R361 to R364, R368, R386; 13 R404, R408, R409; 04 R115, R116; 15 R451, R458 to R460, R463;
16 R477). These commands do not stop with the device: they bypass the frame that holds every block in reset. -/
namespace Sys2Proof.Machine
open Sys2Proof

/-! ## What a reset leaves (13 R408) -/

/-- The LG-4080's reset values: the halved layout and tier settings, the reference clocks off, the power limit (04 R115; 05 R181; 08 R273; 15 R474). -/
def State.asSmall (s : State) : State :=
  let half (t : Tbl Nat) : Tbl Nat := t.map fun (p : Nat × Nat) => (p.1, p.2 / 2)
  { s with
    ps := { s.ps with base := half s.ps.base, size := half s.ps.size, pBase := half s.ps.pBase, pSize := half s.ps.pSize, limit := 134217728, pLimit := 134217728 }
    tier := { s.tier with low := 524288, high := 1048576, landing := 131072, swapLat := 5250 }
    fq := { s.fq with powerW := 400, limitW := 0x0000040000640190 }
    pwr := { s.pwr with dsEn := 0 } }
/-- What outlives every reset: the waiting commands, the free values' counter, what has left the device, the package, the boot flash, the PERST_N pins, and
until a cold start the thermal trip (15 R472). On the LG-4080 DS_EN reads 0 (15 R474). -/
def State.outlive (s : State) : State :=
  { State.reset with
    pending := s.pending, free := s.free, out := s.out
    dev := { State.reset.dev with
      variant := s.dev.variant, package := s.dev.package, flash := s.dev.flash
      perst0 := s.dev.perst0, perst1 := s.dev.perst1, thermTripN := s.dev.thermTripN }
    pwr := { State.reset.pwr with tripped := s.pwr.tripped, dsEn := if s.small || s.dev.package == 0x42 then 0 else 0xFFFF }
    fw := { State.reset.fw with images := s.fw.images.map fun (p : Nat × Image) => (p.1, { p.2 with version := 0 }) } }
/-- What a warm reset also keeps: the error record ring with its numbers, the log, the straps, debug level 2 (12 R386, 13 R408, R417, 14 R441,
15 R460). -/
def State.outliveWarm (s : State) : State :=
  let t := s.outlive
  { t with
    err := { t.err with ring := s.err.ring, head := s.err.head, tail := s.err.tail }
    fw := { t.fw with log := s.fw.log, logTail := s.fw.logTail, copied := s.fw.copied }
    dev := { t.dev with
      held := false, bifPin := s.dev.bifPin, clkMode := s.dev.clkMode, smb := s.dev.smb, i3c := s.dev.i3c
      lastReset := 5, warmResets := min (s.dev.warmResets + 1) 0xFFFF, starting := true, warm := true }
    sec := { t.sec with debug := if s.sec.debug = 2 then 2 else 0 } }

/-! ## The Colophon ROM (12 R361, R363, R368) -/

/-- The DeviceID private keys, RSA and SLH-DSA: the seed is reconstructed, both are unwrapped, and each matches its certificate's public key (12 R361). -/
def flashIdentity (f : BootFlash) (puf : Bytes) : Option (Bytes × Bytes) :=
  match Config.identitySeed f.helper puf with
  | none => none
  | some seed =>
    let k := leBytes 32 (Config.wrapKey seed).toNat
    match gcmUnwrap k f.wrapRsa, gcmUnwrap k f.wrapSlh with
    | some a, some b => if Config.rsaPublic a = Config.certKey f.chain0 ∧ Config.slhPublic b = Config.certKey f.chain1 then some (a, b) else none
    | _, _ => none
/-- The fields of a configuration record fit the package straps and the identity, whose keys' digest is given; a device without identity does not
check DEVICE_ID and reserved fields (12 R362, R363). -/
def recordFits (r : Bytes) (package : Nat) (id : Option (BitVec 384)) : Bool :=
  decide (r.length = 128) && decide (ofLe (msgPart r 0 2) = 1) && (msgByte r 2 == 1 || msgByte r 2 == 2) && decide (msgByte r 3 = package) &&
    match id with
    | none => true
    | some d => decide (ofLe (msgPart r 4 4) = 0 ∧ ofLe (msgPart r 64 64) = 0 ∧ ofLe (msgPart r 8 48) = d.toNat)
/-- SHA-384 of the two DeviceID public keys (12 R362). -/
def identityDigest (k : Bytes × Bytes) : BitVec 384 := BitVec.ofNat 384 (ofLe (sha384 (Config.rsaPublic k.1 ++ Config.slhPublic k.2)))
/-- The ROM accepts the configuration record: its fields fit and both signatures verify (12 R363). -/
def State.recordOk (s : State) (keys : Option (Bytes × Bytes)) : Bool :=
  let f := s.dev.flash
  recordFits f.record s.dev.package (keys.map identityDigest) && Config.recordSigned Config.configKeys f.record f.recordRsa f.recordSlh
/-- Step 3 of a start: the identity's keys, if it has them, enter the key store; whether the configuration record is accepted; the DRBG is seeded; the
session secret and the debug nonce are drawn. -/
def State.romChecks (s : State) (keys : Option (Bytes × Bytes)) (ok entropy : Bool) : State :=
  let r := s.dev.flash.record
  let identity := keys.isSome
  let variant : Variant := if ok ∧ msgByte r 2 = 1 then .lg8160 else .lg4080
  let s := { s with dev := { s.dev with variant := variant, romDone := true, serial := if ok then BitVec.ofNat 64 (ofLe (msgPart r 56 8)) else 0 } }
  let s := if variant = .lg4080 then s.asSmall else { s with pwr := { s.pwr with dsEn := 0xFFFF } }
  let s := { s with sec := { s.sec with
      state := .rom, identityOk := identity, configOk := ok, entropyOk := entropy, seedFailed := !entropy
      rsaKey := (keys.getD ([], [])).1, slhKey := (keys.getD ([], [])).2
      deviceId := BitVec.ofNat 384 (ofLe (msgPart r 8 48)) } }
  let s := s.setMeas 3 (BitVec.ofNat 384 (ofLe (sha384 r)))
  let (secret, s) := s.stirDrbg.drbg 6
  let (nonce, s) := s.drbg 6
  let s := { s with sec := { s.sec with secret := BitVec.ofNat 384 secret, nonce := BitVec.ofNat 384 nonce } }
  let s := if identity then s else s.report { cls := 3, source := 0x0C, code := 0x10 }
  if ok then s else s.report { cls := 3, source := 0x0C, code := 0x11 }

/-! ## Resets and starts -/

/-- RESET_N_ASSERT: everything stops (15 R460). -/
def execResetNAssert (s : State) : Host.Outcome State Fault Refusal := .next s.outlive
/-- What the ROM finds: the identity's keys, and with them whether it accepts the record. -/
def State.romStart (s : State) (puf : Bytes) (entropy : Bool) : State :=
  let keys := flashIdentity s.dev.flash puf
  s.romChecks keys (s.recordOk keys) entropy
/-- COLD_START: the deassertion of RESET_N is recognised; the effects of a thermal trip end (15 R472). The straps, what the boot flash holds, the power-up state of the array on the companion die,
and the entropy health test. -/
def execColdStart (bifPin : Bool) (clkMode smb : Nat) (i3c : Bool) (keys : WrappedKeys) (certs : CertChains) (record : SignedRecord)
    (puf : List (BitVec 8)) (entropy : Bool) (s : State) : Host.Outcome State Fault Refusal :=
  if !s.dev.held then .next s
  else
    let t := s.outlive
    let d := { t.dev with
      held := false, bifPin := bifPin, clkMode := clkMode % 4, smb := smb % 8, i3c := i3c, lastReset := 6, starting := true, warm := false
      flash := { toWrappedKeys := keys, toCertChains := certs, toSignedRecord := record }, thermTripN := false }
    act { t with dev := d, pwr := { t.pwr with tripped := false } } fun s => (s.romStart puf entropy).trace 2 [6, 0]
/-- A warm device reset is triggered (13 R404). -/
def State.warmReset (s : State) : State := { s with dev := { s.dev with draining := true } }.trace 2 [5, 0]
/-- A write of DEV_RESET (13 R404). -/
def State.devReset (s : State) (v : Nat) : State := if fld v 8 8 = 0x5A ∧ bit v 0 then s.warmReset else s
/-- DEV_RESET. -/
def execDevReset (v : BitVec 64) (s : State) : Host.Outcome State Fault Refusal := act s fun s => s.devReset v.toNat
/-- WARM_START: the warm device reset has drained; the ROM reconstructs the identity from the array's state and checks record and entropy again
(12 R361, 15 R458). -/
def execWarmStart (puf : List (BitVec 8)) (entropy : Bool) (s : State) : Host.Outcome State Fault Refusal :=
  act s fun s => if s.dev.draining then (s.outliveWarm.romStart puf entropy).trace 2 [5, 0] else s
/-- A link goes down, or takes a hot reset: link 0 carries function 0; in x16 mode there is no link 1 (13 R404, 12 R369, 16 R477). -/
def State.linkDown (s : State) (link : Nat) : State :=
  let insecure (s : State) : State := { s with sec := { s.sec with ide := false, ideKeys := [] } }
  if link = 0 then (insecure { s with dev := { s.dev with dl0 := false } }).warmReset
  else if s.dev.bifPin then
    let s := insecure { s with dev := { s.dev with dl1 := false } }
    ((List.range 256).filter fun f => decide (s.dev.link1First ≤ f)).foldl State.flr s
  else s
/-- Link `l` is in DL_Active, and has reached it since the last reset of level 5 or 6 (15 R460). -/
def Dev.active (d : Dev) (l : Nat) : Bool := if l = 0 then d.dl0 else d.dl1
def Dev.linked (d : Dev) (l : Nat) : Bool := if l = 0 then d.linked0 else d.linked1
/-- PERST_N of link `l` is asserted. -/
def Dev.perst (d : Dev) (l : Nat) : Bool := if l = 0 then d.perst0 else d.perst1
/-- UPSTREAM_LINK_DOWN. -/
def execUpstreamLinkDown (link : Nat) (s : State) : Host.Outcome State Fault Refusal :=
  act s fun s => if link < 2 ∧ s.dev.active link then s.linkDown link else s
/-- PERST_N_CHANGE: a link-down once the link has reached DL_Active since the last reset of level 5 or 6, be it down again, else the link waits (15 R460). -/
def execPerstNChange (link : Nat) (asserted : Bool) (s : State) : Host.Outcome State Fault Refusal :=
  if 2 ≤ link then .next s
  else
    act { s with dev := if link = 0 then { s.dev with perst0 := asserted } else { s.dev with perst1 := asserted } } fun s =>
      if asserted && s.dev.linked link then s.linkDown link else s
/-- CONFIGURATION_READY: a link reaches DL_Active after the ROM's checks (15 R458 steps 9 and 10, R459). -/
def execConfigurationReady (link : Nat) (s : State) : Host.Outcome State Fault Refusal :=
  act s fun s =>
    if s.dev.romDone && !s.dev.perst link && !s.dev.active link && (link == 0 || (link == 1 && s.dev.bifPin)) then
      { s with dev := if link = 0 then { s.dev with dl0 := true, linked0 := true, cfgReady := true } else { s.dev with dl1 := true, linked1 := true } }
    else s
/-- A value of the reset layout scaled to `p` of `f` pseudo-channels, and rounded down to a multiple of `m` (04 R116). -/
def scaled (p f m x : Nat) : Nat := x * p / f / m * m
/-- The reset layout for the pseudo-channels in the interleave; one that fails a check is not active (04 R116). -/
def State.scaleLayout (s : State) : State :=
  let p := s.pchIn.length
  let f := s.pchFitted
  if p = f then s
  else
    let sc (t : Tbl Nat) : Tbl Nat := (t.map fun (x : Nat × Nat) => (x.1, scaled p f 65536 x.2)).filter fun x => x.2 != 0
    let base := sc s.ps.base
    let size := sc s.ps.size
    let limit := scaled p f (2 ^ 20) s.ps.limit
    let ok := (s.layoutBad base size limit).isNone
    { s with ps := { s.ps with base := base, size := size, limit := limit, pBase := base, pSize := size, pLimit := limit, layoutActive := ok, layoutValid := ok } }
/-- HBM_TRAINING_DONE, with the pseudo-channels that failed: marked, left out of the interleave, and each reported in a record (00 R6; 04 R116; 15 R460;
16 R483). -/
def execHbmTrainingDone (failed : List Nat) (s : State) : Host.Outcome State Fault Refusal :=
  act s fun s =>
    if !s.dev.starting || s.dev.hbmDone then s
    else
      let bad := (List.range s.pchFitted).filter failed.contains
      let t : Tbl Bool := bad.foldl (fun t i => Tbl.put t i true) []
      let s := { s with dev := { s.dev with hbmDone := true, pchOut := t, pchDown := t } }.scaleLayout
      bad.foldl (fun s i => s.report { cls := 2, source := 8, code := 0x10, object := i }) s
/-- T0_ZEROING_DONE (13 R409): T0 and the stores read zero from here on, and the mailbox may be served. -/
def execT0ZeroingDone (s : State) : Host.Outcome State Fault Refusal :=
  act s fun s =>
    if s.dev.hbmDone && !s.dev.zeroed then { s with t0 := [], dev := { s.dev with zeroed := true } }.startServing else s
/-- Image `i` is due to be verified: in index order at a start, or in the restart of its processor (14 R427, 15 R458). -/
def State.imageDue (s : State) (i : Nat) : Bool :=
  s.dev.romDone && decide (i < 4) &&
    ((!s.dev.imageRead.get i false && (List.range i).all fun j => s.dev.imageRead.get j false) ||
      (i != 0 && (s.sp (i - 1)).state == .restarting && !(s.sp (i - 1)).verified))
/-- An image that fails: not started, measured as zeros, recorded (12 R364); SP_RESTARTING stays set until the processor reports ready (12 R367). -/
def State.imageFails (s : State) (i : Nat) : State :=
  let s := s.setMeas (if i = 0 then 2 else 3 + i) 0
  let s := if i = 0 then { s with sec := { s.sec with fwFailed := true } }
    else s.updSp (i - 1) fun p => { p with state := .stopped, activation := false }
  s.report { cls := 3, source := 0x0C, code := 0x12, detail := i }
/-- An image that verifies: measured, and started. -/
def State.imageStarts (s : State) (i : Nat) (d : BitVec 384) (v : Nat) : State :=
  let s := (s.setMeas (if i = 0 then 2 else 3 + i) d).updImage i fun x => { x with version := v }
  if i = 0 then { s with sec := { s.sec with state := .running, fwFailed := false } }
  else s.updSp (i - 1) fun p => { p with state := .restarting, verified := true, kickAt := s.now }
/-- IMAGE_VERIFIED: the Colophon has checked the active bank of an image. Of a bank that FW_STAGE has not written, `ok`, `hash` and `version` say whether both
signatures verify and what it holds (log 48); of one that it has, the bytes decide. -/
def execImageVerified (image : Nat) (ok : Bool) (hash : BitVec 384) (version : Nat) (s : State) : Host.Outcome State Fault Refusal :=
  act s fun s =>
    if !s.imageDue image then s
    else
      let x := s.image image
      let fresh := (x.erased x.activeB).isEmpty
      let good := if fresh then ok else
        match x.bodyLen image x.activeB with
        | some n => Config.imageSigned (x.bytes image x.activeB 0 n) (x.bytes image x.activeB n 16608)
        | none => false
      let s := { s with dev := { s.dev with imageRead := s.dev.imageRead.put image true } }
      let s := if good && fresh then s.updImage image fun x => x.found x.activeB hash version else s
      let (d, v) := s.bankFound image x.activeB
      (if good then s.imageStarts image d v else s.imageFails image).startServing
/-- The device in brown-out: every block held in reset, FAULT_N asserted (15 R451; log 77). -/
def State.brown (s : State) : State := { s.outlive with dev := { s.outlive.dev with held := false, brownOut := true, faultN := true } }
/-- BROWN_OUT, while RESET_N is deasserted; only RESET_N ends it. -/
def execBrownOut (s : State) : Host.Outcome State Fault Refusal := .next (if s.dev.held then s else s.brown)

end Sys2Proof.Machine
end

