-- ==== Sys2Proof/Machine/Registers.lean ====
section
/-! DEFINITION. Writes of registers and of the buffer window: BAR0 block by block, BAR2 and BAR4 of a function (00 R9; 16 R475 to R490). A read
changes nothing but where a row of its own says so: what a register reads is in the state. -/
namespace Sys2Proof.Machine
open Sys2Proof

/-- The state that a command's own row leaves. -/
def after (s : State) (o : Host.Outcome State Fault Refusal) : State := match o with | .next t => t | _ => s
/-- Word `i` of a block of `n` words of 8 bytes at `base`, where the offset is one of them. -/
def slotAt (off base n : Nat) : Option Nat := if base ≤ off ∧ off < base + 8 * n then some ((off - base) / 8) else none
/-- A field that a write of 0 leaves as it is. -/
def nonzeroOr (v old : Nat) : Nat := if v = 0 then old else v

/-! ## Identity (16 R477, R482) -/

/-- ID_STATE2: LINK1_FIRST, not 0, and only while VF Enable is 0. -/
def State.writeId (s : State) (o v : Nat) : State :=
  if o = 0x18 ∧ s.dev.vfEnable = false then { s with dev := { s.dev with link1First := nonzeroOr (fld v 8 8) s.dev.link1First } } else s

/-! ## Context table (02 R27, R28, R31) -/

/-- Word `i` of a descriptor, but for ENABLE and RESUME. The configured fields are written only in DISABLED. -/
def Ctx.writeWord (x : Ctx) (i v : Nat) : Ctx :=
  let d := x.state == .disabled
  if i = 0 then
    let x := { x with share := fld v 16 8, vector := fld v 36 11, cfgErr := x.cfgErr && !bit v 33 }
    if d then { x with policy := bit v 5, conf := bit v 6, function := fld v 8 8 } else x
  else if i = 16 then { x with quota := fld v 0 40 }
  else if !d then x
  else if i = 1 then { x with csize := fld v 0 4, cloc := fld v 4 4, cbase := fld v 12 52 }
  else if 3 ≤ i ∧ i < 11 then x.updRing (i - 3) fun r => { r with size := fld v 0 4, loc := fld v 4 4, enable := bit v 8, base := fld v 12 52 }
  else if i = 15 then { x with scopes := (List.range 4).foldl (fun t k => t.set k (fld v (16 * k) 16) 0) x.scopes }
  else if i = 17 then { x with inSheet := fld v 0 27, inSheets := fld v 32 16 }
  else if i = 18 then { x with outSheet := fld v 0 27, outSheets := fld v 32 16 }
  else x
/-- A write of word `i` of the descriptor of context `c`: the fields, then ENABLE, then RESUME. -/
def State.writeCtx (s : State) (c i : Nat) (v : BitVec 64) : State :=
  let s := s.updCtx c fun x => x.writeWord i v.toNat
  if i ≠ 0 then s
  else
    let s := if bit v.toNat 4 then s.enableCtx c else s.startReset c
    if bit v.toNat 7 then s.resume c else s
/-- A write of word `i` of a context state record, in DISABLED or STOPPED. -/
def Ctx.writeRecord (x : Ctx) (i : Nat) (v : BitVec 64) : Ctx :=
  if x.state ≠ .disabled ∧ x.state ≠ .stopped then x
  else if i < 16 then x.setReg i v
  else if i < 18 then
    (List.range 4).foldl (fun x k => x.updRing (4 * (i - 16) + k) fun r => { r with latch := BitVec.ofNat 16 (fld v.toNat (16 * k) 16) }) x
  else x
/-- A write of AWL_CMD (07 R232). -/
def State.awlCmd (s : State) (v : Nat) : State :=
  if s.awl.loading.isSome then s
  else
    let a := fld v 4 6
    let c := fld v 10 10
    match fld v 0 4 with
    | 1 => after s (execAwlLoad c a (fld v 32 32) s)
    | 2 => after s (execAwlUnload c a s)
    | 3 => after s (execAwlBind c a (fld v 20 10) (fld v 30 2) s)
    | 4 => after s (execAwlUnbind c a (fld v 20 10) (fld v 30 2) s)
    | _ => s.awlEnd stRange
/-- A write of VM_v (13 R399). -/
def State.writeVm (s : State) (m v : Nat) : State :=
  { s with vms := s.vms.upd m {} fun x => { x with holdoff := fld v 0 16, count := fld v 16 8 } }
/-- A write of FN_CTL_f (13 R394). -/
def Fn.writeCtl (x : Fn) (v : Nat) : Fn :=
  { x with cfgErr := x.cfgErr && !bit v 2, maxSlots := fld v 8 8, hbMs := fld v 16 16, holdS := fld v 32 16 }
/-- The context table block (02 R26, 07 R232, 13 R394, R396, R399, R404, R410). -/
def State.writeTable (s : State) (o : Nat) (v : BitVec 64) : State :=
  if o < 0x40000 then s.writeCtx (o / 256) (o % 256 / 8) v
  else if o < 0x80000 then s.updCtx ((o - 0x40000) / 256) fun x => x.writeRecord (o % 256 / 8) v
  else if o = 0x80008 then s.awlCmd v.toNat
  else if 0x90000 ≤ o ∧ o < 0x92000 then
    let f := (o - 0x90000) / 32
    if o % 32 = 0 then s.updFn f fun x => x.writeCtl v.toNat else if o % 32 = 8 then s.fnVec f v.toNat else s
  else if o = 0x92000 then { s with slice := fld v.toNat 0 24 }
  else if o = 0x92010 then { s with lockUs := nonzeroOr (fld v.toNat 0 16) s.lockUs }
  else if o = 0x92020 then s.devReset v.toNat
  else match slotAt o 0xA0000 16384 with
    | some m => s.writeVm m v.toNat
    | none => s

/-! ## The Spine (06 R214 to R217) -/

/-- The Spine block. -/
def State.writeSpine (s : State) (o : Nat) (v : BitVec 64) : State :=
  let key (i : Nat) : State := { s with spine := { s.spine with probeKey := s.spine.probeKey.set i v 0 } }
  let mask (i : Nat) : State := { s with spine := { s.spine with probeMask := s.spine.probeMask.set i v 0 } }
  if o = 8 then
    let n := fld v.toNat 16 16
    { s with spine := { s.spine with scrubEn := bit v.toNat 0, scrubInterval := if n < 16 then s.spine.scrubInterval else n } }
  else if o = 0x10 then after s (execSpOvfWrite v s)
  else if o = 0x60 then after s (execProbeSearch v s)
  else if 0x20 ≤ o ∧ o < 0x40 then key ((o - 0x20) / 8)
  else if 0x40 ≤ o ∧ o < 0x60 then mask ((o - 0x40) / 8)
  else if 0x70 ≤ o ∧ o < 0x90 then key ((o - 0x70) / 8 + 4)
  else if 0x90 ≤ o ∧ o < 0xB0 then mask ((o - 0x90) / 8 + 4)
  else match slotAt o 0x1000 128 with
    | some b => after s (execSpBankWrite b v s)
    | none => s

/-! ## Page space and tiers (04 R118, 05 R178, R181) -/

/-- Some descriptor names the swap area. -/
def State.swapNamed (s : State) : Bool := s.small && s.ps.pages.any fun p => p.2.state != .free && p.2.tier == 3
/-- The tier registers. -/
def State.writeTier (s : State) (o v : Nat) : State :=
  let put (t : Tier) : State := { s with tier := t }
  let t := s.tier
  if o = 0 then put { t with spillEn := bit v 0, spillOrder := if fld v 1 2 = 3 then t.spillOrder else fld v 1 2 }
  else if o = 8 then put { t with low := fld v 0 28, high := fld v 32 28 }
  else if o = 0x10 then put { t with landing := fld v 0 28 }
  else if o = 0x18 then put { t with t1us := nonzeroOr (fld v 0 16) t.t1us, t2us := nonzeroOr (fld v 16 16) t.t2us, swapUs := nonzeroOr (fld v 32 16) t.swapUs }
  else if o = 0x20 then if s.small && !s.swapNamed then put { t with swapBase := fld v 12 52 } else s
  else if o = 0x28 then if s.small && !s.swapNamed then put { t with swapSize := fld v 0 28 } else s
  else match slotAt o 0x100 16 with
    | some p => if s.small || !bit v 6 then s else s.updPort p fun x => { x with writeErr := false }
    | none => s
/-- The page space and tiers block. -/
def State.writePages (s : State) (o : Nat) (v : Nat) : State :=
  if o = 8 then s.commit v
  else if o = 0x10 then { s with ps := { s.ps with pLimit := fld v 0 32 } }
  else if o = 0x18 then { s with ps := { s.ps with holdLimit := fld v 0 32 } }
  else if 0x10000 ≤ o then s.writeTier (o - 0x10000) v
  else match slotAt o 0x20 7 with
    | some r => { s with ps := { s.ps with pBase := s.ps.pBase.set r (fld v 0 28) 0, pSize := s.ps.pSize.set r (fld v 32 28) 0 } }
    | none => s

/-! ## Kettle, Folios and compression (05 R182, 08 R273, 09 R298) -/

/-- KT_CONTROL. -/
def State.writeKettle (s : State) (o v : Nat) : State :=
  if o ≠ 0 then s
  else { s with margin := fld v 0 24, leadMax := if 1 ≤ fld v 32 16 ∧ fld v 32 16 ≤ 4096 then fld v 32 16 else s.leadMax }
/-- FQ_GOV, FQ_GOV_LIMIT, CX_CONTROL. What is written to the governor's two takes effect at the end of the interval. -/
def State.writeFq (s : State) (o : Nat) (v : BitVec 64) : State :=
  if o = 8 then { s with fq := { s.fq with govW := v } }
  else if o = 0x10 then
    let n := nonzeroOr (fld v.toNat 32 16) (fld s.fq.limitW.toNat 32 16)
    { s with fq := { s.fq with limitW := mkWord [(0, fld v.toNat 0 32), (32, n)] } }
  else if o = 0x2008 then { s with press := { s.press with forceRaw := bit v.toNat 0 } }
  else s

/-! ## Network (10 R334, 16 R487) -/

/-- A write of NET_QP_CMD. -/
def State.qpCmd (s : State) (bar fn v : Nat) : State :=
  let q := fld v 16 14
  match fld v 0 4 with
  | 1 => after s (execQpRead bar fn q s)
  | 2 => after s (execQpWrite bar fn q s)
  | 3 => after s (execToInit bar fn q s)
  | 4 => after s (execToRtr bar fn q s)
  | 5 => after s (execToRts bar fn q s)
  | 6 => after s (execToReset bar fn q s)
  | 7 => after s (execToError bar fn q s)
  | _ => s.qpEnd (setKey bar fn) stRange
/-- A write of NET_REG_CMD. -/
def State.regCmd (s : State) (bar fn v : Nat) : State :=
  match fld v 0 4 with
  | 1 => after s (execCreate bar fn s)
  | 2 => after s (execRevoke bar fn (fld v 16 16) s)
  | _ => if (s.cmdSet (setKey bar fn)).regBusy then s else s.regEnd (setKey bar fn) stRange
/-- A write of NET_EXT_CMD. -/
def State.extCmd (s : State) (bar fn v : Nat) : State :=
  match fld v 0 4 with
  | 1 => after s (execExtentRevoke bar fn (fld v 32 32) s)
  | _ => if (s.cmdSet (setKey bar fn)).extBusy then s else s.updSet (setKey bar fn) fun c => { c with extStatus := stRange }
/-- A write at offset `o` of a command set. -/
def State.writeSet (s : State) (bar fn o : Nat) (v : BitVec 64) : State :=
  let k := setKey bar fn
  if o = 0 then s.qpCmd bar fn v.toNat
  else if 0x10 ≤ o ∧ o < 0x50 then s.updSet k fun c => { c with data := c.data.set ((o - 0x10) / 8) v 0 }
  else if o = 0x50 then s.regCmd bar fn v.toNat
  else if o = 0x58 then s.updSet k fun c => { c with regData0 := mkWord [(0, fld v.toNat 0 18)] }
  else if o = 0x60 then s.updSet k fun c => { c with regData1 := v }
  else if o = 0x70 then s.extCmd bar fn v.toNat
  else s
/-- NET_SUB_s. -/
def Sub.write (x : Sub) (w v : Nat) : Sub :=
  if w = 0 then { x with reqWindow := nonzeroOr (fld v 0 16) x.reqWindow, byteWindow := fld v 16 24, extLimit := fld v 40 24 }
  else { x with function := fld v 0 8 }
/-- The network block. -/
def State.writeNet (s : State) (o : Nat) (w : BitVec 64) : State :=
  let v := w.toNat
  let n := s.net
  if o = 8 then s.netControl v
  else if o = 0x10 then { s with net := { n with msgUs := nonzeroOr (fld v 0 16) n.msgUs, reorderUs := nonzeroOr (fld v 16 16) n.reorderUs } }
  else if o = 0x18 then { s with net := { n with targetNs := fld v 0 16, ai := fld v 16 16, beta := fld v 32 8 } }
  else if o = 0x20 then { s with net := { n with wInit := fld v 0 16, wMin := nonzeroOr (fld v 16 16) n.wMin, wMax := fld v 32 16 } }
  else if 0x30 ≤ o ∧ o < 0xB0 then s.writeSet 0 0 (o - 0x30) w
  else if o = 0xB0 then s.dirControl v
  else if 0x200 ≤ o ∧ o < 0x400 then { s with net := { n with peers := n.peers.set ((o - 0x200) / 8) (fld v 0 15) 0 } }
  else if 0x1000 ≤ o ∧ o < 0x2000 then s.updSub ((o - 0x1000) / 16) fun x => x.write (o % 16 / 8) v
  else if 0x2000 ≤ o ∧ o < 0x2000 + 256 * s.lanes then
    let k := (o - 0x2000) / 16
    let old := (n.srcs.get k 0).toNat
    let new := if o % 16 = 0 then fld old 64 64 * 2 ^ 64 + v else fld old 0 64 + v * 2 ^ 64
    { s with net := { n with srcs := n.srcs.set k (BitVec.ofNat 128 new) 0 } }
  else s

/-! ## Traffic scheduling and network time (11 R342, R347, R358) -/

/-- The gate block of port `p`. -/
def State.writeGate (s : State) (p o : Nat) (v : BitVec 64) : State :=
  let n := v.toNat
  if o = 0 then s.gclWrite p n
  else if o = 8 then
    s.updGcl p fun g => { g with adminSec := fld n 0 48, adminRsv := g.adminRsv / 2 % 2 * 2 + b2n (fld n 48 16 != 0) }
  else if o = 0x10 then
    s.updGcl p fun g => { g with adminNs := fld n 0 30, adminCycle := fld n 32 30, adminRsv := g.adminRsv % 2 + 2 * b2n (fld n 30 2 != 0 || fld n 62 2 != 0) }
  else match slotAt o 0x800 256 with
    | some e => s.updGcl p fun g => { g with admin := g.admin.set e v 0 }
    | none => s
/-- The registers of the egress scheduler below its subscriber tables. -/
def State.writeEgLow (s : State) (o : Nat) (w : BitVec 64) : State :=
  let v := w.toNat
  let e := s.eg
  let put (e : Eg) : State := { s with eg := e }
  if o = 8 then put { e with yellowLimit := fld v 0 15 }
  else if o = 0x10 ∨ o = 0x18 then put { e with dscp := e.dscp.set ((o - 0x10) / 8) w 0 }
  else if 0x20 ≤ o ∧ o < 0x50 then
    let k := (o - 0x20) / 8
    put { e with prio := e.prio.set k (fld v 0 3 + 1) 0, svcQuantum := e.svcQuantum.set k (nonzeroOr (fld v 16 16) (e.svcQuantum.get k 128)) 128 }
  else if 0x200 ≤ o ∧ o < 0x200 + 64 * s.lanes then
    let k := (o - 0x200) / 8
    if k % 8 < 6 then put { e with ssh := e.ssh.upd k {} fun h => { h with written := some w } } else s
  else if o = 0x400 then after s (execHistCopy w s)
  else if o = 0x410 then put { e with depthShift := fld v 0 5, delayShift := fld v 8 5, histInterval := nonzeroOr (fld v 16 16) e.histInterval }
  else if o = 0x500 then s.ptpWrite v
  else if o = 0x538 then s.updPtp fun p => { p with rxNs := fld v 0 16, txNs := fld v 16 16 }
  else match slotAt o 0x600 256 with
    | some i => put { e with bulk := (List.range 64).foldl (fun t j => t.set (64 * i + j) (w.getLsbD j) false) e.bulk }
    | none => s
/-- The traffic scheduling block. -/
def State.writeEg (s : State) (o : Nat) (w : BitVec 64) : State :=
  let e := s.eg
  if o < 0x1000 then s.writeEgLow o w
  else if o < 0x2000 then
    let k := (o - 0x1000) / 16
    if o % 16 = 0 then { s with eg := { e with subSh := e.subSh.upd k {} fun h => { h with written := some w } } }
    else { s with eg := { e with subQuantum := e.subQuantum.set k (nonzeroOr (fld w.toNat 0 16) (e.subQuantum.get k 128)) 128 } }
  else if o < 0x3000 then
    let k := (o - 0x2000) / 16
    { s with eg := { e with meters := e.meters.upd k {} fun m => if o % 16 = 0 then { m with w0 := w, dirty := true } else { m with w1 := w, dirty := true } } }
  else if 0x4000 ≤ o ∧ o < 0x4000 + 0x2000 * s.lanes then s.writeGate ((o - 0x4000) / 0x2000) ((o - 0x4000) % 0x2000) w
  else s

/-! ## Colophon, errors, power, credits, firmware (12 R391; 13 R424; 15 R474; 01 R19; 14 R446) -/

/-- The Colophon mailbox block; CO_REQ takes `bytes` bytes. -/
def State.writeCo (s : State) (o : Nat) (w : BitVec 64) (bytes : Nat) : State :=
  let v := w.toNat
  if 0x10000 ≤ o ∧ o < 0x20000 then { s with sec := { s.sec with req := putBuf s.sec.req (o - 0x10000) (leBytes bytes v) } }
  else if o = 0x10 then s.coMbox v
  else if o = 0x20 then s.coCmdWrite v
  else if 0x8000 ≤ o ∧ o < 0xC000 ∧ o % 16 = 0 then
    let c := (o - 0x8000) / 16
    if (s.ctx c).state = .disabled then s.updCoCtx c fun x => { x with sealLoc := fld v 0 4, sealBase := fld v 12 52 } else s
  else s
/-- The power registers. -/
def State.writePm (s : State) (o v : Nat) : State :=
  let p := s.pwr
  if o = 0 then s.pmCtl v
  else if o = 8 then { s with pwr := { p with changeFail := p.changeFail && !bit v 6 } }
  else if o = 0x20 then
    if fld v 0 8 ≤ fld v 8 8 ∨ 115 ≤ fld v 0 8 then s
    else { s with pwr := { p with throttleC := fld v 0 8, releaseC := fld v 8 8, hbmThrottleC := fld v 16 8 } }
  else if o = 0x28 ∧ s.small = false then
    let up := (List.range 16).any fun i => (s.port i).linkUp
    { s with pwr := { p with dsEn := BitVec.ofNat 16 (fld v 0 16), ssc := if up then p.ssc else bit v 16 } }
  else s
/-- A write of a credit status register: EMPTY_SEEN is cleared by 1, and LOW becomes AVAIL. -/
def State.writeCredit (s : State) (i v : Nat) : State :=
  if bit v 63 ∧ i < 333 then { s with pools := s.pools.upd i {} fun p => { p with emptySeen := false, lowUsed := p.used } } else s
/-- The errors, counters, power and credits block. -/
def State.writeErr (s : State) (o v : Nat) : State :=
  let e := s.err
  if o = 8 then s.errHead v
  else if o = 0x18 then
    { s with err := { e with corrected := e.corrected && !bit v 0, notice := e.notice && !bit v 1, contained := e.contained && !bit v 2, fatal := e.fatal && !bit v 3, lost := e.lost && !bit v 4 } }
  else if o = 0x20 then s.cntCmd v
  else if 0x2000 ≤ o ∧ o < 0x3000 then s.writePm (o - 0x2000) v
  else match slotAt o 0xC000 512 with
    | some i => s.writeCredit i v
    | none => s
/-- The firmware block; FW_REQ takes `bytes` bytes. -/
def State.writeFw (s : State) (o : Nat) (w : BitVec 64) (bytes : Nat) : State :=
  let v := w.toNat
  if 0x10000 ≤ o ∧ o < 0x20000 then { s with fw := { s.fw with req := putBuf s.fw.req (o - 0x10000) (leBytes bytes v) } }
  else if o = 8 then s.fwMbox v
  else if o = 0x48 then { s with fw := { s.fw with traceMask := w } }
  else match slotAt o 0x20 3 with
    | some n => s.spWrite n v
    | none => s

/-! ## The windows -/

/-- An 8-byte write at an aligned offset of BAR0 (16 R481). -/
def State.writeBar0 (s : State) (off : Nat) (v : BitVec 64) : State :=
  let o := off % 0x100000
  match off / 0x100000 with
  | 0 => s.writeId o v.toNat
  | 1 => s.writeTable o v
  | 2 => s.writeSpine o v
  | 3 => s.writePages o v.toNat
  | 4 => s.writeKettle o v.toNat
  | 5 => s.writeFq o v
  | 6 => s.writeNet o v
  | 7 => s.writeEg o v
  | 8 => s.writeCo o v 8
  | 9 => s.writeErr o v.toNat
  | 10 => s.writeFw o v 8
  | 11 => match slotAt o 0 16 with
    | some p => if bit v.toNat 0 then s.portResetWrite p else s
    | none => s
  | _ => s
/-- A write of word `w` of MSI-X table entry `i`: address, or data with the vector's mask bit; a kept request is signalled when the mask goes. -/
def State.writeMsix (s : State) (f i w : Nat) (v : BitVec 64) : State :=
  let e := (s.fn f).msix.get i {}
  let e := if w = 0 then { e with addr := v } else { e with data := BitVec.ofNat 32 (fld v.toNat 0 32), unmasked := !bit v.toNat 32 }
  (s.updFn f fun x => { x with msix := x.msix.set i e {} }).release f i
/-- An 8-byte write at an aligned offset of the function window of function `f` (16 R484, R485, R489). -/
def State.writeBar2 (s : State) (f off : Nat) (v : BitVec 64) : State :=
  if off = 8 then after s (execHeartbeat f 8 s)
  else if off = 0x10 then after s (execKettleDoorbell f v 8 s)
  else if off = 0x18 then s.sigClear f v
  else if 0x1000 ≤ off ∧ off < 0x1080 then s.writeSet 2 f (off - 0x1000) v
  else if 0x4000 ≤ off ∧ off < 0x8000 then
    let i := (off - 0x4000) / 8
    if i < (s.fn f).vecCount then s.writeVm ((s.fn f).vecBase + i) v.toNat else s
  else if 0x8000 ≤ off ∧ off < 0x10000 then s.writeMsix f ((off - 0x8000) / 16) (off % 16 / 8) v
  else if 0x40000 ≤ off ∧ off < 0x50000 then
    let c := (off - 0x40000) / 64
    if off % 64 = 0 then s.doorbell f c v.toNat
    else if off % 64 = 0x18 ∧ bit v.toNat 0 ∧ (s.ctx c).function = f then s.resume c
    else s
  else s
/-- A write of Message Control of the MSI-X capability of function `f`: Enable in bit 15, Function Mask in bit 14; requests kept for vectors that are
then unmasked are signalled (13 R398; PCIe 6.0). -/
def State.writeMsixControl (s : State) (f v : Nat) : State :=
  let s := s.updFn f fun x => { x with msixEn := bit v 15, fnMask := bit v 14 }
  (s.fn f).msix.foldl (fun s e => s.release f e.1) s
/-! ## Configuration space (16 R475 to R478; PCIe 6.0, log 144) -/

/-- A function with a header of its own, BARs and a Memory Space Enable: the physical function, and those of link 1 (16 R477). -/
def State.ownHeader (s : State) (f : Nat) : Bool := f == 0 || s.linkOf f == 1
/-- A write of one half of a 64-bit BAR of `size` bytes: the address keeps the bits above the size. -/
def barWrite (size old : Nat) (upper : Bool) (v : Nat) : Nat :=
  let x := if upper then old % 2 ^ 32 + 2 ^ 32 * (v % 2 ^ 32) else old / 2 ^ 32 * 2 ^ 32 + v % 2 ^ 32
  x / size * size
/-- Sizes of BAR0, BAR2 and BAR4 (16 R475). -/
abbrev bar0Size : Nat := 2 ^ 26
abbrev bar2Size : Nat := 2 ^ 20
abbrev bar4Size : Nat := 2 ^ 32
/-- A write of the AER capability of function `f`: a status bit is cleared by 1, the severity is taken. -/
def State.writeAer (s : State) (f o : Nat) (v : BitVec 32) : State :=
  let put (k : Aer → Aer) : State := { s with err := { s.err with aer := s.err.aer.upd f {} k } }
  if o = 4 then put fun a => { a with unc := a.unc &&& ~~~v }
  else if o = 0xC then put fun a => { a with sev := v }
  else if o = 0x10 then put fun a => { a with cor := a.cor &&& ~~~v }
  else s
/-- A write of the SR-IOV capability: VF Enable and VF Memory Space Enable, NumVFs while VF Enable is 0, the VF BARs. -/
def State.writeSriov (s : State) (o v : Nat) : State :=
  let put (d : Dev) : State := { s with dev := d }
  if o = 8 then ({ s with dev := { s.dev with vfMem := bit v 3 } }).vfConfig (bit v 0) s.dev.numVfs
  else if o = 0x10 then if s.dev.vfEnable then s else s.vfConfig false (fld v 0 16)
  else if o = 0x2C ∨ o = 0x30 then put { s.dev with vfBar2 := barWrite bar2Size s.dev.vfBar2 (o == 0x30) v }
  else if o = 0x34 ∨ o = 0x38 then put { s.dev with vfBar4 := barWrite bar4Size s.dev.vfBar4 (o == 0x38) v }
  else s
/-- A write of the configuration space of function `f`: Command, BARs, Message Control of MSI-X at 0x42, AER at 0x100, SR-IOV at 0x200. -/
def State.writeCfg (s : State) (f o v bytes : Nat) : State :=
  if o = 4 then if s.ownHeader f then s.updFn f fun x => { x with memEn := bit v 1 } else s
  else if o = 0x42 then s.writeMsixControl f v
  else if bytes ≠ 4 then s
  else if o = 0x40 then s.writeMsixControl f (fld v 16 16)
  else if o = 0x10 ∨ o = 0x14 then if f = 0 then s.updFn 0 fun x => { x with bar0 := barWrite bar0Size x.bar0 (o == 0x14) v } else s
  else if o = 0x18 ∨ o = 0x1C then if s.ownHeader f then s.updFn f fun x => { x with bar2 := barWrite bar2Size x.bar2 (o == 0x1C) v } else s
  else if o = 0x20 ∨ o = 0x24 then if s.ownHeader f then s.updFn f fun x => { x with bar4 := barWrite bar4Size x.bar4 (o == 0x24) v } else s
  else if 0x100 ≤ o ∧ o < 0x200 then s.writeAer f (o - 0x100) (BitVec.ofNat 32 v)
  else if f = 0 ∧ 0x200 ≤ o then s.writeSriov (o - 0x200) v
  else s
/-- Memory requests reach function `f`'s windows: Memory Space Enable of its header, or VF Memory Space Enable (16 R478). -/
def State.memOn (s : State) (f : Nat) : Bool := if s.ownHeader f then (s.fn f).memEn else s.dev.vfMem

/-- A request of 8 bytes or a multiple of them, 8-aligned: successive 8-byte writes in ascending address order (16 R480). -/
def writeWords (one : State → Nat → BitVec 64 → State) : Nat → Nat → List (BitVec 64) → State → State
  | 0, _, _, s => s
  | k + 1, off, v, s => writeWords one k (off + 8) (v.drop 1) (one s off (v.headD 0))
/-- REGISTER_WRITE: `bar` 0 the physical function's BAR0, 2 the function window of `fn`, 16 its configuration space; `v` the words of the request, low
word first. Aligned writes of 8 bytes and of multiples of 8 are applied, aligned ones of 4 bytes in CO_REQ and FW_REQ, and a short one of KETTLE_DB is
counted (05 R168, 16 R480). -/
def execRegisterWrite (bar fn offset : Nat) (v : List (BitVec 64)) (bytes : Nat) (s : State) : Host.Outcome State Fault Refusal :=
  act s fun s =>
    let whole := decide (bytes % 8 = 0 ∧ offset % 8 = 0)
    let first := v.headD 0
    if bar = 0 then
      if !s.memOn 0 then s
      else if whole then writeWords State.writeBar0 (bytes / 8) offset v s
      else if bytes = 4 ∧ offset % 4 = 0 ∧ offset / 0x10000 = 0x81 then s.writeCo (offset % 0x100000) first 4
      else if bytes = 4 ∧ offset % 4 = 0 ∧ offset / 0x10000 = 0xA1 then s.writeFw (offset % 0x100000) first 4
      else s
    else if fn < 256 ∧ (s.fn fn).enabled = true then
      if bar = 2 then
        if !s.memOn fn then s
        else if whole then writeWords (fun s => s.writeBar2 fn) (bytes / 8) offset v s
        else if offset / 8 = 2 ∧ bytes < 8 then after s (execKettleDoorbell fn first bytes s)
        else s
      else if bar = 16 then s.onConfig (s.linkOf fn) fun s => s.writeCfg fn offset first.toNat bytes
      else s
    else s

/-! ## The buffer window (16 R479) -/

/-- Sheet `n` lies in the input or output buffer of a context of function `f` that is not RESETTING: 2 it may be read and written, 1 read, 0 neither. -/
def State.windowAccess (s : State) (f n : Nat) : Nat :=
  let mine := s.ctxs.filter fun c => c.2.function == f && c.2.state != .resetting
  if mine.any fun c => decide (c.2.inSheet ≤ n ∧ n < c.2.inSheet + c.2.inSheets) then 2
  else if mine.any fun c => decide (c.2.outSheet ≤ n ∧ n < c.2.outSheet + c.2.outSheets) then 1
  else 0
/-- Byte `o` of the buffer window lies within the mapping. -/
def State.windowMaps (s : State) (o : Nat) : Bool := decide (o < 2 ^ 32 ∧ o < 4096 * s.regSize 4)
/-- T0 address of byte `o` of the buffer window. -/
def State.windowAddr (s : State) (o : Nat) : Nat := s.regBase 4 * 4096 + o
/-- Writes the enabled bytes of a request whose sheets may be written. -/
def State.windowWrite (s : State) (f o : Nat) : List (Option (BitVec 8)) → State
  | [] => s
  | none :: r => s.windowWrite f (o + 1) r
  | some b :: r =>
    let s := if s.windowMaps o && s.windowAccess f (s.windowAddr o / 4096) == 2 then s.t0Write1 (s.windowAddr o) b else s
    s.windowWrite f (o + 1) r
/-- The bytes a read answers at the offsets `l`: zero where it is refused, a free value in an uncorrectable granule, whose value no rule gives (13 R412; log 84). -/
def State.windowRead (s : State) (served : Nat → Bool) : List Nat → Bytes × State
  | [] => ([], s)
  | o :: l =>
    let (b, s) := if !served o then (0, s) else if s.rangeBad (s.windowAddr o) 1 then let (v, s) := s.draw; (BitVec.ofNat 8 v, s) else (memRead s.t0 (s.windowAddr o), s)
    let (r, s) := s.windowRead served l
    (b :: r, s)
/-- BUFFER_WINDOW_ACCESS: a read of the bytes that `data` enables, or a write of them, of any byte enables, checked sheet by sheet; a refused request counts
once. While memory requests do not reach the function a read ends with Unsupported Request. -/
def execBufferWindowAccess (fn offset : Nat) (write : Bool) (data : List (Option (BitVec 8))) (s : State) : Host.Outcome State Fault Refusal :=
  act s fun s =>
    if 256 ≤ fn ∨ (s.fn fn).enabled = false then s
    else if !s.memOn fn then if write then s else s.emitOut (.cfgAnswer ansUr)
    else
      let at_ := ((List.range data.length).filter fun i => (data.getD i none).isSome).map (offset + ·)
      let need := if write then 2 else 1
      let open_ := s.dev.zeroed
      let allowed (o : Nat) : Bool := decide (need ≤ s.windowAccess fn (s.windowAddr o / 4096))
      let s := if open_ && at_.any (fun o => s.windowMaps o && !allowed o) then s.countFn fn 30 1 else s
      if write then if open_ then (s.windowWrite fn offset data).hostWrote s else s
      else
        let (b, s) := s.windowRead (fun o => open_ && s.windowMaps o && allowed o) at_
        let s := match at_.find? fun o => open_ && s.windowMaps o && allowed o && s.rangeBad (s.windowAddr o) 1 with
          | none => s
          | some o => s.badGranule 8 (s.windowAddr o) (some fn) none 0 0
        s.emitOut (.readData b)

end Sys2Proof.Machine
end

