-- ==== Sys2Proof/Machine/Dispatch.lean ====
section
/-! DEFINITION. The dispatcher: one arm for each command, each a direct call of its meaning. -/
namespace Sys2Proof.Machine
open Sys2Proof

/-- The effect of a command on everything but the queue. -/
def exec (i : Instr) (s : State) : Host.Outcome State Fault Refusal :=
  match i with
  | .commandRingTailDoorbell fn ctx ring index rsv bytes => Sys2Proof.Machine.execCommandRingTailDoorbell fn ctx ring index rsv bytes s
  | .completionHeadDoorbell fn ctx ring index rsv bytes => Sys2Proof.Machine.execCompletionHeadDoorbell fn ctx ring index rsv bytes s
  | .instructionFetch ctx ring => Sys2Proof.Machine.execInstructionFetch ctx ring s
  | .instructionDispatch ctx ring => Sys2Proof.Machine.execInstructionDispatch ctx ring s
  | .instructionComplete f => Sys2Proof.Machine.execInstructionComplete f s
  | .nop f => Sys2Proof.Machine.execNop f s
  | .fence f => Sys2Proof.Machine.execFence f s
  | .wait f => Sys2Proof.Machine.execWait f s
  | .waitSatisfied f => Sys2Proof.Machine.execWaitSatisfied f s
  | .waitTimeout f => Sys2Proof.Machine.execWaitTimeout f s
  | .signal f => Sys2Proof.Machine.execSignal f s
  | .set f => Sys2Proof.Machine.execSet f s
  | .addx f => Sys2Proof.Machine.execAddx f s
  | .branch f => Sys2Proof.Machine.execBranch f s
  | .loop f => Sys2Proof.Machine.execLoop f s
  | .lookup f => Sys2Proof.Machine.execLookup f s
  | .lookupRecordRead f => Sys2Proof.Machine.execLookupRecordRead f s
  | .overflowWalk f => Sys2Proof.Machine.execOverflowWalk f s
  | .attach f => Sys2Proof.Machine.execAttach f s
  | .fork f => Sys2Proof.Machine.execFork f s
  | .release f => Sys2Proof.Machine.execRelease f s
  | .publish f => Sys2Proof.Machine.execPublish f s
  | .retract f => Sys2Proof.Machine.execRetract f s
  | .append f => Sys2Proof.Machine.execAppend f s
  | .seqAppendAtStepBoundary g => Sys2Proof.Machine.execSeqAppendAtStepBoundary g s
  | .seal f => Sys2Proof.Machine.execSeal f s
  | .stage f => Sys2Proof.Machine.execStage f s
  | .hint f => Sys2Proof.Machine.execHint f s
  | .demote f => Sys2Proof.Machine.execDemote f s
  | .deliver f => Sys2Proof.Machine.execDeliver f s
  | .gsetCreate f => Sys2Proof.Machine.execGsetCreate f s
  | .gsetUpdate f => Sys2Proof.Machine.execGsetUpdate f s
  | .gsetDissolve f => Sys2Proof.Machine.execGsetDissolve f s
  | .step f => Sys2Proof.Machine.execStep f s
  | .attend f => Sys2Proof.Machine.execAttend f s
  | .combine f => Sys2Proof.Machine.execCombine f s
  | .loadw f => Sys2Proof.Machine.execLoadw f s
  | .digest f => Sys2Proof.Machine.execDigest f s
  | .awaitLanding f => Sys2Proof.Machine.execAwaitLanding f s
  | .awaitTimeout f => Sys2Proof.Machine.execAwaitTimeout f s
  | .contextEnable ctx => Sys2Proof.Machine.execContextEnable ctx s
  | .contextReset ctx => Sys2Proof.Machine.execContextReset ctx s
  | .contextResetFinished ctx => Sys2Proof.Machine.execContextResetFinished ctx s
  | .resume bar fn ctx => Sys2Proof.Machine.execResume bar fn ctx s
  | .slotGrant => Sys2Proof.Machine.execSlotGrant s
  | .contextSwapOut slot => Sys2Proof.Machine.execContextSwapOut slot s
  | .schedulerTick => Sys2Proof.Machine.execSchedulerTick s
  | .creditGrant pool => Sys2Proof.Machine.execCreditGrant pool s
  | .quireGrant => Sys2Proof.Machine.execQuireGrant s
  | .heartbeat fn bytes => Sys2Proof.Machine.execHeartbeat fn bytes s
  | .heartbeatTimeout fn => Sys2Proof.Machine.execHeartbeatTimeout fn s
  | .orphanHoldExpired ctx => Sys2Proof.Machine.execOrphanHoldExpired ctx s
  | .leaseExpired f kind => Sys2Proof.Machine.execLeaseExpired f kind s
  | .stepHoldExpired g => Sys2Proof.Machine.execStepHoldExpired g s
  | .kettleDoorbell fn v bytes => Sys2Proof.Machine.execKettleDoorbell fn v bytes s
  | .gathererMoveStart => Sys2Proof.Machine.execGathererMoveStart s
  | .inwardMoveLanded page data => Sys2Proof.Machine.execInwardMoveLanded page data s
  | .inwardMoveFailed page cause => Sys2Proof.Machine.execInwardMoveFailed page cause s
  | .tierReadTimeout page => Sys2Proof.Machine.execTierReadTimeout page s
  | .outwardMoveDone page => Sys2Proof.Machine.execOutwardMoveDone page s
  | .outwardWriteFail page => Sys2Proof.Machine.execOutwardWriteFail page s
  | .reclaimPass => Sys2Proof.Machine.execReclaimPass s
  | .pressSeal pipe => Sys2Proof.Machine.execPressSeal pipe s
  | .pageSealed pipe => Sys2Proof.Machine.execPageSealed pipe s
  | .chainHashFormed => Sys2Proof.Machine.execChainHashFormed s
  | .weightPass wrec page => Sys2Proof.Machine.execWeightPass wrec page s
  | .retirementFree => Sys2Proof.Machine.execRetirementFree s
  | .awlTokenScan engine => Sys2Proof.Machine.execAwlTokenScan engine s
  | .awlLoad ctx auto offset => Sys2Proof.Machine.execAwlLoad ctx auto offset s
  | .awlUnload ctx auto => Sys2Proof.Machine.execAwlUnload ctx auto s
  | .awlBind ctx auto target entry => Sys2Proof.Machine.execAwlBind ctx auto target entry s
  | .awlUnbind ctx auto target entry => Sys2Proof.Machine.execAwlUnbind ctx auto target entry s
  | .spineInsertion => Sys2Proof.Machine.execSpineInsertion s
  | .spineCarry => Sys2Proof.Machine.execSpineCarry s
  | .spineWithdrawal => Sys2Proof.Machine.execSpineWithdrawal s
  | .scrubRow => Sys2Proof.Machine.execScrubRow s
  | .probeSearch v => Sys2Proof.Machine.execProbeSearch v s
  | .spBankWrite bank v => Sys2Proof.Machine.execSpBankWrite bank v s
  | .spOvfWrite v => Sys2Proof.Machine.execSpOvfWrite v s
  | .dirKeyFlush qp => Sys2Proof.Machine.execDirKeyFlush qp s
  | .dirKeyMessage qp => Sys2Proof.Machine.execDirKeyMessage qp s
  | .dirLookup qp => Sys2Proof.Machine.execDirLookup qp s
  | .dirLookupResponse qp => Sys2Proof.Machine.execDirLookupResponse qp s
  | .dirLookupTimeout f => Sys2Proof.Machine.execDirLookupTimeout f s
  | .commit v => Sys2Proof.Machine.execCommit v s
  | .layoutInitDone => Sys2Proof.Machine.execLayoutInitDone s
  | .governorInterval power temp => Sys2Proof.Machine.execGovernorInterval power temp s
  | .loadInterval folio read written => Sys2Proof.Machine.execLoadInterval folio read written s
  | .frameRx port fr => Sys2Proof.Machine.execFrameRx port fr s
  | .inboundRdmaWrite qp => Sys2Proof.Machine.execInboundRdmaWrite qp s
  | .inboundSend qp => Sys2Proof.Machine.execInboundSend qp s
  | .inboundRdmaReadRequest qp => Sys2Proof.Machine.execInboundRdmaReadRequest qp s
  | .inboundAcknowledge qp => Sys2Proof.Machine.execInboundAcknowledge qp s
  | .inboundNak qp => Sys2Proof.Machine.execInboundNak qp s
  | .inboundReadResponse qp => Sys2Proof.Machine.execInboundReadResponse qp s
  | .retransmitTimeout qp psn => Sys2Proof.Machine.execRetransmitTimeout qp psn s
  | .reorderGapTimeout qp => Sys2Proof.Machine.execReorderGapTimeout qp s
  | .messageTimeout qp msg => Sys2Proof.Machine.execMessageTimeout qp msg s
  | .vangedLookup qp => Sys2Proof.Machine.execVangedLookup qp s
  | .vangedGetPages qp => Sys2Proof.Machine.execVangedGetPages qp s
  | .putPages qp => Sys2Proof.Machine.execPutPages qp s
  | .vangedPublish qp => Sys2Proof.Machine.execVangedPublish qp s
  | .vangedAttend qp => Sys2Proof.Machine.execVangedAttend qp s
  | .vangedStep qp => Sys2Proof.Machine.execVangedStep qp s
  | .extentGrant qp => Sys2Proof.Machine.execExtentGrant qp s
  | .extentReturn qp => Sys2Proof.Machine.execExtentReturn qp s
  | .extentWithdrawn e => Sys2Proof.Machine.execExtentWithdrawn e s
  | .vangedLoad qp => Sys2Proof.Machine.execVangedLoad qp s
  | .frameTx port => Sys2Proof.Machine.execFrameTx port s
  | .meterTick => Sys2Proof.Machine.execMeterTick s
  | .shaperRefill => Sys2Proof.Machine.execShaperRefill s
  | .histSample => Sys2Proof.Machine.execHistSample s
  | .histCopy v => Sys2Proof.Machine.execHistCopy v s
  | .gclCommit port v => Sys2Proof.Machine.execGclCommit port v s
  | .gclChangeTime port => Sys2Proof.Machine.execGclChangeTime port s
  | .gclEntryChange port => Sys2Proof.Machine.execGclEntryChange port s
  | .ptpAnnounce m => Sys2Proof.Machine.execPtpAnnounce m s
  | .ptpSync m => Sys2Proof.Machine.execPtpSync m s
  | .ptpFollowUp m => Sys2Proof.Machine.execPtpFollowUp m s
  | .ptpDelayResp m => Sys2Proof.Machine.execPtpDelayResp m s
  | .syncTimeout => Sys2Proof.Machine.execSyncTimeout s
  | .announceTimeout => Sys2Proof.Machine.execAnnounceTimeout s
  | .ptpEnableWrite v => Sys2Proof.Machine.execPtpEnableWrite v s
  | .ptpTimeSecRead => Sys2Proof.Machine.execPtpTimeSecRead s
  | .ppsEdge => Sys2Proof.Machine.execPpsEdge s
  | .qpRead bar fn qp => Sys2Proof.Machine.execQpRead bar fn qp s
  | .qpWrite bar fn qp => Sys2Proof.Machine.execQpWrite bar fn qp s
  | .toInit bar fn qp => Sys2Proof.Machine.execToInit bar fn qp s
  | .toRtr bar fn qp => Sys2Proof.Machine.execToRtr bar fn qp s
  | .toRts bar fn qp => Sys2Proof.Machine.execToRts bar fn qp s
  | .toReset bar fn qp => Sys2Proof.Machine.execToReset bar fn qp s
  | .toError bar fn qp => Sys2Proof.Machine.execToError bar fn qp s
  | .create bar fn => Sys2Proof.Machine.execCreate bar fn s
  | .revoke bar fn reg => Sys2Proof.Machine.execRevoke bar fn reg s
  | .revocationEnd reg => Sys2Proof.Machine.execRevocationEnd reg s
  | .extentRevoke bar fn e => Sys2Proof.Machine.execExtentRevoke bar fn e s
  | .netModeWrite v => Sys2Proof.Machine.execNetModeWrite v s
  | .dirRoleWrite v => Sys2Proof.Machine.execDirRoleWrite v s
  | .spdmGetMeasurements transport msg => Sys2Proof.Machine.execSpdmGetMeasurements transport msg s
  | .spdmChallenge transport msg => Sys2Proof.Machine.execSpdmChallenge transport msg s
  | .spdmKeyExchange transport msg => Sys2Proof.Machine.execSpdmKeyExchange transport msg s
  | .spdmRequest transport session msg => Sys2Proof.Machine.execSpdmRequest transport session msg s
  | .getPqSignature transport msg => Sys2Proof.Machine.execGetPqSignature transport msg s
  | .keyRelease session msg => Sys2Proof.Machine.execKeyRelease session msg s
  | .slotLoaded slot => Sys2Proof.Machine.execSlotLoaded slot s
  | .keyErase session msg => Sys2Proof.Machine.execKeyErase session msg s
  | .getContextKey session msg => Sys2Proof.Machine.execGetContextKey session msg s
  | .spdmSessionTimeout session => Sys2Proof.Machine.execSpdmSessionTimeout session s
  | .authSlot slot session fn => Sys2Proof.Machine.execAuthSlot slot session fn s
  | .authCtx ctx session => Sys2Proof.Machine.execAuthCtx ctx session s
  | .eraseSlot slot => Sys2Proof.Machine.execEraseSlot slot s
  | .debug1 => Sys2Proof.Machine.execDebug1 s
  | .debug2 => Sys2Proof.Machine.execDebug2 s
  | .colophonActivationEnd => Sys2Proof.Machine.execColophonActivationEnd s
  | .drbgReseed ok => Sys2Proof.Machine.execDrbgReseed ok s
  | .fnVecWrite fn v => Sys2Proof.Machine.execFnVecWrite fn v s
  | .vfConfigWrite enable num => Sys2Proof.Machine.execVfConfigWrite enable num s
  | .functionLevelReset fn => Sys2Proof.Machine.execFunctionLevelReset fn s
  | .devReset v => Sys2Proof.Machine.execDevReset v s
  | .upstreamLinkDown link => Sys2Proof.Machine.execUpstreamLinkDown link s
  | .warmStart puf entropy => Sys2Proof.Machine.execWarmStart puf entropy s
  | .resetNAssert => Sys2Proof.Machine.execResetNAssert s
  | .coldStart bifPin clkMode smb i3c keys certs record puf entropy => Sys2Proof.Machine.execColdStart bifPin clkMode smb i3c keys certs record puf entropy s
  | .perstNChange link asserted => Sys2Proof.Machine.execPerstNChange link asserted s
  | .hbmTrainingDone failed => Sys2Proof.Machine.execHbmTrainingDone failed s
  | .t0ZeroingDone => Sys2Proof.Machine.execT0ZeroingDone s
  | .imageVerified image ok hash version => Sys2Proof.Machine.execImageVerified image ok hash version s
  | .configurationReady link => Sys2Proof.Machine.execConfigurationReady link s
  | .brownOut => Sys2Proof.Machine.execBrownOut s
  | .portReset port => Sys2Proof.Machine.execPortReset port s
  | .downstreamLinkEvent port up => Sys2Proof.Machine.execDownstreamLinkEvent port up s
  | .enumerationDone port kind width found vendor serial capacity => Sys2Proof.Machine.execEnumerationDone port kind width found vendor serial capacity s
  | .pchFailed pch => Sys2Proof.Machine.execPchFailed pch s
  | .upstreamReadCompletion swap ctx ring page result data => Sys2Proof.Machine.execUpstreamReadCompletion swap ctx ring page result data s
  | .watchdogExpiry n => Sys2Proof.Machine.execWatchdogExpiry n s
  | .spRestartWrite n v => Sys2Proof.Machine.execSpRestartWrite n v s
  | .spReady n => Sys2Proof.Machine.execSpReady n s
  | .hello src msg => Sys2Proof.Machine.execHello src msg s
  | .getInfo src msg => Sys2Proof.Machine.execGetInfo src msg s
  | .fwStage src msg => Sys2Proof.Machine.execFwStage src msg s
  | .fwVerify src msg => Sys2Proof.Machine.execFwVerify src msg s
  | .fwActivate src msg => Sys2Proof.Machine.execFwActivate src msg s
  | .portInfo src msg => Sys2Proof.Machine.execPortInfo src msg s
  | .traceSet src msg => Sys2Proof.Machine.execTraceSet src msg s
  | .sensors src msg => Sys2Proof.Machine.execSensors src msg s
  | .mailboxTimeout => Sys2Proof.Machine.execMailboxTimeout s
  | .mctpControl binding msg => Sys2Proof.Machine.execMctpControl binding msg s
  | .pldmRequest binding msg => Sys2Proof.Machine.execPldmRequest binding msg s
  | .sensorSample die temps currents => Sys2Proof.Machine.execSensorSample die temps currents s
  | .operatingPointChange avsOk => Sys2Proof.Machine.execOperatingPointChange avsOk s
  | .voltageInRegulation => Sys2Proof.Machine.execVoltageInRegulation s
  | .regulationTimeout => Sys2Proof.Machine.execRegulationTimeout s
  | .pmCtlWrite v => Sys2Proof.Machine.execPmCtlWrite v s
  | .idleEntry => Sys2Proof.Machine.execIdleEntry s
  | .msixHoldoffExpiry vm => Sys2Proof.Machine.execMsixHoldoffExpiry vm s
  | .msixUnmask fn entry => Sys2Proof.Machine.execMsixUnmask fn entry s
  | .cntCmd v => Sys2Proof.Machine.execCntCmd v s
  | .sigClear fn v => Sys2Proof.Machine.execSigClear fn v s
  | .errHeadWrite v => Sys2Proof.Machine.execErrHeadWrite v s
  | .bufferWindowAccess fn offset write data => Sys2Proof.Machine.execBufferWindowAccess fn offset write data s
  | .registerWrite bar fn offset v bytes => Sys2Proof.Machine.execRegisterWrite bar fn offset v bytes s
  | .demandLandingTimeout page => Sys2Proof.Machine.execDemandLandingTimeout page s
  | .tierWriteTimeout page => Sys2Proof.Machine.execTierWriteTimeout page s
  | .unitMarkedUnavailable kind index => Sys2Proof.Machine.execUnitMarkedUnavailable kind index s
  | .ideKm session msg => Sys2Proof.Machine.execIdeKm session msg s
  | .watchdogCountRestart n => Sys2Proof.Machine.execWatchdogCountRestart n s
  | .ethernetLinkChange port up => Sys2Proof.Machine.execEthernetLinkChange port up s

end Sys2Proof.Machine
end

