-- ==== Sys2Proof/Machine/Idle.lean ====
section
/-! DEFINITION. One cycle of the fabric clock, which passes while no command waits (log 1): CYCLE, network time and the stall cycles of
dispatched instructions (01 R21 to R23; 11 R353; 13 R417). -/
namespace Sys2Proof.Machine
open Sys2Proof

/-- A cycle in which a dispatched instruction waits on some causes: a stall cycle of the first of them, and a cycle of waiting on each (01 R21, R22). -/
def Flight.stallCycle (causes : List Cause) (x : Flight) : Flight :=
  match causes with
  | [] => x
  | c :: _ => if x.phase = .ended then x else { x with stalls := addStall x.stalls c 1, waited := causes.foldl (fun l c => addStall l c 1) x.waited }
/-- Network time gains 20 ÷ 21 ns, corrected by adj (11 R353, R354). -/
def Ptp.cycle (p : Ptp) : Ptp := { p with time := (Int.ofNat p.time + 20 * (256000000000 + p.adj)).toNat }
/-- Search credits in use, of pools 0 to 7 (01 R17; 10 R320). -/
def State.searchUsed (s : State) : Nat := (List.range 8).foldl (fun a i => a + (s.pool i).used) 0
/-- One cycle in which no command acts; none passes while everything is stopped. -/
def State.idle (s : State) : State :=
  if s.stopped then s
  else { s with
    now := s.now + 1, ptp := s.ptp.cycle, flights := s.flights.map fun (p : Nat × Flight) => (p.1, p.2.stallCycle (s.stallCauses p.2))
    net := { s.net with spineUse := s.net.spineUse + s.searchUsed } }

end Sys2Proof.Machine
end

