-- ==== Sys2Proof/Machine/Reads.lean ====
section
/-! DEFINITION. What the registers that hold no field of State read: identity, capability, availability, credit status and the counts of the
Spine, the Colophon, the windows, the configuration headers, and how requests are decoded (01 R19, R20; 04 R118; 06 R215, R216; 07 R232; 08 R273; 09 R298; 10 R334; 11 R358; 16 R476, R477, R482, R483). -/
namespace Sys2Proof.Machine
open Sys2Proof

/-! ## Credit status (01 R19, R20) -/

/-- Credit status register `i`: AVAIL, LIMIT, LOW, EMPTY_SEEN; 0 for a pool that the variant lacks or whose unit is unavailable. -/
def State.creditStatus (s : State) (i : Nat) : BitVec 64 :=
  if s.poolExists i then
    mkWord [(0, s.avail i), (16, poolLimit i), (32, poolLimit i - (s.pool i).lowUsed), (63, b2n (s.pool i).emptySeen)]
  else 0

/-! ## Identity and capabilities (16 R482) -/

/-- Die stepping, ID_DEVICE.STEPPING and the Revision ID (16 R476, R482). -/
abbrev stepping : Nat := 0x10
/-- ID_DEVICE. -/
def State.idDevice (s : State) : BitVec 64 :=
  mkWord [(0, if s.small then 2 else 1), (8, b2n s.sec.configOk), (16, stepping), (24, s.dev.package), (32, 1050)]
/-- ID_STATE. -/
def State.idState (s : State) : BitVec 64 :=
  mkWord [(0, b2n s.dev.operational), (8, 1), (16, if s.dev.operational then s.dev.minor else 0), (24, s.dev.lastReset), (32, s.dev.warmResets)]
/-- ID_STATE2. -/
def State.idState2 (s : State) : BitVec 64 := mkWord [(0, b2n s.dev.bifPin), (1, s.dev.clkMode), (8, s.dev.link1First)]
/-- CAP_COMPUTE. -/
def State.capCompute (s : State) : BitVec 64 := mkWord [(0, 16 * s.quires), (16, s.quires), (24, 8), (32, 16), (40, 128)]
/-- CAP_MEMORY. -/
def State.capMemory (s : State) : BitVec 64 :=
  mkWord [(0, if s.small then 4 else 8), (8, 64), (16, s.t0Sheets), (48, b2n !s.small), (49, b2n !s.small), (50, b2n s.small)]
/-- CAP_IO. -/
def State.capIo (s : State) : BitVec 64 := mkWord [(0, s.lanes), (8, if s.small then 0 else 64), (16, if s.small then 0 else 16), (24, 16)]
/-- CAP_CONTEXT. -/
def capContext : BitVec 64 := mkWord [(0, 1024), (16, 256), (32, 256), (48, 16384)]
/-- PS_CAPS (04 R118). -/
def State.psCaps (s : State) : BitVec 64 := mkWord [(0, s.t0Sheets)]
/-- SP_CAPS (06 R215). -/
def State.spCaps (s : State) : BitVec 64 :=
  mkWord [(0, 128), (8, 8192), (24, 8), (32, ((List.range 128).filter fun b => !(s.bank b).down).length)]
/-- AWL_CAPS (07 R232). -/
def awlCaps : BitVec 64 := mkWord [(0, 16), (8, 64), (16, 8), (24, 65536)]
/-- FQ_CAPS (08 R273). -/
def State.fqCaps (s : State) : BitVec 64 := mkWord [(0, 16 * s.quires), (16, s.quires), (24, 256), (36, 512)]
/-- CX_CAPS (09 R298). -/
def cxCaps : BitVec 64 := mkWord [(0, 1), (8, 64), (16, 16384), (32, 4096)]
/-- NET_CAPS (10 R334). -/
def State.netCaps (s : State) : BitVec 64 := mkWord [(0, s.lanes), (8, 16384), (24, 65536), (48, 4096)]
/-- EG_CAPS (11 R358). -/
def State.egCaps (s : State) : BitVec 64 := mkWord [(0, s.lanes), (8, 6), (16, 256), (32, 256)]

/-! ## Availability (16 R483) -/

/-- The word whose bit `i`, of `n`, says that unit `i` is there and not marked. -/
def availBits (n : Nat) (up : Nat → Bool) : Nat := (List.range n).foldl (fun a i => a + b2n (up i) * 2 ^ i) 0
/-- AVAIL_FOLIO_i. -/
def State.availFolio (s : State) (i : Nat) : BitVec 64 :=
  BitVec.ofNat 64 (availBits 64 fun j => decide (64 * i + j < 16 * s.quires) && !(s.dev.folioDown.get (64 * i + j) false))
/-- AVAIL_BANK_i. -/
def State.availBank (s : State) (i : Nat) : BitVec 64 := BitVec.ofNat 64 (availBits 64 fun j => !(s.bank (64 * i + j)).down)
/-- AVAIL_IO. -/
def State.availIo (s : State) : BitVec 64 :=
  mkWord [(0, availBits 16 fun p => !s.small && (s.port p).avail), (16, availBits 8 fun k => decide (k < s.lanes) && !(s.dev.laneDown.get k false)),
    (24, availBits 8 fun k => !(s.dev.pressDown.get k false)), (32, availBits 16 fun k => !(s.dev.awlDown.get k false)),
    (48, availBits 16 fun q => decide (q < s.quires) && !(s.dev.quireDown.get q false))]
/-- AVAIL_ENGINE. -/
def State.availEngine (s : State) : BitVec 64 := BitVec.ofNat 64 (availBits 9 fun e => !(s.dev.engineDown.get e false))
/-- AVAIL_HBM_s of a stack. -/
def State.availHbm (s : State) (stack : Nat) : BitVec 64 :=
  BitVec.ofNat 64 (availBits 64 fun j => decide (64 * stack + j < s.pchFitted) && !(s.dev.pchDown.get (64 * stack + j) false))

/-! ## Counts of the Spine (06 R215, R216) -/

/-- SP_STATUS: entries in the CAM and suspect rows. -/
def State.spStatus (s : State) : BitVec 64 :=
  mkWord [(0, (s.spine.rows.filter fun r => uValid r.2.unit && !uCont r.2.unit).length), (32, (s.spine.rows.filter fun r => r.2.suspect).length)]
/-- SP_OVF: K, ACTIVE_K and the entries of the overflow table. -/
def State.spOvf (s : State) : BitVec 64 :=
  mkWord [(0, s.spine.k), (8, s.activeK), (16, (s.spine.ovf.filter fun e => uValid e.2.unit).length)]
/-- SP_BANK_b. -/
def State.spBank (s : State) (b : Nat) : BitVec 64 :=
  let x := s.bank b
  mkWord [(0, x.width), (2, x.role), (3, b2n !x.down), (4, b2n x.cfgErr), (16, s.bankEntries b), (32, s.bankSuspect b)]
/-- SP_OVFCNT of a partition and row group. -/
def State.spOvfCnt (s : State) (part group : Nat) : BitVec 64 := mkWord [(0, s.ovfCount part group)]

/-! ## PS_FREE, PS_OLDEST, PS_RETIRED (04 R118) -/

/-- PS_FREE: FREE_SHEETS (log 130) and FREE_PAGES. -/
def State.psFree (s : State) : BitVec 64 :=
  mkWord [(0, s.freeSheets), (32, s.ps.limit - (s.ps.pages.filter fun p => p.1 < s.ps.limit ∧ p.2.state ≠ .free).length)]
/-- PS_RETIRED: objects that wait for their epoch. -/
def State.psRetired (s : State) : Nat := s.ps.retired.foldl (fun a r => a + r.count) 0

/-! ## Colophon, errors, firmware (12 R389, R391; 13 R424; 14 R446) -/

/-- The Colophon mailbox block reads: 0 from the assertion of a reset of level 5 or 6 until the firmware runs again, or has failed (12 R364, R389). -/
def State.coReads (s : State) : Bool :=
  !s.dev.draining && match s.sec.state with | .running | .activating => true | .rom => s.sec.fwFailed | .reset => false
/-- CO_CAPS: slots, sessions, PEN. -/
def State.coCaps (s : State) : BitVec 64 := if s.coReads then mkWord [(0, 256), (12, 8), (32, Config.pen.toNat)] else 0
/-- CO_STATUS. -/
def State.coStatus (s : State) : BitVec 64 :=
  let c := s.sec
  let st := match c.state with | .reset => 0 | .rom => 1 | .running => 2 | .activating => 3
  if s.coReads then
    mkWord [(0, st), (3, b2n c.identityOk), (4, b2n c.configOk), (5, b2n c.entropyOk), (6, b2n c.ide), (8, c.debug), (16, s.sessionsOpen), (32, c.activations)]
  else 0
/-- CO_MBOX_STATUS: DONE and RSP_LEN. A request is answered within the command that submits it, so BUSY reads 0 between commands (log 31). -/
def State.coMboxStatus (s : State) : BitVec 64 := if s.coReads then mkWord [(0, b2n s.sec.mboxDone), (8, s.sec.rspLen)] else 0
/-- CO_CMD_STATUS: STATUS, and BUSY in the same way. -/
def State.coCmdStatus (s : State) : BitVec 64 := if s.coReads then mkWord [(16, s.sec.cmdStatus.toNat)] else 0
/-- ERR_CAPS and FW_CAPS. -/
def errCaps : BitVec 64 := mkWord [(0, 1024)]
def fwCaps : BitVec 64 := mkWord [(0, 1), (8, 0), (16, 2048)]
/-- Instructions of the JTAG port, and the one that acts: EXTEST is BYPASS but while RESET_N is asserted (12 R384; log 158). -/
inductive Jtag where
  | bypass | idcode | samplePreload | extest
deriving DecidableEq, Repr
def State.jtagActs (s : State) (i : Jtag) : Jtag := if i = .extest ∧ !s.dev.held then .bypass else i
/-- What the debug level opens to JTAG: the service processors from 1 on, the Colophon, the Folios and T0 at 2 (12 R384). -/
def State.jtagSps (s : State) : Bool := decide (1 ≤ s.sec.debug)
def State.jtagAll (s : State) : Bool := decide (s.sec.debug = 2)

/-! ## The function window (16 R484, R485, R489, R490) -/

/-- FN_IDENT of function `f`. -/
def State.fnIdent (s : State) (f : Nat) : BitVec 64 :=
  let x := s.fn f
  mkWord [(0, f), (8, 1), (16, if s.dev.operational then s.dev.minor else 0), (24, b2n s.dev.operational), (28, b2n x.orphaned), (29, s.linkOf f), (32, x.vecCount)]
/-- VM_v, and FVM_i of function `f`: 0 beyond its vectors. -/
def State.vmWord (s : State) (v : Nat) : BitVec 64 := let x := s.vms.get v {}; mkWord [(0, x.holdoff), (16, x.count), (32, x.pending)]
def State.fvmWord (s : State) (f i : Nat) : BitVec 64 := if i < (s.fn f).vecCount then s.vmWord ((s.fn f).vecBase + i) else 0
/-- CW_STATUS and CW_FAULT of context `c` in the window of function `f`: 0 where the context is not its own. -/
def State.cwStatus (s : State) (f c : Nat) : BitVec 64 :=
  let x := s.ctx c
  if x.function = f then mkWord [(0, x.state.num), (4, b2n x.resident), (16, x.ctail), (32, x.chead), (48, x.faultStatus.toNat)] else 0
def State.cwFault (s : State) (f c : Nat) : BitVec 64 :=
  let x := s.ctx c
  if x.function = f then mkWord [(0, x.faultTag.toNat), (16, x.faultRing), (19, x.faultMore)] else 0

/-! ## Outcomes of reads (16 R480) -/

/-- Bytes of a read of `n` bytes at `off` of BAR0 or BAR2, whose 8-byte registers read `word`: of 4 or 8 bytes naturally aligned, or of a multiple of 8
8-aligned; every other reads 0. -/
def readOutcome (word : Nat → BitVec 64) (off n : Nat) : Bytes :=
  if n = 4 ∧ off % 4 = 0 then leBytes 4 ((word (off / 8 * 8)).toNat / 2 ^ (8 * (off % 8)))
  else if n % 8 = 0 ∧ off % 8 = 0 then (List.range (n / 8)).flatMap fun i => leBytes 8 (word (off + 8 * i)).toNat
  else zeros n
/-- The answer to an AtomicOp in BAR0 or BAR2: Unsupported Request. -/
abbrev atomicAnswer : Nat := ansUr

/-! ## Configuration headers and decoding (16 R475 to R478, R484; log 144, log 160) -/

/-- Class code, Interrupt Pin, First VF Offset and VF Stride: one value for every function. -/
abbrev classCode : Nat := 0x120000
abbrev interruptPin : Nat := 0
abbrev firstVfOffset : Nat := 1
abbrev vfStride : Nat := 1
/-- The values of a function's configuration header that the spec fixes, with its ARI function number on its link. -/
structure CfgHeader where
  vendor : BitVec 16
  device : Nat
  class_ : Nat
  revision : Nat
  intPin : Nat
  /-- the ARI capability is present -/
  ari : Bool
  /-- function number that the link shows -/
  ariFn : Nat
deriving DecidableEq, Repr
/-- The header of device function `fn`: on link 1 it appears as ARI function fn - LINK1_FIRST. -/
def State.cfgHeader (s : State) (fn : Nat) : CfgHeader :=
  { vendor := Config.vendorId, device := if fn = 0 then 0x0816 else 0x0817, class_ := classCode, revision := stepping, intPin := interruptPin
    ari := true, ariFn := if s.linkOf fn = 1 then fn - s.dev.link1First else fn }
/-- Link 1's function 0 while device function LINK1_FIRST does not exist: the placeholder, without BAR or MSI-X; its ARI Next Function Number names the
lowest existing function of the link, 0 when there is none. -/
def State.placeholder (s : State) : Option (CfgHeader × Nat) :=
  if s.dev.bifPin && !s.fnPresent s.dev.link1First then
    let next := (List.range 256).find? fun f => decide (s.dev.link1First < f) && s.fnPresent f
    some ({ s.cfgHeader s.dev.link1First with device := 0x0818, ariFn := 0 }, (next.map (· - s.dev.link1First)).getD 0)
  else none
/-- The existing functions that a link carries, as ARI functions of it in ascending order, the placeholder first where it stands for function 0. -/
def State.ariFns (s : State) (link : Nat) : List Nat :=
  let fs := (List.range 256).filter fun f => s.fnPresent f && s.linkOf f == link
  if link = 0 then fs else (if s.placeholder.isSome then [0] else []) ++ fs.map (· - s.dev.link1First)
/-- ARI Next Function Number of an ARI function of a link; 0 ends the chain. -/
def State.ariNext (s : State) (link f : Nat) : Nat := ((s.ariFns link).find? fun g => decide (f < g)).getD 0
/-- What answers a configuration request to ARI function `rid` of a link: Retry Status before it is configuration-ready, a device function, the placeholder,
or Unsupported Request: for a function that does not exist, or that the other link carries. -/
inductive CfgTarget where
  | retry | function (fn : Nat) | placeholder | unsupported
deriving DecidableEq, Repr
def State.cfgTarget (s : State) (link rid : Nat) : CfgTarget :=
  let f := if link = 0 then rid else s.dev.link1First + rid
  if !s.dev.cfgOpen link then .retry
  else if 1 < link ∨ (link = 1 ∧ s.dev.bifPin = false) then .unsupported
  else if f < 256 ∧ s.fnPresent f ∧ s.linkOf f = link then .function f
  else if link = 1 ∧ rid = 0 ∧ s.placeholder.isSome then .placeholder
  else .unsupported
/-- What a 64-bit BAR reads: the address with its attributes, BAR4 prefetchable, BAR0 and BAR2 not; the expansion ROM BAR reads 0. -/
def barReads (addr : Nat) (prefetchable : Bool) : Nat := addr + 4 + 8 * b2n prefetchable
abbrev romBarReads : Nat := 0
/-- What a memory request at an address on a link reaches: the byte of a function's BAR, a range that reads 0 and ignores writes, or nothing: Unsupported
Request. -/
inductive MemTarget where
  | window (bar fn offset : Nat) | blank | unsupported
deriving DecidableEq, Repr
/-- The offset of an address in a window of `size` bytes at `base`. -/
def inWindow (base size addr : Nat) : Option Nat := if base ≤ addr ∧ addr < base + size then some (addr - base) else none
/-- Decodes an address by the BARs of a header of its own. -/
def State.decodeOwn (s : State) (f addr : Nat) : Option MemTarget :=
  let x := s.fn f
  if !x.memEn then none
  else
    ((if f = 0 then (inWindow x.bar0 bar0Size addr).map (MemTarget.window 0 f) else none) <|> (inWindow x.bar2 bar2Size addr).map (MemTarget.window 2 f)) <|>
      (inWindow x.bar4 bar4Size addr).map (MemTarget.window 4 f)
/-- Decodes an address by the apertures of the VF BARs: function n lies n - 1 windows on; the ranges of link-1 functions are blank. -/
def State.decodeVf (s : State) (addr : Nat) : Option MemTarget :=
  let one (bar base size : Nat) : Option MemTarget :=
    (inWindow base (size * s.dev.numVfs) addr).map fun o => if s.linkOf (o / size + 1) = 0 then .window bar (o / size + 1) (o % size) else .blank
  if s.dev.vfMem && s.dev.vfEnable then one 2 s.dev.vfBar2 bar2Size <|> one 4 s.dev.vfBar4 bar4Size else none
/-- Decodes an address on a link. -/
def State.decode (s : State) (link addr : Nat) : MemTarget :=
  if link = 0 then (s.decodeOwn 0 addr <|> s.decodeVf addr).getD .unsupported
  else (((List.range 256).filter fun f => s.fnPresent f && s.linkOf f == 1).findSome? fun f => s.decodeOwn f addr).getD .unsupported
/-- The MSI-X capability of function `f`: BIR, table offset, PBA offset, Table Size. -/
structure MsixCap where
  bir : Nat := 2
  table : Nat := 0x8000
  pba : Nat := 0x10000
  size : Nat
deriving DecidableEq, Repr
def State.msixCap (s : State) (f : Nat) : MsixCap := { size := (s.fn f).vecCount - 1 }
/-- Routing ID of virtual function `n` from that of the physical function, and the VF Device ID of the SR-IOV capability. -/
def vfRouting (pf n : Nat) : Nat := pf + firstVfOffset + vfStride * (n - 1)
abbrev vfDeviceId : Nat := 0x0817

end Sys2Proof.Machine
end

