-- ==== Sys2Proof/Safety.lean ====
section
/-! DEFINITION. The terms that statements use: the parts of the state, what a step leaves alone, what a dispatched instruction needs to act, the
invariants, and a run that never stops. -/
namespace Sys2Proof.Machine
open Sys2Proof

/-- The parts of the state, one for each of its fields. -/
inductive Part where
  | pending | free | now | t0 | dev | ctxs | flights | nextFlight | slice | lockUs | pools | fns | vms | ps | tier | margin | leadMax | gaths | spine | awl | press | fq | net | eg | ptp | sec | err | fw | pwr | out
deriving DecidableEq, Repr

/-- Two states agree on a part. -/
def Part.same (s t : State) : Part → Prop
  | .pending => t.pending = s.pending
  | .free => t.free = s.free
  | .now => t.now = s.now
  | .t0 => t.t0 = s.t0
  | .dev => t.dev = s.dev
  | .ctxs => t.ctxs = s.ctxs
  | .flights => t.flights = s.flights
  | .nextFlight => t.nextFlight = s.nextFlight
  | .slice => t.slice = s.slice
  | .lockUs => t.lockUs = s.lockUs
  | .pools => t.pools = s.pools
  | .fns => t.fns = s.fns
  | .vms => t.vms = s.vms
  | .ps => t.ps = s.ps
  | .tier => t.tier = s.tier
  | .margin => t.margin = s.margin
  | .leadMax => t.leadMax = s.leadMax
  | .gaths => t.gaths = s.gaths
  | .spine => t.spine = s.spine
  | .awl => t.awl = s.awl
  | .press => t.press = s.press
  | .fq => t.fq = s.fq
  | .net => t.net = s.net
  | .eg => t.eg = s.eg
  | .ptp => t.ptp = s.ptp
  | .sec => t.sec = s.sec
  | .err => t.err = s.err
  | .fw => t.fw = s.fw
  | .pwr => t.pwr = s.pwr
  | .out => t.out = s.out

/-- From `s` to `t`, nothing changes outside the parts `l`. -/
def OnlyChanges (l : List Part) (s t : State) : Prop := ∀ p : Part, p ∉ l → p.same s t

/-- Every byte of T0 reads as before. -/
def SameT0 (s t : State) : Prop := ∀ a : Nat, memRead t.t0 a = memRead s.t0 a
/-- Every byte of T0 outside `n` bytes at `lo` reads as before. -/
def SameT0But (lo n : Nat) (s t : State) : Prop := ∀ a : Nat, (a < lo ∨ lo + n ≤ a) → memRead t.t0 a = memRead s.t0 a

/-- While RESET_N is asserted, and in a brown-out, the machine is what its reset left: every register at its reset value; what outlives a reset (15 R451,
R460; 13 R408) and FAULT_N are all that can differ from the reset state. -/
def State.heldAtReset (s : State) : Prop := (s.dev.held = true → s = s.outlive) ∧ (s.dev.held = false → s.dev.brownOut = true → s = s.brown)
/-- T0 is listed in its canonical form. -/
def State.t0Canonical (s : State) : Prop := Memory.wf s.t0 = true

/-- Flight `f` is `x`, an instruction with opcode `op` that has not ended and that ordering allows to begin (02 R54); the device runs,
and no engine that it needs is marked unavailable (13 R412). -/
structure Acts (s : State) (f op : Nat) (x : Flight) : Prop where
  runs : s.stopped = false
  here : s.flight? f = some x
  code : wOpcode x.word = op
  live : x.phase ≠ .ended
  free : s.mayBegin f x = true
  up : s.enginesUp x = true

/-- In `t`, flight `f` has ended with a status and a result. -/
def Ends (t : State) (f : Nat) (st : BitVec 16) (res : BitVec 64) : Prop :=
  ∃ y, t.flight? f = some y ∧ y.phase = .ended ∧ y.status = st ∧ y.result = res

/-- The registers of every context after flight `x` has ended with status `st` and value `v`: the destination of a result that is written (02 R50, 03 R108), and
no other register of any context, changes; a mirrored Vanged request writes none (10 R318). -/
def RegsAfter (s t : State) (x : Flight) (st : BitVec 16) (v : BitVec 64) : Prop :=
  ∀ c n : Nat, (t.ctx c).reg n =
    if x.mirror = none ∧ stClass st ≤ 1 ∧ c = x.ctx ∧ n = wSelD x.word ∧ n < 16 then v else (s.ctx c).reg n
/-- From `s` to `t`, flight `f`, which was `x`, has ended with status `st` and value `v`, which is its RESULT where R64 gives that status one, and its register is written. -/
def Completed (s t : State) (f : Nat) (x : Flight) (st : BitVec 16) (v : BitVec 64) : Prop := Ends t f st (resultOf st v) ∧ RegsAfter s t x st v

/-- From `s` to `t`, flight `f`, which was `x`, has ended with status `st` as its context takes it: a refusal enters an empty latch of its ring and no other
(02 R53); a fault stops an ACTIVE context, with nothing left fetched, and the FAULT fields name the instruction (02 R34, R61); of a context that is STOPPED
already only FAULT_MORE rises, up to 255. A mirrored Vanged request does none of this (10 R318). -/
def CtxEnds (s t : State) (f : Nat) (x : Flight) (st : BitVec 16) : Prop :=
  let c := s.ctx x.ctx
  let d := t.ctx x.ctx
  x.mirror = none →
    (d.ring x.ring).latch = (if stClass st = 2 ∧ (c.ring x.ring).latch = 0 then st else (c.ring x.ring).latch) ∧
    (stClass st = 3 → c.state = .active → d.state = .stopped ∧ d.faultStatus = st ∧ d.faultTag = wTag x.word ∧ d.faultRing = x.ring ∧
      (∀ n, (d.ring n).fetched = []) ∧ (t.flight f).stop = true) ∧
    (stClass st = 3 → c.state = .stopped → d.state = .stopped ∧ d.faultMore = min (c.faultMore + 1) 255 ∧ d.faultStatus = c.faultStatus ∧
      d.faultTag = c.faultTag ∧ d.faultRing = c.faultRing ∧ (t.flight f).stop = x.stop) ∧
    (stClass st ≠ 3 → d.state = c.state)

/-- The binary descent of 06 R195 over `n` blocks, `i` probes still to run, `m` blocks matched so far.
`hit b` says whether the probe of block `b` hits. -/
def descentOf (hit : Nat → Bool) (n : Nat) : Nat → Nat → Nat
  | 0, m => m
  | i + 1, m => let t := min (m + 2 ^ i) n; descentOf hit n i (if hit (t - 1) then t else m)
/-- From `s` to `t`, one message `m` has been added to the egress queue of queue pair `q` for service `svc` (10 R317). -/
def Sends (s t : State) (q svc : Nat) (m : Bytes) : Prop :=
  let k := queueIdx (s.qp q).port (s.qp q).subscriber (s.service q svc)
  ∃ fs : List Frame, t.eg.queues.get k [] = s.eg.queues.get k [] ++ fs ∧ fs.flatMap (·.payload) = m
/-- From `s` to `t`, one message that is the response to request `n`, of type `typ` with status `st` and RESULT `res`, has been added to the egress
queue of queue pair `q` for its service (10 R317, R318). -/
def Answers (s t : State) (q typ n : Nat) (st : BitVec 16) (res : BitVec 64) : Prop :=
  let k := queueIdx (s.qp q).port (s.qp q).subscriber (s.service q (vangedService typ))
  ∃ fs : List Frame, t.eg.queues.get k [] = s.eg.queues.get k [] ++ fs ∧
    let m := fs.flatMap (·.payload)
    let h := ofLe (m.take 32)
    fld h 8 8 = typ ∧ fld h 16 1 = 1 ∧ fld h 32 32 = n ∧ fld (ofLe ((m.drop 32).take 8)) 16 16 = st.toNat ∧ ofLe ((m.drop 40).take 8) = res.toNat
/-- A response with any RESULT. -/
def Responds (s t : State) (q typ n : Nat) (st : BitVec 16) : Prop := ∃ res, Answers s t q typ n st res

/-- Families of commands, as the statements group them. -/
inductive Family where
  | control | index | sequence | attention | context | tier | fence | rdma | vanged | netRegister | time | security | management | device
deriving DecidableEq, Repr

end Sys2Proof.Machine
namespace Sys2Proof
open Machine

/-- The family of a command. -/
def Instr.family : Instr → Family
  | .commandRingTailDoorbell _ _ _ _ _ _ => .control
  | .completionHeadDoorbell _ _ _ _ _ _ => .control
  | .instructionFetch _ _ => .control
  | .instructionDispatch _ _ => .control
  | .instructionComplete _ => .control
  | .nop _ => .control
  | .fence _ => .control
  | .wait _ => .control
  | .waitSatisfied _ => .control
  | .waitTimeout _ => .control
  | .signal _ => .control
  | .set _ => .control
  | .addx _ => .control
  | .branch _ => .control
  | .loop _ => .control
  | .lookup _ => .index
  | .lookupRecordRead _ => .index
  | .overflowWalk _ => .index
  | .attach _ => .sequence
  | .fork _ => .sequence
  | .release _ => .sequence
  | .publish _ => .index
  | .retract _ => .index
  | .append _ => .sequence
  | .seqAppendAtStepBoundary _ => .sequence
  | .seal _ => .sequence
  | .stage _ => .sequence
  | .hint _ => .sequence
  | .demote _ => .sequence
  | .deliver _ => .sequence
  | .gsetCreate _ => .attention
  | .gsetUpdate _ => .attention
  | .gsetDissolve _ => .attention
  | .step _ => .attention
  | .attend _ => .attention
  | .combine _ => .attention
  | .loadw _ => .attention
  | .digest _ => .attention
  | .awaitLanding _ => .control
  | .awaitTimeout _ => .control
  | .contextEnable _ => .context
  | .contextReset _ => .context
  | .contextResetFinished _ => .context
  | .resume _ _ _ => .context
  | .slotGrant => .context
  | .contextSwapOut _ => .context
  | .schedulerTick => .context
  | .creditGrant _ => .context
  | .quireGrant => .context
  | .heartbeat _ _ => .context
  | .heartbeatTimeout _ => .context
  | .orphanHoldExpired _ => .context
  | .leaseExpired _ _ => .context
  | .stepHoldExpired _ => .attention
  | .kettleDoorbell _ _ _ => .attention
  | .gathererMoveStart => .tier
  | .inwardMoveLanded _ _ => .tier
  | .inwardMoveFailed _ _ => .tier
  | .tierReadTimeout _ => .tier
  | .outwardMoveDone _ => .tier
  | .outwardWriteFail _ => .tier
  | .reclaimPass => .tier
  | .pressSeal _ => .sequence
  | .pageSealed _ => .sequence
  | .chainHashFormed => .sequence
  | .weightPass _ _ => .attention
  | .retirementFree => .sequence
  | .awlTokenScan _ => .fence
  | .awlLoad _ _ _ => .fence
  | .awlUnload _ _ => .fence
  | .awlBind _ _ _ _ => .fence
  | .awlUnbind _ _ _ _ => .fence
  | .spineInsertion => .index
  | .spineCarry => .index
  | .spineWithdrawal => .index
  | .scrubRow => .index
  | .probeSearch _ => .index
  | .spBankWrite _ _ => .index
  | .spOvfWrite _ => .index
  | .dirKeyFlush _ => .index
  | .dirKeyMessage _ => .index
  | .dirLookup _ => .index
  | .dirLookupResponse _ => .index
  | .dirLookupTimeout _ => .index
  | .commit _ => .device
  | .layoutInitDone => .device
  | .governorInterval _ _ => .device
  | .loadInterval _ _ _ => .device
  | .frameRx _ _ => .rdma
  | .inboundRdmaWrite _ => .rdma
  | .inboundSend _ => .rdma
  | .inboundRdmaReadRequest _ => .rdma
  | .inboundAcknowledge _ => .rdma
  | .inboundNak _ => .rdma
  | .inboundReadResponse _ => .rdma
  | .retransmitTimeout _ _ => .rdma
  | .reorderGapTimeout _ => .rdma
  | .messageTimeout _ _ => .rdma
  | .vangedLookup _ => .vanged
  | .vangedGetPages _ => .vanged
  | .putPages _ => .vanged
  | .vangedPublish _ => .vanged
  | .vangedAttend _ => .vanged
  | .vangedStep _ => .vanged
  | .extentGrant _ => .vanged
  | .extentReturn _ => .vanged
  | .extentWithdrawn _ => .vanged
  | .vangedLoad _ => .vanged
  | .frameTx _ => .time
  | .meterTick => .time
  | .shaperRefill => .time
  | .histSample => .time
  | .histCopy _ => .time
  | .gclCommit _ _ => .time
  | .gclChangeTime _ => .time
  | .gclEntryChange _ => .time
  | .ptpAnnounce _ => .time
  | .ptpSync _ => .time
  | .ptpFollowUp _ => .time
  | .ptpDelayResp _ => .time
  | .syncTimeout => .time
  | .announceTimeout => .time
  | .ptpEnableWrite _ => .time
  | .ptpTimeSecRead => .time
  | .ppsEdge => .time
  | .qpRead _ _ _ => .netRegister
  | .qpWrite _ _ _ => .netRegister
  | .toInit _ _ _ => .netRegister
  | .toRtr _ _ _ => .netRegister
  | .toRts _ _ _ => .netRegister
  | .toReset _ _ _ => .netRegister
  | .toError _ _ _ => .netRegister
  | .create _ _ => .netRegister
  | .revoke _ _ _ => .netRegister
  | .revocationEnd _ => .netRegister
  | .extentRevoke _ _ _ => .netRegister
  | .netModeWrite _ => .netRegister
  | .dirRoleWrite _ => .netRegister
  | .spdmGetMeasurements _ _ => .security
  | .spdmChallenge _ _ => .security
  | .spdmKeyExchange _ _ => .security
  | .spdmRequest _ _ _ => .security
  | .getPqSignature _ _ => .security
  | .keyRelease _ _ => .security
  | .slotLoaded _ => .security
  | .keyErase _ _ => .security
  | .getContextKey _ _ => .security
  | .spdmSessionTimeout _ => .security
  | .authSlot _ _ _ => .security
  | .authCtx _ _ => .security
  | .eraseSlot _ => .security
  | .debug1 => .security
  | .debug2 => .security
  | .colophonActivationEnd => .security
  | .drbgReseed _ => .security
  | .fnVecWrite _ _ => .context
  | .vfConfigWrite _ _ => .context
  | .functionLevelReset _ => .context
  | .devReset _ => .device
  | .upstreamLinkDown _ => .device
  | .warmStart _ _ => .device
  | .resetNAssert => .device
  | .coldStart _ _ _ _ _ _ _ _ _ => .device
  | .perstNChange _ _ => .device
  | .hbmTrainingDone _ => .device
  | .t0ZeroingDone => .device
  | .imageVerified _ _ _ _ => .device
  | .configurationReady _ => .device
  | .brownOut => .device
  | .portReset _ => .management
  | .downstreamLinkEvent _ _ => .management
  | .enumerationDone _ _ _ _ _ _ _ => .management
  | .pchFailed _ => .management
  | .upstreamReadCompletion _ _ _ _ _ _ => .control
  | .watchdogExpiry _ => .management
  | .spRestartWrite _ _ => .management
  | .spReady _ => .management
  | .hello _ _ => .management
  | .getInfo _ _ => .management
  | .fwStage _ _ => .management
  | .fwVerify _ _ => .management
  | .fwActivate _ _ => .management
  | .portInfo _ _ => .management
  | .traceSet _ _ => .management
  | .sensors _ _ => .management
  | .mailboxTimeout => .management
  | .mctpControl _ _ => .management
  | .pldmRequest _ _ => .management
  | .sensorSample _ _ _ => .device
  | .operatingPointChange _ => .device
  | .voltageInRegulation => .device
  | .regulationTimeout => .device
  | .pmCtlWrite _ => .device
  | .idleEntry => .device
  | .msixHoldoffExpiry _ => .context
  | .msixUnmask _ _ => .context
  | .cntCmd _ => .context
  | .sigClear _ _ => .context
  | .errHeadWrite _ => .context
  | .bufferWindowAccess _ _ _ _ => .device
  | .registerWrite _ _ _ _ _ => .device
  | .demandLandingTimeout _ => .tier
  | .tierWriteTimeout _ => .tier
  | .unitMarkedUnavailable _ _ => .management
  | .ideKm _ _ => .security
  | .watchdogCountRestart _ => .management
  | .ethernetLinkChange _ _ => .netRegister

/-- The parts of the state that a command may change; every other part it leaves as it was. -/
def Instr.touches : Instr → List Part
  | .commandRingTailDoorbell _ _ _ _ _ _ => [.ctxs, .fns, .vms, .err, .fw, .out]
  | .completionHeadDoorbell _ _ _ _ _ _ => [.ctxs, .fns, .vms, .err, .fw, .out]
  | .instructionFetch _ _ => [.ctxs, .flights, .nextFlight, .fns, .vms, .err, .fw, .out]
  | .instructionDispatch _ _ => [.free, .ctxs, .flights, .nextFlight, .pools, .fns, .vms, .ps, .fq, .net, .err, .fw, .pwr, .out]
  | .instructionComplete _ => [.free, .t0, .ctxs, .flights, .pools, .fns, .vms, .ps, .tier, .gaths, .fq, .net, .eg, .sec, .err, .fw, .out]
  | .nop _ => [.free, .ctxs, .flights, .pools, .fns, .vms, .ps, .fq, .net, .err, .fw, .pwr, .out]
  | .fence _ => [.free, .ctxs, .flights, .pools, .fns, .vms, .ps, .fq, .net, .err, .fw, .pwr, .out]
  | .wait _ => [.free, .ctxs, .flights, .pools, .fns, .vms, .ps, .fq, .net, .err, .fw, .pwr, .out]
  | .waitSatisfied _ => [.free, .ctxs, .flights, .pools, .fns, .vms, .ps, .fq, .net, .err, .fw, .pwr, .out]
  | .waitTimeout _ => [.free, .ctxs, .flights, .pools, .fns, .vms, .ps, .fq, .net, .err, .fw, .pwr, .out]
  | .signal _ => [.free, .ctxs, .flights, .pools, .fns, .vms, .ps, .fq, .net, .err, .fw, .pwr, .out]
  | .set _ => [.free, .ctxs, .flights, .pools, .fns, .vms, .ps, .fq, .net, .err, .fw, .pwr, .out]
  | .addx _ => [.free, .ctxs, .flights, .pools, .fns, .vms, .ps, .fq, .net, .err, .fw, .pwr, .out]
  | .branch _ => [.free, .ctxs, .flights, .pools, .fns, .vms, .ps, .fq, .net, .err, .fw, .pwr, .out]
  | .loop _ => [.free, .ctxs, .flights, .pools, .fns, .vms, .ps, .fq, .net, .err, .fw, .pwr, .out]
  | .lookup _ => [.free, .t0, .ctxs, .flights, .pools, .fns, .vms, .ps, .fq, .net, .eg, .err, .fw, .pwr, .out]
  | .lookupRecordRead _ => [.free, .t0, .ctxs, .flights, .pools, .fns, .vms, .ps, .spine, .fq, .net, .eg, .err, .fw, .pwr, .out]
  | .overflowWalk _ => [.flights, .pools, .fns, .vms, .err, .fw, .out]
  | .attach _ => [.free, .ctxs, .flights, .pools, .fns, .vms, .ps, .tier, .awl, .fq, .net, .err, .fw, .pwr, .out]
  | .fork _ => [.free, .t0, .ctxs, .flights, .pools, .fns, .vms, .ps, .tier, .awl, .press, .fq, .net, .err, .fw, .pwr, .out]
  | .release _ => [.free, .ctxs, .flights, .pools, .fns, .vms, .ps, .tier, .awl, .fq, .net, .err, .fw, .pwr, .out]
  | .publish _ => [.free, .ctxs, .flights, .pools, .fns, .vms, .ps, .tier, .spine, .fq, .net, .err, .fw, .pwr, .out]
  | .retract _ => [.free, .ctxs, .flights, .pools, .fns, .vms, .ps, .tier, .spine, .fq, .net, .err, .fw, .pwr, .out]
  | .append _ => [.free, .t0, .ctxs, .flights, .pools, .fns, .vms, .ps, .tier, .gaths, .awl, .press, .fq, .net, .err, .fw, .pwr, .out]
  | .seqAppendAtStepBoundary _ => [.free, .t0, .ctxs, .flights, .pools, .fns, .vms, .ps, .gaths, .awl, .press, .fq, .net, .err, .fw, .pwr, .out]
  | .seal _ => [.free, .ctxs, .flights, .pools, .fns, .vms, .ps, .press, .fq, .net, .err, .fw, .pwr, .out]
  | .stage _ => [.free, .ctxs, .flights, .pools, .fns, .vms, .ps, .tier, .fq, .net, .err, .fw, .pwr, .out]
  | .hint _ => [.free, .ctxs, .flights, .pools, .fns, .vms, .ps, .tier, .fq, .net, .err, .fw, .pwr, .out]
  | .demote _ => [.free, .ctxs, .flights, .pools, .fns, .vms, .ps, .tier, .fq, .net, .err, .fw, .pwr, .out]
  | .deliver _ => [.free, .t0, .ctxs, .flights, .pools, .fns, .vms, .ps, .tier, .fq, .net, .eg, .err, .fw, .pwr, .out]
  | .gsetCreate _ => [.free, .ctxs, .flights, .pools, .fns, .vms, .ps, .tier, .gaths, .fq, .net, .err, .fw, .pwr, .out]
  | .gsetUpdate _ => [.free, .t0, .ctxs, .flights, .pools, .fns, .vms, .ps, .tier, .gaths, .awl, .press, .fq, .net, .err, .fw, .pwr, .out]
  | .gsetDissolve _ => [.free, .t0, .ctxs, .flights, .pools, .fns, .vms, .ps, .tier, .gaths, .awl, .press, .fq, .net, .err, .fw, .pwr, .out]
  | .step _ => [.free, .t0, .ctxs, .flights, .pools, .fns, .vms, .ps, .tier, .gaths, .awl, .press, .fq, .net, .err, .fw, .pwr, .out]
  | .attend _ => [.free, .t0, .ctxs, .flights, .pools, .fns, .vms, .ps, .tier, .gaths, .fq, .net, .eg, .err, .fw, .pwr, .out]
  | .combine _ => [.free, .t0, .ctxs, .flights, .pools, .fns, .vms, .ps, .fq, .net, .eg, .err, .fw, .pwr, .out]
  | .loadw _ => [.free, .ctxs, .flights, .pools, .fns, .vms, .ps, .tier, .gaths, .fq, .net, .err, .fw, .pwr, .out]
  | .digest _ => [.free, .t0, .ctxs, .flights, .pools, .fns, .vms, .ps, .fq, .net, .eg, .err, .fw, .pwr, .out]
  | .awaitLanding _ => [.ctxs, .flights]
  | .awaitTimeout _ => [.free, .ctxs, .flights, .pools, .fns, .vms, .ps, .fq, .net, .err, .fw, .pwr, .out]
  | .contextEnable _ => [.ctxs, .awl, .sec, .fw]
  | .contextReset _ => [.free, .t0, .ctxs, .flights, .pools, .fns, .vms, .ps, .tier, .gaths, .spine, .awl, .press, .fq, .net, .eg, .sec, .err, .fw, .pwr, .out]
  | .contextResetFinished _ => [.free, .t0, .ctxs, .flights, .pools, .fns, .vms, .ps, .tier, .gaths, .spine, .awl, .press, .fq, .net, .eg, .sec, .err, .fw, .pwr, .out]
  | .resume _ _ _ => [.ctxs, .fw]
  | .slotGrant => [.ctxs]
  | .contextSwapOut _ => [.ctxs]
  | .schedulerTick => [.ctxs]
  | .creditGrant _ => [.flights, .pools, .tier]
  | .quireGrant => [.flights, .fq, .fw, .pwr]
  | .heartbeat _ _ => [.fns]
  | .heartbeatTimeout _ => [.free, .ctxs, .flights, .pools, .fns, .vms, .ps, .fq, .net, .err, .fw, .pwr, .out]
  | .orphanHoldExpired _ => [.ctxs, .pools, .fns, .vms, .ps, .tier, .err, .fw, .out]
  | .leaseExpired _ _ => [.free, .ctxs, .flights, .pools, .fns, .vms, .ps, .tier, .spine, .fq, .net, .err, .fw, .pwr, .out]
  | .stepHoldExpired _ => [.free, .t0, .ctxs, .flights, .pools, .fns, .vms, .ps, .tier, .gaths, .awl, .press, .fq, .net, .err, .fw, .pwr, .out]
  | .kettleDoorbell _ _ _ => [.free, .t0, .ctxs, .flights, .pools, .fns, .vms, .ps, .tier, .gaths, .awl, .press, .fq, .net, .err, .fw, .pwr, .out]
  | .gathererMoveStart => [.free, .ctxs, .flights, .pools, .fns, .vms, .ps, .tier, .gaths, .fq, .net, .err, .fw, .pwr, .out]
  | .inwardMoveLanded _ _ => [.free, .t0, .ctxs, .flights, .pools, .fns, .vms, .ps, .tier, .gaths, .fq, .net, .err, .fw, .pwr, .out]
  | .inwardMoveFailed _ _ => [.free, .ctxs, .flights, .pools, .fns, .vms, .ps, .tier, .gaths, .fq, .net, .err, .fw, .pwr, .out]
  | .tierReadTimeout _ => [.free, .ctxs, .flights, .pools, .fns, .vms, .ps, .tier, .gaths, .fq, .net, .err, .fw, .pwr, .out]
  | .outwardMoveDone _ => [.free, .ctxs, .flights, .pools, .fns, .vms, .ps, .tier, .fq, .net, .err, .fw, .pwr, .out]
  | .outwardWriteFail _ => [.flights, .pools, .fns, .vms, .ps, .tier, .err, .fw, .out]
  | .reclaimPass => [.pools, .ps, .tier]
  | .pressSeal _ => [.pools, .fns, .vms, .ps, .tier, .press, .err, .fw, .out]
  | .pageSealed _ => [.free, .t0, .pools, .fns, .vms, .ps, .tier, .press, .err, .fw, .out]
  | .chainHashFormed => [.free, .fns, .vms, .ps, .tier, .press, .err, .fw, .out]
  | .weightPass _ _ => [.t0, .fns, .vms, .ps, .tier, .fq, .err, .fw, .out]
  | .retirementFree => [.free, .t0, .pools, .ps, .tier, .gaths, .press, .fq, .out]
  | .awlTokenScan _ => [.pools, .fns, .vms, .ps, .gaths, .awl, .err, .fw, .out]
  | .awlLoad _ _ _ => [.free, .t0, .fns, .vms, .ps, .awl, .err, .fw, .out]
  | .awlUnload _ _ => [.ps, .awl]
  | .awlBind _ _ _ _ => [.awl]
  | .awlUnbind _ _ _ _ => [.awl]
  | .spineInsertion => [.flights, .pools, .fns, .vms, .spine, .err, .fw, .out]
  | .spineCarry => [.flights, .pools, .fns, .vms, .spine, .err, .fw, .out]
  | .spineWithdrawal => [.flights, .pools, .fns, .vms, .ps, .tier, .spine, .net, .err, .fw, .out]
  | .scrubRow => [.fns, .vms, .spine, .err, .fw, .out]
  | .probeSearch _ => [.spine]
  | .spBankWrite _ _ => [.spine]
  | .spOvfWrite _ => [.spine]
  | .dirKeyFlush _ => [.fns, .vms, .net, .eg, .err, .fw, .out]
  | .dirKeyMessage _ => [.free, .pools, .fns, .vms, .spine, .net, .eg, .err, .fw, .out]
  | .dirLookup _ => [.free, .fns, .vms, .net, .eg, .err, .fw, .out]
  | .dirLookupResponse _ => [.free, .t0, .ctxs, .flights, .pools, .fns, .vms, .ps, .fq, .net, .err, .fw, .pwr, .out]
  | .dirLookupTimeout _ => [.free, .t0, .ctxs, .flights, .pools, .fns, .vms, .ps, .fq, .net, .err, .fw, .pwr, .out]
  | .commit _ => [.ps]
  | .layoutInitDone => [.ps]
  | .governorInterval _ _ => [.fq, .fw, .pwr]
  | .loadInterval _ _ _ => [.net]
  | .frameRx _ _ => [.free, .ctxs, .flights, .pools, .fns, .vms, .ps, .fq, .net, .eg, .err, .fw, .pwr, .out]
  | .inboundRdmaWrite _ => [.free, .t0, .ctxs, .flights, .pools, .fns, .vms, .ps, .fq, .net, .eg, .err, .fw, .pwr, .out]
  | .inboundSend _ => [.free, .t0, .ctxs, .flights, .pools, .fns, .vms, .ps, .fq, .net, .eg, .err, .fw, .pwr, .out]
  | .inboundRdmaReadRequest _ => [.free, .ctxs, .flights, .pools, .fns, .vms, .ps, .fq, .net, .eg, .err, .fw, .pwr, .out]
  | .inboundAcknowledge _ => [.free, .ctxs, .flights, .pools, .fns, .vms, .ps, .fq, .net, .eg, .err, .fw, .pwr, .out]
  | .inboundNak _ => [.free, .ctxs, .flights, .pools, .fns, .vms, .ps, .fq, .net, .eg, .err, .fw, .pwr, .out]
  | .inboundReadResponse _ => [.free, .t0, .ctxs, .flights, .pools, .fns, .vms, .ps, .tier, .awl, .press, .fq, .net, .eg, .err, .fw, .pwr, .out]
  | .retransmitTimeout _ _ => [.free, .ctxs, .flights, .pools, .fns, .vms, .ps, .fq, .net, .eg, .err, .fw, .pwr, .out]
  | .reorderGapTimeout _ => [.free, .ctxs, .flights, .pools, .fns, .vms, .ps, .fq, .net, .eg, .err, .fw, .pwr, .out]
  | .messageTimeout _ _ => [.free, .ctxs, .flights, .pools, .fns, .vms, .ps, .fq, .net, .eg, .err, .fw, .pwr, .out]
  | .vangedLookup _ => [.free, .ctxs, .flights, .nextFlight, .pools, .fns, .vms, .ps, .fq, .net, .eg, .err, .fw, .pwr, .out]
  | .vangedGetPages _ => [.free, .ctxs, .flights, .nextFlight, .pools, .fns, .vms, .ps, .fq, .net, .eg, .err, .fw, .pwr, .out]
  | .putPages _ => [.free, .ctxs, .flights, .nextFlight, .pools, .fns, .vms, .ps, .fq, .net, .eg, .err, .fw, .pwr, .out]
  | .vangedPublish _ => [.free, .ctxs, .flights, .nextFlight, .pools, .fns, .vms, .ps, .fq, .net, .eg, .err, .fw, .pwr, .out]
  | .vangedAttend _ => [.free, .ctxs, .flights, .nextFlight, .pools, .fns, .vms, .ps, .fq, .net, .eg, .err, .fw, .pwr, .out]
  | .vangedStep _ => [.free, .ctxs, .flights, .nextFlight, .pools, .fns, .vms, .ps, .fq, .net, .eg, .err, .fw, .pwr, .out]
  | .extentGrant _ => [.free, .fns, .vms, .ps, .net, .eg, .err, .fw, .out]
  | .extentReturn _ => [.free, .fns, .vms, .net, .eg, .err, .fw, .out]
  | .extentWithdrawn _ => [.free, .fns, .vms, .ps, .net, .eg, .err, .fw, .out]
  | .vangedLoad _ => [.free, .fns, .vms, .net, .eg, .err, .fw, .out]
  | .frameTx _ => [.fns, .vms, .net, .eg, .ptp, .err, .fw, .out]
  | .meterTick => [.eg]
  | .shaperRefill => [.eg]
  | .histSample => [.eg]
  | .histCopy _ => [.eg]
  | .gclCommit _ _ => [.eg]
  | .gclChangeTime _ => [.eg, .fw]
  | .gclEntryChange _ => [.eg]
  | .ptpAnnounce _ => [.ptp, .fw]
  | .ptpSync _ => [.free, .fns, .vms, .eg, .ptp, .err, .fw, .out]
  | .ptpFollowUp _ => [.free, .fns, .vms, .eg, .ptp, .err, .fw, .out]
  | .ptpDelayResp _ => [.free, .ptp]
  | .syncTimeout => [.fns, .vms, .ptp, .err, .fw, .out]
  | .announceTimeout => [.ptp, .fw]
  | .ptpEnableWrite _ => [.ptp, .fw]
  | .ptpTimeSecRead => [.ptp, .out]
  | .ppsEdge => [.dev]
  | .qpRead _ _ _ => [.net]
  | .qpWrite _ _ _ => [.net]
  | .toInit _ _ _ => [.net, .fw]
  | .toRtr _ _ _ => [.net, .fw]
  | .toRts _ _ _ => [.net, .fw]
  | .toReset _ _ _ => [.free, .ctxs, .flights, .pools, .fns, .vms, .ps, .fq, .net, .eg, .err, .fw, .pwr, .out]
  | .toError _ _ _ => [.free, .ctxs, .flights, .pools, .fns, .vms, .ps, .fq, .net, .eg, .err, .fw, .pwr, .out]
  | .create _ _ => [.free, .net]
  | .revoke _ _ _ => [.net]
  | .revocationEnd _ => [.net]
  | .extentRevoke _ _ _ => [.net]
  | .netModeWrite _ => [.net]
  | .dirRoleWrite _ => [.net]
  | .spdmGetMeasurements _ _ => [.free, .sec, .out]
  | .spdmChallenge _ _ => [.free, .sec, .out]
  | .spdmKeyExchange _ _ => [.free, .sec, .out]
  | .spdmRequest _ _ _ => [.free, .sec, .out]
  | .getPqSignature _ _ => [.free, .sec, .out]
  | .keyRelease _ _ => [.free, .sec, .out]
  | .slotLoaded _ => [.sec]
  | .keyErase _ _ => [.free, .sec, .out]
  | .getContextKey _ _ => [.free, .sec, .out]
  | .spdmSessionTimeout _ => [.sec]
  | .authSlot _ _ _ => [.sec]
  | .authCtx _ _ => [.sec]
  | .eraseSlot _ => [.sec]
  | .debug1 => [.sec]
  | .debug2 => [.sec]
  | .colophonActivationEnd => [.sec, .fw]
  | .drbgReseed _ => [.free, .fns, .vms, .sec, .err, .fw, .out]
  | .fnVecWrite _ _ => [.fns]
  | .vfConfigWrite _ _ => [.free, .t0, .dev, .ctxs, .flights, .pools, .fns, .vms, .ps, .tier, .gaths, .spine, .awl, .press, .fq, .net, .eg, .sec, .err, .fw, .pwr, .out]
  | .functionLevelReset _ => [.free, .t0, .dev, .ctxs, .flights, .pools, .fns, .vms, .ps, .tier, .gaths, .spine, .awl, .press, .fq, .net, .eg, .sec, .err, .fw, .pwr, .out]
  | .devReset _ => [.dev, .fw]
  | .upstreamLinkDown _ => [.free, .t0, .dev, .ctxs, .flights, .pools, .fns, .vms, .ps, .tier, .gaths, .spine, .awl, .press, .fq, .net, .eg, .sec, .err, .fw, .pwr, .out]
  | .warmStart _ _ => [.free, .now, .t0, .dev, .ctxs, .flights, .nextFlight, .slice, .lockUs, .pools, .fns, .vms, .ps, .tier, .margin, .leadMax, .gaths, .spine, .awl, .press, .fq, .net, .eg, .ptp, .sec, .err, .fw, .pwr, .out]
  | .resetNAssert => [.now, .t0, .dev, .ctxs, .flights, .nextFlight, .slice, .lockUs, .pools, .fns, .vms, .ps, .tier, .margin, .leadMax, .gaths, .spine, .awl, .press, .fq, .net, .eg, .ptp, .sec, .err, .fw, .pwr]
  | .coldStart _ _ _ _ _ _ _ _ _ => [.free, .now, .t0, .dev, .ctxs, .flights, .nextFlight, .slice, .lockUs, .pools, .fns, .vms, .ps, .tier, .margin, .leadMax, .gaths, .spine, .awl, .press, .fq, .net, .eg, .ptp, .sec, .err, .fw, .pwr, .out]
  | .perstNChange _ _ => [.free, .t0, .dev, .ctxs, .flights, .pools, .fns, .vms, .ps, .tier, .gaths, .spine, .awl, .press, .fq, .net, .eg, .sec, .err, .fw, .pwr, .out]
  | .hbmTrainingDone _ => [.dev, .fns, .vms, .ps, .err, .fw, .out]
  | .t0ZeroingDone => [.t0, .dev, .sec, .fw]
  | .imageVerified _ _ _ _ => [.dev, .fns, .vms, .sec, .err, .fw, .out]
  | .configurationReady _ => [.dev]
  | .brownOut => [.free, .now, .t0, .dev, .ctxs, .flights, .nextFlight, .slice, .lockUs, .pools, .fns, .vms, .ps, .tier, .margin, .leadMax, .gaths, .spine, .awl, .press, .fq, .net, .eg, .ptp, .sec, .err, .fw, .pwr, .out]
  | .portReset _ => [.free, .ctxs, .flights, .pools, .fns, .vms, .ps, .tier, .gaths, .fq, .net, .err, .fw, .pwr, .out]
  | .downstreamLinkEvent _ _ => [.free, .ctxs, .flights, .pools, .fns, .vms, .ps, .tier, .gaths, .fq, .net, .err, .fw, .pwr, .out]
  | .enumerationDone _ _ _ _ _ _ _ => [.fns, .vms, .tier, .err, .fw, .out]
  | .pchFailed _ => [.dev, .fns, .vms, .err, .fw, .out]
  | .upstreamReadCompletion _ _ _ _ _ _ => [.free, .t0, .ctxs, .flights, .nextFlight, .pools, .fns, .vms, .ps, .tier, .gaths, .fq, .net, .err, .fw, .pwr, .out]
  | .watchdogExpiry _ => [.fns, .vms, .sec, .err, .fw, .out]
  | .spRestartWrite _ _ => [.sec, .fw]
  | .spReady _ => [.free, .dev, .ctxs, .flights, .pools, .fns, .vms, .ps, .tier, .gaths, .fq, .net, .sec, .err, .fw, .pwr, .out]
  | .hello _ _ => [.dev, .sec, .fw, .out]
  | .getInfo _ _ => [.dev, .sec, .fw, .out]
  | .fwStage _ _ => [.dev, .sec, .fw, .out]
  | .fwVerify _ _ => [.dev, .sec, .fw, .out]
  | .fwActivate _ _ => [.dev, .sec, .fw, .out]
  | .portInfo _ _ => [.dev, .sec, .fw, .out]
  | .traceSet _ _ => [.dev, .sec, .fw, .out]
  | .sensors _ _ => [.dev, .sec, .fw, .out]
  | .mailboxTimeout => [.fns, .vms, .sec, .err, .fw, .out]
  | .mctpControl _ _ => [.fw, .out]
  | .pldmRequest _ _ => [.out]
  | .sensorSample _ _ _ => [.free, .dev, .pwr]
  | .operatingPointChange _ => [.fw, .pwr, .out]
  | .voltageInRegulation => [.fw, .pwr]
  | .regulationTimeout => [.free, .pwr, .out]
  | .pmCtlWrite _ => [.fw, .pwr]
  | .idleEntry => [.fw, .pwr]
  | .msixHoldoffExpiry _ => [.fns, .vms, .err, .fw, .out]
  | .msixUnmask _ _ => [.fns, .vms, .err, .fw, .out]
  | .cntCmd _ => [.fns, .err]
  | .sigClear _ _ => [.fns]
  | .errHeadWrite _ => [.err]
  | .bufferWindowAccess _ _ _ _ => [.free, .t0, .flights, .fns, .vms, .err, .fw, .out]
  | .registerWrite _ _ _ _ _ => [.free, .t0, .dev, .ctxs, .flights, .slice, .lockUs, .pools, .fns, .vms, .ps, .tier, .margin, .leadMax, .gaths, .spine, .awl, .press, .fq, .net, .eg, .ptp, .sec, .err, .fw, .pwr, .out]
  | .demandLandingTimeout _ => [.free, .ctxs, .flights, .pools, .fns, .vms, .ps, .tier, .fq, .net, .err, .fw, .pwr, .out]
  | .tierWriteTimeout _ => [.flights, .pools, .fns, .vms, .ps, .tier, .err, .fw, .out]
  | .unitMarkedUnavailable _ _ => [.free, .dev, .ctxs, .flights, .pools, .fns, .vms, .ps, .tier, .gaths, .spine, .awl, .fq, .net, .err, .fw, .pwr, .out]
  | .ideKm _ _ => [.sec]
  | .watchdogCountRestart _ => [.fw]
  | .ethernetLinkChange _ _ => [.net]

end Sys2Proof
namespace Sys2Proof.Machine

/-- A step goes on: it neither faults nor is refused. -/
def GoesOn (o : Host.Outcome State Fault Refusal) : Prop := ∃ t, o = .next t

end Sys2Proof.Machine
end

