-- ==== Sys2Proof/Certificates/Slice0/Obligations.lean ====
section
/-! DEFINITION. The statements for the provers. Each docstring names the rules that a statement rests on. -/
open Sys2Proof Sys2Proof.Machine

/-- A step runs the command at the front of the queue. For every command c, every queue rest and every state s: a step of s with c in front of rest is
exec of c on s with rest as its queue. That the block takes its commands from a queue, first in, first out, is the model's own form (log 1). (95 What
each step holds; notes/assumptions/1.md) -/
def Obligations.StepRunsFrontCommand : Prop :=
  ∀ (c : Instr) (rest : List Instr) (s : State), step { s with pending := c :: rest } = exec c { s with pending := rest }

/-- A step on an empty queue lets one fabric cycle pass. On an empty queue a step answers a next state. While RESET_N is asserted or a brown-out lasts it
changes nothing; else the cycle counter rises by 1, and only the time, network time, the stall cycles of the instructions in flight and the running
sum of the Spine gauge change: no instruction in flight appears, ends or leaves. That an idle step is one cycle is the model's own choice (log 1). (02
R58; 11 R353; notes/assumptions/1.md) -/
def Obligations.IdleStepLetsTimePass : Prop :=
  ∀ s : State, s.pending = [] → ∃ t, step s = .next t ∧
    (s.stopped = true → t = s) ∧
    (s.stopped = false → t.now = s.now + 1 ∧ OnlyChanges [.now, .ptp, .flights, .net] s t ∧ t.net = { s.net with spineUse := t.net.spineUse } ∧
      ∀ f, (t.flight? f).map (·.phase) = (s.flight? f).map (·.phase))

/-- Every command goes on. For every command and every state, exec answers a next state: no command of the table ends in a fault or in a refusal. (95 What
each step holds) -/
def Obligations.NoCommandStopsTheMachine : Prop :=
  ∀ (c : Instr) (s : State), GoesOn (exec c s)

/-- The reset state is what an asserted RESET_N holds. At State.reset RESET_N is asserted, every register has its reset value, T0 lists nothing, and
CAP_COMPUTE, FQ_CAPS, SP_CAPS, AWL_CAPS, CX_CAPS and PS_CAPS read the LG-8160's values. That State.reset is the moment at which RESET_N is asserted is
the model's choice (log 5), and that it stands for an LG-8160 (log 4). (15 R460; 13 R408; notes/assumptions/4.md; notes/assumptions/5.md; 04 R118; 06
R215; 07 R232; 08 R273; 09 R298; 16 R482) -/
def Obligations.ResetIsHeld : Prop :=
  State.reset.dev.held = true ∧ State.reset.heldAtReset ∧ State.reset.t0Canonical ∧ State.reset.stopped = true ∧
    State.reset.capCompute = 0x801008100100 ∧ State.reset.fqCaps = 0x200100100100 ∧ State.reset.spCaps = 0x8008200080 ∧ awlCaps = 0x10000084010 ∧
    cxCaps = 0x100040004001 ∧ State.reset.psCaps = 0x8000000

/-- While RESET_N is asserted or a brown-out lasts every register stays at its reset value, whatever command comes. If a state is such that RESET_N
asserted, or a brown-out, implies every register at its reset value (what outlives a reset apart: the queue, the counter of the free values, what has
left the device, the package, the flash, the PERST_N pins, the thermal trip; and FAULT_N in a brown-out), then so is every state that a step leads to.
So no command can reach into a machine that is held in reset, and an assertion of RESET_N leaves nothing of the run before it. The registers in a
brown-out are the model's reading (log 77), and that no command passes it (log 5). (15 R451; 15 R460; 13 R408; notes/assumptions/5.md;
notes/assumptions/77.md) -/
def Obligations.HeldMachineStaysAtReset : Prop :=
  ∀ s t : State, s.heldAtReset → step s = .next t → t.heldAtReset

/-- While RESET_N is asserted or a brown-out lasts, only the pins RESET_N and PERST_N do anything. While RESET_N is asserted, or a brown-out lasts, every
command but the assertion and the deassertion of RESET_N, a brown-out and a change of PERST_N leaves the state as it is; a change of PERST_N of a link
changes the level of that pin and nothing else; a brown-out while RESET_N is deasserted leaves every block at its reset values, which is the model's
reading (log 77). (15 R451; 15 R460; notes/assumptions/77.md) -/
def Obligations.StoppedMachineDoesNothing : Prop :=
  ∀ (c : Instr) (s t : State), s.stopped = true → exec c s = .next t →
    match c with
    | .resetNAssert => t = s.outlive
    | .coldStart .. => s.dev.held = false → t = s
    | .perstNChange link a => t = { s with dev := { s.dev with perst0 := if link = 0 then a else s.dev.perst0, perst1 := if link = 1 then a else s.dev.perst1 } }
    | .brownOut => t = if s.dev.held then s else s.brown
    | _ => t = s

/-- Every step keeps T0 in its canonical form. If the bytes that T0 lists are in rising order of address and none of them is what an unlisted address
reads as, then so they are after every step, whatever command it runs. So two states whose T0 reads alike hold the same list. (04 R116;
notes/assumptions/8.md) -/
def Obligations.T0StaysCanonical : Prop :=
  ∀ s t : State, s.t0Canonical → step s = .next t → t.t0Canonical

/-- What doorbells, fetch, dispatch, completion, the control instructions, contexts, the scheduler, interrupts and counters leave unchanged. For every
command of the families control, context (doorbells, fetch, dispatch, completion, the control instructions, contexts, the scheduler, interrupts and
counters) and every state: when exec answers a next state, every part of the state outside those that the command's own row of Instr.touches names is
as it was before, the queue of waiting commands among them; where T0 is not among them, every byte of T0 reads as before. (02 R41; 02 R54; 03 R77; 13
R395; 13 R400; 13 R421) -/
def Obligations.FrameControlAndContexts : Prop :=
  ∀ (c : Instr) (s t : State), c.family ∈ ([.control, .context] : List Family) → exec c s = .next t →
    OnlyChanges c.touches s t ∧ (.t0 ∉ c.touches → SameT0 s t)

/-- What the commands of index and sequence and attention leave unchanged. For every command of the families index, sequence, attention (lookups, the
Spine, the directory, the sequence and page instructions, the Press, gatherings, ATTEND, COMBINE and weights) and every state: when exec answers a
next state, every part of the state outside those that the command's own row of Instr.touches names is as it was before, the queue of waiting commands
among them; where T0 is not among them, every byte of T0 reads as before. (06 R195; 06 R203; 10 R332; 03 R84; 03 R92; 09 R281; 03 R102; 03 R104) -/
def Obligations.FrameIndexSequencesAttention : Prop :=
  ∀ (c : Instr) (s t : State), c.family ∈ ([.index, .sequence, .attention] : List Family) → exec c s = .next t →
    OnlyChanges c.touches s t ∧ (.t0 ∉ c.touches → SameT0 s t)

/-- What moves between tiers, the Awl, firmware, the mailbox, downstream ports, resets, starts, power and the register windows leave unchanged. For every
command of the families tier, fence, management, device (moves between tiers, the Awl, firmware, the mailbox, downstream ports, resets, starts, power
and the register windows) and every state: when exec answers a next state, every part of the state outside those that the command's own row of
Instr.touches names is as it was before, the queue of waiting commands among them; where T0 is not among them, every byte of T0 reads as before. (05
R165; 05 R167; 07 R221; 07 R226; 14 R426; 14 R432; 14 R439; 13 R407; 15 R458) -/
def Obligations.FrameTiersFenceDevice : Prop :=
  ∀ (c : Instr) (s t : State), c.family ∈ ([.tier, .fence, .management, .device] : List Family) → exec c s = .next t →
    OnlyChanges c.touches s t ∧ (.t0 ∉ c.touches → SameT0 s t)

/-- What RDMA, the Vanged requests, extents, queue pairs, registrations and the layout and load registers leave unchanged. For every command of the
families rdma, vanged, netRegister (RDMA, the Vanged requests, extents, queue pairs, registrations and the layout and load registers) and every state:
when exec answers a next state, every part of the state outside those that the command's own row of Instr.touches names is as it was before, the queue
of waiting commands among them; where T0 is not among them, every byte of T0 reads as before. (10 R300; 10 R309; 10 R311; 10 R318; 10 R323; 10 R327;
10 R303; 10 R315) -/
def Obligations.FrameNetwork : Prop :=
  ∀ (c : Instr) (s t : State), c.family ∈ ([.rdma, .vanged, .netRegister] : List Family) → exec c s = .next t →
    OnlyChanges c.touches s t ∧ (.t0 ∉ c.touches → SameT0 s t)

/-- What network time, egress and the Colophon leave unchanged. For every command of the families time, security (network time, egress and the Colophon)
and every state: when exec answers a next state, every part of the state outside those that the command's own row of Instr.touches names is as it was
before, the queue of waiting commands among them; where T0 is not among them, every byte of T0 reads as before. (11 R346; 11 R349; 11 R354; 12 R378;
12 R382; 12 R384) -/
def Obligations.FrameTimeAndSecurity : Prop :=
  ∀ (c : Instr) (s t : State), c.family ∈ ([.time, .security] : List Family) → exec c s = .next t →
    OnlyChanges c.touches s t ∧ (.t0 ∉ c.touches → SameT0 s t)

/-- NOP, SET and ADDX end with OK and their values. An instruction that has been dispatched with the opcode of NOP, SET or ADDX, has not ended, and may
begin: the command ends it with status OK. The value is 0, operand A, or the sum of operands A and B modulo 2^64; the destination register of its
context holds it afterwards, and no other register of any context changes. (03 R77; 02 R50; 02 R54) -/
def Obligations.NopSetAddx : Prop :=
  ∀ (s : State) (f : Nat) (x : Flight),
    (Acts s f 0x00 x → ∃ t, exec (.nop f) s = .next t ∧ Completed s t f x stOk 0) ∧
    (Acts s f 0x04 x → ∃ t, exec (.set f) s = .next t ∧ Completed s t f x stOk x.a) ∧
    (Acts s f 0x05 x → ∃ t, exec (.addx f) s = .next t ∧ Completed s t f x stOk (x.a + x.b))

/-- FENCE and WAIT end when what they wait for has happened. FENCE: ends with OK once none of the instructions it named at its dispatch is in flight, and
changes nothing while one is. WAIT and WAIT_SATISFIED: when the named value is at least TARGET, unsigned, and the context is resident, the WAIT ends
with OK and the value as RESULT; while it is below, nothing changes. WAIT_TIMEOUT: with a LIMIT other than 0 that has passed since dispatch, at 1,050
cycles per µs, and the value still below TARGET, it ends with TIMEOUT, a fault, which stops an ACTIVE context and fills its FAULT fields, and writes
no register. (02 R55; 03 R78; 02 R36; 02 R34; 02 R61) -/
def Obligations.FenceAndWaitEnd : Prop :=
  ∀ (s : State) (f : Nat) (x : Flight),
    (Acts s f 0x01 x →
      ((∀ g ∈ x.waitsFor, s.flight? g = none) → ∃ t, exec (.fence f) s = .next t ∧ Completed s t f x stOk 0) ∧
      (∀ g ∈ x.waitsFor, s.flight? g ≠ none → exec (.fence f) s = .next s)) ∧
    (Acts s f 0x02 x → ∀ v : Nat, s.waitCheck x = stOk → s.waitValue x = some v →
      (x.b.toNat ≤ v → (s.ctx x.ctx).resident = true →
        (∃ t, exec (.wait f) s = .next t ∧ Completed s t f x stOk (BitVec.ofNat 64 v)) ∧
        ∃ t, exec (.waitSatisfied f) s = .next t ∧ Completed s t f x stOk (BitVec.ofNat 64 v)) ∧
      (v < x.b.toNat → exec (.wait f) s = .next s ∧ exec (.waitSatisfied f) s = .next s ∧
        (fld x.c.toNat 0 32 ≠ 0 → x.since + fld x.c.toNat 0 32 * 1050 ≤ s.now →
          ∃ t, exec (.waitTimeout f) s = .next t ∧ Completed s t f x stTimeout 0 ∧ CtxEnds s t f x stTimeout)))

/-- SIGNAL adds to its counter, saturating, once every earlier instruction of its ring has completed. When no earlier instruction of its ring is in
flight, SIGNAL adds INCREMENT to signal counter COUNTER of its context's function, up to 2^64 - 1, and ends with OK and the new value as RESULT. No
other signal counter of any function changes. While an earlier instruction of its ring is in flight, nothing changes. (03 R78; 02 R56; 13 R421) -/
def Obligations.SignalAdds : Prop :=
  ∀ (s : State) (f : Nat) (x : Flight), Acts s f 0x03 x →
    let fn := s.fnOf x.ctx
    let i := fld x.a.toNat 0 6
    let new := min ((s.fn fn).sig.get i 0 + x.b.toNat) 0xFFFFFFFFFFFFFFFF
    ((∀ p ∈ s.ringFlights x.ctx x.ring, f ≤ p.1) → ∃ t, exec (.signal f) s = .next t ∧
      (t.fn fn).sig.get i 0 = new ∧ Completed s t f x stOk (BitVec.ofNat 64 new) ∧
      ∀ g j, (g ≠ fn ∨ j ≠ i) → (t.fn g).sig.get j 0 = (s.fn g).sig.get j 0) ∧
    ((∃ p ∈ s.ringFlights x.ctx x.ring, p.1 < f) → exec (.signal f) s = .next s)

/-- BRANCH and LOOP redirect the fetch of their ring. BRANCH: with a condition that does not test the latch it ends with OK at once; with LATCH_SET or
LATCH_CLEAR it does once every earlier instruction of its ring has ended, and clears the latch. RESULT has bit 0 set when the branch is taken and, for
the latch conditions, the latch as it stood in bits 31:16. LOOP reads the register that SEL_D names at its dispatch, counts it down, not below 0, and
is taken while the new value is not 0. A taken branch makes the ring fetch from its own index plus the signed offset, modulo 65,536, with nothing of
the ring left fetched; one not taken leaves the ring's fetch as it was. (03 R79; 03 R80; 02 R52; 02 R53; 02 R47; 02 R50) -/
def Obligations.BranchAndLoop : Prop :=
  ∀ (s : State) (f : Nat) (x : Flight),
    let r := (s.ctx x.ctx).ring x.ring
    let goes (t : State) (taken : Bool) : Prop :=
      let q := (t.ctx x.ctx).ring x.ring
      if taken then (q.fetch : Int) = (x.index + signed 16 (fld x.a.toNat 0 16)) % 65536 ∧ q.fetched = []
      else q.fetch = r.fetch ∧ q.fetched = r.fetched
    (Acts s f 0x06 x →
      let cond := fld x.a.toNat 16 4
      let taken := branchTaken cond x.b x.c r.latch
      (cond < 7 → ∃ t, exec (.branch f) s = .next t ∧ Completed s t f x stOk (if taken then 1 else 0) ∧ goes t taken) ∧
      ((cond = 7 ∨ cond = 8) → (∀ p ∈ s.ringFlights x.ctx x.ring, p.1 < f → p.2.phase = .ended) →
        ∃ t, exec (.branch f) s = .next t ∧
          Completed s t f x stOk (BitVec.ofNat 64 ((if taken then 1 else 0) + r.latch.toNat * 65536)) ∧ goes t taken ∧
          ((t.ctx x.ctx).ring x.ring).latch = 0)) ∧
    (Acts s f 0x07 x →
      ∃ t, exec (.loop f) s = .next t ∧ Completed s t f x stOk (if x.c = 0 then 0 else x.c - 1) ∧ goes t (x.c.toNat ≥ 2)) ∧
    (∀ c ring e rest, s.stopped = false → ((s.ctx c).ring ring).fetched = e :: rest →
      let w := granWord e.granule 0
      wOpcode w = 0x07 → s.mayDispatch c ring w = true → ∃ t y, exec (.instructionDispatch c ring) s = .next t ∧
        t.flight? s.nextFlight = some y ∧ y.word = w ∧ y.c = (s.ctx c).reg (wSelD w))

/-- An accepted doorbell sets the tail or the head; an ignored one is counted and changes nothing else. COMMAND_RING_TAIL_DOORBELL of 8 bytes that passes
the checks of R42 sets TAIL of the ring to INDEX and empties its fetch buffer, so that one which repeats the tail changes only the buffer of the ring;
an IDLE context with an entry to fetch becomes ACTIVE, and an ACTIVE one with nothing to fetch and nothing in flight IDLE. COMPLETION_HEAD_DOORBELL
that passes them sets CHEAD. No other context's rings change. One that fails a check leaves every context as it was and raises DOORBELL_IGNORED of the
function whose window was written, up to 2^64 - 1. (02 R42) -/
def Obligations.Doorbells : Prop :=
  ∀ (s : State) (fn c ring index rsv bytes : Nat), s.stopped = false →
    let x := s.ctx c
    let quiet := x.state = .disabled ∨ x.state = .orphaned ∨ x.state = .resetting
    let r := x.ring ring
    let tailOk := ¬ quiet ∧ x.function = fn ∧ rsv = 0 ∧ c < 1024 ∧ ring < 8 ∧ r.enable = true ∧ sub16 index r.tail < r.depth
    let headOk := ¬ quiet ∧ x.function = fn ∧ rsv = 0 ∧ c < 1024 ∧ ring = 0 ∧ sub16 index x.chead ≤ sub16 x.ctail x.chead
    let ignored (t : State) := t.ctxs = s.ctxs ∧ (t.fn fn).cnt.get 0 0 = min ((s.fn fn).cnt.get 0 0 + 1) 0xFFFFFFFFFFFFFFFF
    (bytes = 8 →
      (tailOk → ∃ t, exec (.commandRingTailDoorbell fn c ring index rsv bytes) s = .next t ∧
        ((t.ctx c).ring ring).tail = index ∧ ((t.ctx c).ring ring).buf = [] ∧ ((t.ctx c).ring ring).fetch = r.fetch ∧
        (∀ d, d ≠ c → t.ctx d = s.ctx d) ∧ (∀ n, n ≠ ring → (t.ctx c).ring n = x.ring n) ∧
        (index = r.tail → (t.ctx c).ring ring = { r with buf := [] }) ∧
        (t.ctx c).state = (if x.state = .idle ∧ r.fetch ≠ index then .active
          else if x.state = .active ∧ (t.ctx c).ringWork = false ∧ s.inFlight c = false then .idle else x.state)) ∧
      (¬ tailOk → ∃ t, exec (.commandRingTailDoorbell fn c ring index rsv bytes) s = .next t ∧ ignored t) ∧
      (headOk → ∃ t, exec (.completionHeadDoorbell fn c ring index rsv bytes) s = .next t ∧
        (t.ctx c).chead = index ∧ (∀ d, d ≠ c → t.ctx d = s.ctx d) ∧ (t.ctx c).rings = x.rings) ∧
      (¬ headOk → ∃ t, exec (.completionHeadDoorbell fn c ring index rsv bytes) s = .next t ∧ ignored t))

/-- INSTRUCTION_FETCH reads ring entries, and INSTRUCTION_DISPATCH sends the oldest one on. INSTRUCTION_FETCH of an enabled ring of a resident, ACTIVE
context with entries posted and no read outstanding, none of which its fetch buffer holds: from upstream memory it asks for up to 4 entries, not past
the ring's end; from T0 with every pseudo-channel working it takes them, in order, as they stand in T0, and FETCH moves on by their number. An entry
at FETCH that the buffer holds is taken from it. INSTRUCTION_DISPATCH: once fences, interlocks, credits, slot and layout allow, the oldest fetched
entry leaves the ring and is in flight under the next dispatch number, with its word, ring and index; one that fails a check has ended with the
check's status, a fault, which stops its context and fills the FAULT fields. A doorbell of fewer than 8 bytes changes nothing. The model's choices in
it: log 71. (02 R39; 02 R41; 02 R44; 02 R48; 02 R34; 02 R61; notes/assumptions/71.md) -/
def Obligations.FetchAndDispatch : Prop :=
  ∀ (s : State) (c ring : Nat), s.stopped = false →
    let x := s.ctx c
    let r := x.ring ring
    let n := min r.toFetch (16 - r.fetched.length)
    (x.state = .active → x.resident = true → r.enable = true → n ≠ 0 → r.reading = 0 → s.dev.engineDown.get 0 false = false →
      (∀ e, r.buffered r.fetch = some e → ∃ t rest, exec (.instructionFetch c ring) s = .next t ∧
        ((t.ctx c).ring ring).fetched = r.fetched ++ e :: rest) ∧
      (r.buffered r.fetch = none →
        let m := min (r.runLen false n r.fetch) (r.depth - r.fetch % r.depth)
        (r.loc ≠ 1 → ∃ t, exec (.instructionFetch c ring) s = .next t ∧ ((t.ctx c).ring ring).reading = m ∧
          ((t.ctx c).ring ring).fetched = r.fetched ∧ t.out = .upRead x.function (r.base * 4096 + 32 * (r.fetch % r.depth)) (32 * m) :: s.out) ∧
        (r.loc = 1 → r.fetch < 65536 → s.dev.pchDown = [] → ∃ t, exec (.instructionFetch c ring) s = .next t ∧
          ((t.ctx c).ring ring).fetch = (r.fetch + m) % 65536 ∧
          ((t.ctx c).ring ring).fetched = r.fetched ++ (List.range m).map fun i =>
            { index := (r.fetch + i) % 65536, granule := granOf (s.t0Read (r.base * 4096 + 32 * ((r.fetch + i) % 65536 % r.depth)) 32) }))) ∧
    (∀ e rest, r.fetched = e :: rest →
      let w := granWord e.granule 0
      let st := s.dispatchCheck x r w (granWord e.granule 1) (granWord e.granule 2) (granWord e.granule 3)
      s.mayDispatch c ring w = true → ∃ t y, exec (.instructionDispatch c ring) s = .next t ∧
        t.nextFlight = s.nextFlight + 1 ∧ t.flight? s.nextFlight = some y ∧ y.word = w ∧ y.ctx = c ∧ y.ring = ring ∧ y.index = e.index ∧
        y.a = operand x (wSelA w) (granWord e.granule 1) ∧ y.b = operand x (wSelB w) (granWord e.granule 2) ∧
        (st = stOk → y.phase = .dispatched ∧ ((t.ctx c).ring ring).fetched = rest) ∧ (st ≠ stOk → y.phase = .ended ∧ y.status = st ∧ CtxEnds s t s.nextFlight y st)) ∧
    (∀ fn index rsv bytes, bytes ≠ 8 → exec (.commandRingTailDoorbell fn c ring index rsv bytes) s = .next s ∧
      exec (.completionHeadDoorbell fn c ring index rsv bytes) s = .next s)

/-- INSTRUCTION_COMPLETE writes the completion entry of an ended instruction and retires it. An instruction that has ended, with no packet of it still
outstanding. A completed ATTEND of the gathering's step moves its position on to the next layer, if there is one, and nothing else does. A mirrored
request leaves flight and changes no context and no byte of T0. One of a ring, its context not being reset, leaves flight; when an entry is due (a
stop, or COMPLETE in effect), CTAIL rises by 1 modulo 65,536 and the phase turns at the ring's end; the 32 bytes of the entry stand in the completion
ring at the old CTAIL, in T0 when the ring lies there and no pseudo-channel has failed, else they have left as an upstream write of the context's
function, unless the context is ORPHANED. In a confidential context the 32 bytes of the seal entry stand in the seal ring beside it, and the seal
counter is past the message's number; while another instruction of the context has the next seal message under way, the entry waits. When none is due,
CTAIL stays. The model's choices in it: log 20. (02 R57; 02 R58; 02 R59; 02 R61; 12 R375; 12 R376; 03 R103; 10 R318; notes/assumptions/20.md) -/
def Obligations.CompleteWritesItsEntry : Prop :=
  ∀ (s : State) (f : Nat) (x : Flight), s.stopped = false → s.flight? f = some x → x.phase = .ended → s.outstanding f = false →
    let attends := wOpcode x.word = 0x30 ∧ stClass x.status ≤ 1
    let gi := gField x.a
    let u := if wOpcode x.word = 0x30 ∧ stClass x.status ≤ 1 then s.attendDone gi x.stepAt (fld x.a.toNat 0 8) else s
    let c := s.ctx x.ctx
    let k := s.sec.ctxs.get x.ctx {}
    let addr := c.cbase * 4096 + 32 * (c.ctail % c.cdepth)
    let saddr := k.sealBase * 4096 + 32 * (c.ctail % c.cdepth)
    let e := u.entryOf x
    let z := u.sealEntry x e
    (x.mirror.isSome = true ∨ c.state ≠ .resetting → ∃ t, exec (.instructionComplete f) s = .next t ∧ (t.gath gi).step = (s.gath gi).step ∧
      (attends → (s.gath gi).live = true → (s.gath gi).step = x.stepAt → (s.gath gi).layer ≤ fld x.a.toNat 0 8 → fld x.a.toNat 0 8 + 1 < (s.gath gi).grec.layers →
        (t.gath gi).layer = fld x.a.toNat 0 8 + 1) ∧
      (¬ attends → t.gaths = s.gaths)) ∧
    (x.mirror.isSome = true → ∃ t, exec (.instructionComplete f) s = .next t ∧ t.flight? f = none ∧ t.ctxs = u.ctxs ∧ SameT0 u t) ∧
    (x.mirror = none → c.state ≠ .resetting →
      (c.conf = true → x.writesEntry = true → u.sealTaken x.ctx f = true → exec (.instructionComplete f) s = .next (u.framed s)) ∧
      (c.conf = false ∨ x.writesEntry = false ∨ u.sealTaken x.ctx f = false → ∃ t, exec (.instructionComplete f) s = .next t ∧ t.flight? f = none ∧
        (x.writesEntry = true →
          (t.ctx x.ctx).ctail = (c.ctail + 1) % 65536 ∧
          (t.ctx x.ctx).cphase = (if (c.ctail + 1) % 65536 % c.cdepth = 0 then !c.cphase else c.cphase) ∧
          (c.cloc = 1 → s.dev.pchDown = [] → ∀ i < 32, memRead t.t0 (addr + i) = e.getD i 0) ∧
          (c.conf = false → c.cloc = 1 → SameT0But addr 32 u t) ∧
          (c.conf = false → c.cloc ≠ 1 → SameT0 u t) ∧
          (c.cloc ≠ 1 → c.state ≠ .orphaned → .upWrite c.function addr e ∈ t.out) ∧
          (c.conf = true → (t.sec.ctxs.get x.ctx {}).oseq = u.sealNo x + 1 ∧
            (k.sealLoc = 1 → s.dev.pchDown = [] → (c.cloc = 1 → saddr + 32 ≤ addr ∨ addr + 32 ≤ saddr) → ∀ i < 32, memRead t.t0 (saddr + i) = z.getD i 0) ∧
            (k.sealLoc ≠ 1 → c.state ≠ .orphaned → .upWrite c.function saddr z ∈ t.out))) ∧
        (x.writesEntry = false → (t.ctx x.ctx).ctail = c.ctail ∧ SameT0 u t)))

/-- A landing wait ends with its flags cleared, or with TIMEOUT. AWAIT_LANDING: when every landing flag of the range that the instruction awaits is set,
the flags of the range are cleared, no other flag changes, and the instruction may read. AWAIT_TIMEOUT: when one is still clear MSG_US after the wait
began, the instruction ends with TIMEOUT. (10 R313) -/
def Obligations.LandingWaits : Prop :=
  ∀ (s : State) (f : Nat) (x : Flight) (since lo n : Nat), s.stopped = false → s.flight? f = some x → x.job = .landing since lo n →
    let set := ∀ i < n, (s.ctx x.ctx).landing.get (lo + i) false = true
    (set → ∃ t y, exec (.awaitLanding f) s = .next t ∧ t.flight? f = some y ∧ y.job = .landed ∧
      ∀ i, (t.ctx x.ctx).landing.get i false = if lo ≤ i ∧ i < lo + n then false else (s.ctx x.ctx).landing.get i false) ∧
    (¬ set → since + s.net.msgUs * 1050 ≤ s.now → ∃ t, exec (.awaitTimeout f) s = .next t ∧ Completed s t f x stTimeout 0)

/-- LOOKUP runs the binary descent over its chain hashes. A LOOKUP from a ring that has not begun, has or can take a walker slot and a search-queue
credit, finds room in its sequencer's hash store, has no AWAIT and reads its list from T0 with every pseudo-channel working. Where no search that
misses in the CAM must walk the overflow table: with m the blocks that the descent of R195 matches over the n hashes of the list, a hit being a CAM
hit in S1 or S2, the command leaves it, when m is not 0, with m, the descent ended and a winner of the probe of block m - 1, and when m is 0 and no
directory is to be asked, ends it with MISS. (06 R193; 06 R194; 06 R195; 03 R83) -/
def Obligations.LookupRunsTheDescent : Prop :=
  ∀ (s : State) (f part : Nat) (x : Flight), Acts s f 0x10 x → x.job = .none → x.mirror = none → bAwait x.a = false → s.dev.pchDown = [] →
    (x.walker.isSome = true ∨ s.freeWalker.isSome = true) →
    (x.holds.find? (· < 8) = some part ∨ (x.holds.find? (· < 8) = none ∧ s.searchQueue f = some part)) →
    let n := bCount x.a
    (s.hashStore part).1 + 12 * n ≤ 12582912 → (s.hashStore part).2 < 32 →
    let addr := (s.ctx x.ctx).inAddr + bOffset x.a
    let b := x.b.toNat
    let key (sc i : Nat) := prefixKey sc (fld b 0 16) x.ctx (BitVec.ofNat 96 (ofLe (s.t0Read (addr + 12 * i) 12)))
    (∀ i < n, ∀ sc ∈ scopesOf b, s.search (key sc i) = none → s.ovfOf (key sc i) = 0) →
    let m := descentOf (fun i => (scopesOf b).any fun sc => (s.search (key sc i)).isSome) n (probes n) 0
    (m ≠ 0 → ∃ t y l p sc, exec (.lookup f) s = .next t ∧ t.flight? f = some y ∧ y.job = .lookup l ∧ l.m = m ∧ l.i = 0 ∧ l.walk = none ∧
      l.win = some (p, sc) ∧ sc ∈ scopesOf b ∧ s.search (key sc (m - 1)) = some p) ∧
    (m = 0 → fld b 49 1 = 0 → ∃ t, exec (.lookup f) s = .next t ∧ Completed s t f x stMiss 0)

/-- LOOKUP_RECORD_READ writes the lookup record of the winner, or ends with MISS. A LOOKUP of a ring whose descent has ended with m of n blocks and a CAM
winner, that asks no directory, every pseudo-channel working. When the row slot holds the row's UNIT and the entry is not another context's entry of
scope 0, it ends with OK (m = n) or PARTIAL, with m in RESULT bits 23:0 and the handle above them; the 32 bytes of the lookup record stand at its
output offset, and no other byte of T0 changes. When the row slot differs from the row: the row becomes suspect, and after the third descent the
LOOKUP ends with MISS. Another context's entry of scope 0: MISS. (06 R197; 03 R82; 03 R83) -/
def Obligations.LookupRecord : Prop :=
  ∀ (s : State) (f p sc : Nat) (x : Flight) (l : Looking), s.stopped = false → s.flight? f = some x → x.job = .lookup l → l.win = some (p, sc) → l.i = 0 →
    l.walk = none → x.mirror = none → fld x.b.toNat 49 1 = 0 → p < 2 ^ 20 → s.dev.pchDown = [] → l.m ≠ 0 →
    let e := (s.row p).slot
    let out := (s.ctx x.ctx).outAddr + fld x.c.toNat 0 32
    (e.unit = (s.row p).unit → ¬(sc = 0 ∧ e.owner ≠ x.ctx) → ∃ t, exec (.lookupRecordRead f) s = .next t ∧
      Completed s t f x (if l.m = l.hashes.length then stOk else stPartial) (BitVec.ofNat 64 (l.m + e.handle.toNat % 2 ^ 40 * 2 ^ 24)) ∧
      (∀ i < 32, memRead t.t0 (out + i) = (lookRecord e l.m sc (fld x.b.toNat 0 16)).getD i 0) ∧ SameT0But out 32 s t) ∧
    (e.unit = (s.row p).unit → sc = 0 → e.owner ≠ x.ctx → ∃ t, exec (.lookupRecordRead f) s = .next t ∧ Completed s t f x stMiss 0 ∧ SameT0 s t) ∧
    (e.unit ≠ (s.row p).unit → ∃ t, exec (.lookupRecordRead f) s = .next t ∧ (t.row p).suspect = true ∧ SameT0 s t ∧
      (3 ≤ l.descents → Completed s t f x stMiss 0))

/-- OVERFLOW_WALK answers the walk that a LOOKUP waits for. A LOOKUP that waits for the walk of a block in a scope and holds a walk credit: the walk's
best match (or none) is noted and held, the LOOKUP waits for no walk and stalls no longer, and the credit goes back. A walk that finds no match notes
none. One that holds no credit, when one is free for it and no other waits: it takes the credit and stalls with cause SPINE_OVF. (06 R200; 01 R16) -/
def Obligations.OverflowWalkAnswers : Prop :=
  ∀ (s : State) (f b sc : Nat) (x : Flight) (l : Looking), s.stopped = false → s.flight? f = some x → x.job = .lookup l → l.walk = some (b, sc) →
    (x.holds.contains 8 = true →
      ∃ t y, exec (.overflowWalk f) s = .next t ∧ t.flight? f = some y ∧ y.stallOn = none ∧ y.holds = x.holds.erase 8 ∧
        (t.pool 8).used = (s.pool 8).used - 1 ∧
        let hit := (s.walkBest (lookKey x l b sc)).map (2 ^ 20 + ·)
        y.job = .lookup { l with walk := none, walked := (b, sc, hit) :: l.walked, hits := hit.toList ++ l.hits }) ∧
    (x.holds.contains 8 = false → s.creditFree x.ctx 8 = true → s.creditWaited f 8 = false →
      ∃ t y, exec (.overflowWalk f) s = .next t ∧ t.flight? f = some y ∧ y.stallOn = some .spineOvf ∧ y.holds = 8 :: x.holds ∧
        (t.pool 8).used = (s.pool 8).used + 1 ∧ y.job = x.job)

/-- PUBLISH commits its version or ends by the version already there; RETRACT frees the region. PUBLISH, its operations all done: the region is committed
under the new version with the new entries, and when it replaces no block of a longer version the PUBLISH ends with OK and the number of blocks. A
PUBLISH that has not begun, whose sequence is its own, sealed, hashed, scanned and not fenced, and whose region is committed and at rest, every
pseudo-channel working: an older version than the committed one ends with SUPERSEDED, the same version with the same last hash with OK, with another
with CONFLICT; RESULT is the committed version, or the number of blocks. RETRACT: with no such region NOT_FOUND; once its withdrawals are done the
record is free and it ends with OK and the number of blocks. (03 R88; 03 R90; 06 R206; 06 R207) -/
def Obligations.PublishAndRetractEnd : Prop :=
  ∀ (s : State) (f ri : Nat) (x : Flight),
    (Acts s f 0x14 x →
      (x.job = .publish ri 0 [] → s.opsLeft f = false → ∃ t, exec (.publish f) s = .next t ∧
        let r := s.region ri
        (t.region ri).committed = true ∧ (t.region ri).version = r.newVersion ∧ (t.region ri).entries = r.newEntries ∧ (t.region ri).hashes = r.newHashes ∧
        (r.entries.length ≤ (if r.committed then commonPrefix r.hashes r.newHashes else 0) →
          Completed s t f x stOk (BitVec.ofNat 64 r.newEntries.length) ∧ (t.region ri).publishing = false)) ∧
      (x.job = .none → x.walker.isSome = true → s.dev.pchDown = [] →
        let qi := sSeq x.a
        let q := s.seq qi
        let n := sBlock x.a
        let ver := fld x.b.toNat 32 32
        let heads := (q.entries.take n).map (·.base)
        s.seqCheck x.ctx qi = stOk → 0 < n → n ≤ q.entries.length →
        (∀ p ∈ q.rangePages 0 n 0 q.layers, (s.page p).state ≠ .openP ∧ (s.page p).formed = true) →
        (∀ p ∈ heads, (s.page p).formed = true ∧ (s.sum (s.page p).summary).hashed = true) →
        s.awl.queues.get (qi % 16) [] = [] → (∀ p ∈ s.flights, ∀ a b c d, p.2.job ≠ .append a b c d) →
        (∀ e ∈ q.entries.take n, e.fenced = false) →
        ∀ r, s.findRegion (fld x.c.toNat 0 16) (fld x.b.toNat 0 32) x.ctx = some (ri, r) → r.committed = true → r.retracting = false → r.publishing = false →
          let last := (s.sum (s.page (heads.getLastD 0)).summary).chain
          (ver < r.version → ∃ t, exec (.publish f) s = .next t ∧ Completed s t f x stSuperseded (BitVec.ofNat 64 r.version)) ∧
          (ver = r.version → r.hashes.getLastD 0 = last → ∃ t, exec (.publish f) s = .next t ∧ Completed s t f x stOk (BitVec.ofNat 64 n)) ∧
          (ver = r.version → r.hashes.getLastD 0 ≠ last → ∃ t, exec (.publish f) s = .next t ∧ Completed s t f x stConflict (BitVec.ofNat 64 r.version)))) ∧
    (Acts s f 0x15 x →
      (x.job = .retract ri [] → s.opsLeft f = false → ∃ t, exec (.retract f) s = .next t ∧
        Completed s t f x stOk (BitVec.ofNat 64 (s.region ri).entries.length) ∧ (t.region ri).used = false ∧ (t.region ri).committed = false) ∧
      (x.job = .none → s.findRegion (fld x.b.toNat 0 16) (fld x.a.toNat 0 32) x.ctx = none →
        ∃ t, exec (.retract f) s = .next t ∧ Completed s t f x stNotFound 0 ∧ CtxEnds s t f x stNotFound))

/-- The update engine inserts, carries and withdraws entries. The oldest operation of the update queue leaves it. SPINE_INSERTION, where no overflow entry
shares the key's partition and row group and placement finds a slot without a shift: the row holds the unit of the key with the PRIORITY of the page's
class, its row slot the region, version, block and owner, and the region's new position list names it. SPINE_CARRY of a block in the CAM: its row slot
has the new VERSION, HANDLE and RINDEX and nothing else new. SPINE_WITHDRAWAL of a block in the CAM whose segment no LOOKUP holds: the row is cleared;
where a reset recovers regions, more of its own withdrawals may follow in the queue. Where the device is not its own directory and no key waits for
the slice, no other row changes. The model's choices in it: log 26. (06 R203; 06 R206; 06 R207; 06 R204; notes/assumptions/26.md) -/
def Obligations.SpineUpdates : Prop :=
  ∀ (s : State) (f ri b p : Nat) (rest : List UpdOp), s.stopped = false → p < 2 ^ 20 →
    let r := s.region ri
    let plain := (s.net.role && s.net.selfPeer) = false ∧ s.spine.dirWait = []
    let rows (t : State) := plain → ∀ q, q ≠ p → t.row q = s.row q
    (s.spine.updq = .insert f ri b :: rest →
      let e := r.newEntries.getD b {}
      let key := prefixKey r.scope r.newHead.model r.newOwner (r.newHashes.getD b 0)
      s.ovfOf key = 0 → s.place203 1 0 key (2 ^ 128 - 1) = .slot p → ∃ t, exec .spineInsertion s = .next t ∧ t.spine.updq = rest ∧
        (t.region ri).newPlaces.get b 0 = p ∧ rows t ∧
        (plain → (t.row p).unit = mkUnit key (0xB00 - 0x100 * (s.page e.base).cls) false false ∧
          (t.row p).slot.unit = (t.row p).unit ∧ (t.row p).slot.region = r.rid ∧ (t.row p).slot.version = r.newVersion ∧ (t.row p).slot.block = b ∧
          (t.row p).slot.owner = r.newOwner ∧ (t.row p).slot.rindex = ri ∧ (t.row p).slot.serial = s.spine.serial)) ∧
    (s.spine.updq = .carry f ri b :: rest → r.places.find? (fun e => e.1 == b) = some (b, p) → ∃ t, exec .spineCarry s = .next t ∧ t.spine.updq = rest ∧
      (s.spine.dirWait = [] → (t.row p).unit = (s.row p).unit ∧
        (t.row p).slot = { (s.row p).slot with version := r.newVersion, handle := s.handle (r.newEntries.getD b {}).base, rindex := ri } ∧
        ∀ q, q ≠ p → t.row q = s.row q)) ∧
    (∀ l, s.spine.updq = .withdraw f ri b l :: rest → (r.listOf l).find? (fun e => e.1 == b) = some (b, p) → s.segHeld p = false →
      ∃ t more, exec .spineWithdrawal s = .next t ∧ t.spine.updq = rest ++ more ∧ (∀ o ∈ more, o.flight = 0) ∧
        ((∀ e ∈ s.spine.regions, e.2.recov = none) → more = []) ∧ rows t ∧
        (plain → (t.row p).unit = 0 ∧ (t.row p).suspect = false))

/-- The scrubber, probe searches, SP_BANK and SP_OVF. SCRUB_ROW, enabled: looks at the next row, modulo 1,048,576, changes no UNIT, and makes the row
suspect when its UNIT differs from its shadow copy; no other row changes. PROBE_SEARCH with GO and WIDTH at most 2: DONE is set; a hit is reported
exactly when some row matches, and then the reported position matches and no match has a higher PRIORITY. Without GO no result changes. SP_BANK_WRITE
of WIDTH and ROLE other than the bank's: applied when the bank holds no entry and no suspect row and the pair is (0, prefix), (1, directory) or WIDTH
2; else CFG_ERR is set and the bank stays. SP_OVF_WRITE of K from 10 to 24 with the table empty: K holds and the table is empty; with an entry in it,
or another K, nothing changes. The model's choices in it: logs 93, 148. (06 R210; 06 R213; 06 R215; 06 R216; notes/assumptions/93.md;
notes/assumptions/148.md) -/
def Obligations.ScrubProbeAndSpineRegisters : Prop :=
  ∀ (s : State) (bank : Nat) (v : BitVec 64), s.stopped = false →
    (s.spine.scrubEn = true → ∃ t, exec .scrubRow s = .next t ∧ t.spine.scrubAt = (s.spine.scrubAt + 1) % 1048576 ∧
      (∀ q, (t.row q).unit = (s.row q).unit ∧ (t.row q).slot = (s.row q).slot) ∧ (∀ q, q ≠ s.spine.scrubAt → t.row q = s.row q) ∧
      ((s.row s.spine.scrubAt).unit ≠ (s.row s.spine.scrubAt).slot.unit → (t.row s.spine.scrubAt).suspect = true)) ∧
    (let n := v.toNat
      let w := 2 ^ fld n 2 2
      let hits (q : Nat) : Prop := q ∈ s.spine.rows.keys ∧
        s.slotMatches w (fld n 4 1) (probeNum s.spine.probeKey) (Nat.land (probeNum s.spine.probeMask) (2 ^ (128 * w) - 1)) (bit n 5) q = true ∧
        (fld n 8 1 = 1 → fld n 16 20 < q)
      fld n 2 2 < 3 → ∃ t, exec (.probeSearch v) s = .next t ∧ t.spine.rows = s.spine.rows ∧
        (fld n 0 1 = 0 → t.spine.probeDone = s.spine.probeDone ∧ t.spine.probeHit = s.spine.probeHit ∧ t.spine.probePos = s.spine.probePos) ∧
        (fld n 0 1 = 1 → t.spine.probeDone = true ∧ (t.spine.probeHit = true ↔ ∃ q, hits q) ∧
          (t.spine.probeHit = true → hits t.spine.probePos ∧ ∀ q, hits q → uPrio (s.row q).unit ≤ uPrio (s.row t.spine.probePos).unit))) ∧
    (let w := fld v.toNat 0 2
      let r := fld v.toNat 2 1
      let b := s.bank bank
      bank < 128 → (w ≠ b.width ∨ r ≠ b.role) → ∃ t, exec (.spBankWrite bank v) s = .next t ∧ (∀ c, c ≠ bank → t.bank c = s.bank c) ∧
        if s.bankEntries bank = 0 ∧ s.bankSuspect bank = 0 ∧ ((w = 0 ∧ r = 0) ∨ (w = 1 ∧ r = 1) ∨ w = 2)
        then (t.bank bank).width = w ∧ (t.bank bank).role = r
        else (t.bank bank).width = b.width ∧ (t.bank bank).role = b.role ∧ (t.bank bank).cfgErr = true) ∧
    (let k := fld v.toNat 0 5
      let empty := ∀ e ∈ s.spine.ovf, uValid e.2.unit = false
      (empty → 10 ≤ k → k ≤ 24 → ∃ t, exec (.spOvfWrite v) s = .next t ∧ t.spine.k = k ∧ t.spine.ovf = [] ∧ t.spine.rows = s.spine.rows) ∧
      (¬ empty ∨ k < 10 ∨ 24 < k → exec (.spOvfWrite v) s = .next s))

/-- A worker reports its keys; the directory applies and answers. DIR_KEY_FLUSH on the queue pair to the directory, with keys queued: the oldest 2,044
keys, additions before deletions, leave their queues; in RTS they are the one message of type 4 that the queue pair then sends. DIR_KEY_MESSAGE, a
request that begins, from a worker's queue pair: the additions are made in order, then the deletions, and the answer is OK; an addition of one key
that the slice holds adds the worker to its WORKERS, once a credit of the update queue is free, and waits till then. DIR_LOOKUP that begins, from a
worker, with a granule that the worker's rules form: is answered with the status of the descent over the slice and the blocks it matched, with any
other granule with RANGE, and changes no entry; from a queue pair of no worker both are answered with PERMISSION. In RTS every answer leaves by the
queue pair. DIR_LOOKUP_RESPONSE with the answer of a LOOKUP that waits, and DIR_LOOKUP_TIMEOUT after MSG_US: the LOOKUP ends with its own status and
RESULT, its register is written, and only 32 bytes of T0 at its output offset + 32 change. The model's choices in it: logs 25, 102. (10 R331; 10 R332;
10 R333; notes/assumptions/25.md; notes/assumptions/102.md) -/
def Obligations.DirectoryMessages : Prop :=
  ∀ (s : State) (qp f : Nat), s.stopped = false →
    (s.net.worker = true → s.net.dirQp = qp → (s.net.dirAdds ≠ [] ∨ s.net.dirDels ≠ []) → ∃ t, exec (.dirKeyFlush qp) s = .next t ∧
      t.net.dirAdds = s.net.dirAdds.drop 2044 ∧ t.net.dirDels = s.net.dirDels.drop (2044 - s.net.dirAdds.length) ∧
      ((s.qp qp).state = .rts →
        let adds := s.net.dirAdds.take 2044
        let dels := s.net.dirDels.take (2044 - s.net.dirAdds.length)
        let keys := (adds ++ dels).flatMap fun k => leBytes 16 k.toNat
        Sends s t qp 2 (vangedHeader 4 false false true (s.qp qp).reqNext 0 0 0 (32 + 16 * (adds.length + dels.length)) ++
          leBytes 32 (adds.length + dels.length * 2 ^ 32) ++ keys))) ∧
    (∀ m rest, (s.qp qp).slots = m :: rest → qp < 65536 → (s.qp qp).state = .rts →
      let h := ofLe (m.take 32)
      fld h 16 1 = 0 → (s.qp qp).refuses h (vangedKind h) m.length (m.drop 32) = stOk → (s.ctx (s.qp qp).owner).state ≠ .orphaned →
      (vangedKind h = 20 →
        (s.workerOf qp = none → ∃ t, exec (.dirKeyMessage qp) s = .next t ∧ (t.qp qp).slots = rest ∧ t.spine = s.spine ∧ Responds s t qp 4 (fld h 32 32) stPermission) ∧
        (∀ w, s.workerOf qp = some w → ∃ t, exec (.dirKeyMessage qp) s = .next t ∧ (t.qp qp).slots = rest ∧ Responds s t qp 4 (fld h 32 32) stOk ∧
          let a := fld (ofLe ((m.drop 32).take 8)) 0 32
          let d := fld (ofLe ((m.drop 32).take 8)) 32 32
          let key (i : Nat) := BitVec.ofNat 128 (ofLe ((m.drop (64 + 16 * i)).take 16))
          t.spine = ((List.range d).foldl (fun u i => u.dirPut false w (key (a + i))) ((List.range a).foldl (fun u i => u.dirPut true w (key i)) s)).spine) ∧
        (∀ w k p, s.workerOf qp = some w → fld (ofLe ((m.drop 32).take 8)) 0 64 = 1 → k = ofLe ((m.drop 64).take 16) → s.dirSearch k = some p →
          ∃ t, exec (.dirKeyMessage qp) s = .next t ∧ (t.qp qp).slots = rest ∧ Responds s t qp 4 (fld h 32 32) stOk ∧
            if s.avail 9 = 0 then t.spine = { s.spine with dirWait := s.spine.dirWait ++ [(true, w, BitVec.ofNat 128 k)] }
            else s.spine.dirWait = [] → t.workersAt p = Nat.lor (s.workersAt p) (2 ^ w) % 2 ^ 64)) ∧
      (vangedKind h = 17 →
        (s.workerOf qp = none → ∃ t, exec (.dirLookup qp) s = .next t ∧ (t.qp qp).slots = rest ∧ Responds s t qp 1 (fld h 32 32) stPermission) ∧
        (∀ w, s.workerOf qp = some w →
          let body := m.drop 32
          let b := (bodyWord body 2).toNat
          let n := bCount (bodyWord body 1)
          let hash (i : Nat) := BitVec.ofNat 96 (ofLe ((body.drop (32 + 12 * i)).take 12))
          let k := descentOf (fun i => ((scopesOf b).filter (· != 0)).any fun sc => (s.dirSearch (prefixKey sc (fld b 0 16) 0 (hash i))).isSome) n (probes n) 0
          ∃ t, exec (.dirLookup qp) s = .next t ∧ (t.qp qp).slots = rest ∧ t.spine = s.spine ∧
            if dirGranuleOk body = true then Answers s t qp 1 (fld h 32 32) (if k = 0 then stMiss else if k = n then stOk else stPartial) (BitVec.ofNat 64 k)
            else Responds s t qp 1 (fld h 32 32) stRange))) ∧
    (∀ x st res record since n, s.flight? f = some x → x.job = .dirWait st res record since n → x.mirror = none →
      let out := (s.ctx x.ctx).outAddr + fld x.c.toNat 0 32 + 32
      (∀ m rest, qp = s.net.dirQp → (s.qp qp).slots = m :: rest → fld (ofLe (m.take 32)) 16 1 = 1 → fld (ofLe (m.take 32)) 8 8 = 1 →
        fld (ofLe (m.take 32)) 32 32 = n → (∀ p ∈ s.flights, ∀ a b c d, p.2.job = .dirWait a b c d n → p = (f, x)) →
        ∃ t, exec (.dirLookupResponse qp) s = .next t ∧ (t.qp qp).slots = rest ∧ Completed s t f x st res ∧ SameT0But out 32 s t) ∧
      (since + s.net.msgUs * 1050 ≤ s.now → ∃ t, exec (.dirLookupTimeout f) s = .next t ∧ Completed s t f x st res ∧ SameT0But out 32 s t))

/-- ATTACH adds shared entries, FORK makes a sharing sequence, RELEASE drops blocks. ATTACH, its record's checks passed, its region committed and space
found: the table of the sequence grows by the first n entries of the snapshot, shared, of the requested class, without hint, and it ends with RESULT n
and OK, or QUOTA when the context is then above its quota. FORK of blocks that are not open, into an absent sequence, with space found, every
pseudo-channel working: the new table holds them, shared, the source stays as it was, RESULT is their number. RELEASE, every pseudo-channel working,
of the whole sequence: it is absent afterwards; of blocks from b on: the table keeps the first b entries; it ends with OK. No other sequence changes.
The model's choices in it: logs 80, 145. (03 R84; 03 R86; 03 R87; 04 R150; notes/assumptions/80.md; notes/assumptions/145.md) -/
def Obligations.AttachForkRelease : Prop :=
  ∀ (s : State) (f : Nat) (x : Flight),
    let q := sSeq x.a
    let n := sBlock x.a
    (Acts s f 0x11 x → s.freeWalker.isSome = true → s.dev.pchDown = [] → ((s.seq q).state ≠ 0 → (s.seq q).owner = x.ctx) →
      let rec' := ofLe (s.t0Read ((s.ctx x.ctx).outAddr + fld x.b.toNat 0 32) 32)
      let count := fld x.c.toNat 0 24
      ∀ ri r, s.findRegion (fld rec' 88 16) (fld rec' 128 32) x.ctx = some (ri, r) → s.attachCheck x.ctx q n count rec' (some r) = stOk →
        let k := min (if count = 0 then fld rec' 64 24 else count) r.entries.length
        s.refRoom ((r.entries.take k).map (·.base)) r.layers = true → (s.attach x.ctx q k (fld x.c.toNat 24 2) (fld rec' 104 16) r).isSome = true →
          ∃ t, exec (.attach f) s = .next t ∧ Completed s t f x (t.quotaStatus x.ctx) (BitVec.ofNat 64 k) ∧
            (t.seq q).entries = (s.seq q).entries ++ (r.entries.take k).map (fun e =>
              { e with shared := true, cls := fld x.c.toNat 24 2, hint := 0, fenced := (s.seq q).fenceOn }) ∧
            ∀ p, p ≠ q → t.seq p = s.seq p) ∧
    (Acts s f 0x12 x → (∀ a b c d, x.job ≠ .append a b c d) → (∀ p l k, x.job ≠ .pages (p :: l) k) → s.freeWalker.isSome = true → s.dev.pchDown = [] → s.seqCheck x.ctx q = stOk → n ≤ (s.seq q).entries.length →
      let dst := fld x.b.toNat 0 24
      (s.seq dst).state = 0 → ((s.stream q).used && s.unscanned q) = false → (∀ e ∈ (s.seq q).entries.take n, e.isOpen = false) →
      s.refRoom (((s.seq q).entries.take n).map (·.base)) (s.seq q).layers = true → (∃ r, s.fork q dst n (fld x.b.toNat 24 2) = .ok r) →
        ∃ t, exec (.fork f) s = .next t ∧ Completed s t f x (t.quotaStatus x.ctx) (BitVec.ofNat 64 n) ∧
          (t.seq dst).entries = ((s.seq q).entries.take n).map (fun e => { e with shared := true }) ∧ (t.seq dst).owner = (s.seq q).owner ∧
          ∀ p, p ≠ dst → t.seq p = s.seq p) ∧
    (Acts s f 0x13 x → s.dev.pchDown = [] → s.seqCheck x.ctx q = stOk → n ≤ (s.seq q).entries.length → ((s.stream q).used && s.unscanned q) = false →
      (fld x.b.toNat 0 1 = 1 → ∃ t, exec (.release f) s = .next t ∧ Completed s t f x stOk 0 ∧
        (t.seq q).state = 0 ∧ (t.seq q).entries = [] ∧ ∀ p, p ≠ q → t.seq p = s.seq p) ∧
      (fld x.b.toNat 0 1 = 0 → (s.releaseTail q n).isSome = true → ∃ t, exec (.release f) s = .next t ∧ Completed s t f x stOk 0 ∧
        (t.seq q).entries = (s.seq q).entries.take n ∧ (t.seq q).owner = (s.seq q).owner ∧ ∀ p, p ≠ q → t.seq p = s.seq p))

/-- APPEND writes its tokens, layer-major, into the open pages of its sequence. An APPEND in SEQ mode to an unscreened sequence of its context whose k
tokens fit in its last block, none of whose pages is sealed or sealing, without filling a page, under a live gathering of its context, with every
pseudo-channel working, that waits for no landing and no earlier APPEND, and whose step boundaries have passed or that no gathering lists: it ends
with RESULT k and OK, or QUOTA above the quota. Layer by layer, LENGTH and TOKENS of the page reach past the tokens; where the pages' sheets do not
overlap, the bytes of the input stand in them; no byte of T0 outside those places changes. SEQ_APPEND_AT_STEP_BOUNDARY does the same for an APPEND
that is alone in flight and has passed its last boundary. The model's choices in it: log 78. (03 R92; 03 R93; 03 R94; 04 R135; 04 R140;
notes/assumptions/78.md) -/
def Obligations.AppendWritesTokens : Prop :=
  ∀ (s : State) (f : Nat) (x : Flight),
    let q := fld x.a.toNat 28 24
    let gi := gField x.a
    let y := s.seq q
    let k := bCount x.b
    let pos := nextPos y.entries y.tpp
    let b := pos / y.tpp
    let e := y.entries.getD b {}
    let loc (l : Nat) := (s.page (e.base + l)).location * 4096 + (pos - b * y.tpp) * y.ptok
    let done (t : State) : Prop := Completed s t f x (t.quotaStatus x.ctx) (BitVec.ofNat 64 k) ∧
      (∀ l < y.layers, (t.page (e.base + l)).length = max (s.page (e.base + l)).length ((pos - b * y.tpp + k) * y.ptok) ∧
        (t.page (e.base + l)).tokens = max (s.page (e.base + l)).tokens (pos - b * y.tpp + k)) ∧
      (∀ a, (∀ l < y.layers, a < loc l ∨ loc l + k * y.ptok ≤ a) → memRead t.t0 a = memRead s.t0 a) ∧
      ((∀ l < y.layers, ∀ m < y.layers, l ≠ m → loc l + k * y.ptok ≤ loc m ∨ loc m + k * y.ptok ≤ loc l) →
        ∀ l < y.layers, ∀ i < k * y.ptok, memRead t.t0 (loc l + i) = memRead s.t0 ((s.ctx x.ctx).inAddr + bOffset x.b + l * k * y.ptok + i))
    Acts s f 0x20 x → fld x.a.toNat 52 1 = 0 → (s.gath gi).live = true → (s.gath gi).owner = x.ctx → y.state = 1 → y.owner = x.ctx →
    bOffset x.b + y.layers * k * y.ptok ≤ (s.ctx x.ctx).inLen → 0 < k → 0 < y.tpp → pos + k ≤ 2 ^ 24 * y.tpp →
    b < y.entries.length → pos + k < (b + 1) * y.tpp → (∀ l < y.layers, (s.page (e.base + l)).length < y.ptok * y.tpp) → 0 < y.ptok →
    (∀ l < y.layers, (s.page (e.base + l)).closed = false) → (s.stream q).used = false → s.dev.pchDown = [] → s.appendBefore f x.ctx true [q] = false →
    (x.job = .boundary [] ∨ (x.job = .none ∧ bAwait x.b = false ∧ s.listing q = []) → ∃ t, exec (.append f) s = .next t ∧ done t) ∧
    (x.job = .boundary [] → s.flights = [(f, x)] → q ∈ (s.gath gi).members →
      ∃ t, exec (.seqAppendAtStepBoundary gi) s = .next t ∧ done t)

/-- SEAL, STAGE, HINT and DEMOTE. Every pseudo-channel working where tables are read. SEAL: with none of its pages still SEALING and none sealed with
POISON it ends with OK and the number of those sealed; with FINAL, on a sequence whose last block is not open and whose range has no page SEALING, the
sequence is CLOSED. STAGE: with every sealed page of its range in T0 it ends with OK and 0; with some elsewhere and none of those poisoned, a move is
asked for each; once they are there it ends with OK and their number. HINT: exactly the entries of its blocks take the hint and, with SETCLASS, the
class; it ends with OK; where the sequence's header cannot be read, it ends with POISONED and no sequence changes. DEMOTE: over pages that are all
passed over it ends with OK and counts them as skipped; once its moves have ended, with its counts of moved, skipped and failed pages. The model's
choices in it: log 107. (03 R96; 03 R97; 03 R98; 03 R492; 13 R415; notes/assumptions/107.md) -/
def Obligations.SealStageHintDemote : Prop :=
  ∀ (s : State) (f : Nat) (x : Flight),
    let q := sSeq x.a
    let y := s.seq q
    let b := sBlock x.a
    let n := fld x.b.toNat 0 24
    (Acts s f 0x21 x →
      (∀ ps, x.job = .sealing ps → (∀ p ∈ ps, (s.page p).state ≠ .sealing) → (∀ p ∈ ps, (s.page p).formed = true → (s.page p).poison = false) →
        ∃ t, exec (.seal f) s = .next t ∧ Completed s t f x stOk (BitVec.ofNat 64 (ps.filter fun p => (s.page p).formed).length)) ∧
      (x.job = .none → s.dev.pchDown = [] → s.seqCheck x.ctx q = stOk → b ≤ y.entries.length → fld x.b.toNat 0 1 = 1 → (y.entries.getLastD {}).isOpen = false →
        (∀ p ∈ y.rangePages 0 b 0 y.layers, (s.page p).state ≠ .sealing) → ∃ t, exec (.seal f) s = .next t ∧ Completed s t f x stOk 0 ∧
          (t.seq q).state = 2 ∧ (t.seq q).entries = y.entries)) ∧
    (Acts s f 0x22 x →
      (∀ k, x.job = .pages [] k → ∃ t, exec (.stage f) s = .next t ∧ Completed s t f x stOk (BitVec.ofNat 64 k)) ∧
      (x.job = .none → x.walker.isSome = true → s.dev.pchDown = [] → s.seqCheck x.ctx q = stOk → y.rangeOk b n (fld x.b.toNat 24 8) (fld x.b.toNat 32 8) = true →
        let ps := (y.rangePages b n (fld x.b.toNat 24 8) (layerCount y.layers (fld x.b.toNat 24 8) (fld x.b.toNat 32 8))).filter fun p => (s.page p).state == .sealed
        ((∀ p ∈ ps, (s.page p).tier = 0) → ∃ t, exec (.stage f) s = .next t ∧ Completed s t f x stOk 0) ∧
        ((∃ p ∈ ps, (s.page p).tier ≠ 0) → (∀ p ∈ ps, (s.page p).tier ≠ 0 → (s.page p).poison = false) → ∃ t, exec (.stage f) s = .next t ∧
          ∀ p ∈ ps, (s.page p).tier ≠ 0 → (t.moveOf p).isSome = true))) ∧
    (Acts s f 0x23 x → s.dev.pchDown = [] → s.seqCheck x.ctx q = stOk → b + n ≤ y.entries.length → ∃ t, exec (.hint f) s = .next t ∧ Completed s t f x stOk 0 ∧
      (t.seq q).entries.length = y.entries.length ∧
      ∀ i < y.entries.length, (t.seq q).entries.getD i {} =
        if b ≤ i ∧ i < b + n then { y.entries.getD i {} with hint := fld x.b.toNat 24 2, cls := if fld x.b.toNat 26 1 = 1 then fld x.b.toNat 27 2 else (y.entries.getD i {}).cls }
        else y.entries.getD i {}) ∧
    (Acts s f 0x23 x → ∀ a, s.lostOf [s.headAddr q] = some a → ∃ t, exec (.hint f) s = .next t ∧ Completed s t f x stPoisoned 0 ∧ t.ps.seqs = s.ps.seqs) ∧
    (Acts s f 0x24 x →
      (∀ m k bad, x.job = .demote [] m k bad → ∃ t, exec (.demote f) s = .next t ∧
        Completed s t f x stOk (BitVec.ofNat 64 (m % 2 ^ 32 + k % 65536 * 2 ^ 32 + bad % 65536 * 2 ^ 48))) ∧
      (x.job = .none → x.walker.isSome = true → s.dev.pchDown = [] → s.seqCheck x.ctx q = stOk → b + n ≤ y.entries.length →
        let ps := (y.rangePages b n 0 y.layers).eraseDups
        (∀ p ∈ ps, (s.page p).scope = 0) → (∀ p ∈ ps, s.demoteSkips p = true) → ∃ t, exec (.demote f) s = .next t ∧
          Completed s t f x stOk (BitVec.ofNat 64 (ps.length % 65536 * 2 ^ 32))))

/-- DELIVER writes the stored bytes of its pages to the output buffer. A DELIVER of a ring, of a context that is not confidential, in raw form to its
output buffer, its record and range in order, every page in T0 and not poisoned and at most 65,536 bytes long, every pseudo-channel working: it ends
with OK and the number of pages; page i stands at the destination + 65,536 i, and no byte of T0 outside those places changes. A DELIVER that waits for
acknowledgements ends, when nothing it sent is outstanding, with the status and RESULT it had. (03 R99; 03 R492; 10 R305) -/
def Obligations.DeliverWritesPages : Prop :=
  ∀ (s : State) (f : Nat) (x : Flight), Acts s f 0x25 x →
    (∀ st res cw, x.job = .writes st res cw → s.outstanding f = false → ∃ t, exec (.deliver f) s = .next t ∧ Completed s t f x st res) ∧
    (let y := s.seq (sSeq x.a)
      let d := ofLe (s.t0Read ((s.ctx x.ctx).inAddr + fld x.c.toNat 0 32) 32)
      let ps := y.rangePages (sBlock x.a) (fld x.b.toNat 0 24) (fld x.b.toNat 24 8) (layerCount y.layers (fld x.b.toNat 24 8) (fld x.b.toNat 32 8))
      let out (i : Nat) := (s.ctx x.ctx).outAddr + fld d 64 64 + 65536 * i
      let len (i : Nat) := (s.page (ps.getD i 0)).length
      x.job = .none → x.mirror = none → x.walker.isSome = true → (s.ctx x.ctx).conf = false → s.dev.pchDown = [] → s.outstanding f = false →
      s.seqCheck x.ctx (sSeq x.a) = stOk → y.rangeOk (sBlock x.a) (fld x.b.toNat 0 24) (fld x.b.toNat 24 8) (fld x.b.toNat 32 8) = true →
      fld d 0 4 = 0 → fld d 18 14 = 0 → fld d 128 128 = 0 → fld d 64 64 + 65536 * ps.length ≤ (s.ctx x.ctx).outLen →
      (∀ p ∈ ps, (s.page p).tier = 0 ∧ (s.page p).poison = false ∧ (s.page p).length ≤ 65536) →
      ∃ t, exec (.deliver f) s = .next t ∧ Completed s t f x stOk (BitVec.ofNat 64 ps.length) ∧
        (∀ i < ps.length, ∀ j < len i, memRead t.t0 (out i + j) = memRead s.t0 ((s.page (ps.getD i 0)).location * 4096 + j)) ∧
        ∀ a, (∀ i < ps.length, a < out i ∨ out i + len i ≤ a) → memRead t.t0 a = memRead s.t0 a)

/-- The Press takes, seals and hashes pages. Every pseudo-channel working. PRESS_SEAL of a working idle pipeline that no weight pass needs, with a walker
slot free and a page in the state SEALING first in the seal queue: the pipeline takes that page and the queue moves on. PAGE_SEALED of a pipeline that
holds a page in the state SEALING, with space for its coded form, or for the coded sheets of a raw escape: the page is SEALED and readable in its
sealed form, the pipeline is idle and one seal-queue credit has returned. CHAIN_HASH_FORMED: the first waiting page that waits no longer leaves the
list; when its parent's hash is there, its record holds the chain hash of R129, and so it does for the first page of the list where that has no block
before it or the block before it is hashed. (09 R281; 04 R121; 04 R125; 04 R130) -/
def Obligations.PressSealsPages : Prop :=
  ∀ (s : State) (pipe p : Nat), s.stopped = false → s.dev.pchDown = [] →
    (pipe < 8 → s.dev.pressDown.get pipe false = false → s.press.pipes.get pipe 0 = 0 → s.passesFirst = false → s.freeWalker.isSome = true →
      ∀ r, s.press.queue = p :: r → (s.page p).state = .sealing → ∃ t, exec (.pressSeal pipe) s = .next t ∧
        t.press.queue = r ∧ t.press.pipes.get pipe 0 = p + 1 ∧ t.ps.pages = s.ps.pages ∧ ∀ k, k ≠ pipe → t.press.pipes.get k 0 = s.press.pipes.get k 0) ∧
    (s.press.pipes.get pipe 0 = p + 1 → (s.page p).state = .sealing →
      let g := s.page p
      let fl := s.press.pipeFlags.get pipe 0
      let form := storedForm g.format (s.t0Read (g.location * 4096) g.length) (bit fl 0 || bit fl 1 || g.length == 0)
      let sheets := cdiv g.length 4096
      (∀ n, (if form.2 = false then n = cdiv form.1.length 4096 else if bit fl 0 = true then n = 0 else if bit fl 1 = true then n ≤ sheets else n = sheets) →
        (form.2 = true ∧ n = 0) ∨ ∀ k, ({ s with free := k }.takePool n true).isSome = true) → ∃ t, exec (.pageSealed pipe) s = .next t ∧
        (t.page p).state = .sealed ∧ (t.page p).formed = true ∧ (t.page p).raw = form.2 ∧ (t.page p).length = form.1.length ∧
        (t.page p).poison = (g.poison || bit fl 1) ∧ t.press.pipes.get pipe 0 = 0 ∧ t.press.pipeWalker.get pipe 0 = 0 ∧
        (t.pool 316).used = (s.pool 316).used - 1) ∧
    (s.press.hashWait.find? (fun p => !(s.formHash p).2) = some p → ∃ t, exec .chainHashFormed s = .next t ∧ t.press.hashWait = s.press.hashWait.erase p ∧
      ∀ h b, s.parentHash p = (some h, b) → (t.sum (s.page p).summary).hashed = true ∧
        (t.sum (s.page p).summary).chain = chainHash h (s.page p).origin.model (s.sum (s.page p).summary).ids) ∧
    (∀ rest h, s.press.hashWait = p :: rest →
      (let o := (s.page p).origin
        let g := s.page (o.prev - 1)
        (o.prev = 0 ∧ h = 0) ∨ (o.prev ≠ 0 ∧ g.version = o.prevVer ∧ g.state ≠ .free ∧ (s.sum g.summary).hashed = true ∧ h = (s.sum g.summary).chain)) →
      ∃ t, exec .chainHashFormed s = .next t ∧ t.press.hashWait = rest ∧ (t.sum (s.page p).summary).hashed = true ∧
        (t.sum (s.page p).summary).chain = chainHash h (s.page p).origin.model (s.sum (s.page p).summary).ids)

/-- DIGEST writes its digest; a passed retirement frees its objects. A DIGEST of a context that is not confidential, waiting for no landing, with a
working pipeline between pages, every pseudo-channel working and the bytes after its parent hash 0: it ends with OK and the number of bytes written;
SHA384 writes the SHA-384 digest of its bytes, CHAIN the chain hashes of its blocks of token IDs one after another; no other byte of T0 changes.
RETIREMENT_FREE, when PS_OLDEST is above the oldest retirement's tag, every pseudo-channel working: the retirement is gone, each of its pages is FREE
and, where it holds no clear copy, each of its POOL runs free; when not, nothing changes. (03 R107; 04 R138; 04 R121) -/
def Obligations.DigestAndFreeing : Prop :=
  ∀ (s : State) (f : Nat) (x : Flight),
    (Acts s f 0x38 x → x.mirror = none → (s.ctx x.ctx).conf = false → bAwait x.b = false → s.dev.pchDown = [] →
      (∃ i < 8, s.dev.pressDown.get i false = false ∧ s.press.pipes.get i 0 = 0) →
      let n := bCount x.b
      let src := (s.ctx x.ctx).inAddr + bOffset x.b
      let dst := (s.ctx x.ctx).outAddr + fld x.c.toNat 0 32
      let tpb := fld x.a.toNat 8 8
      let head := if fld x.a.toNat 2 1 = 1 then 0 else 32
      (fld x.a.toNat 0 2 = 0 → head = 32 → ofLe (s.t0Read (src + 12) 20) = 0) →
      let out := if fld x.a.toNat 0 2 = 0
        then digestChain (fld x.a.toNat 16 16) (if head = 0 then 0 else BitVec.ofNat 96 (ofLe (s.t0Read src 12)))
          (chunks (4 * tpb) n (s.t0Read (src + head) (4 * tpb * n)))
        else sha384 (s.t0Read src n)
      ∃ t, exec (.digest f) s = .next t ∧ Completed s t f x stOk (BitVec.ofNat 64 out.length) ∧
        (∀ i < out.length, memRead t.t0 (dst + i) = out.getD i 0) ∧ SameT0But dst out.length s t) ∧
    (∀ r rest, s.stopped = false → s.ps.retired = r :: rest →
      (r.tag < s.oldest → s.dev.pchDown = [] → ∃ t, exec .retirementFree s = .next t ∧ t.ps.retired = rest ∧ (∀ p ∈ r.pages, (t.page p).state = .free) ∧
        (r.clear = [] → (∀ a ∈ r.pool, t.ps.poolRuns.get a 0 = 0) ∧ SameT0 s t)) ∧
      (s.oldest ≤ r.tag → exec .retirementFree s = .next s))

/-- GSET creates, replaces and dissolves a gathering. A GSET whose record passes its checks, every pseudo-channel working. Create, of a gathering that is
not live, with sheets for a latent window beside the landing reserve: the gathering is live, its owner the context, its record and members those of
the input buffer, its counters 0, a step snapshot held; it ends with OK. Of a live one: BUSY, a refusal, which enters the empty latch of its ring.
Update of a live gathering of the context: record and members are replaced, the counters stay. Dissolve: the gathering is gone, and every WAIT that
names it has ended with NOT_FOUND. Update and dissolve of one not live end with NOT_FOUND. Registers change only as the instruction's own ending says,
where no APPEND waits for a step boundary. The model's choices in it: log 127. (03 R102; 04 R139; 04 R140; 05 R173; 03 R78; notes/assumptions/127.md) -/
def Obligations.GatheringCommands : Prop :=
  ∀ (s : State) (f : Nat) (x : Flight), Acts s f 0x40 x → x.job = .none →
    let gi := gField x.a
    let off := fld x.b.toNat 0 32
    let g := parseGRec (s.readGRec x.ctx off).1
    let ok := s.gsetCheck x.ctx off = stOk ∧ s.dev.pchDown = []
    let quiet := ∀ p ∈ s.flights, ∀ gs, p.2.job ≠ .boundary gs
    let ends (t : State) (st : BitVec 16) : Prop := Ends t f st 0 ∧ (quiet → Completed s t f x st 0)
    (fld x.a.toNat 12 2 = 0 → ok →
      ((s.gath gi).live = true → ∃ t, exec (.gsetCreate f) s = .next t ∧ ends t stBusy ∧ CtxEnds s t f x stBusy ∧ t.gath gi = s.gath gi) ∧
      ((s.gath gi).live = false → (g.latent = true → s.windowSheets g ≠ 0 ∧ s.windowSheets g ≤ s.freeSheets ∧ s.tier.landing < s.freeSheets) →
        ∃ t, exec (.gsetCreate f) s = .next t ∧ ends t stOk ∧ (t.gath gi).live = true ∧ (t.gath gi).owner = x.ctx ∧ (t.gath gi).grec = g ∧
          (t.gath gi).members = (s.readGRec x.ctx off).2 ∧ (t.gath gi).step = 0 ∧ (t.gath gi).layer = 0 ∧ (t.gath gi).hold.isSome = true)) ∧
    (fld x.a.toNat 12 2 = 1 →
      ((s.gath gi).live = false → ∃ t, exec (.gsetUpdate f) s = .next t ∧ ends t stNotFound) ∧
      (ok → (s.gath gi).live = true → (s.gath gi).owner = x.ctx → ∃ t, exec (.gsetUpdate f) s = .next t ∧ ends t stOk ∧
        (t.gath gi).grec = g ∧ (t.gath gi).members = (s.readGRec x.ctx off).2 ∧ (t.gath gi).step = (s.gath gi).step ∧
        (t.gath gi).layer = (s.gath gi).layer ∧ (t.gath gi).live = true ∧ (t.gath gi).owner = x.ctx)) ∧
    (fld x.a.toNat 12 2 = 2 →
      ((s.gath gi).live = false → ∃ t, exec (.gsetDissolve f) s = .next t ∧ ends t stNotFound) ∧
      ((s.gath gi).live = true → (s.gath gi).owner = x.ctx → ∃ t, exec (.gsetDissolve f) s = .next t ∧ ends t stOk ∧ (t.gath gi).live = false ∧
        ∀ h y, s.flight? h = some y → wOpcode y.word = 0x02 → y.phase ≠ .ended → y.job = .none → fld y.a.toNat 0 8 = 1 → gField y.a = gi →
          Ends t h stNotFound 0))

/-- STEP and the Kettle doorbell set a gathering's position, and a step hold expires. STEP to a live gathering of the issuing context's function, of a
mirrored one its queue pair's, with LAYERV below its layers and a position not before the present one: the gathering stands at (STEPV, LAYERV) and
STEP ends with OK and STEPV. Otherwise it ends with NOT_FOUND, PERMISSION, RANGE or STALE, and the gathering stays. KETTLE_DOORBELL: the step value
meant is the smallest not below the present one with those low 44 bits; under the same checks the position is set, and otherwise, or with fewer than 8
bytes, no gathering changes and KETTLE_IGNORED is raised. STEP_HOLD_EXPIRED, PS_HOLD_LIMIT µs after the hold began: the gathering holds no snapshot
and STEP_HOLD_EXPIRED of its function is raised; before, nothing changes. (03 R103; 05 R168; 04 R139; 04 R141; 13 R422) -/
def Obligations.PositionsOnlyMoveOn : Prop :=
  ∀ (s : State) (f : Nat) (x : Flight) (gi fn bytes : Nat) (v : BitVec 64),
    let ok (fn gi step layer : Nat) : Prop := (s.gath gi).live = true ∧ s.fnOf (s.gath gi).owner = fn ∧ layer < (s.gath gi).grec.layers ∧
      ((s.gath gi).step < step ∨ (step = (s.gath gi).step ∧ (s.gath gi).layer ≤ layer))
    let raised (t : State) (i fn : Nat) : Prop := (t.fn fn).cnt.get i 0 = min ((s.fn fn).cnt.get i 0 + 1) 0xFFFFFFFFFFFFFFFF
    (Acts s f 0x33 x → x.job = .none →
      let g := gField x.a
      let layer := fld x.c.toNat 0 8
      let mine := match x.mirror with | some (q, _) => (s.qp q).function | none => s.fnOf x.ctx
      (ok mine g x.b.toNat layer → ∃ t, exec (.step f) s = .next t ∧ (t.gath g).step = x.b.toNat ∧ (t.gath g).layer = layer ∧ Ends t f stOk x.b ∧
        ((∀ p ∈ s.flights, ∀ gs, p.2.job ≠ .boundary gs) → Completed s t f x stOk x.b)) ∧
      (¬ ok mine g x.b.toNat layer → ∃ t, exec (.step f) s = .next t ∧ t.gaths = s.gaths ∧
        ∃ st, (st = stNotFound ∨ st = stPermission ∨ st = stRange ∨ st = stStale) ∧ Completed s t f x st 0)) ∧
    (s.stopped = false →
      let g := fld v.toNat 52 12
      let step := stepFrom (s.gath g).step (fld v.toNat 0 44)
      ((s.gath g).step ≤ step ∧ step < (s.gath g).step + 2 ^ 44 ∧ step % 2 ^ 44 = fld v.toNat 0 44) ∧
      (bytes = 8 → ok fn g step (fld v.toNat 44 8) → ∃ t, exec (.kettleDoorbell fn v bytes) s = .next t ∧
        (t.gath g).step = step ∧ (t.gath g).layer = fld v.toNat 44 8) ∧
      (bytes ≠ 8 ∨ ¬ ok fn g step (fld v.toNat 44 8) → ∃ t, exec (.kettleDoorbell fn v bytes) s = .next t ∧ t.gaths = s.gaths ∧ raised t 1 fn)) ∧
    (s.stopped = false →
      let g := s.gath gi
      let due := g.hold.isSome = true ∧ g.holdLimit ≠ 0 ∧ g.holdAt + g.holdLimit * 1050 ≤ s.now
      (due → ∃ t, exec (.stepHoldExpired gi) s = .next t ∧ (t.gath gi).hold = none ∧ (t.gath gi).snap = [] ∧ raised t 2 (s.fnOf g.owner)) ∧
      (¬ due → exec (.stepHoldExpired gi) s = .next s))

/-- ATTEND writes its output and its partial sets. An ATTEND of a ring, of a context that is not confidential, of a gathering that is not latent, with its
output in T0 only, whose pages are selected, all in T0 and readable, every pseudo-channel working and the Folio clocks not gated by a thermal trip: it
ends with OK, or BUDGET when the governor reduced its selection, and the page counts of R108 in RESULT. The output of R265 over its members and heads
stands at OUT, the partial set after it at the next multiple of 32 bytes; no byte of T0 outside them changes. Where the host wrote the bias table
while the ATTEND ran, the bytes are undefined (R246) and the rest stands. One that waits for acknowledgements ends as it then had when nothing it sent
is outstanding; one that runs when a unit of its set is marked unavailable ends with UNIT_UNAVAILABLE; one whose gathering, layer, unit or buffers
fail their checks ends with the check's status. The model's choices in it: log 106. (03 R104; 03 R108; 08 R253; 08 R265; notes/assumptions/106.md) -/
def Obligations.AttendWritesItsOutput : Prop :=
  ∀ (s : State) (f : Nat) (x : Flight), Acts s f 0x30 x →
    let gi := gField x.a
    let layer := fld x.a.toNat 0 8
    (∀ st res cw, x.job = .writes st res cw → s.outstanding f = false → ∃ t, exec (.attend f) s = .next t ∧ Completed s t f x st res) ∧
    (x.job = .none → s.gathCheck x.ctx gi layer ≠ stOk → ∃ t, exec (.attend f) s = .next t ∧ Completed s t f x (s.gathCheck x.ctx gi layer) 0) ∧
    (x.job = .none → s.gathCheck x.ctx gi layer = stOk → s.attendCheck x (s.gath gi) ≠ stOk →
      ∃ t, exec (.attend f) s = .next t ∧ Completed s t f x (s.attendCheck x (s.gath gi)) 0) ∧
    (∀ w a, x.job = .attend w a → s.unitDown a.grec.qmask = true → ∃ t, exec (.attend f) s = .next t ∧ Completed s t f x stUnavailable 0) ∧
    (∀ a ps, x.job = .attend [] a → s.unitDown a.grec.qmask = false → s.pwr.tripped = false → a.grec.latent = false → a.selected = true → a.grec.odest = 0 → x.mirror = none → (s.ctx x.ctx).conf = false →
      s.dev.pchDown = [] → s.outstanding f = false → (∀ p ∈ a.pages, (s.page p).tier = 0) → s.payloads a a.pages = .ok ps →
      let g := a.grec
      let l := s.copyLayer a layer
      let rows := (ps.map fun p => (p.1, tokenRows g g.tpp p.2)).foldl (fun t p => Tbl.put t p.1 p.2) []
      let r := packResults g l ((List.range (g.members * g.qheads)).map fun k => attendHead a l rows (k / max g.qheads 1) (k % max g.qheads 1))
      let set := setHeader g layer ++ r.2
      let base := (s.ctx x.ctx).outAddr + fld x.c.toNat 0 32
      ∃ t, exec (.attend f) s = .next t ∧ Completed s t f x (if a.reduced then stBudget else stOk) a.result ∧
        (a.spoiled = false → ∀ i < r.1.length, memRead t.t0 (base + i) = r.1.getD i 0) ∧
        (a.spoiled = false → ∀ i < set.length, memRead t.t0 (base + round32 r.1.length + i) = set.getD i 0) ∧
        SameT0But base (round32 r.1.length + set.length) s t)

/-- COMBINE writes the merged output; LOADW records layers; a weight pass decrypts a page. COMBINE of a ring, of a context that is not confidential, its
output in T0 only, its gathering and ranges in order, its Quires held and clocked, waiting for no landing, every pseudo-channel working and every set
in order: it ends with OK and p; the output merged from the p sets stands at OUT and no other byte of T0 changes. LOADW whose checks pass, every
pseudo-channel working, with a place of its own for each layer and references found: each layer of its range has a record with its pages, slot and
owner; it ends with OK. WEIGHT_PASS of a page of a recorded layer that has a clear copy, an idle pipeline and an installed key: an intact page's plain
bytes stand in the copy at 65,488 times its number, no other byte of T0 changes, and the page has passed; with a key that is not the layer's, the
layer has failed with PERMISSION. The model's choices in it: log 24. (03 R105; 03 R106; 09 R292; 09 R293; 09 R295; notes/assumptions/24.md) -/
def Obligations.CombineAndWeights : Prop :=
  ∀ (s : State) (f : Nat) (x : Flight),
    (Acts s f 0x31 x →
      (∀ st res cw, x.job = .writes st res cw → s.outstanding f = false → ∃ t, exec (.combine f) s = .next t ∧ Completed s t f x st res) ∧
      (let gi := gField x.a
        let layer := fld x.a.toNat 0 8
        let g := (s.gath gi).grec
        let c := s.ctx x.ctx
        let p := bCount x.b
        let sets := chunks g.setBytes p (s.t0Read (c.inAddr + bOffset x.b) (p * g.setBytes))
        let data := unelements 2 ((List.range (g.members * g.qheads)).flatMap (combineHead g sets))
        x.job = .none → x.mirror = none → c.conf = false → s.gathCheck x.ctx gi layer = stOk → bOffset x.b + p * g.setBytes ≤ c.inLen →
        fld x.c.toNat 0 32 + g.outBytes ≤ c.outLen → s.quiresHeld f g.qmask = true → s.pwr.tripped = false → bAwait x.b = false → s.dev.pchDown = [] → g.odest = 0 →
        (∀ b ∈ sets, setOk g layer b = true) → s.outstanding f = false → ∃ t, exec (.combine f) s = .next t ∧ Completed s t f x stOk (BitVec.ofNat 64 p) ∧
          (∀ i < data.length, memRead t.t0 (c.outAddr + fld x.c.toNat 0 32 + i) = data.getD i 0) ∧
          SameT0But (c.outAddr + fld x.c.toNat 0 32) data.length s t)) ∧
    (Acts s f 0x32 x →
      let a := x.a.toNat
      let l0 := fld a 16 8
      let n := fld a 24 8
      let slot := fld a 32 8
      let page := fld x.b.toNat 0 40
      let ppl := fld x.c.toNat 0 16
      let pages := (List.range (n * ppl)).map (page + ·)
      s.dev.pchDown = [] → l0 + n ≤ 256 → s.slotActivating slot = false → s.slotFor slot (s.fnOf x.ctx) = true →
      (∀ p ∈ pages, s.pageExists p = true ∧ (s.page p).state ≠ .retiring ∧ (s.page p).format = 0x10 ∧ (s.page p).refcount < 2 ^ 24 - 1) →
      (s.addRefs pages).isSome = true → ∀ places, s.wrecPlaces (fld a 0 16) l0 n = some places → (places.map (·.2)).Nodup →
        ∃ t, exec (.loadw f) s = .next t ∧ Completed s t f x stOk 0 ∧
          ∀ i < n, ∃ k r, t.wrecOf (fld a 0 16) (l0 + i) = some (k, r) ∧ r.page = page + ppl * i ∧ r.ppl = ppl ∧ r.slot = slot ∧ r.owner = x.ctx) ∧
    (∀ i page run, s.stopped = false →
      let r := s.fq.wrecs.get i {}
      let g := s.page page
      let k := page - r.page
      i < 4096 → r.clear = some run → r.valid = true → r.failed = 0 → r.page ≤ page → k < r.ppl → k ∉ r.passed → g.tier = 0 → g.state = .sealed →
      (∃ p < 8, s.dev.pressDown.get p false = false ∧ s.press.pipes.get p 0 = 0) → s.slotActivating r.slot = false →
      ((s.slotFor r.slot (s.fnOf r.owner) = false ∨ (s.kslot r.slot).keygen ≠ r.keygen) → ∃ t, exec (.weightPass i page) s = .next t ∧
        (t.fq.wrecs.get i {}).failed = stPermission ∧ (t.fq.wrecs.get i {}).passed = r.passed ∧ SameT0 s t) ∧
      (s.slotFor r.slot (s.fnOf r.owner) = true → (s.kslot r.slot).keygen = r.keygen → g.poison = false → s.dev.pchDown = [] →
        let b := s.pageBytes page
        let n := fld (ofLe (b.take 32)) 64 17
        let key := leBytes 32 (s.kslot r.slot).key.toNat
        let iv := (b.drop 12).take 12
        let ct := (b.drop 32).take n
        envelopeOk (ofLe (b.take 32)) r k g.length = true → gcmTag key iv (b.take 32) ct = (b.drop (32 + n)).take 16 →
          ∃ t, exec (.weightPass i page) s = .next t ∧ (t.fq.wrecs.get i {}).passed = k :: r.passed ∧
            (∀ j < (gcmCrypt key iv ct).length, memRead t.t0 (run * 4096 + 65488 * k + j) = (gcmCrypt key iv ct).getD j 0) ∧
            SameT0But (run * 4096 + 65488 * k) (gcmCrypt key iv ct).length s t))

/-- CONTEXT_ENABLE, RESUME, CONTEXT_RESET and CONTEXT_RESET_FINISHED. CONTEXT_ENABLE of a DISABLED context: with a descriptor that passes its checks it is
IDLE, and a confidential one has a new key and a KEYGEN one higher; else it stays DISABLED with CFG_ERR. RESUME, by the descriptor or the owner's
window, of a STOPPED one: ACTIVE when a ring has work or something is in flight, else IDLE, with FAULT_MORE 0; of another, nothing changes.
CONTEXT_RESET of one that is not DISABLED: RESETTING; once the reset runs its registers read 0, its VTIME is 0 and its key is erased.
CONTEXT_RESET_FINISHED, nothing of it left: DISABLED, not resident, with the completion ring's counters and its registers 0, and no instruction of its
rings in flight. The model's choices in it: log 11. (02 R29; 02 R34; 13 R405; 12 R374; notes/assumptions/11.md) -/
def Obligations.EnableResumeReset : Prop :=
  ∀ (s : State) (c bar fn : Nat), s.stopped = false →
    let x := s.ctx c
    let k := s.sec.ctxs.get c {}
    (c < 1024 → x.state = .disabled →
      (s.enableOk c = true → ∃ t, exec (.contextEnable c) s = .next t ∧ (t.ctx c).state = .idle ∧ (∀ d, d ≠ c → t.ctx d = s.ctx d) ∧
        (x.conf = true → (t.sec.ctxs.get c {}).keyValid = true ∧ (t.sec.ctxs.get c {}).keygen = (k.keygen + 1) % 65536)) ∧
      (s.enableOk c = false → ∃ t, exec (.contextEnable c) s = .next t ∧ t.ctx c = { x with cfgErr := true } ∧ OnlyChanges [.ctxs] s t)) ∧
    ((bar = 0 ∨ x.function = fn) →
      (x.state = .stopped → ∃ t, exec (.resume bar fn c) s = .next t ∧ (t.ctx c).faultMore = 0 ∧ (∀ d, d ≠ c → t.ctx d = s.ctx d) ∧
        (t.ctx c).state = (if x.rings.any (fun r => r.2.enable && r.2.fetch != r.2.tail) || s.inFlight c then .active else .idle)) ∧
      (x.state ≠ .stopped → exec (.resume bar fn c) s = .next s)) ∧
    (x.state ≠ .disabled → x.state ≠ .resetting → x.resetAt = none → ∃ t, exec (.contextReset c) s = .next t ∧ (t.ctx c).state = .resetting ∧
      (s.resetsRunning = 0 → (t.ctx c).resetAt = some s.now) ∧
      ((t.ctx c).resetAt.isSome = true → (∀ n, (t.ctx c).reg n = 0) ∧ (t.ctx c).vtime = 0 ∧
        (t.sec.ctxs.get c {}).keyValid = false ∧ (t.sec.ctxs.get c {}).keygen = k.keygen)) ∧
    (x.state = .resetting → x.resetAt.isSome = true → (s.retractOwn c).resetDone c = true → ∃ t, exec (.contextResetFinished c) s = .next t ∧
      (t.ctx c).state = .disabled ∧ (t.ctx c).resident = false ∧ (t.ctx c).ctail = 0 ∧ (t.ctx c).chead = 0 ∧ (∀ n, (t.ctx c).reg n = 0) ∧
      ∀ f y, t.flight? f = some y → y.ctx = c → y.mirror.isSome = true)

/-- The scheduler gives slots, credits and Quires in its order. SLOT_GRANT, with a slot free and an eligible context that wants one: one of the eligible
contexts with the lowest VTIME is resident in the lowest free slot, and no other context changes. CONTEXT_SWAP_OUT of the slot of the context that the
rule names, none being free: that context is not resident. SCHEDULER_TICK: VTIME of each resident context rises by 4,096 ÷ SHARE, at least 1, and no
other VTIME changes. CREDIT_GRANT, with an instruction waiting that may take a free credit, of the search queues the one with most of them: one of
those of the lowest VTIME holds it, waits no longer, and the pool has one more in use. QUIRE_GRANT, not after a thermal trip, when the first waiter's
whole set is free: it holds every Quire of its set and has begun. The credit status register of a pool reads its free credits as AVAIL, or 0 where the
pool does not exist or its unit is unavailable. (13 R395; 13 R396; 13 R397; 02 R36; 02 R40; 01 R19; 01 R20) -/
def Obligations.SchedulerGrants : Prop :=
  ∀ (s : State) (slot pool f i w c : Nat), s.stopped = false →
    let eligible (d : Nat) : Prop := s.wants d = true ∧ ((s.fn (s.fnOf d)).maxSlots = 0 ∨ s.slotsOf (s.fnOf d) < (s.fn (s.fnOf d)).maxSlots)
    let best (d : Nat) : Prop := 8 ≤ pool ∨ ∀ j < 8, s.creditFree d j = true → s.avail j < s.avail pool ∨ (s.avail j = s.avail pool ∧ pool ≤ j)
    let waits (p : Nat × Flight) : Prop := p.2.phase ≠ .ended ∧ p.2.awaits pool = true ∧ s.creditFree p.2.ctx pool = true ∧ best p.2.ctx
    ((∃ p ∈ s.ctxs, eligible p.1) → s.freeSlot = some i → ∃ t d, exec .slotGrant s = .next t ∧ eligible d ∧
      (∀ p ∈ s.ctxs, eligible p.1 → (s.ctx d).vtime ≤ (s.ctx p.1).vtime) ∧ (t.ctx d).resident = true ∧ (t.ctx d).slot = i ∧ (t.ctx d).vtime = (s.ctx d).vtime ∧
      ∀ e, e ≠ d → t.ctx e = s.ctx e) ∧
    (s.nextWanting = some w → s.freeSlot = none → s.leaver w = some c → (s.ctx c).slot = slot → ∃ t, exec (.contextSwapOut slot) s = .next t ∧
      (t.ctx c).resident = false ∧ (t.ctx c).state = (s.ctx c).state ∧ (∀ n, (t.ctx c).reg n = (s.ctx c).reg n) ∧ ∀ e, e ≠ c → t.ctx e = s.ctx e) ∧
    (∃ t, exec .schedulerTick s = .next t ∧ ∀ d, (t.ctx d).vtime = (s.ctx d).vtime + s.residents.count d * max 1 (4096 / max (s.ctx d).share 1)) ∧
    ((∃ p ∈ s.flights, waits p) → ∃ t, exec (.creditGrant pool) s = .next t ∧ (t.pool pool).used = (s.pool pool).used + 1 ∧
      ∃ p ∈ s.flights, waits p ∧ (∀ q ∈ s.flights, waits q → (s.ctx p.2.ctx).vtime ≤ (s.ctx q.2.ctx).vtime) ∧
        (t.flight p.1).holds = pool :: (s.flight p.1).holds ∧ (t.flight p.1).wantCredit = none) ∧
    (s.pwr.tripped = false → s.firstFlight (s.flights.filter s.quireWaiter) = some f →
      let m := quiresOf (s.gath (gField (s.flight f).a)).grec.qmask
      (∀ q ∈ m, s.fq.held.get q 0 = 0) → ∃ t, exec .quireGrant s = .next t ∧ (∀ q ∈ m, t.fq.held.get q 0 = f + 1) ∧
        (t.flight f).phase = .begun ∧ ∀ q, q ∉ m → t.fq.held.get q 0 = s.fq.held.get q 0) ∧
    (s.poolExists pool = false → s.creditStatus pool = 0) ∧ (s.poolExists pool = true → fld (s.creditStatus pool).toNat 0 16 = s.avail pool)

/-- Heartbeats, host loss and leases. HEARTBEAT of 8 bytes of an enabled function: one beat more, up to 2^32 - 1, at the present time; of fewer, nothing
changes. HEARTBEAT_TIMEOUT, HB_MS after the last beat of an enabled function that is not silent: the function is ORPHANED, each IDLE, ACTIVE or
STOPPED context of it is ORPHANED, and HB_TIMEOUT is raised; before, nothing changes. ORPHAN_HOLD_EXPIRED, HOLD_S after the context was orphaned,
every pseudo-channel working: every block of its sequences is requested T0-with-spill and cold. LEASE_EXPIRED, LOCK_US after the holder's last
progress: the holder ends with ABORTED and writes no register, and a PUBLISH that has not committed never does: the region stays under the version it
had; before, nothing changes. The model's choices in it: logs 17, 141. (13 R400; 13 R401; 13 R402; 13 R410; notes/assumptions/17.md;
notes/assumptions/141.md) -/
def Obligations.HostLossAndLeases : Prop :=
  ∀ (s : State) (fn bytes c f kind o : Nat) (x : Flight), s.stopped = false →
    let u := s.fn fn
    let raised (t : State) (i g : Nat) : Prop := (t.fn g).cnt.get i 0 = min ((s.fn g).cnt.get i 0 + 1) 0xFFFFFFFFFFFFFFFF
    (bytes = 8 → u.enabled = true → ∃ t, exec (.heartbeat fn bytes) s = .next t ∧
      t.fn fn = { u with beats := min (u.beats + 1) 0xFFFFFFFF, beatAt := s.now, silent := false } ∧ ∀ g, g ≠ fn → t.fn g = s.fn g) ∧
    (bytes ≠ 8 → exec (.heartbeat fn bytes) s = .next s) ∧
    (let due := u.enabled = true ∧ u.hbMs ≠ 0 ∧ u.silent = false ∧ u.beatAt + u.hbMs * 1050000 ≤ s.now;
      (due → ∃ t, exec (.heartbeatTimeout fn) s = .next t ∧ (t.fn fn).orphaned = true ∧ raised t 27 fn ∧
        ∀ d, (s.ctx d).function = fn → ((s.ctx d).state = .idle ∨ (s.ctx d).state = .active ∨ (s.ctx d).state = .stopped) →
          (t.ctx d).state = .orphaned) ∧
      (¬ due → exec (.heartbeatTimeout fn) s = .next s)) ∧
    (∀ since, (s.ctx c).orphanAt = some since → (s.ctx c).state = .orphaned → since + (s.fn (s.ctx c).function).holdS * secCycles ≤ s.now →
      s.dev.pchDown = [] → ∃ t, exec (.orphanHoldExpired c) s = .next t ∧ (t.ctx c).orphanAt = none ∧
        ∀ q, (s.seq q).state ≠ 0 → (s.seq q).owner = c → ∀ e ∈ (t.seq q).entries, e.cls = 1 ∧ e.hint = 2) ∧
    (s.flight? f = some x → s.lease f kind = some o → x.phase ≠ .ended →
      (x.progress + s.lockUs * 1050 ≤ s.now →
        ∃ t, exec (.leaseExpired f kind) s = .next t ∧ Completed s t f x stAborted 0 ∧ raised t 28 (s.fnOf x.ctx) ∧
          ∀ ri todo, x.job = .publish ri 0 todo → (t.region ri).committed = (s.region ri).committed ∧
            ((s.region ri).committed = true → (t.region ri).version = (s.region ri).version ∧ (t.region ri).entries = (s.region ri).entries)) ∧
      (s.now < x.progress + s.lockUs * 1050 → exec (.leaseExpired f kind) s = .next s))

/-- FUNCTION_LEVEL_RESET resets what a function owns; a write of VF Enable and NumVFs makes and resets virtual functions. FUNCTION_LEVEL_RESET of an
enabled function: every context of it that was not DISABLED is RESETTING, every queue pair of its own is in RESET, its signal counters, counters and
overflow bits are 0, MSI-X is disabled and ORPHANED is clear. VF_CONFIG_WRITE: VF Enable and NumVFs, at most 255, are as written, and virtual function
n is enabled exactly when VF Enable is 1 and n is at most NumVFs. On a link that is not configuration-ready either is answered with Retry Status and
does nothing. The model's choices in it: log 14. (13 R392; 13 R393; 13 R407; 13 R408; 15 R459; notes/assumptions/14.md) -/
def Obligations.FunctionResets : Prop :=
  ∀ (s : State) (fn num : Nat) (enable : Bool), s.stopped = false →
    ((s.fn fn).enabled = true → fn ≠ 0 → s.dev.cfgOpen (s.linkOf fn) = true → ∃ t, exec (.functionLevelReset fn) s = .next t ∧
      (∀ c, (s.ctx c).function = fn → (s.ctx c).state ≠ .disabled → (t.ctx c).state = .resetting) ∧
      (∀ q, (s.qp q).function = fn → (t.qp q).state = .reset) ∧
      (t.fn fn).sig = [] ∧ (t.fn fn).cnt = [] ∧ (t.fn fn).cntOvf = [] ∧ (t.fn fn).msixEn = false ∧ (t.fn fn).orphaned = false ∧
      (t.fn fn).enabled = true) ∧
    (s.dev.cfgOpen 0 = true → ∃ t, exec (.vfConfigWrite enable num) s = .next t ∧ t.dev.vfEnable = enable ∧ t.dev.numVfs = min num 255 ∧
      ∀ n, 1 ≤ n → n ≤ 255 → ((t.fn n).enabled = true ↔ enable = true ∧ n ≤ num)) ∧
    (s.dev.cfgOpen (s.linkOf fn) = false → exec (.functionLevelReset fn) s = .next (s.emitOut (.cfgAnswer 1))) ∧
    (s.dev.cfgOpen 0 = false → exec (.vfConfigWrite enable num) s = .next (s.emitOut (.cfgAnswer 1)))

/-- Vector ranges, messages, counters and the error ring's head. FN_VEC_WRITE: a range that may be given is applied, with the vector of errors; another
sets CFG_ERR and leaves the range. MSIX_HOLDOFF_EXPIRY, its holdoff elapsed: the device vector has nothing pending, and an enabled, unmasked entry's
message has left. MSIX_UNMASK: the entry is unmasked; a kept request of it is sent, once, when MSI-X is enabled, the function not masked and the entry
one of its vectors. CNT_CMD: the named counter and its overflow bit are 0, and no other counter changes. SIG_CLEAR: exactly the signal counters of the
mask are 0. ERR_HEAD_WRITE: HEAD holds the value unless that lies beyond TAIL. The model's choices in it: logs 60, 61. (13 R394; 13 R398; 13 R399; 13
R421; 13 R424; 16 R486; notes/assumptions/60.md; notes/assumptions/61.md) -/
def Obligations.InterruptsAndCounters : Prop :=
  ∀ (s : State) (fn vm entry : Nat) (v : BitVec 64), s.stopped = false →
    let u := s.fn fn
    let n := v.toNat
    (fn < 256 → ∃ t, exec (.fnVecWrite fn v) s = .next t ∧ (∀ g, g ≠ fn → t.fn g = s.fn g) ∧
      if (fld n 0 14 = u.vecBase ∧ fld n 16 12 = u.vecCount) ∨ s.rangeOk fn (fld n 0 14) (fld n 16 12) = true
      then t.fn fn = { u with vecBase := fld n 0 14, vecCount := fld n 16 12, errVector := fld n 32 11 } else t.fn fn = { u with cfgErr := true }) ∧
    (∀ g w, s.fns.find? (fun p => decide (p.2.vecBase ≤ vm ∧ vm < p.2.vecBase + p.2.vecCount)) = some (g, w) →
      let x := s.vms.get vm {}
      let e := (s.fn g).msix.get (vm - w.vecBase) {}
      x.pending ≠ 0 → x.first + x.least * 1050 ≤ s.now → ∃ t, exec (.msixHoldoffExpiry vm) s = .next t ∧ (t.vms.get vm {}).pending = 0 ∧
        ((s.fn g).msixEn = true → (s.fn g).fnMask = false → e.unmasked = true → .msix g e.addr e.data ∈ t.out)) ∧
    (entry < 2048 → ∃ t, exec (.msixUnmask fn entry) s = .next t ∧ ((t.fn fn).msix.get entry {}).unmasked = true ∧
      let e := u.msix.get entry {}
      (e.pending = true → u.msixEn = true → u.fnMask = false → entry < u.vecCount → ((t.fn fn).msix.get entry {}).pending = false ∧ .msix fn e.addr e.data ∈ t.out) ∧
      (e.pending = false → t.out = s.out)) ∧
    (∃ t, exec (.cntCmd v) s = .next t ∧
      (fld n 8 1 = 1 → t.err.cnt.get (fld n 0 6) 0 = 0 ∧ t.err.ovf.get (fld n 0 6) false = false ∧ t.fns = s.fns ∧
        ∀ i, i ≠ fld n 0 6 → t.err.cnt.get i 0 = s.err.cnt.get i 0) ∧
      (fld n 8 1 = 0 → (t.fn (fld n 16 8)).cnt.get (fld n 0 6) 0 = 0 ∧ (t.fn (fld n 16 8)).cntOvf.get (fld n 0 6) false = false ∧ t.err = s.err ∧
        ∀ g i, (g ≠ fld n 16 8 ∨ i ≠ fld n 0 6) → (t.fn g).cnt.get i 0 = (s.fn g).cnt.get i 0)) ∧
    (∃ t, exec (.sigClear fn v) s = .next t ∧ (∀ g, g ≠ fn → t.fn g = s.fn g) ∧ (t.fn fn).cnt = u.cnt ∧
      ∀ i, (t.fn fn).sig.get i 0 = if v.getLsbD i then 0 else u.sig.get i 0) ∧
    (∃ t, exec (.errHeadWrite v) s = .next t ∧ t.err.tail = s.err.tail ∧ t.err.ring = s.err.ring ∧
      t.err.head = if (s.err.tail + 2 ^ 32 - fld n 0 32) % 2 ^ 32 < 2 ^ 31 then fld n 0 32 else s.err.head)

/-- A completion of an upstream read delivers ring entries, or stops the context. UPSTREAM_READ_COMPLETION of a ring with m entries asked for: with data,
the m entries of 32 bytes follow what the ring had fetched, FETCH moves on by m and no read is outstanding; with a failure of an ACTIVE context's
fetch, the context is STOPPED and FAULT_STATUS is REMOTE_ACCESS, TIMEOUT or POISONED for UR or CA, timeout and poison. A completion of a read that was
cancelled delivers nothing and stops nothing; a failed one is recorded. A ring with nothing asked for does not change. A swap-area read whose data
verify brings its page into T0, of a move that the Kettle did not ask for and a page that is not cold or that a reader awaits on demand, and its move
is over; a failed one leaves it where it was, and every instruction that waits for it, a STAGE, FORK, DELIVER or ATTEND, ends with TIER_FAIL, or
POISONED of a poisoned read and of a FORK. The model's choices in it: logs 59, 132. (13 R416; 02 R44; 05 R177; notes/assumptions/59.md;
notes/assumptions/132.md) -/
def Obligations.UpstreamCompletions : Prop :=
  ∀ (s : State) (c ring page result : Nat) (data : List (BitVec 8)), s.stopped = false →
    let r := (s.ctx c).ring ring
    (r.stray = [] → r.reading ≠ 0 → r.fetch < 65536 → ∃ t, exec (.upstreamReadCompletion false c ring page result data) s = .next t ∧
      ((t.ctx c).ring ring).reading = 0 ∧
      (result = 0 → ((t.ctx c).ring ring).fetch = (r.fetch + r.reading) % 65536 ∧
        ((t.ctx c).ring ring).fetched = r.fetched ++ (List.range r.reading).map fun i =>
          { index := (r.fetch + i) % 65536, granule := granOf ((data.drop (32 * i)).take 32) }) ∧
      (result ≠ 0 → (s.ctx c).state = .active → (t.ctx c).state = .stopped ∧ (t.ctx c).faultRing = ring ∧
        (t.ctx c).faultStatus = if result = 2 then stTimeout else if result = 3 then stPoisoned else stRemote)) ∧
    (r.stray = [] → r.reading = 0 → exec (.upstreamReadCompletion false c ring page result data) s = .next s) ∧
    (∀ i rest, r.stray = i :: rest → ∃ t, exec (.upstreamReadCompletion false c ring page result data) s = .next t ∧
      (t.ctx c).ring ring = { r with stray := rest } ∧ (t.ctx c).state = (s.ctx c).state ∧ t.flights = s.flights ∧
      (result = 0 → t.err = s.err) ∧ (result ≠ 0 → s.recordFull = false →
        let e := t.err.ring.get (s.err.tail % 1024) {}
        e.cls = 2 ∧ e.source = 0x0A ∧ e.code = 0x10 ∧ e.object = r.entryAddr i)) ∧
    (∀ m, s.moveOf page = some m → m.started = true → m.kind.inward = true → m.tier = 3 → s.dev.pchDown = [] →
      (∀ b, m.byKettle = false → ((s.page page).hint ≠ 2 ∨ (m.kind = .demand ∧ s.awaited page = true)) →
        data.length = (s.page page).sheets * 4096 → s.openRun m data = some b → ∃ t, exec (.upstreamReadCompletion true c ring page 0 data) s = .next t ∧
          (t.page page).tier = 0 ∧ (t.page page).location = m.landing ∧ t.moveOf page = none) ∧
      (1 ≤ result → result ≤ 3 → ∃ t, exec (.upstreamReadCompletion true c ring page result data) s = .next t ∧ t.moveOf page = none ∧
        (t.page page).tier = (s.page page).tier ∧ (t.page page).location = (s.page page).location ∧ (result = 3 → (t.page page).poison = true) ∧
        ∀ f y, s.flight? f = some y → page ∈ y.job.waits → Ends t f (if result = 3 ∨ wOpcode y.word = 0x12 then stPoisoned else stTierFail) 0))

/-- Inward moves start, land, fail and time out. Every pseudo-channel working. GATHERER_MOVE_START, the Gatherer working: the first waiting move in order,
an inward one of a page below T0 that is sealed, or retires while an instruction waits for it, that holds its queue credit and finds port credits, a
bounce buffer and a Press pipeline where it needs them, a walker slot and a landing run, has started and the page is MOVING. INWARD_MOVE_LANDED of a
move that the Kettle did not ask for, with data that verify, in T1 after the granule code, of a page that is not cold or that a reader awaits on
demand: the page is in T0 at its landing run, which holds the plain bytes, its move is over, and each instruction that waits for it, a STAGE, FORK,
DELIVER or ATTEND, waits for one page fewer. INWARD_MOVE_FAILED and TIER_READ_TIMEOUT after the tier's timeout: the page stays in its tier, its move
is over, and the instructions that wait for it end with TIER_FAIL, or POISONED for a poisoned read of T1 or of the swap area, which poisons the page;
a FORK with POISONED. DEMAND_LANDING_TIMEOUT, no landing run within that time: they end with TIMEOUT, a FORK with POISONED. The model's choices in it:
logs 107, 132. (05 R165; 05 R166; 05 R167; 05 R164; notes/assumptions/107.md; notes/assumptions/132.md) -/
def Obligations.InwardMoves : Prop :=
  ∀ (s : State) (page : Nat) (m : Move), s.stopped = false → s.dev.pchDown = [] → s.moveOf page = some m →
    let g := s.page page
    let failed (t : State) (st : BitVec 16) : Prop := t.moveOf page = none ∧ (t.page page).tier = g.tier ∧ (t.page page).location = g.location ∧
      ∀ f y, s.flight? f = some y → page ∈ y.job.waits → Ends t f (if wOpcode y.word = 0x12 then stPoisoned else st) 0
    let due := s.tierTimeout m.tier
    (s.dev.engineDown.get 4 false = false → (∃ r, sortBy Move.before (s.tier.moves.filter fun m => !m.started) = m :: r) → m.kind.inward = true → m.credit ≠ 0 →
      (g.state = .sealed ∨ (g.state = .retiring ∧ s.awaited page = true)) → g.tier ≠ 0 → (g.tier = 3 ∨ (s.port (s.locPort g.tier g.location)).avail = true) →
      s.portReady g.tier (s.locPort g.tier g.location) g.sheets = true → (g.tier = 1 ∨ (s.bounceFree = true ∧ s.passesFirst = false)) → s.freeWalker.isSome = true →
      (m.kind = .stage → s.tier.landing < s.freeSheets) → (s.takePool g.sheets false).isSome = true → ∃ t m', exec .gathererMoveStart s = .next t ∧ t.moveOf page = some m' ∧ m'.started = true ∧
        m'.kind = m.kind ∧ m'.tier = g.tier ∧ m'.loc = g.location ∧ (t.page page).moving = true ∧ (t.page page).tier = g.tier) ∧
    (∀ data c b, m.started = true → m.kind.inward = true → m.byKettle = false → (g.hint ≠ 2 ∨ (m.kind = .demand ∧ s.awaited page = true)) →
      data.length = g.sheets * (if m.tier = 1 then 4608 else 4096) → (s.tierRead m data).2 = some c → s.openRun m c = some b →
      ∃ t, exec (.inwardMoveLanded page data) s = .next t ∧ (t.page page).tier = 0 ∧ (t.page page).location = m.landing ∧ t.moveOf page = none ∧
        (∀ i < b.length, memRead t.t0 (m.landing * 4096 + i) = b.getD i 0) ∧ SameT0But (m.landing * 4096) b.length s t ∧
        ∀ f y, s.flight? f = some y → page ∈ y.job.waits → ∃ z, t.flight? f = some z ∧ z.job = y.job.without page ∧ z.job.waits = y.job.waits.erase page) ∧
    (∀ cause, m.started = true → m.kind.inward = true → ∃ t, exec (.inwardMoveFailed page cause) s = .next t ∧
      (if cause = 1 ∧ m.tier ≠ 2 then failed t stPoisoned ∧ (t.page page).poison = true else failed t stTierFail ∧ (t.page page).poison = g.poison)) ∧
    (m.started = true → m.kind.inward = true →
      (m.since + due ≤ s.now → ∃ t, exec (.tierReadTimeout page) s = .next t ∧ failed t stTierFail) ∧
      (s.now < m.since + due → exec (.tierReadTimeout page) s = .next s)) ∧
    (m.started = false → m.kind = .demand → g.tier ≠ 0 →
      (m.asked + s.tierTimeout g.tier ≤ s.now → s.takePool g.sheets false = none → ∃ t, exec (.demandLandingTimeout page) s = .next t ∧ failed t stTimeout) ∧
      (s.now < m.asked + s.tierTimeout g.tier → exec (.demandLandingTimeout page) s = .next s))

/-- Outward moves end, and a reclaim pass drops copies. OUTWARD_MOVE_DONE of a started outward move that was not abandoned, every pseudo-channel working:
its move is over; for a page that is not T0-pinned the home copy is recorded, and a spill or demotion not asked back drops the T0 copy of a page that
is not RETIRING: the page is at its home. OUTWARD_WRITE_FAIL, and TIER_WRITE_TIMEOUT of a T2 write after T2_US: the move is over, or a placement asked
for where the page's class has come to need one, the page is where it was, the port's WRITE_ERR is set but for the swap area, and WRITE_FAIL is
raised. RECLAIM_PASS: with its goal reached the pass is over and nothing else changes; a pass that is not in progress does not start with FREE_SHEETS
at least LOW; else no page changes its state, only copies that may be dropped are dropped, and, every pseudo-channel working, the first of them in the
order key is; with none, on the LG-8160 with spills enabled, the first page that a port can take, and that has or finds an auxiliary record, is asked
to spill. The model's choices in it: log 134. (05 R165; 05 R166; 05 R181; 05 R161; notes/assumptions/134.md) -/
def Obligations.OutwardMoves : Prop :=
  ∀ (s : State) (page : Nat), s.stopped = false →
    let g := s.page page
    (∀ m, s.moveOf page = some m → m.started = true → m.kind.inward = false →
      let placed := m.kind ≠ .placement ∧ 2 ≤ g.cls ∧ g.state = .sealed ∧ g.tier = 0 ∧ g.poison = false
      let failed (t : State) : Prop := (¬ placed → t.moveOf page = none) ∧
        (placed → ∃ m', t.moveOf page = some m' ∧ m'.kind = .placement ∧ m'.started = false) ∧ (t.page page).tier = g.tier ∧ (t.page page).location = g.location ∧
        (m.tier ≠ 3 → (t.port m.port).writeErr = true) ∧ t.err.cnt.get 14 0 = min (s.err.cnt.get 14 0 + 1) 0xFFFFFFFFFFFFFFFF
      (m.abandoned = false → s.dev.pchDown = [] → ∃ t, exec (.outwardMoveDone page) s = .next t ∧ t.moveOf page = none ∧
        (g.cls ≠ 0 → g.aux ≠ 0 → (t.auxRec g.aux).homeTier = m.tier ∧ (t.auxRec g.aux).homeLoc = m.loc ∧
          (g.state ≠ .retiring → m.kind ≠ .placement → m.keep = false → g.tier = 0 → m.tier ≠ 0 →
            (t.page page).tier = m.tier ∧ (t.page page).location = m.loc))) ∧
      (∃ t, exec (.outwardWriteFail page) s = .next t ∧ failed t) ∧
      (m.tier = 2 → (m.since + s.tier.t2us * 1050 ≤ s.now → ∃ t, exec (.tierWriteTimeout page) s = .next t ∧ failed t) ∧
        (s.now < m.since + s.tier.t2us * 1050 → exec (.tierWriteTimeout page) s = .next s))) ∧
    (s.passDone = true → exec .reclaimPass s = .next { s with tier := { s.tier with passing := false } }) ∧
    (s.passDone = false → s.tier.passing = false → s.tier.low ≤ s.freeSheets → exec .reclaimPass s = .next s) ∧
    (s.passDone = false → (s.tier.passing = true ∨ s.freeSheets < s.tier.low) →
      let drops := sortBy s.keyBefore ((s.ps.pages.filter fun p => s.canDrop p.1).map (·.1))
      ∃ t, exec .reclaimPass s = .next t ∧ (∀ p, (t.page p).state = (s.page p).state) ∧
        (∀ p, (t.page p).tier ≠ (s.page p).tier → s.canDrop p = true) ∧
        (s.dev.pchDown = [] → ∀ p r, drops = p :: r → (t.page p).tier = s.homeTier p) ∧
        (drops = [] → s.tier.spillEn = true → s.small = false → ∀ p, s.nextSpill = some p → (t.moveOf p).isSome = true))

/-- Awl commands load, unload, bind and unbind automata; a token scan runs the automata of its stream. No Awl command running: a context that may not act
for a policy ends each of the four commands with PERMISSION, and only STATUS changes. AWL_LOAD of a slot in use ends with BUSY, of an offset that is
no multiple of 32 with RANGE; of a valid image with a run of POOL free it ends with OK, the slot holds the image's fields and owner, and the run holds
the image's bytes. AWL_UNLOAD: NOT_FOUND, BUSY while used, else the slot is empty. AWL_BIND: NOT_FOUND, POISONED, else the entry names the automaton;
AWL_UNBIND clears it. AWL_TOKEN_SCAN of an available engine, every pseudo-channel working: the oldest token leaves the queue with its credit, NEXTPOS
rises by 1, each entry with an automaton that is not poisoned takes its transition, and an accepting one fences the blocks from MAXLEN tokens back on.
The model's choices in it: log 87. (07 R219; 07 R221; 07 R222; 07 R223; 07 R225; 07 R232; 07 R226; 01 R17; notes/assumptions/87.md) -/
def Obligations.AwlCommandsAndScan : Prop :=
  ∀ (s : State) (c a off target entry e : Nat), s.stopped = false →
    let x := s.ctx c
    let acting := x.policy = true ∧ (x.state = .idle ∨ x.state = .active ∨ x.state = .stopped)
    let ends (o : Host.Outcome State Fault Refusal) (st : BitVec 16) : Prop := ∃ t, o = .next t ∧ t.awl = { s.awl with status := st } ∧ OnlyChanges [.awl] s t
    let addr := x.inAddr + off
    let h := ofLe (s.t0Read addr 64)
    let img := parseAuto h
    let b := 4 * target + entry
    (s.awl.loading = none →
      (¬ acting → ends (exec (.awlLoad c a off) s) stPermission ∧ ends (exec (.awlUnload c a) s) stPermission ∧
        ends (exec (.awlBind c a target entry) s) stPermission ∧ ends (exec (.awlUnbind c a target entry) s) stPermission) ∧
      (acting →
        ((s.auto a).loaded = true → ends (exec (.awlLoad c a off) s) stBusy ∧
          (s.autoUsed a = true → ends (exec (.awlUnload c a) s) stBusy) ∧
          (s.autoUsed a = false → ∃ t, exec (.awlUnload c a) s = .next t ∧ t.awl.status = stOk ∧ t.auto a = {} ∧ ∀ d, d ≠ a → t.auto d = s.auto d) ∧
          ((s.auto a).poison = true → ends (exec (.awlBind c a target entry) s) stPoisoned) ∧
          ((s.auto a).poison = false → ∃ t, exec (.awlBind c a target entry) s = .next t ∧ t.awl.status = stOk ∧
            t.awl.binds.get b 0 = a + 1 ∧ ∀ k, k ≠ b → t.awl.binds.get k 0 = s.awl.binds.get k 0)) ∧
        ((s.auto a).loaded = false → ends (exec (.awlUnload c a) s) stNotFound ∧ ends (exec (.awlBind c a target entry) s) stNotFound ∧
          (off % 32 ≠ 0 ∨ x.inLen < off + 64 → ends (exec (.awlLoad c a off) s) stRange) ∧
          (off % 32 = 0 → off + 64 ≤ x.inLen → s.dev.pchDown = [] → autoHeaderOk h = true → off + img.imageLen ≤ x.inLen →
            autoBodyOk img (s.t0Read addr img.imageLen) = true → ∀ run u, s.takeRun (cdiv img.imageLen 4096) = some (run, u) →
            ∃ t, exec (.awlLoad c a off) s = .next t ∧ t.awl.status = stOk ∧ t.auto a = { img with owner := c, sheet := run } ∧
              (∀ d, d ≠ a → t.auto d = s.auto d) ∧ SameT0But (run * 4096) img.imageLen s t ∧
              ∀ i < img.imageLen, memRead t.t0 (run * 4096 + i) = memRead s.t0 (addr + i))) ∧
        (∃ t, exec (.awlUnbind c a target entry) s = .next t ∧ t.awl.status = stOk ∧ t.awl.binds.get b 0 = 0 ∧
          ∀ k, k ≠ b → t.awl.binds.get k 0 = s.awl.binds.get k 0))) ∧
    (∀ k rest, s.awl.queues.get e [] = k :: rest → s.dev.awlDown.get e false = false → s.dev.pchDown = [] → (s.stream k.seq).used = true →
      ∃ t, exec (.awlTokenScan e) s = .next t ∧ t.awl.queues.get e [] = rest ∧ (t.pool (317 + e)).used = (s.pool (317 + e)).used - 1 ∧
        (t.stream k.seq).nextPos = (s.stream k.seq).nextPos + 1 ∧
        ∀ n < 4, ∀ g, (s.stream k.seq).autos.get n 0 = g + 1 → (s.auto g).poison = false →
          let next := s.autoStep (s.auto g) ((s.stream k.seq).states.get n 0) k.id
          (t.stream k.seq).states.get n 0 = next.1 ∧
          (next.2 = true → (t.seq k.seq).fenceOn = true ∧
            ∀ i, (k.pos + 1 - (s.auto g).maxlen) / max (s.seq k.seq).tpp 1 ≤ i → i < (s.seq k.seq).entries.length →
              ((t.seq k.seq).entries.getD i {}).fenced = true))

/-- Queue pair commands read, replace and move a queue pair, or end with RANGE or PERMISSION. On a queue pair of another function, a command written in a
function's window ends with PERMISSION and changes no queue pair. Else: QP_READ copies the 512 bits of the context into the data words. QP_WRITE
replaces the context in RESET, TO_INIT makes a checked context INIT if its subscriber is of its function (else PERMISSION), TO_RTR leads from INIT to
RTR, TO_RTS from RTR to RTS with EXPECT 1, CREDIT REQ_WINDOW and every window W_INIT, TO_RESET from INIT or ERROR to RESET, TO_ERROR from RTR or RTS
to ERROR with cause 0x08, each with OK; from any other state, or with a check failed, the command ends with RANGE and changes no queue pair. (10 R302;
10 R303; 10 R304; 10 R309; 10 R318; 10 R334; 16 R488) -/
def Obligations.QueuePairCommands : Prop :=
  ∀ (s : State) (bar fn qp : Nat), s.stopped = false →
    let q := qp % 16384
    let k := if bar = 0 then 0 else fn + 1
    let x := s.qp q
    let fails (c : Instr) (st : BitVec 16) : Prop := ∃ t, exec c s = .next t ∧ (t.cmdSet k).qpStatus = st ∧ OnlyChanges [.net] s t ∧ t.net.qps = s.net.qps
    let goes (c : Instr) (y : Qp) : Prop := ∃ t, exec c s = .next t ∧ (t.cmdSet k).qpStatus = stOk ∧ t.qp q = y ∧ ∀ p, p ≠ q → t.qp p = s.qp p
    let all : List Instr := [.qpRead bar fn qp, .qpWrite bar fn qp, .toInit bar fn qp, .toRtr bar fn qp, .toRts bar fn qp, .toReset bar fn qp, .toError bar fn qp]
    (bar ≠ 0 → x.function ≠ fn → ∀ c ∈ all, fails c stPermission) ∧
    (bar = 0 ∨ x.function = fn →
      (∃ t, exec (.qpRead bar fn qp) s = .next t ∧ (t.cmdSet k).qpStatus = stOk ∧ t.net.qps = s.net.qps ∧
        ∀ i < 8, (t.cmdSet k).data.get i 0 = BitVec.ofNat 64 (fld x.context (64 * i) 64)) ∧
      (if x.state = .reset then goes (.qpWrite bar fn qp) (x.fromContext (s.cmdSet k).dataBits) else fails (.qpWrite bar fn qp) stRange) ∧
      (if x.state = .reset ∧ s.initOk q = true then
        if (s.sub x.subscriber).function = x.function then
          ∃ t, exec (.toInit bar fn qp) s = .next t ∧ (t.cmdSet k).qpStatus = stOk ∧ (t.qp q).state = .init ∧ (t.qp q).context = x.context + 1 ∧
            ∀ p, p ≠ q → t.qp p = s.qp p
        else fails (.toInit bar fn qp) stPermission
      else fails (.toInit bar fn qp) stRange) ∧
      (if x.state = .init then goes (.toRtr bar fn qp) { x with state := .rtr } else fails (.toRtr bar fn qp) stRange) ∧
      (if x.state = .rtr then
        ∃ t, exec (.toRts bar fn qp) s = .next t ∧ (t.cmdSet k).qpStatus = stOk ∧ (t.qp q).state = .rts ∧ (t.qp q).expect = 1 ∧
          (t.qp q).credit = (s.sub x.subscriber).reqWindow ∧ (∀ i ≤ x.paths, ((t.qp q).path.get i {}).w = s.net.wInit * 256) ∧
          ∀ p, p ≠ q → t.qp p = s.qp p
      else fails (.toRts bar fn qp) stRange) ∧
      (if x.state = .init ∨ x.state = .error then
        ∃ t, exec (.toReset bar fn qp) s = .next t ∧ (t.cmdSet k).qpStatus = stOk ∧ (t.qp q).state = .reset ∧ (t.qp q).sent = [] ∧ (t.qp q).msgs = []
      else fails (.toReset bar fn qp) stRange) ∧
      (if x.state = .rtr ∨ x.state = .rts then
        ∃ t, exec (.toError bar fn qp) s = .next t ∧ (t.cmdSet k).qpStatus = stOk ∧ (t.qp q).state = .error ∧ (t.qp q).errCause = 8 ∧ (t.qp q).sent = [] ∧
          (t.qp q).msgs = []
      else fails (.toError bar fn qp) stRange))

/-- CREATE, REVOKE, REVOCATION_END and EXTENT_REVOKE make and withdraw registrations and extents. CREATE, no registration command of its set running, ends
with RANGE when KIND or ACCESS breaks the table or the range lies outside the object, with PERMISSION when the context is not the acting function's,
with NO_SPACE when all of 65,536 registrations are in use; else with OK: one that was free is valid with the context, kind, access and range asked
for, and the key holds its index and GEN. REVOKE marks a registration REVOKING with BUSY set, or ends with NOT_FOUND or PERMISSION. REVOCATION_END, no
message admitted under it in progress: it is free with GEN one higher, and its command ends with OK; else nothing changes. EXTENT_REVOKE of a granted
extent marks it withdrawing with BUSY set, or ends with NOT_FOUND, PERMISSION or EXTENT_REVOKED. The model's choices in it: log 63. (10 R315; 10 R316;
10 R326; 10 R327; notes/assumptions/63.md) -/
def Obligations.RegistrationCommands : Prop :=
  ∀ (s : State) (bar fn i e : Nat), s.stopped = false →
    let k := if bar = 0 then 0 else fn + 1
    let m := s.cmdSet k
    let d0 := m.regData0.toNat
    let d1 := m.regData1.toNat
    let c := fld d0 0 10
    let kind := fld d0 10 3
    let object : Option (Nat × List Nat) := (s.ctx c).object kind (fld d0 13 3)
    let good := ∃ size l, object = some (size, l) ∧ fld d0 16 2 ∈ l ∧ fld d1 0 32 + fld d1 32 32 ≤ size ∧ (kind = 4 → fld d1 0 32 = 0 ∧ fld d1 32 32 = 8)
    let may (f : Nat) : Prop := bar = 0 ∨ f = fn
    let ends (o : Host.Outcome State Fault Refusal) (st : BitVec 16) : Prop := ∃ t, o = .next t ∧ (t.cmdSet k).regStatus = st ∧ ∀ j, t.reg j = s.reg j
    let endsExt (st : BitVec 16) : Prop := ∃ t, exec (.extentRevoke bar fn e) s = .next t ∧ (t.cmdSet k).extStatus = st ∧ ∀ j, t.extent j = s.extent j
    let r := s.reg i
    let x := s.extent (extIndex e)
    (m.regBusy = false →
      (¬ good → ends (exec (.create bar fn) s) stRange) ∧
      (good → ¬ may (s.ctx c).function → ends (exec (.create bar fn) s) stPermission) ∧
      (good → may (s.ctx c).function → (∀ j < 65536, (s.reg j).valid = true) → ends (exec (.create bar fn) s) stNoSpace) ∧
      (good → may (s.ctx c).function → (∃ j < 65536, (s.reg j).valid = false) → ∃ t j, exec (.create bar fn) s = .next t ∧
        j < 65536 ∧ (s.reg j).valid = false ∧ (t.cmdSet k).regStatus = stOk ∧ (t.cmdSet k).regKey.toNat = j + (s.reg j).gen % 65536 * 65536 ∧
        t.reg j = { s.reg j with valid := true, revoking := false, ctx := c, kind := kind, ring := fld d0 13 3, access := fld d0 16 2, offset := fld d1 0 32, length := fld d1 32 32, revokedBy := 0 } ∧ ∀ l, l ≠ j → t.reg l = s.reg l) ∧
      (i < 65536 →
        (r.valid = false ∨ r.revoking = true → ends (exec (.revoke bar fn i) s) stNotFound) ∧
        (r.valid = true → r.revoking = false →
          (¬ may (s.ctx r.ctx).function → ends (exec (.revoke bar fn i) s) stPermission) ∧
          (may (s.ctx r.ctx).function → ∃ t, exec (.revoke bar fn i) s = .next t ∧ t.reg i = { r with revoking := true, revokedBy := k + 1 } ∧
            (t.cmdSet k).regBusy = true ∧ ∀ j, j ≠ i → t.reg j = s.reg j)))) ∧
    (i < 65536 → r.valid = true → r.revoking = true →
      ((∀ q ∈ s.net.qps, ∀ g ∈ q.2.msgs, g.reg ≠ i + 1) → ∃ t, exec (.revocationEnd i) s = .next t ∧ (t.reg i).valid = false ∧ (t.reg i).revoking = false ∧
        (t.reg i).gen = (r.gen + 1) % 65536 ∧ (∀ j, r.revokedBy = j + 1 → (t.cmdSet j).regBusy = false ∧ (t.cmdSet j).regStatus = stOk) ∧
        ∀ j, j ≠ i → t.reg j = s.reg j) ∧
      ((∃ q ∈ s.net.qps, ∃ g ∈ q.2.msgs, g.reg = i + 1) → exec (.revocationEnd i) s = .next s)) ∧
    (m.extBusy = false →
      (x.granted = false ∨ x.gen ≠ extGen e → endsExt stNotFound) ∧
      (x.granted = true → x.gen = extGen e →
        (¬ may (s.sub x.sub).function → endsExt stPermission) ∧
        (may (s.sub x.sub).function → x.withdrawing = true → endsExt stRevoked) ∧
        (may (s.sub x.sub).function → x.withdrawing = false → ∃ t, exec (.extentRevoke bar fn e) s = .next t ∧
          t.extent (extIndex e) = { x with withdrawing := true, revokedBy := k + 1 } ∧ (t.cmdSet k).extBusy = true ∧
          ∀ j, j ≠ extIndex e → t.extent j = s.extent j)))

/-- Port mode, directory role, links, COMMIT, the budget governor and the load gauges. NET_MODE_WRITE takes MODE only while every LINK_EN is 0 (never 0 on
the LG-4080), sets CFG_ERR when it refuses, and takes LINK_EN; ports not enabled are down. DIR_ROLE_WRITE takes ROLE = 1 only if every partition holds
a directory bank, else sets CFG_ERR. ETHERNET_LINK_CHANGE: a link comes up only on a port that exists, is enabled and available. COMMIT takes the
pending layout, with LAYOUT_VALID 0 and every page and sequence absent, or sets LAYOUT_ERR and ERR_REGION (15: the device is not idle) and leaves the
layout; LAYOUT_INIT_DONE sets LAYOUT_VALID. GOVERNOR_INTERVAL moves the level by R261 on the interval's samples, mean package power and peak die
temperature, begins a new interval and takes the written settings. LOAD_INTERVAL of an interval that has ended sets the four gauges to the floor of
255 times their fractions, at most 255. The model's choices in it: logs 62, 68, 152. (10 R299; 10 R329; 06 R212; 04 R119; 08 R261; 08 R273; 10 R320;
notes/assumptions/62.md; notes/assumptions/68.md; notes/assumptions/152.md) -/
def Obligations.PortsLayoutAndGauges : Prop :=
  ∀ (s : State) (v : BitVec 64) (p a b c : Nat), s.stopped = false →
    let n := v.toNat
    let m := fld n 0 2
    let taken := m = s.net.mode ∨ (s.net.linkEn = 0 ∧ ¬ (m = 0 ∧ s.dev.variant = .lg4080))
    (∃ t, exec (.netModeWrite v) s = .next t ∧ OnlyChanges [.net] s t ∧ t.net.linkEn = BitVec.ofNat 8 (fld n 8 8) ∧
      (taken → t.net.mode = m ∧ t.net.cfgErr = (s.net.cfgErr && !v.getLsbD 16)) ∧ (¬ taken → t.net.mode = s.net.mode ∧ t.net.cfgErr = true) ∧
      ∀ q < 8, (t.net.ports.get q {}).linkUp = ((s.net.ports.get q {}).linkUp && v.getLsbD (8 + q))) ∧
    (let banks := ∀ g < 8, ∃ k < 16, (s.bank (16 * g + k)).units = 2 ∧ (s.bank (16 * g + k)).role = 1;
      ∃ t, exec (.dirRoleWrite v) s = .next t ∧ OnlyChanges [.net] s t ∧ t.net.worker = v.getLsbD 1 ∧ t.net.selfPeer = v.getLsbD 2 ∧
        t.net.workerId = fld n 4 6 ∧ t.net.dirQp = fld n 16 14 ∧
        (v.getLsbD 0 = false ∨ banks → t.net.role = v.getLsbD 0 ∧ t.net.dirCfgErr = (s.net.dirCfgErr && !v.getLsbD 3)) ∧
        (v.getLsbD 0 = true ∧ ¬ banks → t.net.role = s.net.role ∧ t.net.dirCfgErr = true)) ∧
    (p < 8 →
      (∃ t, exec (.ethernetLinkChange p false) s = .next t ∧ (t.net.ports.get p {}).linkUp = false) ∧
      (let may := p < s.netPorts ∧ s.net.linkEn.getLsbD p = true ∧ s.portDown p = false;
        (may → ∃ t, exec (.ethernetLinkChange p true) s = .next t ∧ (t.net.ports.get p {}).linkUp = true ∧ ∀ q, q ≠ p → t.net.ports.get q {} = s.net.ports.get q {}) ∧
        (¬ may → exec (.ethernetLinkChange p true) s = .next s))) ∧
    (let bad := if s.layoutIdle then s.layoutBad s.ps.pBase s.ps.pSize s.ps.pLimit else some 15;
      v.getLsbD 0 = true →
        (∀ r, bad = some r → ∃ t, exec (.commit v) s = .next t ∧ OnlyChanges [.ps] s t ∧ t.ps.layoutErr = true ∧ t.ps.errRegion = r ∧
          t.ps.base = s.ps.base ∧ t.ps.size = s.ps.size ∧ t.ps.limit = s.ps.limit ∧ t.ps.layoutValid = s.ps.layoutValid ∧ t.ps.pages = s.ps.pages) ∧
        (bad = none → ∃ t, exec (.commit v) s = .next t ∧ OnlyChanges [.ps] s t ∧ t.ps.base = s.ps.pBase ∧ t.ps.size = s.ps.pSize ∧
          t.ps.limit = s.ps.pLimit ∧ t.ps.layoutValid = false ∧ (∀ q, t.page q = {}) ∧ ∀ q, t.seq q = {})) ∧
    (s.ps.layoutActive = true → ∃ t, exec .layoutInitDone s = .next t ∧ t.ps = { s.ps with layoutValid := true }) ∧
    (let (sum, n, hot) := s.pwr.interval;
      let limit := s.fq.powerW * 1000000 * n
      let top := Int.ofNat s.fq.tempC
      s.fq.govFrom + s.fq.interval * 1024 ≤ s.now → ∃ t, exec (.governorInterval a b) s = .next t ∧ t.fq.govFrom = s.fq.govFrom + s.fq.interval * 1024 ∧ t.fq.powerW = fld s.fq.limitW.toNat 0 12 ∧ t.fq.tempC = fld s.fq.limitW.toNat 16 8 ∧
      t.pwr = { s.pwr with powerSum := 0, powerCount := 0, diePeak := none } ∧ t.fq.mode = s.fq.govW.getLsbD 0 ∧ t.fq.forceLevel = fld s.fq.govW.toNat 1 2 ∧ t.fq.held = s.fq.held ∧
      (s.fq.govW.getLsbD 0 = true → t.fq.level = fld s.fq.govW.toNat 1 2) ∧
      (s.fq.govW.getLsbD 0 = false → s.fq.mode = false →
        (limit < sum ∨ top < hot → t.fq.level = min (s.fq.level + 1) 3 ∧ t.fq.below = 0) ∧
        (16 * sum < 15 * limit → 16 * hot < 15 * top → s.fq.below < 15 → t.fq.level = s.fq.level ∧ t.fq.below = s.fq.below + 1) ∧
        (16 * sum < 15 * limit → 16 * hot < 15 * top → s.fq.below = 15 → t.fq.level = s.fq.level - 1 ∧ t.fq.below = 0))) ∧
    (s.net.loadDue ≤ s.now → ∃ t, exec (.loadInterval a b c) s = .next t ∧ t.net.gFolio = min (255 * a / ((if s.small then 128 else 256) * 65536)) 255 ∧
      t.net.gT0 = min (255 * (1050 * (b + c)) / max (32000 * s.pchFitted * 65536) 1) 255 ∧ t.net.gSpine = min (255 * s.net.spineUse / max (65536 * s.searchCredits) 1) 255 ∧ t.net.spineUse = 0 ∧ t.net.loadDue = s.net.loadDue + 65536 ∧ t.net.gPool = min (255 * (s.regSize 6 - s.freeSheets) / max (s.regSize 6) 1) 255)

/-- A frame received is dropped and counted, metered, or given to its queue pair. FRAME_RX on a port that is up, the queue pair engine working. A frame
longer than 4,352 bytes, of another encapsulation or with a bad FCS raises FRAME_DROP and changes nothing of the network. Of the others, not control,
of a queue pair below 16,384 in RTR or RTS that takes the opcode: with the subscriber's meter off, or an acknowledgement or read response, its packet
is the newest of those accepted; one that the meter colours red is not accepted and raises METER_RED. In RESET and INIT nothing of the network
changes; in ERROR nothing either. On a port that is not up nothing changes. (10 R300; 10 R301; 10 R305; 11 R339; 11 R340; 11 R341) -/
def Obligations.FramesReceived : Prop :=
  ∀ (s : State) (port : Nat) (fr : Rx), s.stopped = false →
    let x := s.qp fr.qpn
    let m := s.eg.meters.get x.subscriber {}
    let fn := (s.sub x.subscriber).function
    let bad := 4352 < fr.len ∨ fr.encapOk = false ∨ fr.fcsOk = false
    let off := m.en = false ∨ 3 ≤ opKind fr.pkt.op
    (s.portUp port = true → s.dev.engineDown.get 6 false = false →
      (bad → ∃ t, exec (.frameRx port fr) s = .next t ∧ t.net = s.net ∧ t.eg = s.eg ∧
        t.err.cnt.get 0 0 = min (s.err.cnt.get 0 0 + 1) 0xFFFFFFFFFFFFFFFF) ∧
      (¬ bad → fr.control = false → fr.qpn < 16384 →
        (off → x.state = .rtr ∨ x.state = .rts → x.takes fr.pkt.op = true → ∃ t, exec (.frameRx port fr) s = .next t ∧
          t.net = { s.net with accepted := s.net.accepted ++ [(fr.qpn, fr.pkt)] } ∧ t.eg = s.eg) ∧
        (off → x.state = .reset ∨ x.state = .init ∨ x.state = .error → ∃ t, exec (.frameRx port fr) s = .next t ∧ t.net = s.net ∧ t.eg = s.eg) ∧
        (¬ off → (m.run (s.dscpColor fr.dscp) fr.len).1 = 2 → ∃ t, exec (.frameRx port fr) s = .next t ∧ t.net = s.net ∧
          (t.fn fn).cnt.get 7 0 = min ((s.fn fn).cnt.get 7 0 + 1) 0xFFFFFFFFFFFFFFFF))) ∧
    (s.portUp port = false → exec (.frameRx port fr) s = .next s)

/-- An inbound Write lands in its registration, a Send in its receive slot, a read is answered; a late message is an error. The oldest accepted packet of
a queue pair in RTR or RTS, in order at RQ_PSN, with nothing held or received above it. A Write Only that its registration of an input buffer admits,
of at most PMTU bytes, every pseudo-channel working, is written at its offset of the buffer and nowhere else, sets the landing flags of the sheets it
wrote, and RQ_PSN rises by 1; one not admitted puts the queue pair into ERROR with cause 0x04. A Send Only, nothing else in progress and a slot free:
its bytes are the newest request. A Read Request admitted: the responses queued carry the range's bytes as they stand in T0. MESSAGE_TIMEOUT of a
message MSG_US old that is not complete: ERROR with cause 0x06; of none, nothing changes. The model's choices in it: logs 35, 40. (10 R308; 10 R310;
10 R311; 10 R312; 10 R301; 10 R314; 10 R304; 03 R73; notes/assumptions/35.md; notes/assumptions/40.md) -/
def Obligations.InboundMessages : Prop :=
  ∀ (s : State) (q msg : Nat) (p : Packet), s.stopped = false →
    let x := s.qp q
    let n := p.payload.length
    let first := s.net.accepted.find? (fun a => a.1 == q) = some (q, p) ∧ p.psn = x.rqPsn ∧ x.rqPsn < 16777216 ∧ x.above = [] ∧ x.held = [] ∧
      (x.state = .rtr ∨ x.state = .rts)
    (first → p.op = 0x0A → p.mlen = n → 1 ≤ n → n ≤ x.mtu → n ≤ 16777216 →
      (∀ i, s.regAllows q p.rkey p.va n 0 = some i → (s.reg i).kind = 0 → s.tracks x = true → s.dev.pchDown = [] →
        let r := s.reg i
        let a := r.offset + p.va
        ∃ t, exec (.inboundRdmaWrite q) s = .next t ∧ (∀ j < n, memRead t.t0 ((s.ctx r.ctx).inAddr + a + j) = p.payload.getD j 0) ∧
          SameT0But ((s.ctx r.ctx).inAddr + a) n s t ∧ (t.qp q).rqPsn = (x.rqPsn + 1) % 16777216 ∧ t.net.accepted = s.net.accepted.erase (q, p) ∧
          ∀ g, (t.ctx r.ctx).landing.get g false = if a / 4096 ≤ g ∧ g ≤ (a + n - 1) / 4096 then true else (s.ctx r.ctx).landing.get g false) ∧
      (s.regAllows q p.rkey p.va n 0 = none → ∃ t, exec (.inboundRdmaWrite q) s = .next t ∧ (t.qp q).state = .error ∧ (t.qp q).errCause = 4)) ∧
    (first → p.op = 0x04 → x.msgs = [] → n ≤ x.mtu → n ≤ 32768 → x.slots.length < x.rslots + 1 → s.tracks x = true →
      ∃ t, exec (.inboundSend q) s = .next t ∧ (t.qp q).slots = x.slots ++ [p.payload] ∧ (t.qp q).rqPsn = (x.rqPsn + 1) % 16777216 ∧ SameT0 s t) ∧
    (first → p.op = 0x0C → p.mlen ≤ 16777216 →
      (∀ i, s.regAllows q p.rkey p.va p.mlen 1 = some i → s.dev.pchDown = [] → ∃ t fs, exec (.inboundRdmaReadRequest q) s = .next t ∧
        let k := queueIdx x.port x.subscriber (s.service q 1)
        t.eg.queues.get k [] = s.eg.queues.get k [] ++ fs ∧ (∀ f ∈ fs, f.qp = q) ∧
          fs.flatMap (·.payload) = s.t0Read (s.regAddr (s.reg i) + p.va) p.mlen ∧ SameT0 s t) ∧
      (s.regAllows q p.rkey p.va p.mlen 1 = none → ∃ t, exec (.inboundRdmaReadRequest q) s = .next t ∧ (t.qp q).state = .error ∧ (t.qp q).errCause = 4)) ∧
    (let late := ∃ m ∈ x.msgs, m.first = msg ∧ m.done = false ∧ m.since + s.net.msgUs * 1050 ≤ s.now;
      (late → x.state = .rtr ∨ x.state = .rts → ∃ t, exec (.messageTimeout q msg) s = .next t ∧ (t.qp q).state = .error ∧ (t.qp q).errCause = 6) ∧
      (¬ late → x.held = [] → exec (.messageTimeout q msg) s = .next s))

/-- Acknowledgements retire packets; NAK, timeout and reordering send them again or end the queue pair. On a queue pair in RTS: a standard Acknowledge of
a PSN sent retires exactly the packets up to it that are no reads; a Multipath Acknowledge retires those up to its cumulative PSN and marks those of
its bitmap. A NAK of a PSN outstanding: sequence error from a standard peer queues again every packet from that PSN on, from a multipath peer none;
remote access error puts the queue pair into ERROR with cause 0x02, the others with 0x03. RETRANSMIT_TIMEOUT, ACK_US after a packet not acknowledged
was last sent: its path's window is W_MIN and it is queued again, or, after RETRY times, the queue pair is in ERROR with cause 0x01.
REORDER_GAP_TIMEOUT: a gap REORDER_US old is answered with NAK sequence error or a bitmap; toward a multipath peer, packets passed for REORDER_US go
again. INBOUND_READ_RESPONSE, not the last, is kept with its read. The model's choices in it: logs 35, 74. (10 R304; 10 R306; 10 R307; 10 R308; 10
R309; 10 R323; notes/assumptions/35.md; notes/assumptions/74.md) -/
def Obligations.AcknowledgedAndSentAgain : Prop :=
  ∀ (s : State) (q psn since : Nat) (p : Packet) (k : SentPkt), s.stopped = false →
    let x := s.qp q
    let first := s.net.accepted.find? (fun a => a.1 == q) = some (q, p)
    let again (t : State) (n : Nat) : Prop := ∃ f ∈ t.queued q, f.again = true ∧ f.psn = n
    let fails (c : Instr) (n : Nat) : Prop := ∃ t, exec c s = .next t ∧ (t.qp q).state = .error ∧ (t.qp q).errCause = n
    let sentOk := ∀ m ∈ x.sent, m.frame.qp = q ∧ m.tries < x.retry
    let far := 8388608 ≤ psnSub (psnSub x.sqPsn 1) p.psn
    (x.state = .rts →
      (first → p.op = 0x11 → p.nak = 0 → (∃ m ∈ x.sent, m.upTo p.psn = true) → ¬ far → ∃ t, exec (.inboundAcknowledge q) s = .next t ∧
        (t.qp q).sent = x.sent.filter fun m => !(m.upTo p.psn && !m.isRead)) ∧
      (first → p.op = 0xC4 → p.nak = 0 → psnSub (psnSub x.sqPsn 1) p.msn < 8388608 → ∃ t, exec (.inboundAcknowledge q) s = .next t ∧
        ∀ m ∈ (t.qp q).sent, m.isRead = true ∨ (m.upTo p.msn = false ∧
          (psnSub m.psn ((p.msn + 1) % 16777216) < 64 → p.bitmap.testBit (psnSub m.psn ((p.msn + 1) % 16777216)) = true → m.acked = true))) ∧
      (first → p.op = 0x11 → (∃ m ∈ x.sent, psnSub p.psn m.psn < m.frame.psns) →
        (p.nak = 1 → x.multipath = true → ∃ t, exec (.inboundNak q) s = .next t ∧ (t.qp q).sent = x.sent ∧ t.eg = s.eg) ∧
        (p.nak = 1 → x.multipath = false → sentOk → ∃ t, exec (.inboundNak q) s = .next t ∧ ∀ m ∈ x.sent, psnSub m.psn p.psn < 8388608 → again t m.psn) ∧
        (p.nak = 3 → fails (.inboundNak q) 2) ∧ (p.nak = 2 ∨ p.nak = 4 → fails (.inboundNak q) 3)) ∧
      (x.sent.find? (fun m => m.psn == psn) = some k → k.acked = false → s.requeued q psn = false →
        (k.since + x.ackUs * 1050 ≤ s.now →
          (k.tries < x.retry → k.frame.qp = q → ∃ t, exec (.retransmitTimeout q psn) s = .next t ∧ again t psn ∧
            ((t.qp q).path.get k.path {}).w = s.net.wMin * 256 ∧ ∀ i, i ≠ k.path → (t.qp q).path.get i {} = x.path.get i {}) ∧
          (x.retry ≤ k.tries → fails (.retransmitTimeout q psn) 1)) ∧
        (s.now < k.since + x.ackUs * 1050 → exec (.retransmitTimeout q psn) s = .next s)) ∧
      (x.gapAt = none → x.multipath = true → sentOk → ∃ t, exec (.reorderGapTimeout q) s = .next t ∧
        ∀ m ∈ x.sent, m.acked = false → (∃ l ∈ x.sent, l.acked = true ∧ l.psn ≠ m.psn ∧ m.upTo l.psn = true ∧
          max l.ackedAt m.since + s.net.reorderUs * 1050 ≤ s.now) → again t m.psn) ∧
      (first → p.op = 0x10 → x.sent.find? (fun m => m.isRead && m.frame.op == 0x0C && decide (psnSub p.psn m.psn < m.frame.psns)) = some k →
        (∀ g ∈ k.got, g.1 ≠ psnSub p.psn k.psn) → k.got.length + 1 < k.frame.psns → ∃ t, exec (.inboundReadResponse q) s = .next t ∧
          ∃ m ∈ (t.qp q).sent, m = { k with got := (psnSub p.psn k.psn, p.payload) :: k.got })) ∧
    (x.gapAt = some since → since + s.net.reorderUs * 1050 ≤ s.now → x.state = .rtr ∨ x.state = .rts →
      (x.multipath = false → ∃ t, exec (.reorderGapTimeout q) s = .next t ∧ (t.qp q).gapAt = none ∧
        t.eg.bypass.get x.port [] = s.eg.bypass.get x.port [] ++ [{ kind := 2, qp := q, psn := x.rqPsn }]) ∧
      (x.multipath = true → sentOk → ∃ t, exec (.reorderGapTimeout q) s = .next t ∧ (t.qp q).gapAt = none ∧
        t.eg.bypass.get x.port [] = s.eg.bypass.get x.port [] ++ [{ kind := 1, qp := q, psn := psnSub x.rqPsn 1, bitmap := x.bitmap }]))

/-- Vanged requests begin in order, or are answered with their status; extents are granted and withdrawn. The oldest request of a queue pair in RTS leaves
its slot. One that a check of its header, REQ_SEQ or credit refuses is answered with that status; else EXPECT moves on, and one whose owner is
ORPHANED is answered so. LOOKUP, GET_PAGES, PUBLISH, ATTEND and STEP that pass the checks of their instruction are in flight as it, on the owner, with
the body's operands. LOAD is answered with OK and the gauges. EXTENT_GRANT: RANGE, NO_SPACE when nothing can be granted, else an extent that was free
holds min(SHEETS, unused EXT_LIMIT, FREE_SHEETS − LANDING) sheets, reserved, and RESULT names it. EXTENT_RETURN of a granted extent marks it
withdrawing, of another ends with EXTENT_REVOKED. EXTENT_WITHDRAWN, no request begun on it left: its sheets return, its generation rises, and the
return is answered with their number. PUT_PAGES that passes its checks, every pseudo-channel working, is in flight and has begun on its extent. The
model's choices in it: logs 3, 7. (10 R317; 10 R318; 10 R319; 10 R320; 10 R321; 10 R326; 10 R327; 10 R323; 13 R401; notes/assumptions/3.md;
notes/assumptions/7.md) -/
def Obligations.VangedRequests : Prop :=
  ∀ (s : State) (q e : Nat) (m : List (BitVec 8)) (rest : List (List (BitVec 8))), s.stopped = false →
    let x := s.qp q
    let h := ofLe (m.take 32)
    let body := m.drop 32
    let typ := fld h 8 8
    let n := fld h 32 32
    let u := s.updQp q fun y => { y with slots := rest, expect := (n + 1) % 2 ^ 32, running := y.running ++ [n] }
    let began (t : State) : Prop := (t.qp q).slots = rest ∧ (t.qp q).expect = (n + 1) % 2 ^ 32
    let owner := s.ctx x.owner
    let word (i : Nat) : BitVec 64 := bodyWord body i
    (x.slots = m :: rest → x.state = .rts → q < 65536 → s.ps.layoutValid = true → bit h 16 = false →
      (∀ (kind : Nat) (c : Instr), (kind, c) ∈ [(1, Instr.vangedLookup q), (2, Instr.vangedGetPages q), (4, Instr.vangedPublish q), (5, Instr.vangedAttend q),
          (6, Instr.vangedStep q), (7, Instr.extentGrant q), (8, Instr.extentReturn q), (9, Instr.vangedLoad q)] → vangedKind h = kind →
        (∀ st, x.refuses h kind m.length body = st → st ≠ stOk → ∃ t, exec c s = .next t ∧ Answers s t q typ n st 0 ∧ (t.qp q).slots = rest ∧
          (t.qp q).expect = x.expect) ∧
        (x.refuses h kind m.length body = stOk → owner.state = .orphaned → ∃ t, exec c s = .next t ∧ Answers s t q typ n stOrphaned 0 ∧ began t)) ∧
      (owner.state ≠ .orphaned → x.refuses h (vangedKind h) m.length body = stOk →
        (∀ (kind op : Nat) (c : Instr), (kind, op, c) ∈ [(1, 0x10, Instr.vangedLookup q), (2, 0x25, Instr.vangedGetPages q), (4, 0x14, Instr.vangedPublish q),
            (5, 0x30, Instr.vangedAttend q), (6, 0x33, Instr.vangedStep q)] → vangedKind h = kind →
          mirrorOk (word 0) op = true → mirrorFields op (bit h 17) (word 1) (word 3) = true → ((op = 0x30 ∨ op = 0x25) → owner.conf = false) →
          u.dispatchCheck (mirrorCtx owner op (bit h 17)) {} (word 0) (word 1) (word 2) (word 3) = stOk → ∃ t, exec c s = .next t ∧ began t ∧
            t.nextFlight = s.nextFlight + 1 ∧ t.flight? s.nextFlight = some { ctx := x.owner, word := word 0, a := word 1, b := word 2, c := word 3, since := s.now, progress := s.now, mirror := some (q, n), tenant := if op = 0x25 ∨ (op = 0x10 ∧ bit h 17 = true) then body.drop 32 else [] }) ∧
        (vangedKind h = 9 → ∃ t, exec (.vangedLoad q) s = .next t ∧ Answers s t q 9 n stOk s.loadResult ∧ began t) ∧
        (vangedKind h = 7 →
          let b := ofLe body
          let k := min (min (fld b 0 28) ((s.sub x.subscriber).extLimit * 256 - s.extUsed x.subscriber)) (s.freeSheets - s.tier.landing)
          (fld b 28 228 ≠ 0 → ∃ t, exec (.extentGrant q) s = .next t ∧ Answers s t q 7 n stRange 0) ∧
          (fld b 28 228 = 0 → k = 0 → ∃ t, exec (.extentGrant q) s = .next t ∧ Answers s t q 7 n stNoSpace 0 ∧ t.net.exts = s.net.exts) ∧
          (fld b 28 228 = 0 → k ≠ 0 → (∃ i < 4096, (s.extent i).granted = false) → ∃ t i, exec (.extentGrant q) s = .next t ∧ i < 4096 ∧
            (s.extent i).granted = false ∧ t.extent i = { gen := (s.extent i).gen, granted := true, sub := x.subscriber, left := k } ∧
            t.ps.reserved = s.ps.reserved + k ∧ Answers s t q 7 n stOk (mkWord [(0, i), (12, (s.extent i).gen), (32, k)]))) ∧
        (vangedKind h = 8 →
          (s.extOk (fld h 128 32) x.subscriber = true → ∃ t, exec (.extentReturn q) s = .next t ∧ began t ∧
            (t.extent (fld h 128 12)).withdrawing = true ∧ (t.extent (fld h 128 12)).returnTo = some (q, n) ∧ t.eg = s.eg) ∧
          (s.extOk (fld h 128 32) x.subscriber = false → ∃ t, exec (.extentReturn q) s = .next t ∧ Answers s t q 8 n stRevoked 0)) ∧
        (vangedKind h = 3 → s.flight? s.nextFlight = none → s.putWaits q (ofLe (body.take 64)) = false →
          let b := ofLe body
          let y := s.seq (fld b 0 24)
          let i := fld h 128 12
          putRsvOk b = true → fld b 48 24 ≠ 0 → s.classOk (fld b 25 2) = true → y.state = 1 → s.putSeqCheck x.owner (fld b 0 24) (fld b 48 24) (bit b 24) = stOk →
          s.extOk (fld h 128 32) x.subscriber = true → 16 * (fld b 48 24 * max y.layers 1) ≤ (s.extent i).left →
          s.dev.pchDown = [] → (pickRun s.pageRuns 0 s.ps.limit (fld b 48 24 * max y.layers 1) s.draw.1).isSome = true → ∃ t z p, exec (.putPages q) s = .next t ∧ began t ∧
            t.flight? s.nextFlight = some z ∧ z.job = .put p ∧ z.mirror = some (q, n) ∧ p.seq = fld b 0 24 ∧ p.blocks = fld b 48 24 ∧ p.ext = i ∧
            (t.extent i).begun = (s.extent i).begun + 1 ∧ (t.extent i).left = (s.extent i).left))) ∧
    (let g := s.extent e;
      (g.granted = true → g.withdrawing = true → g.begun = 0 → ∃ t, exec (.extentWithdrawn e) s = .next t ∧ t.extent e = { gen := (g.gen + 1) % 2 ^ 20 } ∧
        t.ps.reserved = s.ps.reserved - g.left ∧
        (∀ k, g.revokedBy = k + 1 → (t.cmdSet k).extBusy = false ∧ (t.cmdSet k).extStatus = stOk) ∧
        ∀ r k, g.returnTo = some (r, k) → r < 65536 → k < 2 ^ 32 → (s.qp r).state = .rts → Answers s t r 8 k stOk (BitVec.ofNat 64 g.left)) ∧
      (g.granted = false ∨ g.withdrawing = false ∨ g.begun ≠ 0 → exec (.extentWithdrawn e) s = .next s))

/-- Frames start by priority, meters and shapers tick, gates follow network time, queues are sampled. FRAME_TX of a port that is up: a bypass frame leaves
first; else the frame that deficit round robin chooses among the eligible services of the highest PRIO leaves its queue, under the next PSN if it is
new, and waits for its acknowledgement. METER_TICK: a meter written since adopts its fields, with full buckets when EN rises, else clipped, then gains
CIR and PIR up to CBS and PBS. SHAPER_REFILL: a shaper adopts what was written, tokens clipped, or gains RATE up to BURST. Neither acts before its
tick. HIST_SAMPLE counts each queue's depth in its bin; HIST_COPY copies 32 bins, and clears them with CLEAR. GCL_COMMIT with COMMIT: a list and
reserved bits that pass become pending for their change time, others set CFG_ERR. GCL_CHANGE_TIME, that time reached: the list operates.
GCL_ENTRY_CHANGE: ENTRY and GATES are those of the network time. The model's choices in it: logs 45, 72, 73, 96, 97. (11 R338; 11 R340; 11 R342; 11
R344; 11 R345; 11 R346; 11 R347; 11 R349; 11 R351; 11 R356; 10 R305; notes/assumptions/45.md; notes/assumptions/72.md; notes/assumptions/73.md;
notes/assumptions/96.md; notes/assumptions/97.md) -/
def Obligations.EgressTicksAndFrames : Prop :=
  ∀ (s : State) (p sh : Nat) (v : BitVec 64), s.stopped = false →
    let u := s.shutOut p
    let now := s.now / 1024 + 1
    let g := { s.gcl p with en := v.getLsbD 0, cfgErr := (s.gcl p).cfgErr && !v.getLsbD 3, deflt := fld v.toNat 8 6, adminLen := fld v.toNat 16 9 }
    let rsv := fld v.toNat 4 4 = 0 ∧ fld v.toNat 14 2 = 0 ∧ fld v.toNat 25 7 = 0 ∧ fld v.toNat 41 7 = 0 ∧ fld v.toNat 62 2 = 0
    (s.portUp p = true → s.dev.engineDown.get 7 false = false →
      (∀ b r, s.eg.bypass.get p [] = b :: r → ∃ t, exec (.frameTx p) s = .next t ∧ t.eg.bypass.get p [] = r ∧ t.eg.queues = s.eg.queues ∧ .bypass p b ∈ t.out) ∧
      (∀ w sub f r q, s.eg.bypass.get p [] = [] → (w, sub, f, r) ∈ u.eligible p → (∀ m ∈ u.eligible p, u.prioOf m.1 ≤ u.prioOf w) →
        Round.choose (8 * p) 8 (fun v => u.prioOf v == u.prioOf w) u.svcQuantumOf (((u.eligible p).filter fun m => u.prioOf m.1 == u.prioOf w).map fun m => (m.1, m.2.2.1.len))
          { turn := u.eg.svcTurn.get (8 * p + u.prioOf w) 0, deficit := u.eg.svcDeficit } = some (w, q) →
        ∃ t, exec (.frameTx p) s = .next t ∧ t.eg.queues.get (queueIdx p sub w) [] = (s.eg.queues.get (queueIdx p sub w) []).erase f ∧
          (f.again = false → f.isResponse = false →
            let x := s.qp f.qp
            let g := if x.multipath then { f with ts := s.now * 20 / 21 % 2 ^ 32 } else f
            (t.qp f.qp).sqPsn = (x.sqPsn + f.psns) % 2 ^ 24 ∧ .frame p x.bestPath x.sqPsn g ∈ t.out ∧
            (t.qp f.qp).sent = x.sent ++ [{ psn := x.sqPsn, frame := g, path := x.bestPath, since := s.now }]))) ∧
    ((Tbl.keys s.eg.meters).Nodup → s.eg.meterTicks < now → ∃ t, exec .meterTick s = .next t ∧ t.eg.meterTicks = s.eg.meterTicks + 1 ∧ ∀ i,
      let m := s.eg.meters.get i {}
      let n := if m.dirty then meterOf m.w0.toNat m.w1.toNat else m
      let y := t.eg.meters.get i {}
      let start (had size : Nat) : Nat := if m.dirty then (if n.en && !m.en then size * 256 else min had (size * 256)) else had
      y.en = n.en ∧ y.cir = n.cir ∧ y.pir = n.pir ∧ y.cbs = n.cbs ∧ y.pbs = n.pbs ∧ y.mode = n.mode ∧ y.aware = n.aware ∧ y.dirty = false ∧
        y.ctok = min (n.cbs * 256) (start m.ctok n.cbs + n.cir) ∧ y.ptok = min (n.pbs * 256) (start m.ptok n.pbs + n.pir)) ∧
    (now ≤ s.eg.meterTicks → exec .meterTick s = .next s) ∧
    ((Tbl.keys s.eg.ssh).Nodup → s.eg.shaperTicks < now → ∃ t, exec .shaperRefill s = .next t ∧ t.eg.shaperTicks = s.eg.shaperTicks + 1 ∧
      let h := s.eg.ssh.get sh {}
      let y := t.eg.ssh.get sh {}
      y.written = none ∧
      (h.written = none → y.rate = h.rate ∧ y.burst = h.burst ∧ y.en = h.en ∧ y.tokens = min (h.tokens + Int.ofNat h.rate) (Int.ofNat (h.burst * 256))) ∧
      ∀ w, h.written = some w → y.rate = fld w.toNat 0 32 ∧ y.burst = fld w.toNat 32 24 ∧ y.en = w.getLsbD 56 ∧ y.tokens ≤ Int.ofNat (y.burst * 256) ∧
        (y.en = true → h.en = false → y.tokens = Int.ofNat (y.burst * 256))) ∧
    (now ≤ s.eg.shaperTicks → exec .shaperRefill s = .next s) ∧
    ((Tbl.keys s.eg.queues).Nodup → s.eg.histNext ≤ s.now / 1024 → ∃ t, exec .histSample s = .next t ∧ t.eg.samples = s.eg.samples + 1 ∧
      t.eg.histNext = s.eg.histNext + s.eg.histInterval ∧ ∀ k ∈ s.eg.queues, ∀ i, 1 ≤ i → i < 16 →
        t.eg.bins.get (32 * k.1 + i) 0 = s.eg.bins.get (32 * k.1 + i) 0 + (if i = binOf s.eg.depthShift (s.queueSample k.2).1 then 1 else 0)) ∧
    (s.now / 1024 < s.eg.histNext → exec .histSample s = .next s) ∧
    (s.queueExists (fld v.toNat 0 14) = true → ∃ t, exec (.histCopy v) s = .next t ∧ t.eg.histDone = true ∧
      (∀ i < 32, t.eg.histData.get i 0 = s.eg.bin (fld v.toNat 0 14) i) ∧
      (v.getLsbD 14 = true → ∀ i < 32, t.eg.bin (fld v.toNat 0 14) i = 0) ∧ (v.getLsbD 14 = false → t.eg.bins = s.eg.bins)) ∧
    (p < s.lanes →
      (v.getLsbD 1 = true → g.adminBad = false → rsv → ∃ t, exec (.gclCommit p v) s = .next t ∧ (t.gcl p).pending = true ∧
        (t.gcl p).changeT = g.changeTime s.ptp.time ∧ (t.gcl p).nextLen = g.adminLen ∧ (t.gcl p).nextCycle = g.adminCycle ∧
        (∀ i < g.adminLen, (t.gcl p).next.get i 0 = g.admin.get i 0) ∧ (t.gcl p).oper = (s.gcl p).oper ∧ ∀ k, k ≠ p → t.gcl k = s.gcl k) ∧
      (v.getLsbD 1 = true → g.adminBad = true ∨ ¬ rsv → ∃ t, exec (.gclCommit p v) s = .next t ∧ (t.gcl p).cfgErr = true ∧
        (t.gcl p).pending = (s.gcl p).pending ∧ (t.gcl p).oper = (s.gcl p).oper) ∧
      (∃ t, exec (.gclEntryChange p) s = .next t ∧ (t.gcl p).entry = ((s.gcl p).at_ s.netNs).1 ∧ (t.gcl p).gates = ((s.gcl p).at_ s.netNs).2)) ∧
    ((s.gcl p).pending = true → (s.gcl p).changeT ≤ s.netNs → ∃ t, exec (.gclChangeTime p) s = .next t ∧ (t.gcl p).pending = false ∧
      (t.gcl p).oper = (s.gcl p).next ∧ (t.gcl p).operLen = (s.gcl p).nextLen ∧ (t.gcl p).operBase = (s.gcl p).changeT ∧
      (t.gcl p).operCycle = (s.gcl p).nextCycle) ∧
    (s.netNs < (s.gcl p).changeT → exec (.gclChangeTime p) s = .next s)

/-- The time unit follows its parent: messages, servo, states and timeouts. PTP_ENABLE_WRITE: EN 0 leads to DISABLED, EN 1 from DISABLED to LISTENING.
PTP_ANNOUNCE that the unit takes: its sender is listed with its data, and in LISTENING a best master makes the state UNCALIBRATED. PTP_SYNC from the
parent queues one Delay_Req; a one-step one gives the offset from its origin and correction and mpd, a two-step one waits for PTP_FOLLOW_UP, which
gives it in UNCALIBRATED and LOCKED; below STEP_NS an offset moves integ and adj, else network time steps back by it. PTP_DELAY_RESP completes an
exchange: the first sample, a mean of both directions, is mpd. What the unit does not take changes nothing. SYNC_TIMEOUT, SYNC_TIMEOUT ms after a
Sync: HOLDOVER, with no Follow_Up waited for. ANNOUNCE_TIMEOUT, the parent's Announces over and none other qualified: LISTENING, no parent.
PTP_TIME_SEC_READ gives the seconds and latches the nanoseconds. PPS_EDGE: the pin is high in the first 100 ms of a second. The model's choices in it:
logs 46, 47, 95. (11 R353; 11 R354; 11 R355; 11 R358; 15 R466; notes/assumptions/46.md; notes/assumptions/47.md; notes/assumptions/95.md) -/
def Obligations.NetworkTime : Prop :=
  ∀ (s : State) (v : BitVec 64) (m : PtpMsg), s.stopped = false →
    let p := s.ptp
    let mine := s.ptpTakes m = true ∧ m.clockId = p.clockId ∧ m.portNum = p.parentPort
    let served (t : State) (o : Int) : Prop := t.ptp.offset = o ∧
      (o.natAbs < p.stepNs → t.ptp.time = p.time ∧ t.ptp.integ = p.integ + Int.ofNat p.ki * o ∧
        t.ptp.adj = clampInt (Int.ofNat p.kp * o * 16 + t.ptp.integ) 25600000) ∧
      (p.stepNs ≤ o.natAbs → t.ptp.integ = 0 ∧ t.ptp.steps = min (p.steps + 1) 255 ∧ t.ptp.adj = p.adj ∧
        t.ptp.time = (Int.ofNat p.time - o * Int.ofNat netUnit).toNat)
    (∃ t, exec (.ptpEnableWrite v) s = .next t ∧ t.ptp.en = v.getLsbD 0 ∧ t.ptp.port = fld v.toNat 4 3 ∧ t.ptp.time = p.time ∧
      t.ptp.state = if v.getLsbD 0 then (if p.state = .disabled then .listening else p.state) else .disabled) ∧
    (s.ptpTakes m = true →
      (∃ t, exec (.ptpAnnounce m) s = .next t ∧ (∃ a ∈ t.ptp.foreign, a.clockId = m.clockId ∧ a.portNum = m.portNum ∧ a.since = s.now ∧ a.gmId = m.gmId ∧
          a.prio1 = m.prio1 ∧ a.steps = m.steps) ∧
        (∀ a, t.bestForeign = some a → t.ptp.parent = true ∧ t.ptp.clockId = a.clockId ∧ t.ptp.parentPort = a.portNum ∧
          t.ptp.state = if p.state = .listening then .uncalibrated else p.state) ∧
        (t.bestForeign = none → t.ptp.state = p.state ∧ t.ptp.parent = p.parent))) ∧
    (s.ptpTakes m = false → exec (.ptpAnnounce m) s = .next s ∧ exec (.ptpSync m) s = .next s ∧ exec (.ptpFollowUp m) s = .next s ∧
      exec (.ptpDelayResp m) s = .next s) ∧
    (mine → p.parent = true → p.state ≠ .listening → ∃ t, exec (.ptpSync m) s = .next t ∧ t.ptp.lastSync = s.now ∧
      t.eg.bypass.get p.port [] = s.eg.bypass.get p.port [] ++ [{ kind := 5, psn := p.nextReq }] ∧
      let t2 := Int.ofNat s.netNs - Int.ofNat p.rxNs
      (m.twoStep = true → t.ptp.twoStep = some (t2, m.correction, m.seq) ∧ t.ptp.time = p.time) ∧
      (m.twoStep = false → served t (t2 - (m.origin + m.correction) - p.mpd) ∧ t.ptp.mpd = p.mpd ∧
        (p.state = .holdover → t.ptp.state = .uncalibrated))) ∧
    (p.state ≠ .uncalibrated → p.state ≠ .locked → exec (.ptpFollowUp m) s = .next s) ∧
    (∀ t2 c, mine → (p.state = .uncalibrated ∨ p.state = .locked) → p.twoStep = some (t2, c, m.seq) → ∃ t, exec (.ptpFollowUp m) s = .next t ∧ t.ptp.twoStep = none ∧
      served t (t2 - (m.origin + m.correction + c) - p.mpd)) ∧
    (∀ t3, mine → p.delayReq = some (t3, m.seq) →
      (∀ t1 t2, p.pair = some (t1, t2) → p.mpdSet = false → ∃ t, exec (.ptpDelayResp m) s = .next t ∧ t.ptp.delayReq = none ∧ t.ptp.mpdSet = true ∧
        let sum := (t2 - t1) + (m.origin - m.correction - t3)
        2 * t.ptp.mpd = sum ∨ 2 * t.ptp.mpd = sum - 1 ∨ 2 * t.ptp.mpd = sum + 1) ∧
      (p.pair = none → ∃ t, exec (.ptpDelayResp m) s = .next t ∧ t.ptp.receipt = some (m.origin - m.correction) ∧ t.ptp.mpd = p.mpd)) ∧
    (let late := (p.state = .uncalibrated ∨ p.state = .locked) ∧ p.lastSync + p.syncTimeout * 1050000 ≤ s.now;
      (late → ∃ t, exec .syncTimeout s = .next t ∧ t.ptp = { p with state := .holdover, twoStep := none }) ∧ (¬ late → exec .syncTimeout s = .next s)) ∧
    (p.parent = true →
      let others := p.foreign.filter fun a => !(a.clockId == p.clockId && a.portNum == p.parentPort)
      (∀ a ∈ p.foreign, a.clockId = p.clockId → a.portNum = p.parentPort → a.alive s.now = false) → (∀ a ∈ others, a.qualifies s.now = false) →
        ∃ t, exec .announceTimeout s = .next t ∧ t.ptp.parent = false ∧ t.ptp.foreign = others ∧
          t.ptp.state = if p.state = .uncalibrated ∨ p.state = .locked then .listening else p.state) ∧
    (∃ t, exec .ptpTimeSecRead s = .next t ∧ t.ptp.latchedNs = s.netNs % 1000000000 ∧
      t.out = .readData (leBytes 8 (s.netNs / 1000000000 % 2 ^ 48)) :: s.out) ∧
    (∃ t, exec .ppsEdge s = .next t ∧ (t.dev.pps = true ↔ s.netNs % 1000000000 < 100000000))

/-- The Colophon answers measurements, challenges, key exchanges and vendor messages. While its firmware runs, on a transport that carries requests.
GET_MEASUREMENTS of one block answers with the block as it stands, and signs and keeps M if asked to and the identity is good; CHALLENGE signs and
keeps M, or answers UnexpectedRequest without an identity. KEY_EXCHANGE with an ML-KEM key answers with the ciphertext under a signature and the
verify data, and opens a session not open before under the keys of the hybrid secret, or answers SessionLimitExceeded with 8 open. GET_PQ_SIGNATURE
right after a signed response signs its M, else answers status 2. FINISH with good verify data establishes its session. A response longer than the
requester takes waits in chunks, for its own session; CHUNK_GET discards M. In an established session: KEY_RELEASE by the session authorised for the
slot, debug level not 2, loads the key with KEYGEN one higher, by another changes no slot; KEY_ERASE empties the slot and keeps KEYGEN;
GET_CONTEXT_KEY answers with the key and marks it exported. SLOT_LOADED ends ACTIVATING. SPDM_SESSION_TIMEOUT, 60 s after its last message: the
session and its authorisations end. SPDM_REQUEST of a code not supported is answered so; during activation with Busy; once a device reset is asserted
not at all. The model's choices in it: logs 3, 10, 53, 54, 56. (12 R365; 12 R367; 12 R369; 12 R378; 12 R379; 12 R380; 12 R381; 12 R382;
notes/assumptions/3.md; notes/assumptions/10.md; notes/assumptions/53.md; notes/assumptions/54.md; notes/assumptions/56.md) -/
def Obligations.ColophonMessages : Prop :=
  ∀ (s : State) (t sid : Nat) (m p : List (BitVec 8)), s.stopped = false →
    let sent (u : State) (k : Nat) (r : List (BitVec 8)) : Prop :=
      if k = 3 then u.sec.mboxDone = true ∧ u.sec.rspLen = r.length ∧ getBuf u.sec.rsp 0 r.length = r else .response k r ∈ u.out
    let under (u : State) (k n : Nat) (seal_ : List (BitVec 8) → List (BitVec 8)) (r : List (BitVec 8)) : Prop :=
      let c := s.conn k
      if c.peerSize = 0 ∨ r.length ≤ c.peerSize then sent u k (seal_ r)
      else sent u k (seal_ (spdmError erLarge 0 ++ leBytes 1 ((c.outHandle + 1) % 256))) ∧ (u.conn k).outData = r ∧ (u.conn k).outSession = n
    let reply (u : State) (k : Nat) (r : List (BitVec 8)) : Prop := under u k 0 (fun b => b) r
    let code := msgByte m 1
    let op := msgByte m 3
    let signed (u : State) (r : List (BitVec 8)) : Prop := reply u t (r ++ Config.rsaSign s.sec.rsaKey (m ++ r)) ∧ u.sec.lastM.get t [] = m ++ r
    let block (r : List (BitVec 8)) : Prop := r.take 2 = [0x13, 0x60] ∧ (r.drop 8).take (s.measBlock op).length = s.measBlock op
    let y := s.session sid
    let k := y.transport
    let slot := s.sec.slots.get (msgByte p 1) {}
    let x := s.sec.ctxs.get (ofLe (msgPart p 1 2)) {}
    (s.dev.draining = true → exec (.spdmRequest t sid m) s = .next s) ∧
    (s.dev.draining = false → s.sec.state = .running → s.transportUp t = true → msgByte m 0 = 0x13 → 4 ≤ m.length →
      (code = 0x86 → ∃ u, exec (.spdmRequest t 0 m) s = .next u ∧ u.sec.lastM = s.sec.lastM.del t) ∧
      (code = 0xE0 → 1 ≤ op → op ≤ 7 →
        (m.length = 12 → msgByte m 2 % 2 = 0 → ∃ u r, exec (.spdmGetMeasurements t m) s = .next u ∧ reply u t r ∧ block r) ∧
        (m.length = 45 → msgByte m 2 % 2 = 1 → s.sec.identityOk = true → ∃ u r, exec (.spdmGetMeasurements t m) s = .next u ∧ signed u r ∧ block r)) ∧
      (code = 0x83 → m.length = 44 → msgByte m 2 ≤ 1 → op = 0 ∨ op = 1 ∨ op = 255 →
        (s.sec.identityOk = true → ∃ u r, exec (.spdmChallenge t m) s = .next u ∧ signed u r ∧ r.take 2 = [0x13, 0x03]) ∧
        (s.sec.identityOk = false → ∃ u, exec (.spdmChallenge t m) s = .next u ∧ reply u t [0x13, 0x7F, 0x04, 0])) ∧
      (∀ kem, code = 0xE4 → s.sec.identityOk = true → m.length = 138 + ofLe (msgPart m 136 2) → op ≤ 1 → (msgByte m 2 = 0 ∨ msgByte m 2 = 1 ∨ msgByte m 2 = 255) →
        findKem (ofLe (msgPart m 136 2)) (msgPart m 142 (ofLe (msgPart m 136 2) - 4)) = some kem →
        (s.sessionsOpen < 8 → ∃ u r id z, exec (.spdmKeyExchange t m) s = .next u ∧
          let dh := Config.ecdh (msgPart m 40 96) z
          let ml := Config.mlKem kem z
          let body := r ++ kemOpaque ml.1
          let sg := m ++ body ++ Config.rsaSign s.sec.rsaKey (m ++ body)
          let g := Config.sessionKeys (leBytes 48 dh.2.toNat ++ leBytes 32 ml.2.toNat) sg
          reply u t (body ++ Config.rsaSign s.sec.rsaKey (m ++ body) ++ leBytes 48 (Config.verifyData g.2 sg).toNat) ∧ u.sec.lastM.get t [] = m ++ body ∧
          (s.session id).live = false ∧ u.session id = { live := true, since := s.now, transport := t, reqKey := g.1, rspKey := g.2 } ∧
          ∀ i, i ≠ id → u.session i = s.session i) ∧
        (8 ≤ s.sessionsOpen → ∃ u, exec (.spdmKeyExchange t m) s = .next u ∧ reply u t [0x13, 0x7F, 0x0A, 0] ∧ u.sec.sessions = s.sec.sessions)) ∧
      (vendorOp m = 1 → s.sec.identityOk = true →
        (∀ a b, s.sec.lastM.find? (fun q => q.1 == t) = some (a, b) → ∃ u, exec (.getPqSignature t m) s = .next u ∧
          reply u t (vendorResponse (vendorPayload 1 0 (Config.slhSign s.sec.slhKey b))) ∧ u.sec.lastM.get t [] = []) ∧
        (s.sec.lastM.find? (fun q => q.1 == t) = none → ∃ u, exec (.getPqSignature t m) s = .next u ∧ reply u t (vendorResponse (vendorPayload 1 2 [])))) ∧
      (spdmSupported code = false → ∃ u, exec (.spdmRequest t 0 m) s = .next u ∧ reply u t [0x13, 0x7F, 0x07, BitVec.ofNat 8 code])) ∧
    (s.dev.draining = false → s.sec.state = .activating → s.transportUp t = true → ∃ u, exec (.spdmRequest t sid m) s = .next u ∧ sent u t [0x13, 0x7F, 0x03, 0]) ∧
    (s.dev.draining = false → s.sec.state = .running → sid ≠ 0 → y.live = true → s.transportUp k = true → y.finished = false → msgByte m 0 = 0x13 → 4 ≤ m.length → code = 0xE5 →
      Config.finishOk y.reqKey m = true → ∃ u, exec (.spdmRequest k sid m) s = .next u ∧ (u.session sid).finished = true ∧
        ((u.session sid).reqKey, (u.session sid).rspKey) = Config.dataKeys (y.reqKey, y.rspKey)) ∧
    (s.dev.draining = false → s.sec.state = .running → sid ≠ 0 → y.live = true → y.finished = true → s.transportUp k = true → vendorRequest m = some p → msgByte m 0 = 0x13 → code = 0xFE →
      (msgByte p 0 = 2 → p.length = 37 → ofLe (msgPart p 2 3) = 0 →
        (s.sec.debug ≠ 2 → slot.auth = sid → ∃ u, exec (.keyRelease sid m) s = .next u ∧ u.sec.slots.get (msgByte p 1) {} =
          { slot with state := .activating, key := BitVec.ofNat 256 (ofLe (msgPart p 5 32)), keygen := (slot.keygen + 1) % 65536, stale := false }) ∧
        (s.sec.debug = 2 ∨ slot.auth ≠ sid → ∃ u, exec (.keyRelease sid m) s = .next u ∧ u.sec.slots = s.sec.slots)) ∧
      (msgByte p 0 = 3 → p.length = 2 → slot.auth = sid → ∃ u, exec (.keyErase sid m) s = .next u ∧
        u.sec.slots.get (msgByte p 1) {} = { slot with state := .empty, key := 0 }) ∧
      (msgByte p 0 = 4 → p.length = 3 → ofLe (msgPart p 1 2) < 1024 → s.sec.debug ≠ 2 → x.auth = sid → x.keyValid = true →
        ∃ u, exec (.getContextKey sid m) s = .next u ∧ u.sec.ctxs.get (ofLe (msgPart p 1 2)) {} = { x with exported := true } ∧
          under u k sid (Config.sessionSeal y.rspKey y.sent) (vendorResponse (vendorPayload 4 0 (leBytes 2 x.keygen ++ leBytes 32 x.key.toNat))))) ∧
    (let z := s.sec.slots.get sid {};
      (z.state = .activating → ∃ u, exec (.slotLoaded sid) s = .next u ∧ u.sec.slots.get sid {} = { z with state := .loaded }) ∧
      (z.state ≠ .activating → exec (.slotLoaded sid) s = .next s)) ∧
    (y.live = true → y.since + 63000000000 ≤ s.now → ∃ u, exec (.spdmSessionTimeout sid) s = .next u ∧ (u.session sid).live = false ∧
      (∀ i, (s.sec.slots.get i {}).auth = sid → (u.sec.slots.get i {}).auth = 0) ∧ ∀ i, (s.sec.ctxs.get i {}).auth = sid → (u.sec.ctxs.get i {}).auth = 0) ∧
    (y.live = true → s.now < y.since + 63000000000 → exec (.spdmSessionTimeout sid) s = .next s)

/-- Commands of CO_CMD, Colophon activation, reseeding and Link IDE. While the Colophon firmware runs: AUTH_SLOT of a slot below 256 sets its session and
function, AUTH_CTX of a context below 1,024 its session, ERASE_SLOT empties a slot and keeps its KEYGEN, each with OK, and no other slot or context
changes; beyond, RANGE and no change. DEBUG1 raises the debug level to at least 1; DEBUG2 with a good token, in MANAGEMENT_ONLY and before any HELLO,
makes it 2 with OK, else PERMISSION. While it is activated, each only ends with BUSY; once a device reset is asserted, none does anything.
COLOPHON_ACTIVATION_END: it runs, ACTIVATIONS is one higher, block 2 names the new image, loaded slots are stale. DRBG_RESEED, 2^20 requests after the
last: the count is 0, and the DRBG takes new entropy or, the health test failed, keeps its seed; earlier, nothing. IDE_KM in an open session: KEY_PROG
keeps a key, K_SET_GO with a key makes the link secure, K_SET_STOP ends that. The model's choices in it: logs 10, 14, 55, 138. (12 R368; 12 R369; 12
R382; 12 R383; 12 R384; 12 R388; 12 R391; notes/assumptions/10.md; notes/assumptions/14.md; notes/assumptions/55.md; notes/assumptions/138.md) -/
def Obligations.ColophonCommands : Prop :=
  ∀ (s : State) (i session fn : Nat) (ok : Bool) (m : List (BitVec 8)), s.stopped = false →
    let slot := s.sec.slots.get i {}
    let x := s.sec.ctxs.get i {}
    let ends (c : Instr) (st : BitVec 16) : Prop := ∃ t, exec c s = .next t ∧ t.sec = { s.sec with cmdStatus := st } ∧ OnlyChanges [.sec] s t
    (s.dev.draining = false → s.sec.state = .running →
      (i < 256 →
        (∃ t, exec (.authSlot i session fn) s = .next t ∧ t.sec.cmdStatus = stOk ∧ t.sec.slots.get i {} = { slot with auth := session, function := fn } ∧
          ∀ j, j ≠ i → t.sec.slots.get j {} = s.sec.slots.get j {}) ∧
        (∃ t, exec (.eraseSlot i) s = .next t ∧ t.sec.cmdStatus = stOk ∧ t.sec.slots.get i {} = { slot with state := .empty, key := 0 } ∧
          ∀ j, j ≠ i → t.sec.slots.get j {} = s.sec.slots.get j {})) ∧
      (256 ≤ i → ends (.authSlot i session fn) stRange ∧ ends (.eraseSlot i) stRange) ∧
      (i < 1024 → ∃ t, exec (.authCtx i session) s = .next t ∧ t.sec.cmdStatus = stOk ∧ t.sec.ctxs.get i {} = { x with auth := session } ∧
        ∀ j, j ≠ i → t.sec.ctxs.get j {} = s.sec.ctxs.get j {}) ∧
      (1024 ≤ i → ends (.authCtx i session) stRange) ∧
      (∃ t, exec .debug1 s = .next t ∧ t.sec = { s.sec with cmdStatus := stOk, debug := max s.sec.debug 1 }) ∧
      (let good := !s.dev.operational && !s.sec.helloSeen && s.tokenOk;
        ∃ t, exec .debug2 s = .next t ∧ t.sec = { s.sec with cmdStatus := if good then stOk else stPermission, debug := if good then 2 else s.sec.debug })) ∧
    (s.dev.draining = true → ∀ c ∈ [Instr.authSlot i session fn, .authCtx i session, .eraseSlot i, .debug1, .debug2], exec c s = .next s) ∧
    (s.sec.state = .activating →
      (s.dev.draining = false → ends (.authSlot i session fn) stBusy ∧ ends (.authCtx i session) stBusy ∧ ends (.eraseSlot i) stBusy ∧ ends .debug1 stBusy ∧ ends .debug2 stBusy) ∧
      ∃ t, exec .colophonActivationEnd s = .next t ∧ t.sec.state = .running ∧ t.sec.activations = min (s.sec.activations + 1) 65535 ∧
        t.sec.meas.get 2 0 = (s.bankFound 0 (s.image 0).activeB).1 ∧ (t.image 0).version = (s.bankFound 0 (s.image 0).activeB).2 ∧
        ∀ j, t.sec.slots.get j {} = if (s.sec.slots.get j {}).state = .loaded then { s.sec.slots.get j {} with stale := true } else s.sec.slots.get j {}) ∧
    (s.sec.state ≠ .activating → exec .colophonActivationEnd s = .next s) ∧
    (1048576 ≤ s.sec.drbg →
      (ok = true → ∃ t e, exec (.drbgReseed ok) s = .next t ∧ e = (s.drawBits 6).1 ∧
        let g := Drbg.update (s.sec.drbgKey, s.sec.drbgV) (leBytes 48 e)
        t.sec = { s.sec with drbg := 0, entropyOk := true, drbgKey := g.1, drbgV := g.2 }) ∧
      (ok = false → ∃ t, exec (.drbgReseed ok) s = .next t ∧ t.sec = { s.sec with drbg := 0, entropyOk := false })) ∧
    (s.sec.drbg < 1048576 → exec (.drbgReseed ok) s = .next s) ∧
    (s.sec.state = .running → (s.session session).live = true →
      (msgByte m 0 = 2 → 40 ≤ m.length → ∃ t, exec (.ideKm session m) s = .next t ∧
        t.sec.ideKeys.get (msgByte m 3 * 256 + msgByte m 5) 0 = BitVec.ofNat 256 (ofLe (msgPart m 8 32)) ∧ t.sec.ide = s.sec.ide) ∧
      (msgByte m 0 = 4 → s.sec.ideKeys ≠ [] → ∃ t, exec (.ideKm session m) s = .next t ∧ t.sec = { s.sec with ide := true }) ∧
      (msgByte m 0 = 5 → ∃ t, exec (.ideKm session m) s = .next t ∧ t.sec = { s.sec with ide := false })) ∧
    ((s.session session).live = false → exec (.ideKm session m) s = .next s)

/-- Mailbox requests are answered, held or time out; service processors restart and become ready. A well-formed request of the physical function while
service processor 2 is READY and serves, none running, is answered with OK in FW_RSP: HELLO of major 1 makes the device OPERATIONAL, or answers
UNIT_UNAVAILABLE with a HOLD, or RANGE of another major; GET_INFO, PORT_INFO and SENSORS give their data; TRACE_SET sets the mask; FW_STAGE writes its
bytes to the inactive bank, in sectors of no other range, and clears STAGED; FW_VERIFY sets STAGED if the check of that bank gives OK, and answers its
status; FW_ACTIVATE of a staged image switches the bank and restarts its processor, or activates the Colophon and ends its sessions; while the
Colophon firmware has failed, other images than its own get PERMISSION (log 140). While processor 2 restarts the request is held. MAILBOX_TIMEOUT 2 s
after GO: TIMEOUT, and processor 2 restarts. WATCHDOG_EXPIRY and the key 0x5A restart a processor that is not STOPPED, and one of processor 2 ends a
request in progress with ABORTED; WATCHDOG_COUNT_RESTART restarts its count; SP_READY makes a verified one READY. MCTP_CONTROL sets the endpoint ID
and answers; PLDM_REQUEST answers with the readings; a bus that is not served answers nothing. The model's choices in it: logs 10, 31, 48, 140. (14
R426; 14 R427; 14 R428; 14 R429; 14 R430; 14 R431; 14 R432; 14 R433; 14 R436; 14 R440; 14 R442; 14 R443; notes/assumptions/10.md;
notes/assumptions/31.md; notes/assumptions/48.md; notes/assumptions/140.md) -/
def Obligations.MailboxAndServiceProcessors : Prop :=
  ∀ (s : State) (n : Nat) (v : BitVec 64) (m : List (BitVec 8)), s.stopped = false →
    let p := m.drop 16
    let i := msgByte p 0
    let x := s.image i
    let off := ofLe (msgPart p 4 4)
    let data := p.drop 16
    let answered (t : State) (r : List (BitVec 8)) : Prop := t.fw.mboxDone = true ∧ t.fw.mboxBusy = false ∧ t.fw.rspLen = r.length ∧ getBuf t.fw.rsp 0 r.length = r
    let well := 16 ≤ m.length ∧ msgByte m 0 = 1 ∧ msgByte m 3 / 2 = 0 ∧ ofLe (msgPart m 12 4) = 0 ∧ ofLe (msgPart m 8 4) = p.length
    let sp := s.sp n
    (s.fw.mboxBusy = false → s.dev.served = true → (s.sp 2).state = .ready →
      (well →
        (msgByte m 2 = 0x01 → p = [] →
          (s.dev.operational = true ∨ s.hold = 0 → ∃ t, exec (.hello 3 m) s = .next t ∧ t.dev.operational = true ∧
            answered t (fwResponse m stOk (leBytes 4 (1 + 16 * s.hold)))) ∧
          (s.dev.operational = false → s.hold ≠ 0 → ∃ t, exec (.hello 3 m) s = .next t ∧ t.dev.operational = false ∧
            answered t (fwResponse m stUnavailable (leBytes 4 (16 * s.hold))))) ∧
        (msgByte m 2 = 0x02 → p = [] → ∃ t, exec (.getInfo 3 m) s = .next t ∧ answered t (fwResponse m stOk s.getInfo)) ∧
        (msgByte m 2 = 0x31 → p = [] → ∃ t, exec (.sensors 3 m) s = .next t ∧ answered t (fwResponse m stOk s.sensors)) ∧
        (msgByte m 2 = 0x20 → p.length = 16 → i < 16 → ofLe (msgPart p 1 15) = 0 → ∃ t, exec (.portInfo 3 m) s = .next t ∧
          answered t (fwResponse m stOk (s.portInfo i))) ∧
        (msgByte m 2 = 0x30 → p.length = 8 → ∃ t, exec (.traceSet 3 m) s = .next t ∧ t.fw.traceMask = BitVec.ofNat 64 (ofLe p) ∧ answered t (fwResponse m stOk [])) ∧
        (msgByte m 2 = 0x10 → data ≠ [] → data.length ≤ 61440 → i ≤ 3 → ofLe (msgPart p 1 3) = 0 → ofLe (msgPart p 8 8) = 0 → off + data.length ≤ 4194304 →
          s.onlyRecovery i = false → s.fw.staging = 0 ∨ (s.fw.staging = i + 1 ∧ s.fw.chunkBad off data.length = false) → s.otherActivation i = false →
          ∃ t, exec (.fwStage 3 m) s = .next t ∧ (t.image i).staged = false ∧
            answered t (fwResponse m stOk []) ∧ (t.image i).bank x.activeB = x.bank x.activeB ∧
            (∀ j < data.length, ((t.image i).bank (!x.activeB)).get (off + j) 0xFF = data.getD j 0) ∧
            ∀ a, (a / 4096 < off / 4096 ∨ (off + data.length + 4095) / 4096 ≤ a / 4096) →
              ((t.image i).bank (!x.activeB)).get a 0xFF = (x.bank (!x.activeB)).get a 0xFF) ∧
        (msgByte m 2 = 0x11 → p.length = 16 → i ≤ 3 → ofLe (msgPart p 1 15) = 0 → s.onlyRecovery i = false → s.sec.state ≠ .activating → ∃ t, exec (.fwVerify 3 m) s = .next t ∧
          let c := s.checkBank i (!x.activeB)
          (t.image i).staged = (if c.1 = stOk then true else x.staged) ∧ answered t (fwResponse m c.1 (if c.1 = stOk then leBytes 48 c.2.1.toNat else []))) ∧
        (msgByte m 2 = 0x12 → p.length = 16 → i ≤ 3 → ofLe (msgPart p 1 15) = 0 → x.staged = true → s.onlyRecovery i = false → (∀ k < 3, (s.sp k).state ≠ .restarting) →
          s.sec.state ≠ .activating → s.fw.staging = 0 → ∃ t, exec (.fwActivate 3 m) s = .next t ∧ (t.image i).activeB = !x.activeB ∧ (t.image i).staged = false ∧
            answered t (fwResponse m stOk []) ∧ (1 ≤ i → (t.sp (i - 1)).state = .restarting) ∧
            (i = 0 → s.sec.fwFailed = false → t.sec.state = .activating ∧ ∀ k, (t.session k).live = false)) ∧
        (s.onlyRecovery i = true → p.length = 16 → i ≤ 3 → ofLe (msgPart p 1 15) = 0 →
          (msgByte m 2 = 0x11 → ∃ t, exec (.fwVerify 3 m) s = .next t ∧ t.fw.images = s.fw.images ∧ answered t (fwResponse m stPermission [])) ∧
          (msgByte m 2 = 0x12 → x.staged = true → ∃ t, exec (.fwActivate 3 m) s = .next t ∧ t.fw.images = s.fw.images ∧ answered t (fwResponse m stPermission [])))) ∧
      (16 ≤ m.length → msgByte m 0 ≠ 1 → msgByte m 2 = 0x01 → ∃ t r, exec (.hello 3 m) s = .next t ∧ t.dev.operational = s.dev.operational ∧
        answered t (fwResponse m stRange r))) ∧
    (s.fw.mboxBusy = false → (s.sp 2).state = .restarting → msgByte m 2 = 0x02 → ∃ t, exec (.getInfo 3 m) s = .next t ∧ t.fw.mboxBusy = true ∧
      t.fw.mboxHeld = true ∧ t.fw.mboxDone = false ∧ t.fw.request = m) ∧
    (s.fw.mboxBusy = true → s.dev.served = true → s.fw.goAt + 2100000000 ≤ s.now → ∃ t, exec .mailboxTimeout s = .next t ∧
      answered t (fwResponse s.fw.request stTimeout []) ∧ ((s.sp 2).state ≠ .stopped → (t.sp 2).state = .restarting)) ∧
    (s.fw.mboxBusy = false → exec .mailboxTimeout s = .next s) ∧
    (n < 3 → sp.state ≠ .stopped →
      (sp.kickAt + sp.wdMs * 1050000 ≤ s.now → ∃ t, exec (.watchdogExpiry n) s = .next t ∧ (t.sp n).state = .restarting ∧
        (t.sp n).restarts = min (sp.restarts + 1) 0xFFFFFFFF ∧ t.sec.spRestarting.get n false = true ∧
        (n = 2 → s.fw.mboxBusy = true → s.fw.mboxHeld = false → s.dev.served = true → answered t (fwResponse s.fw.request stAborted []))) ∧
      (s.now < sp.kickAt + sp.wdMs * 1050000 → exec (.watchdogExpiry n) s = .next s) ∧
      (fld v.toNat 8 8 = 0x5A → ∃ t, exec (.spRestartWrite n v) s = .next t ∧ (t.sp n).state = .restarting ∧
        (t.sp n).wdMs = (if 100 ≤ fld v.toNat 16 16 then fld v.toNat 16 16 else sp.wdMs)) ∧
      (fld v.toNat 8 8 ≠ 0x5A → ∃ t, exec (.spRestartWrite n v) s = .next t ∧ (t.sp n).state = sp.state) ∧
      (∃ t, exec (.watchdogCountRestart n) s = .next t ∧ (t.sp n) = { sp with kickAt := s.now })) ∧
    (n < 3 → sp.state = .restarting → sp.verified = true → (n = 2 → s.dev.zeroed = true ∧ s.fw.mboxBusy = false) → ∃ t, exec (.spReady n) s = .next t ∧
      (t.sp n).state = .ready ∧ t.sec.spRestarting.get n false = false) ∧
    (sp.state ≠ .restarting → exec (.spReady n) s = .next s) ∧
    (s.busUp n = false → exec (.mctpControl n m) s = .next s ∧ exec (.pldmRequest n m) s = .next s) ∧
    (s.busUp n = true →
      (msgByte m 1 = 1 → m.length = 4 → msgByte m 2 % 4 ≤ 1 → ∃ t, exec (.mctpControl n m) s = .next t ∧ t.fw.eids.get n 0 = msgByte m 3 ∧
        .response n (Config.mctpResponse m (msgByte m 3)) ∈ t.out) ∧
      ∃ t r, exec (.pldmRequest n m) s = .next t ∧ t.out = .response n (Config.pldmResponse m (s.sensors ++ r)) :: s.out)

/-- Downstream ports, failing units, operating points, the thermal policy, register writes and the buffer window. On the LG-8160: PORT_RESET and
DOWNSTREAM_LINK_EVENT set a port's link and enumeration while service processor 2 is READY, and wait otherwise; ENUMERATION_DONE accepts a device or
rejects it with the code of what it found, with its steps sent. PCH_FAILED and UNIT_MARKED_UNAVAILABLE mark the unit. OPERATING_POINT_CHANGE commands
the voltage: a slower point takes effect at once, a faster one by VOLTAGE_IN_REGULATION, or fails by REGULATION_TIMEOUT after 200 µs. PM_CTL_WRITE
takes REQUEST; IDLE_ENTRY enters P3 after IDLE_US without a Quire. SENSOR_SAMPLE takes the readings, and package power from the rails, raises the
ceiling at the tenth hot one, trips at 115 °C or 100 °C of a stack. REGISTER_WRITE of a command register does what its command does; a RW field holds
what was written, a descriptor field only in DISABLED, a state record only in DISABLED or STOPPED, a read-only register keeps its value; 16 bytes are
two writes of 8; of 4 bytes elsewhere, not aligned, or with Memory Space Enable 0, nothing. BUFFER_WINDOW_ACCESS writes the enabled bytes whose sheets
the function may write and no others, and reads those it may read whose granules are readable, 0 for those it may not. The model's choices in it: logs
50, 57, 84, 144, 157, 159. (14 R428; 14 R439; 13 R404; 13 R408; 04 R117; 00 R6; 07 R229; 15 R448; 15 R455; 15 R456; 15 R457; 15 R470; 15 R471; 15
R472; 00 R9; 02 R28; 02 R31; 16 R478; 16 R479; 16 R480; 16 R481; notes/assumptions/50.md; notes/assumptions/57.md; notes/assumptions/84.md;
notes/assumptions/144.md; notes/assumptions/157.md; notes/assumptions/159.md) -/
def Obligations.PortsPowerAndRegisters : Prop :=
  ∀ (s : State) (i kind width vendor capacity fn off : Nat) (found : PortFound) (serial : BitVec 160) (ok : Bool) (die : Int) (temps : List Int)
      (currents : List (Option Nat)) (v w : BitVec 64) (data : List (Option (BitVec 8))), s.stopped = false →
    let x := s.port i
    let p := s.pwr
    let down (d : Dev) (k : Nat) : Tbl Bool :=
      if k = 0 then d.folioDown else if k = 1 then d.pressDown else if k = 2 then d.awlDown else if k = 3 then d.laneDown
      else if k = 4 then d.engineDown else d.quireDown
    let units (k : Nat) : Nat := if k = 0 then 16 * s.quires else if k = 1 then 8 else if k = 2 then 16 else if k = 3 then s.lanes else if k = 4 then 9 else s.quires
    (i < 16 → s.dev.variant = .lg8160 →
      ((s.sp 2).state = .ready →
        (∃ t, exec (.portReset i) s = .next t ∧ (t.port i).avail = false ∧ (t.port i).linkUp = false ∧ (t.port i).enum = .training) ∧
        (∃ t, exec (.downstreamLinkEvent i true) s = .next t ∧ (t.port i).linkUp = true ∧ (t.port i).enum = .enumerating) ∧
        (∃ t, exec (.downstreamLinkEvent i false) s = .next t ∧ (t.port i).avail = false ∧ (t.port i).linkUp = false ∧ (t.port i).enum = .linkDown) ∧
        (x.enum = .enumerating → ∃ t, exec (.enumerationDone i kind width found vendor serial capacity) s = .next t ∧ (t.port i).serial = serial ∧
          (t.port i).vendor = vendor ∧ (t.port i).capacity = capacity ∧
          let code := rejectOf kind capacity found
          (∀ c ∈ enumSteps kind capacity found, .portCommand i c ∈ t.out) ∧
          (code = 0 → (t.port i).enum = .accepted ∧ (t.port i).avail = true ∧ (t.port i).kind = kind ∧
            (t.port i).sheets = if kind = 1 then capacity / 4608 else min (capacity / 4096) (2 ^ 34)) ∧
          (code ≠ 0 → (t.port i).enum = .rejected ∧ (t.port i).avail = false ∧ (t.port i).reject = code))) ∧
      ((s.sp 2).state ≠ .ready →
        (∃ t, exec (.portReset i) s = .next t ∧ t.port i = { x with resetWaits := true }) ∧
        ∃ t, exec (.downstreamLinkEvent i ok) s = .next t ∧ t.port i = { x with linkUp := ok, latched := true })) ∧
    (i < s.pchFitted → s.dev.pchDown.get i false = false → ∃ t, exec (.pchFailed i) s = .next t ∧ ∀ j, t.dev.pchDown.get j false = if j = i then true else s.dev.pchDown.get j false) ∧
    (kind < 6 → i < units kind → (down s.dev kind).get i false = false → ∃ t, exec (.unitMarkedUnavailable kind i) s = .next t ∧
      ∀ j, (down t.dev kind).get j false = if j = i then true else (down s.dev kind).get j false) ∧
    (i < 128 → (s.bank i).down = false → ∃ t, exec (.unitMarkedUnavailable 6 i) s = .next t ∧ ∀ j, (t.bank j).down = (decide (j = i) || (s.bank j).down)) ∧
    ((s.sp 0).state = .ready → p.idle = false → p.rising = none →
      (p.point < p.target → ∃ t, exec (.operatingPointChange ok) s = .next t ∧ t.pwr.point = p.target ∧ t.pwr.avsOk = ok ∧ .avs (pointMv p.target) ∈ t.out) ∧
      (p.target < p.point → ∃ t, exec (.operatingPointChange ok) s = .next t ∧ t.pwr.point = p.point ∧ t.pwr.rising = some (p.target, s.now) ∧
        t.pwr.backMv = p.mv ∧ t.pwr.mv = (if ok then pointMv p.target else p.mv) ∧ .avs (pointMv p.target) ∈ t.out) ∧
      (p.target = p.point → exec (.operatingPointChange ok) s = .next s)) ∧
    (∀ goal since, p.rising = some (goal, since) → (s.sp 0).state = .ready →
      (∃ t, exec .voltageInRegulation s = .next t ∧ t.pwr.point = goal ∧ t.pwr.mv = pointMv goal ∧ t.pwr.rising = none) ∧
      (since + 210000 ≤ s.now → ∃ t, exec .regulationTimeout s = .next t ∧ 
        t.pwr = { p with rising := none, changeFail := true, avsOk := t.pwr.avsOk, mv := if t.pwr.avsOk then p.backMv else p.mv } ∧ t.out = .avs p.backMv :: s.out) ∧
      (s.now < since + 210000 → exec .regulationTimeout s = .next s)) ∧
    (∃ t, exec (.pmCtlWrite v) s = .next t ∧ t.pwr.request = (if fld v.toNat 0 2 = 3 then p.request else fld v.toNat 0 2) ∧ t.pwr.autoIdle = v.getLsbD 2 ∧
      t.pwr.idle = (p.idle && v.getLsbD 2) ∧ t.pwr.point = p.point) ∧
    (let due := p.autoIdle = true ∧ p.idle = false ∧ s.fq.held = [] ∧ p.idleFrom + p.idleUs * 1050 ≤ s.now;
      (due → ∃ t, exec .idleEntry s = .next t ∧ t.pwr.idle = true ∧ t.pwr.point = p.point) ∧ (¬ due → exec .idleEntry s = .next s)) ∧
    (let uw := s.packagePower currents;
      ∃ t, exec (.sensorSample die temps currents) s = .next t ∧ t.pwr.dieC = die ∧ t.pwr.lastPower = uw ∧ t.pwr.powerSum = p.powerSum + uw ∧
      t.pwr.powerCount = p.powerCount + 1 ∧ t.pwr.diePeak = some (max die (p.diePeak.getD die)) ∧
      (t.pwr.powerW = min (uw / 1000000) 4095 ∨ (uw % 1000000 ≠ 0 ∧ t.pwr.powerW = min (uw / 1000000 + 1) 4095)) ∧
      (∀ j < 8, t.pwr.stackC.get j 0 = temps.getD j 0) ∧
      (115 ≤ die ∨ (∃ c ∈ temps, 100 ≤ c) → t.pwr.tripped = true ∧ t.dev.thermTripN = true) ∧
      (die < 115 → (∀ c ∈ temps, c < 100) → t.pwr.tripped = p.tripped ∧ t.dev.thermTripN = s.dev.thermTripN) ∧
      ((s.sp 0).state ≠ .ready → t.pwr.ceiling = p.ceiling) ∧
      ((s.sp 0).state = .ready → p.hot = 9 → p.wait = 0 → Int.ofNat p.throttleC ≤ die → t.pwr.ceiling = min (p.ceiling + 1) 2 ∧ t.pwr.wait = 100)) ∧
    (s.memOn 0 = true → ∀ (at_ : Nat) (c : Instr), (at_, c) ∈ [(0x192020, Instr.devReset v), (0x200010, .spOvfWrite v), (0x200060, .probeSearch v), (0x300008, .commit v),
        (0x600008, .netModeWrite v), (0x6000B0, .dirRoleWrite v), (0x700400, .histCopy v), (0x700500, .ptpEnableWrite v), (0x900008, .errHeadWrite v),
        (0x900020, .cntCmd v), (0x902000, .pmCtlWrite v), (0xA00020, .spRestartWrite 0 v)] → exec (.registerWrite 0 fn at_ [v] 8) s = exec c s) ∧
    (s.memOn 0 = true →
      let n := v.toNat
      let u := s.ctx i
      let ends (at_ : Nat) (k : List Part) (q : State → Prop) : Prop := ∃ t, exec (.registerWrite 0 fn at_ [v] 8) s = .next t ∧ OnlyChanges k s t ∧ q t
      (i < 1024 → ∀ j, 0 < j → j < 32 → ends (0x100000 + 256 * i + 8 * j) [.ctxs] fun t =>
        let y := t.ctx i
        (∀ d, d ≠ i → t.ctx d = s.ctx d) ∧
        (j = 16 → y = { u with quota := fld n 0 40 }) ∧
        (j = 2 ∨ (11 ≤ j ∧ j < 15) ∨ 19 ≤ j ∨ (u.state ≠ .disabled ∧ j ≠ 16) → y = u) ∧
        (u.state = .disabled →
          (j = 1 → y = { u with csize := fld n 0 4, cloc := fld n 4 4, cbase := fld n 12 52 }) ∧
          (3 ≤ j → j < 11 → y.ring (j - 3) = { u.ring (j - 3) with size := fld n 0 4, loc := fld n 4 4, enable := bit n 8, base := fld n 12 52 } ∧
            ∀ r, r ≠ j - 3 → y.ring r = u.ring r) ∧
          (j = 15 → ∀ k < 4, y.scopes.get k 0 = fld n (16 * k) 16) ∧
          (j = 17 → y = { u with inSheet := fld n 0 27, inSheets := fld n 32 16 }) ∧
          (j = 18 → y = { u with outSheet := fld n 0 27, outSheets := fld n 32 16 }))) ∧
      (i < 1024 → ∀ j < 16, ends (0x140000 + 256 * i + 8 * j) [.ctxs] fun t => (∀ d, d ≠ i → t.ctx d = s.ctx d) ∧
        (u.state = .disabled ∨ u.state = .stopped → (t.ctx i).reg j = v ∧ ∀ k, k ≠ j → (t.ctx i).reg k = u.reg k) ∧
        (u.state ≠ .disabled → u.state ≠ .stopped → t.ctx i = u)) ∧
      ends 0x192000 [.slice] (fun t => t.slice = fld n 0 24) ∧
      ends 0x192010 [.lockUs] (fun t => t.lockUs = if fld n 0 16 = 0 then s.lockUs else fld n 0 16) ∧
      ends 0x300010 [.ps] (fun t => t.ps = { s.ps with pLimit := fld n 0 32 }) ∧
      ends 0x310008 [.tier] (fun t => t.tier = { s.tier with low := fld n 0 28, high := fld n 32 28 }) ∧
      ends 0x310010 [.tier] (fun t => t.tier = { s.tier with landing := fld n 0 28 }) ∧
      ends 0x502008 [.press] (fun t => t.press = { s.press with forceRaw := bit n 0 }) ∧
      ends 0x600018 [.net] (fun t => t.net = { s.net with targetNs := fld n 0 16, ai := fld n 16 16, beta := fld n 32 8 }) ∧
      ends 0x700008 [.eg] (fun t => t.eg = { s.eg with yellowLimit := fld n 0 15 }) ∧
      ends 0x700538 [.ptp] (fun t => t.ptp = { s.ptp with rxNs := fld n 0 16, txNs := fld n 16 16 }) ∧
      ends 0x902020 [.pwr] (fun t => t.pwr = if fld n 0 8 ≤ fld n 8 8 ∨ 115 ≤ fld n 0 8 then p
        else { p with throttleC := fld n 0 8, releaseC := fld n 8 8, hbmThrottleC := fld n 16 8 }) ∧
      ends 0xA00048 [.fw] (fun t => t.fw = { s.fw with traceMask := v }) ∧
      (∀ at_ ∈ [0x000000, 0x000008, 0x200000, 0x300000, 0x500000, 0x600000, 0x700000, 0x800000, 0x900000, 0x900010, 0xA00000, 0xA00010], exec (.registerWrite 0 fn at_ [v] 8) s = .next s) ∧
      (off % 8 = 0 → exec (.registerWrite 0 fn off [v, w] 16) s = .next (((s.writeBar0 off v).writeBar0 (off + 8) w).framed s))) ∧
    (s.memOn 0 = false → ∀ vs k, exec (.registerWrite 0 fn off vs k) s = .next s) ∧
    (off % 8 ≠ 0 ∨ off / 65536 ≠ 129 ∧ off / 65536 ≠ 161 → exec (.registerWrite 0 fn off [v] (if off % 8 = 0 then 4 else 8)) s = .next s) ∧
    (fn < 256 → (s.fn fn).enabled = true →
      (s.memOn fn = true → ∀ k < 8, 0 < k → off / 8 = 2 → exec (.registerWrite 2 fn off [v] k) s = exec (.kettleDoorbell fn v k) s) ∧
      (s.dev.cfgOpen (s.linkOf fn) = false → exec (.registerWrite 16 fn off [v] 4) s = .next (s.emitOut (.cfgAnswer 1)))) ∧
    (fn < 256 → (s.fn fn).enabled = true → s.memOn fn = true → s.dev.zeroed = true →
      (s.dev.pchDown = [] → ∃ t, exec (.bufferWindowAccess fn off true data) s = .next t ∧ ∀ a,
        memRead t.t0 a = match (if s.windowAddr off ≤ a ∧ s.windowMaps (off + (a - s.windowAddr off)) = true ∧ s.windowAccess fn (a / 4096) = 2
          then data.getD (a - s.windowAddr off) none else none) with | some b => b | none => memRead s.t0 a) ∧
      ∃ t l, exec (.bufferWindowAccess fn off false data) s = .next t ∧ t.t0 = s.t0 ∧ .readData l ∈ t.out ∧
        let at_ := ((List.range data.length).filter fun i => (data.getD i none).isSome).map (off + ·)
        l.length = at_.length ∧ ∀ j < l.length, s.rangeBad (s.windowAddr (at_.getD j 0)) 1 = false → l.getD j 0 =
          if s.windowMaps (at_.getD j 0) = true ∧ 1 ≤ s.windowAccess fn (s.windowAddr (at_.getD j 0) / 4096) then memRead s.t0 (s.windowAddr (at_.getD j 0)) else 0)

/-- Resets leave what they leave, and a start goes on step by step. RESET_N_ASSERT leaves every register at its reset value, with the pin held. COLD_START
ends the hold: cause 6, the straps as sampled, the variant of an accepted configuration record, else LG-4080, the DeviceID keys that the seed unwraps
from the boot flash, and entropy as found; with RESET_N not held it does nothing. BROWN_OUT holds every block in reset and asserts FAULT_N. DEV_RESET
with its key and UPSTREAM_LINK_DOWN or PERST_N_CHANGE of the active link 0 trigger a warm device reset; WARM_START of one triggered resets all but the
error ring, the log and debug level 2, with cause 5. CONFIGURATION_READY, the ROM done and PERST_N released: the link is active. HBM_TRAINING_DONE of
a start takes the failed pseudo-channels out of the interleave. T0_ZEROING_DONE: T0 reads zero. IMAGE_VERIFIED of the image that is due: a good one is
measured and started, another is measured as zeros and not started; of one not due, nothing changes. The model's choices in it: logs 5, 14, 48, 52,
77, 139. (13 R404; 13 R408; 13 R409; 15 R451; 15 R458; 15 R459; 15 R460; 12 R361; 12 R363; 12 R364; 12 R368; 04 R115; 04 R116; 14 R427;
notes/assumptions/5.md; notes/assumptions/14.md; notes/assumptions/48.md; notes/assumptions/52.md; notes/assumptions/77.md; notes/assumptions/139.md) -/
def Obligations.ResetsAndStarts : Prop :=
  ∀ (s : State) (n link smb clk version : Nat) (b i3c entropy ok : Bool) (v : BitVec 64) (hash : BitVec 384) (flash : BootFlash)
      (puf : List (BitVec 8)) (failed : List Nat),
    (∃ t, exec .resetNAssert s = .next t ∧ t.dev.held = true ∧ t.t0 = [] ∧ t.ctxs = [] ∧ t.flights = [] ∧ t.ps = State.reset.ps ∧ t.net = State.reset.net ∧
      t.err = State.reset.err ∧ t.sec = State.reset.sec ∧ t.pending = s.pending) ∧
    (let keys := flashIdentity flash puf
      let r := ({ s with dev := { s.dev with flash := flash } } : State).recordOk keys
      s.dev.held = true → (∃ t, exec (.coldStart b clk smb i3c flash.toWrappedKeys flash.toCertChains flash.toSignedRecord puf entropy) s = .next t ∧ t.dev.held = false ∧ t.dev.brownOut = false ∧ t.dev.lastReset = 6 ∧
          t.dev.starting = true ∧ t.dev.romDone = true ∧ t.dev.bifPin = b ∧ t.dev.clkMode = clk % 4 ∧ t.dev.smb = smb % 8 ∧ t.dev.i3c = i3c ∧
          t.sec.identityOk = keys.isSome ∧ t.sec.entropyOk = entropy ∧ t.sec.configOk = r ∧ t.dev.flash = flash ∧
          (∀ k, keys = some k → t.sec.rsaKey = k.1 ∧ t.sec.slhKey = k.2) ∧
          (r = true → msgByte flash.record 2 = 1 → t.dev.variant = .lg8160 ∧ t.ps = State.reset.ps) ∧
          (r = false ∨ msgByte flash.record 2 ≠ 1 → t.dev.variant = .lg4080 ∧ t.ps.limit = 134217728) ∧ t.ctxs = [] ∧ t.t0 = [])) ∧
    (s.dev.held = false → exec (.coldStart b clk smb i3c flash.toWrappedKeys flash.toCertChains flash.toSignedRecord puf entropy) s = .next s ∧
      ∃ t, exec .brownOut s = .next t ∧ t = s.brown ∧ t.dev.brownOut = true ∧ t.dev.faultN = true ∧ t.dev.held = false ∧ t.t0 = [] ∧ t.ctxs = [] ∧ t.net = State.reset.net) ∧
    (s.stopped = false →
      (∃ t, exec (.devReset v) s = .next t ∧ t.dev.draining = (s.dev.draining || (decide (fld v.toNat 8 8 = 0x5A) && v.getLsbD 0))) ∧
      (s.dev.dl0 = true →
        (∃ t, exec (.upstreamLinkDown 0) s = .next t ∧ t.dev.dl0 = false ∧ t.dev.draining = true ∧ t.sec.ide = false ∧ t.sec.ideKeys = []) ∧
        ∃ t, exec (.perstNChange 0 true) s = .next t ∧ t.dev.perst0 = true ∧ t.dev.dl0 = false ∧ t.dev.draining = true) ∧
      (s.dev.dl0 = false → exec (.upstreamLinkDown 0) s = .next s) ∧
      (∃ t, exec (.perstNChange 0 false) s = .next t ∧ t.dev.perst0 = false ∧ t.dev.dl0 = s.dev.dl0) ∧
      (s.dev.draining = true → ∃ t, exec (.warmStart puf entropy) s = .next t ∧ t.dev.draining = false ∧ t.dev.lastReset = 5 ∧
        t.dev.warmResets = min (s.dev.warmResets + 1) 65535 ∧ t.ctxs = [] ∧ t.t0 = [] ∧ t.flights = [] ∧ t.fw.log = s.fw.log ∧
        t.sec.debug = (if s.sec.debug = 2 then 2 else 0) ∧ t.pwr.tripped = s.pwr.tripped ∧
        t.sec.identityOk = (flashIdentity s.dev.flash puf).isSome ∧ t.sec.configOk = s.recordOk (flashIdentity s.dev.flash puf) ∧
        (t.sec.identityOk = true → t.sec.configOk = true → t.err.ring = s.err.ring ∧ t.err.head = s.err.head ∧ t.err.tail = s.err.tail)) ∧
      (s.dev.draining = false → exec (.warmStart puf entropy) s = .next s) ∧
      (s.dev.romDone = true →
        (s.dev.perst0 = false → s.dev.dl0 = false → ∃ t, exec (.configurationReady 0) s = .next t ∧ t.dev = { s.dev with dl0 := true, cfgReady := true }) ∧
        (s.dev.perst1 = false → s.dev.dl1 = false → s.dev.bifPin = true → ∃ t, exec (.configurationReady 1) s = .next t ∧ t.dev = { s.dev with dl1 := true })) ∧
      (s.dev.romDone = false → exec (.configurationReady link) s = .next s) ∧
      (s.dev.starting = true → s.dev.hbmDone = false → ∃ t, exec (.hbmTrainingDone failed) s = .next t ∧ t.dev.hbmDone = true ∧
        (∀ i, t.dev.pchOut.get i false = true ↔ i ∈ failed ∧ i < s.pchFitted) ∧ t.dev.pchDown = t.dev.pchOut ∧ ((∀ i ∈ failed, s.pchFitted ≤ i) → t.ps = s.ps)) ∧
      (s.dev.hbmDone = true → exec (.hbmTrainingDone failed) s = .next s ∧
        (s.dev.zeroed = false → ∃ t, exec .t0ZeroingDone s = .next t ∧ t.dev.zeroed = true ∧ ∀ a, memRead t.t0 a = 0)) ∧
      (s.dev.hbmDone = false ∨ s.dev.zeroed = true → exec .t0ZeroingDone s = .next s) ∧
      (s.imageDue n = true → s.fw.mboxBusy = false →
        let x := s.image n
        let blank := x.erased x.activeB = []
        let block := if n = 0 then 2 else 3 + n
        (ok = true → blank → ∃ t, exec (.imageVerified n ok hash version) s = .next t ∧ t.dev.imageRead.get n false = true ∧ t.sec.meas.get block 0 = hash ∧
          (t.image n).version = version ∧ (n = 0 → t.sec.state = .running) ∧ (n ≠ 0 → (t.sp (n - 1)).state = .restarting ∧ (t.sp (n - 1)).verified = true)) ∧
        (ok = false → ∃ t, exec (.imageVerified n ok hash version) s = .next t ∧ t.dev.imageRead.get n false = true ∧ t.sec.meas.get block 0 = 0 ∧
          (n = 0 → t.sec.fwFailed = true) ∧ (n ≠ 0 → (t.sp (n - 1)).state = .stopped))) ∧
      (s.imageDue n = false → exec (.imageVerified n ok hash version) s = .next s))
end

