-- ==== Sys2Proof/Laws/Table.lean ====
section
/-! SUPPORT. Sparse tables: reading what was written, writing nothing else, and the canonical form kept. -/
namespace Sys2Proof.Machine

variable {α : Type}

@[simp] theorem Tbl.get_nil (k : Nat) (d : α) : Tbl.get [] k d = d := rfl

theorem Tbl.get_cons (k' : Nat) (v : α) (r : Tbl α) (k : Nat) (d : α) :
    Tbl.get ((k', v) :: r) k d = if k' = k then v else Tbl.get r k d := rfl

/-- A listed key reads as what was put there. -/
@[simp] theorem Tbl.get_put_same (t : Tbl α) (k : Nat) (v d : α) : Tbl.get (Tbl.put t k v) k d = v := by
  induction t with
  | nil => simp [Tbl.put, Tbl.get_cons]
  | cons p r ih =>
    obtain ⟨k', v'⟩ := p
    unfold Tbl.put
    split_ifs with h1 h2
    · simp [Tbl.get_cons]
    · simp [Tbl.get_cons]
    · simp [Tbl.get_cons, h1, ih]

/-- Putting a key leaves every other key. -/
theorem Tbl.get_put_ne (t : Tbl α) {j k : Nat} (v d : α) (h : j ≠ k) : Tbl.get (Tbl.put t k v) j d = Tbl.get t j d := by
  induction t with
  | nil => simp [Tbl.put, Tbl.get_cons, h.symm]
  | cons p r ih =>
    obtain ⟨k', v'⟩ := p
    unfold Tbl.put
    split_ifs with h1 h2
    · subst h1; simp [Tbl.get_cons, h.symm]
    · simp [Tbl.get_cons, h.symm]
    · simp [Tbl.get_cons, ih]

/-- A deleted key reads as the default. -/
@[simp] theorem Tbl.get_del_same (t : Tbl α) (k : Nat) (d : α) : Tbl.get (Tbl.del t k) k d = d := by
  induction t with
  | nil => rfl
  | cons p r ih =>
    obtain ⟨k', v'⟩ := p
    by_cases h : k' = k
    · simpa [Tbl.del, h] using ih
    · have : Tbl.del ((k', v') :: r) k = (k', v') :: Tbl.del r k := by simp [Tbl.del, h]
      rw [this, Tbl.get_cons, if_neg h, ih]

/-- Deleting a key leaves every other key. -/
theorem Tbl.get_del_ne (t : Tbl α) {j k : Nat} (d : α) (h : j ≠ k) : Tbl.get (Tbl.del t k) j d = Tbl.get t j d := by
  induction t with
  | nil => rfl
  | cons p r ih =>
    obtain ⟨k', v'⟩ := p
    by_cases hk : k' = k
    · have h' : k' ≠ j := fun e => h (e.symm.trans hk)
      have e : Tbl.del ((k', v') :: r) k = Tbl.del r k := by simp [Tbl.del, hk]
      rw [e, ih, Tbl.get_cons, if_neg h']
    · have e : Tbl.del ((k', v') :: r) k = (k', v') :: Tbl.del r k := by simp [Tbl.del, hk]
      rw [e, Tbl.get_cons, Tbl.get_cons, ih]

variable [DecidableEq α]

/-- A key reads as what was set there. -/
@[simp] theorem Tbl.get_set_same (t : Tbl α) (k : Nat) (v d : α) : Tbl.get (Tbl.set t k v d) k d = v := by
  unfold Tbl.set; split_ifs with h <;> simp [h]

/-- Setting a key leaves every other key. -/
theorem Tbl.get_set_ne (t : Tbl α) {j k : Nat} (v d : α) (h : j ≠ k) : Tbl.get (Tbl.set t k v d) j d = Tbl.get t j d := by
  unfold Tbl.set; split_ifs
  · exact Tbl.get_del_ne t d h
  · exact Tbl.get_put_ne t v d h

/-- A changed key reads as its change. -/
@[simp] theorem Tbl.get_upd_same (t : Tbl α) (k : Nat) (d : α) (f : α → α) : Tbl.get (Tbl.upd t k d f) k d = f (Tbl.get t k d) := by
  simp [Tbl.upd]

/-- Changing a key leaves every other key. -/
theorem Tbl.get_upd_ne (t : Tbl α) {j k : Nat} (d : α) (f : α → α) (h : j ≠ k) : Tbl.get (Tbl.upd t k d f) j d = Tbl.get t j d :=
  Tbl.get_set_ne t _ d h

/-! ## The canonical form -/

/-- The canonical form as a property of every listed pair and every two of them. -/
theorem Tbl.wf_iff (d : α) (t : Tbl α) : Tbl.wf d t = true ↔ (∀ p ∈ t, p.2 ≠ d) ∧ t.Pairwise (fun p q => p.1 < q.1) := by
  induction t with
  | nil => simp [Tbl.wf]
  | cons p r ih =>
    obtain ⟨k, v⟩ := p
    cases r with
    | nil => simp [Tbl.wf]
    | cons q r =>
      obtain ⟨k', v'⟩ := q
      rw [Tbl.wf, Bool.and_eq_true, Bool.and_eq_true, decide_eq_true_iff, decide_eq_true_iff, ih, List.pairwise_cons (l := (k', v') :: r)]
      constructor
      · rintro ⟨⟨hv, hk⟩, hd, hp⟩
        refine ⟨?_, ?_, hp⟩
        · intro x hx
          rcases List.mem_cons.mp hx with rfl | hx
          · exact hv
          · exact hd x hx
        · intro x hx
          rcases List.mem_cons.mp hx with rfl | hx
          · exact hk
          · exact Nat.lt_trans hk ((List.pairwise_cons.mp hp).1 x hx)
      · rintro ⟨hd, hk, hp⟩
        exact ⟨⟨hd (k, v) (by simp), hk (k', v') (by simp)⟩, fun x hx => hd x (List.mem_cons_of_mem _ hx), hp⟩

omit [DecidableEq α] in
/-- What a put table lists. -/
theorem Tbl.mem_put (t : Tbl α) (k : Nat) (v : α) (p : Nat × α) (h : p ∈ Tbl.put t k v) : p = (k, v) ∨ p ∈ t := by
  induction t with
  | nil => simpa [Tbl.put] using h
  | cons q r ih =>
    obtain ⟨k', v'⟩ := q
    unfold Tbl.put at h
    split_ifs at h with h1 h2
    · rcases List.mem_cons.mp h with h | h
      · exact .inl h
      · exact .inr (List.mem_cons_of_mem _ h)
    · rcases List.mem_cons.mp h with h | h
      · exact .inl h
      · exact .inr h
    · rcases List.mem_cons.mp h with h | h
      · exact .inr (h ▸ List.mem_cons_self)
      · rcases ih h with h | h
        · exact .inl h
        · exact .inr (List.mem_cons_of_mem _ h)

omit [DecidableEq α] in
theorem Tbl.sorted_put (t : Tbl α) (k : Nat) (v : α) (h : t.Pairwise (fun p q => p.1 < q.1)) :
    (Tbl.put t k v).Pairwise (fun p q => p.1 < q.1) := by
  induction t with
  | nil => simp [Tbl.put]
  | cons q r ih =>
    obtain ⟨k', v'⟩ := q
    obtain ⟨hq, hr⟩ := List.pairwise_cons.mp h
    unfold Tbl.put
    split_ifs with h1 h2
    · subst h1; exact List.pairwise_cons.mpr ⟨hq, hr⟩
    · refine List.pairwise_cons.mpr ⟨?_, h⟩
      intro x hx
      rcases List.mem_cons.mp hx with rfl | hx
      · exact h2
      · exact Nat.lt_trans h2 (hq x hx)
    · refine List.pairwise_cons.mpr ⟨?_, ih hr⟩
      intro x hx
      rcases Tbl.mem_put r k v x hx with rfl | hx
      · have h1' : k' ≠ k := h1
        have h2' : ¬ k < k' := h2
        show k' < k
        omega
      · exact hq x hx

/-- Setting a key keeps the canonical form. -/
theorem Tbl.wf_set (t : Tbl α) (k : Nat) (v d : α) (h : Tbl.wf d t = true) : Tbl.wf d (Tbl.set t k v d) = true := by
  rw [Tbl.wf_iff] at h ⊢
  unfold Tbl.set
  split_ifs with hv
  · exact ⟨fun p hp => h.1 p (List.mem_of_mem_filter hp), h.2.filter _⟩
  · refine ⟨fun p hp => ?_, Tbl.sorted_put t k v h.2⟩
    rcases Tbl.mem_put t k v p hp with rfl | hp
    · exact hv
    · exact h.1 p hp

/-- Changing a key keeps the canonical form. -/
theorem Tbl.wf_upd (t : Tbl α) (k : Nat) (d : α) (f : α → α) (h : Tbl.wf d t = true) : Tbl.wf d (Tbl.upd t k d f) = true :=
  Tbl.wf_set t k _ d h

end Sys2Proof.Machine
end

