-- ==== Sys2Proof/Laws/Memory.lean ====
section
/-! SUPPORT. T0: a read gives the byte written last, a write touches no other byte, and every write keeps the canonical form. -/
namespace Sys2Proof.Machine
open Sys2Proof

@[simp] theorem memRead_nil (a : Nat) : memRead [] a = 0 := rfl

/-- A byte reads as it was written. -/
@[simp] theorem memRead_write1_same (m : List Host.Cell) (a : Nat) (b : Byte) : memRead (memWrite1 m a b) a = b := Tbl.get_set_same m a b 0

/-- Writing a byte leaves every other byte. -/
theorem memRead_write1_ne (m : List Host.Cell) {a c : Nat} (b : Byte) (h : c ≠ a) : memRead (memWrite1 m a b) c = memRead m c :=
  Tbl.get_set_ne m b 0 h

/-- Writing bytes leaves every byte outside them. -/
theorem memRead_write_out (m : List Host.Cell) (a c : Nat) (bs : Bytes) (h : c < a ∨ a + bs.length ≤ c) :
    memRead (memWrite m a bs) c = memRead m c := by
  induction bs generalizing m a with
  | nil => rfl
  | cons b r ih =>
    simp only [List.length_cons] at h
    rw [memWrite, ih _ _ (by omega), memRead_write1_ne m b (by omega)]

/-- Byte `i` of what was written reads back. -/
theorem memRead_write_in (m : List Host.Cell) (a i : Nat) (bs : Bytes) (h : i < bs.length) :
    memRead (memWrite m a bs) (a + i) = bs[i] := by
  induction bs generalizing m a i with
  | nil => simp at h
  | cons b r ih =>
    cases i with
    | zero => rw [memWrite, memRead_write_out _ _ _ _ (by omega)]; simp
    | succ i =>
      have := ih (memWrite1 m a b) (a + 1) i (by simpa using h)
      rw [memWrite, show a + (i + 1) = a + 1 + i by omega, this]; simp

/-- Writing a byte keeps the canonical form. -/
theorem Memory.wf_write1 (m : List Host.Cell) (a : Nat) (b : Byte) (h : Memory.wf m = true) : Memory.wf (memWrite1 m a b) = true :=
  Tbl.wf_set m a b 0 h

/-- Writing bytes keeps the canonical form. -/
theorem Memory.wf_write (m : List Host.Cell) (a : Nat) (bs : Bytes) (h : Memory.wf m = true) : Memory.wf (memWrite m a bs) = true := by
  induction bs generalizing m a with
  | nil => exact h
  | cons b r ih => exact ih _ _ (Memory.wf_write1 m a b h)

end Sys2Proof.Machine
end

