-- ==== Sys2Proof/Laws/State.lean ====
section
/-! SUPPORT. What each update of the state leaves in each field: one lemma for each field and update, all by definition. -/
namespace Sys2Proof.Machine
open Sys2Proof

/-! ## State.setCtx -/

@[simp] theorem State.setCtx_pending (s : State) (c : Nat) (x : Ctx) : (s.setCtx c x).pending = s.pending := rfl
@[simp] theorem State.setCtx_free (s : State) (c : Nat) (x : Ctx) : (s.setCtx c x).free = s.free := rfl
@[simp] theorem State.setCtx_now (s : State) (c : Nat) (x : Ctx) : (s.setCtx c x).now = s.now := rfl
@[simp] theorem State.setCtx_t0 (s : State) (c : Nat) (x : Ctx) : (s.setCtx c x).t0 = s.t0 := rfl
@[simp] theorem State.setCtx_dev (s : State) (c : Nat) (x : Ctx) : (s.setCtx c x).dev = s.dev := rfl
@[simp] theorem State.setCtx_ctxs (s : State) (c : Nat) (x : Ctx) : (s.setCtx c x).ctxs = s.ctxs.set c x {} := rfl
@[simp] theorem State.setCtx_flights (s : State) (c : Nat) (x : Ctx) : (s.setCtx c x).flights = s.flights := rfl
@[simp] theorem State.setCtx_nextFlight (s : State) (c : Nat) (x : Ctx) : (s.setCtx c x).nextFlight = s.nextFlight := rfl
@[simp] theorem State.setCtx_slice (s : State) (c : Nat) (x : Ctx) : (s.setCtx c x).slice = s.slice := rfl
@[simp] theorem State.setCtx_lockUs (s : State) (c : Nat) (x : Ctx) : (s.setCtx c x).lockUs = s.lockUs := rfl
@[simp] theorem State.setCtx_pools (s : State) (c : Nat) (x : Ctx) : (s.setCtx c x).pools = s.pools := rfl
@[simp] theorem State.setCtx_fns (s : State) (c : Nat) (x : Ctx) : (s.setCtx c x).fns = s.fns := rfl
@[simp] theorem State.setCtx_vms (s : State) (c : Nat) (x : Ctx) : (s.setCtx c x).vms = s.vms := rfl
@[simp] theorem State.setCtx_ps (s : State) (c : Nat) (x : Ctx) : (s.setCtx c x).ps = s.ps := rfl
@[simp] theorem State.setCtx_tier (s : State) (c : Nat) (x : Ctx) : (s.setCtx c x).tier = s.tier := rfl
@[simp] theorem State.setCtx_margin (s : State) (c : Nat) (x : Ctx) : (s.setCtx c x).margin = s.margin := rfl
@[simp] theorem State.setCtx_leadMax (s : State) (c : Nat) (x : Ctx) : (s.setCtx c x).leadMax = s.leadMax := rfl
@[simp] theorem State.setCtx_gaths (s : State) (c : Nat) (x : Ctx) : (s.setCtx c x).gaths = s.gaths := rfl
@[simp] theorem State.setCtx_spine (s : State) (c : Nat) (x : Ctx) : (s.setCtx c x).spine = s.spine := rfl
@[simp] theorem State.setCtx_awl (s : State) (c : Nat) (x : Ctx) : (s.setCtx c x).awl = s.awl := rfl
@[simp] theorem State.setCtx_press (s : State) (c : Nat) (x : Ctx) : (s.setCtx c x).press = s.press := rfl
@[simp] theorem State.setCtx_fq (s : State) (c : Nat) (x : Ctx) : (s.setCtx c x).fq = s.fq := rfl
@[simp] theorem State.setCtx_net (s : State) (c : Nat) (x : Ctx) : (s.setCtx c x).net = s.net := rfl
@[simp] theorem State.setCtx_eg (s : State) (c : Nat) (x : Ctx) : (s.setCtx c x).eg = s.eg := rfl
@[simp] theorem State.setCtx_ptp (s : State) (c : Nat) (x : Ctx) : (s.setCtx c x).ptp = s.ptp := rfl
@[simp] theorem State.setCtx_sec (s : State) (c : Nat) (x : Ctx) : (s.setCtx c x).sec = s.sec := rfl
@[simp] theorem State.setCtx_err (s : State) (c : Nat) (x : Ctx) : (s.setCtx c x).err = s.err := rfl
@[simp] theorem State.setCtx_fw (s : State) (c : Nat) (x : Ctx) : (s.setCtx c x).fw = s.fw := rfl
@[simp] theorem State.setCtx_pwr (s : State) (c : Nat) (x : Ctx) : (s.setCtx c x).pwr = s.pwr := rfl
@[simp] theorem State.setCtx_out (s : State) (c : Nat) (x : Ctx) : (s.setCtx c x).out = s.out := rfl

/-! ## State.updCtx -/

@[simp] theorem State.updCtx_pending (s : State) (c : Nat) (f : Ctx → Ctx) : (s.updCtx c f).pending = s.pending := rfl
@[simp] theorem State.updCtx_free (s : State) (c : Nat) (f : Ctx → Ctx) : (s.updCtx c f).free = s.free := rfl
@[simp] theorem State.updCtx_now (s : State) (c : Nat) (f : Ctx → Ctx) : (s.updCtx c f).now = s.now := rfl
@[simp] theorem State.updCtx_t0 (s : State) (c : Nat) (f : Ctx → Ctx) : (s.updCtx c f).t0 = s.t0 := rfl
@[simp] theorem State.updCtx_dev (s : State) (c : Nat) (f : Ctx → Ctx) : (s.updCtx c f).dev = s.dev := rfl
@[simp] theorem State.updCtx_ctxs (s : State) (c : Nat) (f : Ctx → Ctx) : (s.updCtx c f).ctxs = s.ctxs.set c (f (s.ctx c)) {} := rfl
@[simp] theorem State.updCtx_flights (s : State) (c : Nat) (f : Ctx → Ctx) : (s.updCtx c f).flights = s.flights := rfl
@[simp] theorem State.updCtx_nextFlight (s : State) (c : Nat) (f : Ctx → Ctx) : (s.updCtx c f).nextFlight = s.nextFlight := rfl
@[simp] theorem State.updCtx_slice (s : State) (c : Nat) (f : Ctx → Ctx) : (s.updCtx c f).slice = s.slice := rfl
@[simp] theorem State.updCtx_lockUs (s : State) (c : Nat) (f : Ctx → Ctx) : (s.updCtx c f).lockUs = s.lockUs := rfl
@[simp] theorem State.updCtx_pools (s : State) (c : Nat) (f : Ctx → Ctx) : (s.updCtx c f).pools = s.pools := rfl
@[simp] theorem State.updCtx_fns (s : State) (c : Nat) (f : Ctx → Ctx) : (s.updCtx c f).fns = s.fns := rfl
@[simp] theorem State.updCtx_vms (s : State) (c : Nat) (f : Ctx → Ctx) : (s.updCtx c f).vms = s.vms := rfl
@[simp] theorem State.updCtx_ps (s : State) (c : Nat) (f : Ctx → Ctx) : (s.updCtx c f).ps = s.ps := rfl
@[simp] theorem State.updCtx_tier (s : State) (c : Nat) (f : Ctx → Ctx) : (s.updCtx c f).tier = s.tier := rfl
@[simp] theorem State.updCtx_margin (s : State) (c : Nat) (f : Ctx → Ctx) : (s.updCtx c f).margin = s.margin := rfl
@[simp] theorem State.updCtx_leadMax (s : State) (c : Nat) (f : Ctx → Ctx) : (s.updCtx c f).leadMax = s.leadMax := rfl
@[simp] theorem State.updCtx_gaths (s : State) (c : Nat) (f : Ctx → Ctx) : (s.updCtx c f).gaths = s.gaths := rfl
@[simp] theorem State.updCtx_spine (s : State) (c : Nat) (f : Ctx → Ctx) : (s.updCtx c f).spine = s.spine := rfl
@[simp] theorem State.updCtx_awl (s : State) (c : Nat) (f : Ctx → Ctx) : (s.updCtx c f).awl = s.awl := rfl
@[simp] theorem State.updCtx_press (s : State) (c : Nat) (f : Ctx → Ctx) : (s.updCtx c f).press = s.press := rfl
@[simp] theorem State.updCtx_fq (s : State) (c : Nat) (f : Ctx → Ctx) : (s.updCtx c f).fq = s.fq := rfl
@[simp] theorem State.updCtx_net (s : State) (c : Nat) (f : Ctx → Ctx) : (s.updCtx c f).net = s.net := rfl
@[simp] theorem State.updCtx_eg (s : State) (c : Nat) (f : Ctx → Ctx) : (s.updCtx c f).eg = s.eg := rfl
@[simp] theorem State.updCtx_ptp (s : State) (c : Nat) (f : Ctx → Ctx) : (s.updCtx c f).ptp = s.ptp := rfl
@[simp] theorem State.updCtx_sec (s : State) (c : Nat) (f : Ctx → Ctx) : (s.updCtx c f).sec = s.sec := rfl
@[simp] theorem State.updCtx_err (s : State) (c : Nat) (f : Ctx → Ctx) : (s.updCtx c f).err = s.err := rfl
@[simp] theorem State.updCtx_fw (s : State) (c : Nat) (f : Ctx → Ctx) : (s.updCtx c f).fw = s.fw := rfl
@[simp] theorem State.updCtx_pwr (s : State) (c : Nat) (f : Ctx → Ctx) : (s.updCtx c f).pwr = s.pwr := rfl
@[simp] theorem State.updCtx_out (s : State) (c : Nat) (f : Ctx → Ctx) : (s.updCtx c f).out = s.out := rfl

/-! ## State.setFlight -/

@[simp] theorem State.setFlight_pending (s : State) (f : Nat) (x : Flight) : (s.setFlight f x).pending = s.pending := rfl
@[simp] theorem State.setFlight_free (s : State) (f : Nat) (x : Flight) : (s.setFlight f x).free = s.free := rfl
@[simp] theorem State.setFlight_now (s : State) (f : Nat) (x : Flight) : (s.setFlight f x).now = s.now := rfl
@[simp] theorem State.setFlight_t0 (s : State) (f : Nat) (x : Flight) : (s.setFlight f x).t0 = s.t0 := rfl
@[simp] theorem State.setFlight_dev (s : State) (f : Nat) (x : Flight) : (s.setFlight f x).dev = s.dev := rfl
@[simp] theorem State.setFlight_ctxs (s : State) (f : Nat) (x : Flight) : (s.setFlight f x).ctxs = s.ctxs := rfl
@[simp] theorem State.setFlight_flights (s : State) (f : Nat) (x : Flight) : (s.setFlight f x).flights = s.flights.put f x := rfl
@[simp] theorem State.setFlight_nextFlight (s : State) (f : Nat) (x : Flight) : (s.setFlight f x).nextFlight = s.nextFlight := rfl
@[simp] theorem State.setFlight_slice (s : State) (f : Nat) (x : Flight) : (s.setFlight f x).slice = s.slice := rfl
@[simp] theorem State.setFlight_lockUs (s : State) (f : Nat) (x : Flight) : (s.setFlight f x).lockUs = s.lockUs := rfl
@[simp] theorem State.setFlight_pools (s : State) (f : Nat) (x : Flight) : (s.setFlight f x).pools = s.pools := rfl
@[simp] theorem State.setFlight_fns (s : State) (f : Nat) (x : Flight) : (s.setFlight f x).fns = s.fns := rfl
@[simp] theorem State.setFlight_vms (s : State) (f : Nat) (x : Flight) : (s.setFlight f x).vms = s.vms := rfl
@[simp] theorem State.setFlight_ps (s : State) (f : Nat) (x : Flight) : (s.setFlight f x).ps = s.ps := rfl
@[simp] theorem State.setFlight_tier (s : State) (f : Nat) (x : Flight) : (s.setFlight f x).tier = s.tier := rfl
@[simp] theorem State.setFlight_margin (s : State) (f : Nat) (x : Flight) : (s.setFlight f x).margin = s.margin := rfl
@[simp] theorem State.setFlight_leadMax (s : State) (f : Nat) (x : Flight) : (s.setFlight f x).leadMax = s.leadMax := rfl
@[simp] theorem State.setFlight_gaths (s : State) (f : Nat) (x : Flight) : (s.setFlight f x).gaths = s.gaths := rfl
@[simp] theorem State.setFlight_spine (s : State) (f : Nat) (x : Flight) : (s.setFlight f x).spine = s.spine := rfl
@[simp] theorem State.setFlight_awl (s : State) (f : Nat) (x : Flight) : (s.setFlight f x).awl = s.awl := rfl
@[simp] theorem State.setFlight_press (s : State) (f : Nat) (x : Flight) : (s.setFlight f x).press = s.press := rfl
@[simp] theorem State.setFlight_fq (s : State) (f : Nat) (x : Flight) : (s.setFlight f x).fq = s.fq := rfl
@[simp] theorem State.setFlight_net (s : State) (f : Nat) (x : Flight) : (s.setFlight f x).net = s.net := rfl
@[simp] theorem State.setFlight_eg (s : State) (f : Nat) (x : Flight) : (s.setFlight f x).eg = s.eg := rfl
@[simp] theorem State.setFlight_ptp (s : State) (f : Nat) (x : Flight) : (s.setFlight f x).ptp = s.ptp := rfl
@[simp] theorem State.setFlight_sec (s : State) (f : Nat) (x : Flight) : (s.setFlight f x).sec = s.sec := rfl
@[simp] theorem State.setFlight_err (s : State) (f : Nat) (x : Flight) : (s.setFlight f x).err = s.err := rfl
@[simp] theorem State.setFlight_fw (s : State) (f : Nat) (x : Flight) : (s.setFlight f x).fw = s.fw := rfl
@[simp] theorem State.setFlight_pwr (s : State) (f : Nat) (x : Flight) : (s.setFlight f x).pwr = s.pwr := rfl
@[simp] theorem State.setFlight_out (s : State) (f : Nat) (x : Flight) : (s.setFlight f x).out = s.out := rfl

/-! ## State.updFlight -/

@[simp] theorem State.updFlight_pending (s : State) (f : Nat) (g : Flight → Flight) : (s.updFlight f g).pending = s.pending := rfl
@[simp] theorem State.updFlight_free (s : State) (f : Nat) (g : Flight → Flight) : (s.updFlight f g).free = s.free := rfl
@[simp] theorem State.updFlight_now (s : State) (f : Nat) (g : Flight → Flight) : (s.updFlight f g).now = s.now := rfl
@[simp] theorem State.updFlight_t0 (s : State) (f : Nat) (g : Flight → Flight) : (s.updFlight f g).t0 = s.t0 := rfl
@[simp] theorem State.updFlight_dev (s : State) (f : Nat) (g : Flight → Flight) : (s.updFlight f g).dev = s.dev := rfl
@[simp] theorem State.updFlight_ctxs (s : State) (f : Nat) (g : Flight → Flight) : (s.updFlight f g).ctxs = s.ctxs := rfl
@[simp] theorem State.updFlight_flights (s : State) (f : Nat) (g : Flight → Flight) : (s.updFlight f g).flights = s.flights.put f (g (s.flight f)) := rfl
@[simp] theorem State.updFlight_nextFlight (s : State) (f : Nat) (g : Flight → Flight) : (s.updFlight f g).nextFlight = s.nextFlight := rfl
@[simp] theorem State.updFlight_slice (s : State) (f : Nat) (g : Flight → Flight) : (s.updFlight f g).slice = s.slice := rfl
@[simp] theorem State.updFlight_lockUs (s : State) (f : Nat) (g : Flight → Flight) : (s.updFlight f g).lockUs = s.lockUs := rfl
@[simp] theorem State.updFlight_pools (s : State) (f : Nat) (g : Flight → Flight) : (s.updFlight f g).pools = s.pools := rfl
@[simp] theorem State.updFlight_fns (s : State) (f : Nat) (g : Flight → Flight) : (s.updFlight f g).fns = s.fns := rfl
@[simp] theorem State.updFlight_vms (s : State) (f : Nat) (g : Flight → Flight) : (s.updFlight f g).vms = s.vms := rfl
@[simp] theorem State.updFlight_ps (s : State) (f : Nat) (g : Flight → Flight) : (s.updFlight f g).ps = s.ps := rfl
@[simp] theorem State.updFlight_tier (s : State) (f : Nat) (g : Flight → Flight) : (s.updFlight f g).tier = s.tier := rfl
@[simp] theorem State.updFlight_margin (s : State) (f : Nat) (g : Flight → Flight) : (s.updFlight f g).margin = s.margin := rfl
@[simp] theorem State.updFlight_leadMax (s : State) (f : Nat) (g : Flight → Flight) : (s.updFlight f g).leadMax = s.leadMax := rfl
@[simp] theorem State.updFlight_gaths (s : State) (f : Nat) (g : Flight → Flight) : (s.updFlight f g).gaths = s.gaths := rfl
@[simp] theorem State.updFlight_spine (s : State) (f : Nat) (g : Flight → Flight) : (s.updFlight f g).spine = s.spine := rfl
@[simp] theorem State.updFlight_awl (s : State) (f : Nat) (g : Flight → Flight) : (s.updFlight f g).awl = s.awl := rfl
@[simp] theorem State.updFlight_press (s : State) (f : Nat) (g : Flight → Flight) : (s.updFlight f g).press = s.press := rfl
@[simp] theorem State.updFlight_fq (s : State) (f : Nat) (g : Flight → Flight) : (s.updFlight f g).fq = s.fq := rfl
@[simp] theorem State.updFlight_net (s : State) (f : Nat) (g : Flight → Flight) : (s.updFlight f g).net = s.net := rfl
@[simp] theorem State.updFlight_eg (s : State) (f : Nat) (g : Flight → Flight) : (s.updFlight f g).eg = s.eg := rfl
@[simp] theorem State.updFlight_ptp (s : State) (f : Nat) (g : Flight → Flight) : (s.updFlight f g).ptp = s.ptp := rfl
@[simp] theorem State.updFlight_sec (s : State) (f : Nat) (g : Flight → Flight) : (s.updFlight f g).sec = s.sec := rfl
@[simp] theorem State.updFlight_err (s : State) (f : Nat) (g : Flight → Flight) : (s.updFlight f g).err = s.err := rfl
@[simp] theorem State.updFlight_fw (s : State) (f : Nat) (g : Flight → Flight) : (s.updFlight f g).fw = s.fw := rfl
@[simp] theorem State.updFlight_pwr (s : State) (f : Nat) (g : Flight → Flight) : (s.updFlight f g).pwr = s.pwr := rfl
@[simp] theorem State.updFlight_out (s : State) (f : Nat) (g : Flight → Flight) : (s.updFlight f g).out = s.out := rfl

/-! ## State.dropFlight -/

@[simp] theorem State.dropFlight_pending (s : State) (f : Nat) : (s.dropFlight f).pending = s.pending := rfl
@[simp] theorem State.dropFlight_free (s : State) (f : Nat) : (s.dropFlight f).free = s.free := rfl
@[simp] theorem State.dropFlight_now (s : State) (f : Nat) : (s.dropFlight f).now = s.now := rfl
@[simp] theorem State.dropFlight_t0 (s : State) (f : Nat) : (s.dropFlight f).t0 = s.t0 := rfl
@[simp] theorem State.dropFlight_dev (s : State) (f : Nat) : (s.dropFlight f).dev = s.dev := rfl
@[simp] theorem State.dropFlight_ctxs (s : State) (f : Nat) : (s.dropFlight f).ctxs = s.ctxs := rfl
@[simp] theorem State.dropFlight_flights (s : State) (f : Nat) : (s.dropFlight f).flights = s.flights.del f := rfl
@[simp] theorem State.dropFlight_nextFlight (s : State) (f : Nat) : (s.dropFlight f).nextFlight = s.nextFlight := rfl
@[simp] theorem State.dropFlight_slice (s : State) (f : Nat) : (s.dropFlight f).slice = s.slice := rfl
@[simp] theorem State.dropFlight_lockUs (s : State) (f : Nat) : (s.dropFlight f).lockUs = s.lockUs := rfl
@[simp] theorem State.dropFlight_pools (s : State) (f : Nat) : (s.dropFlight f).pools = s.pools := rfl
@[simp] theorem State.dropFlight_fns (s : State) (f : Nat) : (s.dropFlight f).fns = s.fns := rfl
@[simp] theorem State.dropFlight_vms (s : State) (f : Nat) : (s.dropFlight f).vms = s.vms := rfl
@[simp] theorem State.dropFlight_ps (s : State) (f : Nat) : (s.dropFlight f).ps = s.ps := rfl
@[simp] theorem State.dropFlight_tier (s : State) (f : Nat) : (s.dropFlight f).tier = s.tier := rfl
@[simp] theorem State.dropFlight_margin (s : State) (f : Nat) : (s.dropFlight f).margin = s.margin := rfl
@[simp] theorem State.dropFlight_leadMax (s : State) (f : Nat) : (s.dropFlight f).leadMax = s.leadMax := rfl
@[simp] theorem State.dropFlight_gaths (s : State) (f : Nat) : (s.dropFlight f).gaths = s.gaths := rfl
@[simp] theorem State.dropFlight_spine (s : State) (f : Nat) : (s.dropFlight f).spine = s.spine := rfl
@[simp] theorem State.dropFlight_awl (s : State) (f : Nat) : (s.dropFlight f).awl = s.awl := rfl
@[simp] theorem State.dropFlight_press (s : State) (f : Nat) : (s.dropFlight f).press = s.press := rfl
@[simp] theorem State.dropFlight_fq (s : State) (f : Nat) : (s.dropFlight f).fq = s.fq := rfl
@[simp] theorem State.dropFlight_net (s : State) (f : Nat) : (s.dropFlight f).net = s.net := rfl
@[simp] theorem State.dropFlight_eg (s : State) (f : Nat) : (s.dropFlight f).eg = s.eg := rfl
@[simp] theorem State.dropFlight_ptp (s : State) (f : Nat) : (s.dropFlight f).ptp = s.ptp := rfl
@[simp] theorem State.dropFlight_sec (s : State) (f : Nat) : (s.dropFlight f).sec = s.sec := rfl
@[simp] theorem State.dropFlight_err (s : State) (f : Nat) : (s.dropFlight f).err = s.err := rfl
@[simp] theorem State.dropFlight_fw (s : State) (f : Nat) : (s.dropFlight f).fw = s.fw := rfl
@[simp] theorem State.dropFlight_pwr (s : State) (f : Nat) : (s.dropFlight f).pwr = s.pwr := rfl
@[simp] theorem State.dropFlight_out (s : State) (f : Nat) : (s.dropFlight f).out = s.out := rfl

/-! ## State.updFn -/

@[simp] theorem State.updFn_pending (s : State) (f : Nat) (g : Fn → Fn) : (s.updFn f g).pending = s.pending := rfl
@[simp] theorem State.updFn_free (s : State) (f : Nat) (g : Fn → Fn) : (s.updFn f g).free = s.free := rfl
@[simp] theorem State.updFn_now (s : State) (f : Nat) (g : Fn → Fn) : (s.updFn f g).now = s.now := rfl
@[simp] theorem State.updFn_t0 (s : State) (f : Nat) (g : Fn → Fn) : (s.updFn f g).t0 = s.t0 := rfl
@[simp] theorem State.updFn_dev (s : State) (f : Nat) (g : Fn → Fn) : (s.updFn f g).dev = s.dev := rfl
@[simp] theorem State.updFn_ctxs (s : State) (f : Nat) (g : Fn → Fn) : (s.updFn f g).ctxs = s.ctxs := rfl
@[simp] theorem State.updFn_flights (s : State) (f : Nat) (g : Fn → Fn) : (s.updFn f g).flights = s.flights := rfl
@[simp] theorem State.updFn_nextFlight (s : State) (f : Nat) (g : Fn → Fn) : (s.updFn f g).nextFlight = s.nextFlight := rfl
@[simp] theorem State.updFn_slice (s : State) (f : Nat) (g : Fn → Fn) : (s.updFn f g).slice = s.slice := rfl
@[simp] theorem State.updFn_lockUs (s : State) (f : Nat) (g : Fn → Fn) : (s.updFn f g).lockUs = s.lockUs := rfl
@[simp] theorem State.updFn_pools (s : State) (f : Nat) (g : Fn → Fn) : (s.updFn f g).pools = s.pools := rfl
@[simp] theorem State.updFn_fns (s : State) (f : Nat) (g : Fn → Fn) : (s.updFn f g).fns = s.fns.upd f {} g := rfl
@[simp] theorem State.updFn_vms (s : State) (f : Nat) (g : Fn → Fn) : (s.updFn f g).vms = s.vms := rfl
@[simp] theorem State.updFn_ps (s : State) (f : Nat) (g : Fn → Fn) : (s.updFn f g).ps = s.ps := rfl
@[simp] theorem State.updFn_tier (s : State) (f : Nat) (g : Fn → Fn) : (s.updFn f g).tier = s.tier := rfl
@[simp] theorem State.updFn_margin (s : State) (f : Nat) (g : Fn → Fn) : (s.updFn f g).margin = s.margin := rfl
@[simp] theorem State.updFn_leadMax (s : State) (f : Nat) (g : Fn → Fn) : (s.updFn f g).leadMax = s.leadMax := rfl
@[simp] theorem State.updFn_gaths (s : State) (f : Nat) (g : Fn → Fn) : (s.updFn f g).gaths = s.gaths := rfl
@[simp] theorem State.updFn_spine (s : State) (f : Nat) (g : Fn → Fn) : (s.updFn f g).spine = s.spine := rfl
@[simp] theorem State.updFn_awl (s : State) (f : Nat) (g : Fn → Fn) : (s.updFn f g).awl = s.awl := rfl
@[simp] theorem State.updFn_press (s : State) (f : Nat) (g : Fn → Fn) : (s.updFn f g).press = s.press := rfl
@[simp] theorem State.updFn_fq (s : State) (f : Nat) (g : Fn → Fn) : (s.updFn f g).fq = s.fq := rfl
@[simp] theorem State.updFn_net (s : State) (f : Nat) (g : Fn → Fn) : (s.updFn f g).net = s.net := rfl
@[simp] theorem State.updFn_eg (s : State) (f : Nat) (g : Fn → Fn) : (s.updFn f g).eg = s.eg := rfl
@[simp] theorem State.updFn_ptp (s : State) (f : Nat) (g : Fn → Fn) : (s.updFn f g).ptp = s.ptp := rfl
@[simp] theorem State.updFn_sec (s : State) (f : Nat) (g : Fn → Fn) : (s.updFn f g).sec = s.sec := rfl
@[simp] theorem State.updFn_err (s : State) (f : Nat) (g : Fn → Fn) : (s.updFn f g).err = s.err := rfl
@[simp] theorem State.updFn_fw (s : State) (f : Nat) (g : Fn → Fn) : (s.updFn f g).fw = s.fw := rfl
@[simp] theorem State.updFn_pwr (s : State) (f : Nat) (g : Fn → Fn) : (s.updFn f g).pwr = s.pwr := rfl
@[simp] theorem State.updFn_out (s : State) (f : Nat) (g : Fn → Fn) : (s.updFn f g).out = s.out := rfl

/-! ## State.updPage -/

@[simp] theorem State.updPage_pending (s : State) (p : Nat) (g : Page → Page) : (s.updPage p g).pending = s.pending := rfl
@[simp] theorem State.updPage_free (s : State) (p : Nat) (g : Page → Page) : (s.updPage p g).free = s.free := rfl
@[simp] theorem State.updPage_now (s : State) (p : Nat) (g : Page → Page) : (s.updPage p g).now = s.now := rfl
@[simp] theorem State.updPage_t0 (s : State) (p : Nat) (g : Page → Page) : (s.updPage p g).t0 = s.t0 := rfl
@[simp] theorem State.updPage_dev (s : State) (p : Nat) (g : Page → Page) : (s.updPage p g).dev = s.dev := rfl
@[simp] theorem State.updPage_ctxs (s : State) (p : Nat) (g : Page → Page) : (s.updPage p g).ctxs = s.ctxs := rfl
@[simp] theorem State.updPage_flights (s : State) (p : Nat) (g : Page → Page) : (s.updPage p g).flights = s.flights := rfl
@[simp] theorem State.updPage_nextFlight (s : State) (p : Nat) (g : Page → Page) : (s.updPage p g).nextFlight = s.nextFlight := rfl
@[simp] theorem State.updPage_slice (s : State) (p : Nat) (g : Page → Page) : (s.updPage p g).slice = s.slice := rfl
@[simp] theorem State.updPage_lockUs (s : State) (p : Nat) (g : Page → Page) : (s.updPage p g).lockUs = s.lockUs := rfl
@[simp] theorem State.updPage_pools (s : State) (p : Nat) (g : Page → Page) : (s.updPage p g).pools = s.pools := rfl
@[simp] theorem State.updPage_fns (s : State) (p : Nat) (g : Page → Page) : (s.updPage p g).fns = s.fns := rfl
@[simp] theorem State.updPage_vms (s : State) (p : Nat) (g : Page → Page) : (s.updPage p g).vms = s.vms := rfl
@[simp] theorem State.updPage_ps (s : State) (p : Nat) (g : Page → Page) : (s.updPage p g).ps = { s.ps with pages := if s.granuleLost (s.descAddr p) then s.ps.pages else s.ps.pages.upd p {} g } := rfl
@[simp] theorem State.updPage_tier (s : State) (p : Nat) (g : Page → Page) : (s.updPage p g).tier = s.tier := rfl
@[simp] theorem State.updPage_margin (s : State) (p : Nat) (g : Page → Page) : (s.updPage p g).margin = s.margin := rfl
@[simp] theorem State.updPage_leadMax (s : State) (p : Nat) (g : Page → Page) : (s.updPage p g).leadMax = s.leadMax := rfl
@[simp] theorem State.updPage_gaths (s : State) (p : Nat) (g : Page → Page) : (s.updPage p g).gaths = s.gaths := rfl
@[simp] theorem State.updPage_spine (s : State) (p : Nat) (g : Page → Page) : (s.updPage p g).spine = s.spine := rfl
@[simp] theorem State.updPage_awl (s : State) (p : Nat) (g : Page → Page) : (s.updPage p g).awl = s.awl := rfl
@[simp] theorem State.updPage_press (s : State) (p : Nat) (g : Page → Page) : (s.updPage p g).press = s.press := rfl
@[simp] theorem State.updPage_fq (s : State) (p : Nat) (g : Page → Page) : (s.updPage p g).fq = s.fq := rfl
@[simp] theorem State.updPage_net (s : State) (p : Nat) (g : Page → Page) : (s.updPage p g).net = s.net := rfl
@[simp] theorem State.updPage_eg (s : State) (p : Nat) (g : Page → Page) : (s.updPage p g).eg = s.eg := rfl
@[simp] theorem State.updPage_ptp (s : State) (p : Nat) (g : Page → Page) : (s.updPage p g).ptp = s.ptp := rfl
@[simp] theorem State.updPage_sec (s : State) (p : Nat) (g : Page → Page) : (s.updPage p g).sec = s.sec := rfl
@[simp] theorem State.updPage_err (s : State) (p : Nat) (g : Page → Page) : (s.updPage p g).err = s.err := rfl
@[simp] theorem State.updPage_fw (s : State) (p : Nat) (g : Page → Page) : (s.updPage p g).fw = s.fw := rfl
@[simp] theorem State.updPage_pwr (s : State) (p : Nat) (g : Page → Page) : (s.updPage p g).pwr = s.pwr := rfl
@[simp] theorem State.updPage_out (s : State) (p : Nat) (g : Page → Page) : (s.updPage p g).out = s.out := rfl

/-! ## State.updAux -/

@[simp] theorem State.updAux_pending (s : State) (i : Nat) (g : Aux → Aux) : (s.updAux i g).pending = s.pending := rfl
@[simp] theorem State.updAux_free (s : State) (i : Nat) (g : Aux → Aux) : (s.updAux i g).free = s.free := rfl
@[simp] theorem State.updAux_now (s : State) (i : Nat) (g : Aux → Aux) : (s.updAux i g).now = s.now := rfl
@[simp] theorem State.updAux_t0 (s : State) (i : Nat) (g : Aux → Aux) : (s.updAux i g).t0 = s.t0 := rfl
@[simp] theorem State.updAux_dev (s : State) (i : Nat) (g : Aux → Aux) : (s.updAux i g).dev = s.dev := rfl
@[simp] theorem State.updAux_ctxs (s : State) (i : Nat) (g : Aux → Aux) : (s.updAux i g).ctxs = s.ctxs := rfl
@[simp] theorem State.updAux_flights (s : State) (i : Nat) (g : Aux → Aux) : (s.updAux i g).flights = s.flights := rfl
@[simp] theorem State.updAux_nextFlight (s : State) (i : Nat) (g : Aux → Aux) : (s.updAux i g).nextFlight = s.nextFlight := rfl
@[simp] theorem State.updAux_slice (s : State) (i : Nat) (g : Aux → Aux) : (s.updAux i g).slice = s.slice := rfl
@[simp] theorem State.updAux_lockUs (s : State) (i : Nat) (g : Aux → Aux) : (s.updAux i g).lockUs = s.lockUs := rfl
@[simp] theorem State.updAux_pools (s : State) (i : Nat) (g : Aux → Aux) : (s.updAux i g).pools = s.pools := rfl
@[simp] theorem State.updAux_fns (s : State) (i : Nat) (g : Aux → Aux) : (s.updAux i g).fns = s.fns := rfl
@[simp] theorem State.updAux_vms (s : State) (i : Nat) (g : Aux → Aux) : (s.updAux i g).vms = s.vms := rfl
@[simp] theorem State.updAux_ps (s : State) (i : Nat) (g : Aux → Aux) : (s.updAux i g).ps = { s.ps with aux := if s.granuleLost (s.auxAddr i) then s.ps.aux else s.ps.aux.upd i {} g } := rfl
@[simp] theorem State.updAux_tier (s : State) (i : Nat) (g : Aux → Aux) : (s.updAux i g).tier = s.tier := rfl
@[simp] theorem State.updAux_margin (s : State) (i : Nat) (g : Aux → Aux) : (s.updAux i g).margin = s.margin := rfl
@[simp] theorem State.updAux_leadMax (s : State) (i : Nat) (g : Aux → Aux) : (s.updAux i g).leadMax = s.leadMax := rfl
@[simp] theorem State.updAux_gaths (s : State) (i : Nat) (g : Aux → Aux) : (s.updAux i g).gaths = s.gaths := rfl
@[simp] theorem State.updAux_spine (s : State) (i : Nat) (g : Aux → Aux) : (s.updAux i g).spine = s.spine := rfl
@[simp] theorem State.updAux_awl (s : State) (i : Nat) (g : Aux → Aux) : (s.updAux i g).awl = s.awl := rfl
@[simp] theorem State.updAux_press (s : State) (i : Nat) (g : Aux → Aux) : (s.updAux i g).press = s.press := rfl
@[simp] theorem State.updAux_fq (s : State) (i : Nat) (g : Aux → Aux) : (s.updAux i g).fq = s.fq := rfl
@[simp] theorem State.updAux_net (s : State) (i : Nat) (g : Aux → Aux) : (s.updAux i g).net = s.net := rfl
@[simp] theorem State.updAux_eg (s : State) (i : Nat) (g : Aux → Aux) : (s.updAux i g).eg = s.eg := rfl
@[simp] theorem State.updAux_ptp (s : State) (i : Nat) (g : Aux → Aux) : (s.updAux i g).ptp = s.ptp := rfl
@[simp] theorem State.updAux_sec (s : State) (i : Nat) (g : Aux → Aux) : (s.updAux i g).sec = s.sec := rfl
@[simp] theorem State.updAux_err (s : State) (i : Nat) (g : Aux → Aux) : (s.updAux i g).err = s.err := rfl
@[simp] theorem State.updAux_fw (s : State) (i : Nat) (g : Aux → Aux) : (s.updAux i g).fw = s.fw := rfl
@[simp] theorem State.updAux_pwr (s : State) (i : Nat) (g : Aux → Aux) : (s.updAux i g).pwr = s.pwr := rfl
@[simp] theorem State.updAux_out (s : State) (i : Nat) (g : Aux → Aux) : (s.updAux i g).out = s.out := rfl

/-! ## State.updSum -/

@[simp] theorem State.updSum_pending (s : State) (a : Nat) (g : SumRec → SumRec) : (s.updSum a g).pending = s.pending := rfl
@[simp] theorem State.updSum_free (s : State) (a : Nat) (g : SumRec → SumRec) : (s.updSum a g).free = s.free := rfl
@[simp] theorem State.updSum_now (s : State) (a : Nat) (g : SumRec → SumRec) : (s.updSum a g).now = s.now := rfl
@[simp] theorem State.updSum_t0 (s : State) (a : Nat) (g : SumRec → SumRec) : (s.updSum a g).t0 = s.t0 := rfl
@[simp] theorem State.updSum_dev (s : State) (a : Nat) (g : SumRec → SumRec) : (s.updSum a g).dev = s.dev := rfl
@[simp] theorem State.updSum_ctxs (s : State) (a : Nat) (g : SumRec → SumRec) : (s.updSum a g).ctxs = s.ctxs := rfl
@[simp] theorem State.updSum_flights (s : State) (a : Nat) (g : SumRec → SumRec) : (s.updSum a g).flights = s.flights := rfl
@[simp] theorem State.updSum_nextFlight (s : State) (a : Nat) (g : SumRec → SumRec) : (s.updSum a g).nextFlight = s.nextFlight := rfl
@[simp] theorem State.updSum_slice (s : State) (a : Nat) (g : SumRec → SumRec) : (s.updSum a g).slice = s.slice := rfl
@[simp] theorem State.updSum_lockUs (s : State) (a : Nat) (g : SumRec → SumRec) : (s.updSum a g).lockUs = s.lockUs := rfl
@[simp] theorem State.updSum_pools (s : State) (a : Nat) (g : SumRec → SumRec) : (s.updSum a g).pools = s.pools := rfl
@[simp] theorem State.updSum_fns (s : State) (a : Nat) (g : SumRec → SumRec) : (s.updSum a g).fns = s.fns := rfl
@[simp] theorem State.updSum_vms (s : State) (a : Nat) (g : SumRec → SumRec) : (s.updSum a g).vms = s.vms := rfl
@[simp] theorem State.updSum_ps (s : State) (a : Nat) (g : SumRec → SumRec) : (s.updSum a g).ps = { s.ps with sums := if s.granuleLost (256 * a) then s.ps.sums else s.ps.sums.upd a {} g } := rfl
@[simp] theorem State.updSum_tier (s : State) (a : Nat) (g : SumRec → SumRec) : (s.updSum a g).tier = s.tier := rfl
@[simp] theorem State.updSum_margin (s : State) (a : Nat) (g : SumRec → SumRec) : (s.updSum a g).margin = s.margin := rfl
@[simp] theorem State.updSum_leadMax (s : State) (a : Nat) (g : SumRec → SumRec) : (s.updSum a g).leadMax = s.leadMax := rfl
@[simp] theorem State.updSum_gaths (s : State) (a : Nat) (g : SumRec → SumRec) : (s.updSum a g).gaths = s.gaths := rfl
@[simp] theorem State.updSum_spine (s : State) (a : Nat) (g : SumRec → SumRec) : (s.updSum a g).spine = s.spine := rfl
@[simp] theorem State.updSum_awl (s : State) (a : Nat) (g : SumRec → SumRec) : (s.updSum a g).awl = s.awl := rfl
@[simp] theorem State.updSum_press (s : State) (a : Nat) (g : SumRec → SumRec) : (s.updSum a g).press = s.press := rfl
@[simp] theorem State.updSum_fq (s : State) (a : Nat) (g : SumRec → SumRec) : (s.updSum a g).fq = s.fq := rfl
@[simp] theorem State.updSum_net (s : State) (a : Nat) (g : SumRec → SumRec) : (s.updSum a g).net = s.net := rfl
@[simp] theorem State.updSum_eg (s : State) (a : Nat) (g : SumRec → SumRec) : (s.updSum a g).eg = s.eg := rfl
@[simp] theorem State.updSum_ptp (s : State) (a : Nat) (g : SumRec → SumRec) : (s.updSum a g).ptp = s.ptp := rfl
@[simp] theorem State.updSum_sec (s : State) (a : Nat) (g : SumRec → SumRec) : (s.updSum a g).sec = s.sec := rfl
@[simp] theorem State.updSum_err (s : State) (a : Nat) (g : SumRec → SumRec) : (s.updSum a g).err = s.err := rfl
@[simp] theorem State.updSum_fw (s : State) (a : Nat) (g : SumRec → SumRec) : (s.updSum a g).fw = s.fw := rfl
@[simp] theorem State.updSum_pwr (s : State) (a : Nat) (g : SumRec → SumRec) : (s.updSum a g).pwr = s.pwr := rfl
@[simp] theorem State.updSum_out (s : State) (a : Nat) (g : SumRec → SumRec) : (s.updSum a g).out = s.out := rfl

/-! ## State.updSeq -/

@[simp] theorem State.updSeq_pending (s : State) (q : Nat) (g : Seq → Seq) : (s.updSeq q g).pending = s.pending := rfl
@[simp] theorem State.updSeq_free (s : State) (q : Nat) (g : Seq → Seq) : (s.updSeq q g).free = s.free := rfl
@[simp] theorem State.updSeq_now (s : State) (q : Nat) (g : Seq → Seq) : (s.updSeq q g).now = s.now := rfl
@[simp] theorem State.updSeq_t0 (s : State) (q : Nat) (g : Seq → Seq) : (s.updSeq q g).t0 = s.t0 := rfl
@[simp] theorem State.updSeq_dev (s : State) (q : Nat) (g : Seq → Seq) : (s.updSeq q g).dev = s.dev := rfl
@[simp] theorem State.updSeq_ctxs (s : State) (q : Nat) (g : Seq → Seq) : (s.updSeq q g).ctxs = s.ctxs := rfl
@[simp] theorem State.updSeq_flights (s : State) (q : Nat) (g : Seq → Seq) : (s.updSeq q g).flights = s.flights := rfl
@[simp] theorem State.updSeq_nextFlight (s : State) (q : Nat) (g : Seq → Seq) : (s.updSeq q g).nextFlight = s.nextFlight := rfl
@[simp] theorem State.updSeq_slice (s : State) (q : Nat) (g : Seq → Seq) : (s.updSeq q g).slice = s.slice := rfl
@[simp] theorem State.updSeq_lockUs (s : State) (q : Nat) (g : Seq → Seq) : (s.updSeq q g).lockUs = s.lockUs := rfl
@[simp] theorem State.updSeq_pools (s : State) (q : Nat) (g : Seq → Seq) : (s.updSeq q g).pools = s.pools := rfl
@[simp] theorem State.updSeq_fns (s : State) (q : Nat) (g : Seq → Seq) : (s.updSeq q g).fns = s.fns := rfl
@[simp] theorem State.updSeq_vms (s : State) (q : Nat) (g : Seq → Seq) : (s.updSeq q g).vms = s.vms := rfl
@[simp] theorem State.updSeq_ps (s : State) (q : Nat) (g : Seq → Seq) : (s.updSeq q g).ps = { s.ps with seqs := if s.granuleLost (s.headAddr q) then s.ps.seqs else s.ps.seqs.upd q {} g } := rfl
@[simp] theorem State.updSeq_tier (s : State) (q : Nat) (g : Seq → Seq) : (s.updSeq q g).tier = s.tier := rfl
@[simp] theorem State.updSeq_margin (s : State) (q : Nat) (g : Seq → Seq) : (s.updSeq q g).margin = s.margin := rfl
@[simp] theorem State.updSeq_leadMax (s : State) (q : Nat) (g : Seq → Seq) : (s.updSeq q g).leadMax = s.leadMax := rfl
@[simp] theorem State.updSeq_gaths (s : State) (q : Nat) (g : Seq → Seq) : (s.updSeq q g).gaths = s.gaths := rfl
@[simp] theorem State.updSeq_spine (s : State) (q : Nat) (g : Seq → Seq) : (s.updSeq q g).spine = s.spine := rfl
@[simp] theorem State.updSeq_awl (s : State) (q : Nat) (g : Seq → Seq) : (s.updSeq q g).awl = s.awl := rfl
@[simp] theorem State.updSeq_press (s : State) (q : Nat) (g : Seq → Seq) : (s.updSeq q g).press = s.press := rfl
@[simp] theorem State.updSeq_fq (s : State) (q : Nat) (g : Seq → Seq) : (s.updSeq q g).fq = s.fq := rfl
@[simp] theorem State.updSeq_net (s : State) (q : Nat) (g : Seq → Seq) : (s.updSeq q g).net = s.net := rfl
@[simp] theorem State.updSeq_eg (s : State) (q : Nat) (g : Seq → Seq) : (s.updSeq q g).eg = s.eg := rfl
@[simp] theorem State.updSeq_ptp (s : State) (q : Nat) (g : Seq → Seq) : (s.updSeq q g).ptp = s.ptp := rfl
@[simp] theorem State.updSeq_sec (s : State) (q : Nat) (g : Seq → Seq) : (s.updSeq q g).sec = s.sec := rfl
@[simp] theorem State.updSeq_err (s : State) (q : Nat) (g : Seq → Seq) : (s.updSeq q g).err = s.err := rfl
@[simp] theorem State.updSeq_fw (s : State) (q : Nat) (g : Seq → Seq) : (s.updSeq q g).fw = s.fw := rfl
@[simp] theorem State.updSeq_pwr (s : State) (q : Nat) (g : Seq → Seq) : (s.updSeq q g).pwr = s.pwr := rfl
@[simp] theorem State.updSeq_out (s : State) (q : Nat) (g : Seq → Seq) : (s.updSeq q g).out = s.out := rfl

/-! ## State.updGath -/

@[simp] theorem State.updGath_pending (s : State) (i : Nat) (h : Gath → Gath) : (s.updGath i h).pending = s.pending := rfl
@[simp] theorem State.updGath_free (s : State) (i : Nat) (h : Gath → Gath) : (s.updGath i h).free = s.free := rfl
@[simp] theorem State.updGath_now (s : State) (i : Nat) (h : Gath → Gath) : (s.updGath i h).now = s.now := rfl
@[simp] theorem State.updGath_t0 (s : State) (i : Nat) (h : Gath → Gath) : (s.updGath i h).t0 = s.t0 := rfl
@[simp] theorem State.updGath_dev (s : State) (i : Nat) (h : Gath → Gath) : (s.updGath i h).dev = s.dev := rfl
@[simp] theorem State.updGath_ctxs (s : State) (i : Nat) (h : Gath → Gath) : (s.updGath i h).ctxs = s.ctxs := rfl
@[simp] theorem State.updGath_flights (s : State) (i : Nat) (h : Gath → Gath) : (s.updGath i h).flights = s.flights := rfl
@[simp] theorem State.updGath_nextFlight (s : State) (i : Nat) (h : Gath → Gath) : (s.updGath i h).nextFlight = s.nextFlight := rfl
@[simp] theorem State.updGath_slice (s : State) (i : Nat) (h : Gath → Gath) : (s.updGath i h).slice = s.slice := rfl
@[simp] theorem State.updGath_lockUs (s : State) (i : Nat) (h : Gath → Gath) : (s.updGath i h).lockUs = s.lockUs := rfl
@[simp] theorem State.updGath_pools (s : State) (i : Nat) (h : Gath → Gath) : (s.updGath i h).pools = s.pools := rfl
@[simp] theorem State.updGath_fns (s : State) (i : Nat) (h : Gath → Gath) : (s.updGath i h).fns = s.fns := rfl
@[simp] theorem State.updGath_vms (s : State) (i : Nat) (h : Gath → Gath) : (s.updGath i h).vms = s.vms := rfl
@[simp] theorem State.updGath_ps (s : State) (i : Nat) (h : Gath → Gath) : (s.updGath i h).ps = s.ps := rfl
@[simp] theorem State.updGath_tier (s : State) (i : Nat) (h : Gath → Gath) : (s.updGath i h).tier = s.tier := rfl
@[simp] theorem State.updGath_margin (s : State) (i : Nat) (h : Gath → Gath) : (s.updGath i h).margin = s.margin := rfl
@[simp] theorem State.updGath_leadMax (s : State) (i : Nat) (h : Gath → Gath) : (s.updGath i h).leadMax = s.leadMax := rfl
@[simp] theorem State.updGath_gaths (s : State) (i : Nat) (h : Gath → Gath) : (s.updGath i h).gaths = s.gaths.upd i {} h := rfl
@[simp] theorem State.updGath_spine (s : State) (i : Nat) (h : Gath → Gath) : (s.updGath i h).spine = s.spine := rfl
@[simp] theorem State.updGath_awl (s : State) (i : Nat) (h : Gath → Gath) : (s.updGath i h).awl = s.awl := rfl
@[simp] theorem State.updGath_press (s : State) (i : Nat) (h : Gath → Gath) : (s.updGath i h).press = s.press := rfl
@[simp] theorem State.updGath_fq (s : State) (i : Nat) (h : Gath → Gath) : (s.updGath i h).fq = s.fq := rfl
@[simp] theorem State.updGath_net (s : State) (i : Nat) (h : Gath → Gath) : (s.updGath i h).net = s.net := rfl
@[simp] theorem State.updGath_eg (s : State) (i : Nat) (h : Gath → Gath) : (s.updGath i h).eg = s.eg := rfl
@[simp] theorem State.updGath_ptp (s : State) (i : Nat) (h : Gath → Gath) : (s.updGath i h).ptp = s.ptp := rfl
@[simp] theorem State.updGath_sec (s : State) (i : Nat) (h : Gath → Gath) : (s.updGath i h).sec = s.sec := rfl
@[simp] theorem State.updGath_err (s : State) (i : Nat) (h : Gath → Gath) : (s.updGath i h).err = s.err := rfl
@[simp] theorem State.updGath_fw (s : State) (i : Nat) (h : Gath → Gath) : (s.updGath i h).fw = s.fw := rfl
@[simp] theorem State.updGath_pwr (s : State) (i : Nat) (h : Gath → Gath) : (s.updGath i h).pwr = s.pwr := rfl
@[simp] theorem State.updGath_out (s : State) (i : Nat) (h : Gath → Gath) : (s.updGath i h).out = s.out := rfl

/-! ## State.updPort -/

@[simp] theorem State.updPort_pending (s : State) (p : Nat) (g : Port → Port) : (s.updPort p g).pending = s.pending := rfl
@[simp] theorem State.updPort_free (s : State) (p : Nat) (g : Port → Port) : (s.updPort p g).free = s.free := rfl
@[simp] theorem State.updPort_now (s : State) (p : Nat) (g : Port → Port) : (s.updPort p g).now = s.now := rfl
@[simp] theorem State.updPort_t0 (s : State) (p : Nat) (g : Port → Port) : (s.updPort p g).t0 = s.t0 := rfl
@[simp] theorem State.updPort_dev (s : State) (p : Nat) (g : Port → Port) : (s.updPort p g).dev = s.dev := rfl
@[simp] theorem State.updPort_ctxs (s : State) (p : Nat) (g : Port → Port) : (s.updPort p g).ctxs = s.ctxs := rfl
@[simp] theorem State.updPort_flights (s : State) (p : Nat) (g : Port → Port) : (s.updPort p g).flights = s.flights := rfl
@[simp] theorem State.updPort_nextFlight (s : State) (p : Nat) (g : Port → Port) : (s.updPort p g).nextFlight = s.nextFlight := rfl
@[simp] theorem State.updPort_slice (s : State) (p : Nat) (g : Port → Port) : (s.updPort p g).slice = s.slice := rfl
@[simp] theorem State.updPort_lockUs (s : State) (p : Nat) (g : Port → Port) : (s.updPort p g).lockUs = s.lockUs := rfl
@[simp] theorem State.updPort_pools (s : State) (p : Nat) (g : Port → Port) : (s.updPort p g).pools = s.pools := rfl
@[simp] theorem State.updPort_fns (s : State) (p : Nat) (g : Port → Port) : (s.updPort p g).fns = s.fns := rfl
@[simp] theorem State.updPort_vms (s : State) (p : Nat) (g : Port → Port) : (s.updPort p g).vms = s.vms := rfl
@[simp] theorem State.updPort_ps (s : State) (p : Nat) (g : Port → Port) : (s.updPort p g).ps = s.ps := rfl
@[simp] theorem State.updPort_tier (s : State) (p : Nat) (g : Port → Port) : (s.updPort p g).tier = { s.tier with ports := s.tier.ports.upd p {} g } := rfl
@[simp] theorem State.updPort_margin (s : State) (p : Nat) (g : Port → Port) : (s.updPort p g).margin = s.margin := rfl
@[simp] theorem State.updPort_leadMax (s : State) (p : Nat) (g : Port → Port) : (s.updPort p g).leadMax = s.leadMax := rfl
@[simp] theorem State.updPort_gaths (s : State) (p : Nat) (g : Port → Port) : (s.updPort p g).gaths = s.gaths := rfl
@[simp] theorem State.updPort_spine (s : State) (p : Nat) (g : Port → Port) : (s.updPort p g).spine = s.spine := rfl
@[simp] theorem State.updPort_awl (s : State) (p : Nat) (g : Port → Port) : (s.updPort p g).awl = s.awl := rfl
@[simp] theorem State.updPort_press (s : State) (p : Nat) (g : Port → Port) : (s.updPort p g).press = s.press := rfl
@[simp] theorem State.updPort_fq (s : State) (p : Nat) (g : Port → Port) : (s.updPort p g).fq = s.fq := rfl
@[simp] theorem State.updPort_net (s : State) (p : Nat) (g : Port → Port) : (s.updPort p g).net = s.net := rfl
@[simp] theorem State.updPort_eg (s : State) (p : Nat) (g : Port → Port) : (s.updPort p g).eg = s.eg := rfl
@[simp] theorem State.updPort_ptp (s : State) (p : Nat) (g : Port → Port) : (s.updPort p g).ptp = s.ptp := rfl
@[simp] theorem State.updPort_sec (s : State) (p : Nat) (g : Port → Port) : (s.updPort p g).sec = s.sec := rfl
@[simp] theorem State.updPort_err (s : State) (p : Nat) (g : Port → Port) : (s.updPort p g).err = s.err := rfl
@[simp] theorem State.updPort_fw (s : State) (p : Nat) (g : Port → Port) : (s.updPort p g).fw = s.fw := rfl
@[simp] theorem State.updPort_pwr (s : State) (p : Nat) (g : Port → Port) : (s.updPort p g).pwr = s.pwr := rfl
@[simp] theorem State.updPort_out (s : State) (p : Nat) (g : Port → Port) : (s.updPort p g).out = s.out := rfl

/-! ## State.updQp -/

@[simp] theorem State.updQp_pending (s : State) (q : Nat) (g : Qp → Qp) : (s.updQp q g).pending = s.pending := rfl
@[simp] theorem State.updQp_free (s : State) (q : Nat) (g : Qp → Qp) : (s.updQp q g).free = s.free := rfl
@[simp] theorem State.updQp_now (s : State) (q : Nat) (g : Qp → Qp) : (s.updQp q g).now = s.now := rfl
@[simp] theorem State.updQp_t0 (s : State) (q : Nat) (g : Qp → Qp) : (s.updQp q g).t0 = s.t0 := rfl
@[simp] theorem State.updQp_dev (s : State) (q : Nat) (g : Qp → Qp) : (s.updQp q g).dev = s.dev := rfl
@[simp] theorem State.updQp_ctxs (s : State) (q : Nat) (g : Qp → Qp) : (s.updQp q g).ctxs = s.ctxs := rfl
@[simp] theorem State.updQp_flights (s : State) (q : Nat) (g : Qp → Qp) : (s.updQp q g).flights = s.flights := rfl
@[simp] theorem State.updQp_nextFlight (s : State) (q : Nat) (g : Qp → Qp) : (s.updQp q g).nextFlight = s.nextFlight := rfl
@[simp] theorem State.updQp_slice (s : State) (q : Nat) (g : Qp → Qp) : (s.updQp q g).slice = s.slice := rfl
@[simp] theorem State.updQp_lockUs (s : State) (q : Nat) (g : Qp → Qp) : (s.updQp q g).lockUs = s.lockUs := rfl
@[simp] theorem State.updQp_pools (s : State) (q : Nat) (g : Qp → Qp) : (s.updQp q g).pools = s.pools := rfl
@[simp] theorem State.updQp_fns (s : State) (q : Nat) (g : Qp → Qp) : (s.updQp q g).fns = s.fns := rfl
@[simp] theorem State.updQp_vms (s : State) (q : Nat) (g : Qp → Qp) : (s.updQp q g).vms = s.vms := rfl
@[simp] theorem State.updQp_ps (s : State) (q : Nat) (g : Qp → Qp) : (s.updQp q g).ps = s.ps := rfl
@[simp] theorem State.updQp_tier (s : State) (q : Nat) (g : Qp → Qp) : (s.updQp q g).tier = s.tier := rfl
@[simp] theorem State.updQp_margin (s : State) (q : Nat) (g : Qp → Qp) : (s.updQp q g).margin = s.margin := rfl
@[simp] theorem State.updQp_leadMax (s : State) (q : Nat) (g : Qp → Qp) : (s.updQp q g).leadMax = s.leadMax := rfl
@[simp] theorem State.updQp_gaths (s : State) (q : Nat) (g : Qp → Qp) : (s.updQp q g).gaths = s.gaths := rfl
@[simp] theorem State.updQp_spine (s : State) (q : Nat) (g : Qp → Qp) : (s.updQp q g).spine = s.spine := rfl
@[simp] theorem State.updQp_awl (s : State) (q : Nat) (g : Qp → Qp) : (s.updQp q g).awl = s.awl := rfl
@[simp] theorem State.updQp_press (s : State) (q : Nat) (g : Qp → Qp) : (s.updQp q g).press = s.press := rfl
@[simp] theorem State.updQp_fq (s : State) (q : Nat) (g : Qp → Qp) : (s.updQp q g).fq = s.fq := rfl
@[simp] theorem State.updQp_net (s : State) (q : Nat) (g : Qp → Qp) : (s.updQp q g).net = { s.net with qps := s.net.qps.upd q {} g } := rfl
@[simp] theorem State.updQp_eg (s : State) (q : Nat) (g : Qp → Qp) : (s.updQp q g).eg = s.eg := rfl
@[simp] theorem State.updQp_ptp (s : State) (q : Nat) (g : Qp → Qp) : (s.updQp q g).ptp = s.ptp := rfl
@[simp] theorem State.updQp_sec (s : State) (q : Nat) (g : Qp → Qp) : (s.updQp q g).sec = s.sec := rfl
@[simp] theorem State.updQp_err (s : State) (q : Nat) (g : Qp → Qp) : (s.updQp q g).err = s.err := rfl
@[simp] theorem State.updQp_fw (s : State) (q : Nat) (g : Qp → Qp) : (s.updQp q g).fw = s.fw := rfl
@[simp] theorem State.updQp_pwr (s : State) (q : Nat) (g : Qp → Qp) : (s.updQp q g).pwr = s.pwr := rfl
@[simp] theorem State.updQp_out (s : State) (q : Nat) (g : Qp → Qp) : (s.updQp q g).out = s.out := rfl

/-! ## State.updReg -/

@[simp] theorem State.updReg_pending (s : State) (i : Nat) (g : Reg → Reg) : (s.updReg i g).pending = s.pending := rfl
@[simp] theorem State.updReg_free (s : State) (i : Nat) (g : Reg → Reg) : (s.updReg i g).free = s.free := rfl
@[simp] theorem State.updReg_now (s : State) (i : Nat) (g : Reg → Reg) : (s.updReg i g).now = s.now := rfl
@[simp] theorem State.updReg_t0 (s : State) (i : Nat) (g : Reg → Reg) : (s.updReg i g).t0 = s.t0 := rfl
@[simp] theorem State.updReg_dev (s : State) (i : Nat) (g : Reg → Reg) : (s.updReg i g).dev = s.dev := rfl
@[simp] theorem State.updReg_ctxs (s : State) (i : Nat) (g : Reg → Reg) : (s.updReg i g).ctxs = s.ctxs := rfl
@[simp] theorem State.updReg_flights (s : State) (i : Nat) (g : Reg → Reg) : (s.updReg i g).flights = s.flights := rfl
@[simp] theorem State.updReg_nextFlight (s : State) (i : Nat) (g : Reg → Reg) : (s.updReg i g).nextFlight = s.nextFlight := rfl
@[simp] theorem State.updReg_slice (s : State) (i : Nat) (g : Reg → Reg) : (s.updReg i g).slice = s.slice := rfl
@[simp] theorem State.updReg_lockUs (s : State) (i : Nat) (g : Reg → Reg) : (s.updReg i g).lockUs = s.lockUs := rfl
@[simp] theorem State.updReg_pools (s : State) (i : Nat) (g : Reg → Reg) : (s.updReg i g).pools = s.pools := rfl
@[simp] theorem State.updReg_fns (s : State) (i : Nat) (g : Reg → Reg) : (s.updReg i g).fns = s.fns := rfl
@[simp] theorem State.updReg_vms (s : State) (i : Nat) (g : Reg → Reg) : (s.updReg i g).vms = s.vms := rfl
@[simp] theorem State.updReg_ps (s : State) (i : Nat) (g : Reg → Reg) : (s.updReg i g).ps = s.ps := rfl
@[simp] theorem State.updReg_tier (s : State) (i : Nat) (g : Reg → Reg) : (s.updReg i g).tier = s.tier := rfl
@[simp] theorem State.updReg_margin (s : State) (i : Nat) (g : Reg → Reg) : (s.updReg i g).margin = s.margin := rfl
@[simp] theorem State.updReg_leadMax (s : State) (i : Nat) (g : Reg → Reg) : (s.updReg i g).leadMax = s.leadMax := rfl
@[simp] theorem State.updReg_gaths (s : State) (i : Nat) (g : Reg → Reg) : (s.updReg i g).gaths = s.gaths := rfl
@[simp] theorem State.updReg_spine (s : State) (i : Nat) (g : Reg → Reg) : (s.updReg i g).spine = s.spine := rfl
@[simp] theorem State.updReg_awl (s : State) (i : Nat) (g : Reg → Reg) : (s.updReg i g).awl = s.awl := rfl
@[simp] theorem State.updReg_press (s : State) (i : Nat) (g : Reg → Reg) : (s.updReg i g).press = s.press := rfl
@[simp] theorem State.updReg_fq (s : State) (i : Nat) (g : Reg → Reg) : (s.updReg i g).fq = s.fq := rfl
@[simp] theorem State.updReg_net (s : State) (i : Nat) (g : Reg → Reg) : (s.updReg i g).net = { s.net with regs := s.net.regs.upd i {} g } := rfl
@[simp] theorem State.updReg_eg (s : State) (i : Nat) (g : Reg → Reg) : (s.updReg i g).eg = s.eg := rfl
@[simp] theorem State.updReg_ptp (s : State) (i : Nat) (g : Reg → Reg) : (s.updReg i g).ptp = s.ptp := rfl
@[simp] theorem State.updReg_sec (s : State) (i : Nat) (g : Reg → Reg) : (s.updReg i g).sec = s.sec := rfl
@[simp] theorem State.updReg_err (s : State) (i : Nat) (g : Reg → Reg) : (s.updReg i g).err = s.err := rfl
@[simp] theorem State.updReg_fw (s : State) (i : Nat) (g : Reg → Reg) : (s.updReg i g).fw = s.fw := rfl
@[simp] theorem State.updReg_pwr (s : State) (i : Nat) (g : Reg → Reg) : (s.updReg i g).pwr = s.pwr := rfl
@[simp] theorem State.updReg_out (s : State) (i : Nat) (g : Reg → Reg) : (s.updReg i g).out = s.out := rfl

/-! ## State.updExt -/

@[simp] theorem State.updExt_pending (s : State) (e : Nat) (g : Ext → Ext) : (s.updExt e g).pending = s.pending := rfl
@[simp] theorem State.updExt_free (s : State) (e : Nat) (g : Ext → Ext) : (s.updExt e g).free = s.free := rfl
@[simp] theorem State.updExt_now (s : State) (e : Nat) (g : Ext → Ext) : (s.updExt e g).now = s.now := rfl
@[simp] theorem State.updExt_t0 (s : State) (e : Nat) (g : Ext → Ext) : (s.updExt e g).t0 = s.t0 := rfl
@[simp] theorem State.updExt_dev (s : State) (e : Nat) (g : Ext → Ext) : (s.updExt e g).dev = s.dev := rfl
@[simp] theorem State.updExt_ctxs (s : State) (e : Nat) (g : Ext → Ext) : (s.updExt e g).ctxs = s.ctxs := rfl
@[simp] theorem State.updExt_flights (s : State) (e : Nat) (g : Ext → Ext) : (s.updExt e g).flights = s.flights := rfl
@[simp] theorem State.updExt_nextFlight (s : State) (e : Nat) (g : Ext → Ext) : (s.updExt e g).nextFlight = s.nextFlight := rfl
@[simp] theorem State.updExt_slice (s : State) (e : Nat) (g : Ext → Ext) : (s.updExt e g).slice = s.slice := rfl
@[simp] theorem State.updExt_lockUs (s : State) (e : Nat) (g : Ext → Ext) : (s.updExt e g).lockUs = s.lockUs := rfl
@[simp] theorem State.updExt_pools (s : State) (e : Nat) (g : Ext → Ext) : (s.updExt e g).pools = s.pools := rfl
@[simp] theorem State.updExt_fns (s : State) (e : Nat) (g : Ext → Ext) : (s.updExt e g).fns = s.fns := rfl
@[simp] theorem State.updExt_vms (s : State) (e : Nat) (g : Ext → Ext) : (s.updExt e g).vms = s.vms := rfl
@[simp] theorem State.updExt_ps (s : State) (e : Nat) (g : Ext → Ext) : (s.updExt e g).ps = s.ps := rfl
@[simp] theorem State.updExt_tier (s : State) (e : Nat) (g : Ext → Ext) : (s.updExt e g).tier = s.tier := rfl
@[simp] theorem State.updExt_margin (s : State) (e : Nat) (g : Ext → Ext) : (s.updExt e g).margin = s.margin := rfl
@[simp] theorem State.updExt_leadMax (s : State) (e : Nat) (g : Ext → Ext) : (s.updExt e g).leadMax = s.leadMax := rfl
@[simp] theorem State.updExt_gaths (s : State) (e : Nat) (g : Ext → Ext) : (s.updExt e g).gaths = s.gaths := rfl
@[simp] theorem State.updExt_spine (s : State) (e : Nat) (g : Ext → Ext) : (s.updExt e g).spine = s.spine := rfl
@[simp] theorem State.updExt_awl (s : State) (e : Nat) (g : Ext → Ext) : (s.updExt e g).awl = s.awl := rfl
@[simp] theorem State.updExt_press (s : State) (e : Nat) (g : Ext → Ext) : (s.updExt e g).press = s.press := rfl
@[simp] theorem State.updExt_fq (s : State) (e : Nat) (g : Ext → Ext) : (s.updExt e g).fq = s.fq := rfl
@[simp] theorem State.updExt_net (s : State) (e : Nat) (g : Ext → Ext) : (s.updExt e g).net = { s.net with exts := s.net.exts.upd e {} g } := rfl
@[simp] theorem State.updExt_eg (s : State) (e : Nat) (g : Ext → Ext) : (s.updExt e g).eg = s.eg := rfl
@[simp] theorem State.updExt_ptp (s : State) (e : Nat) (g : Ext → Ext) : (s.updExt e g).ptp = s.ptp := rfl
@[simp] theorem State.updExt_sec (s : State) (e : Nat) (g : Ext → Ext) : (s.updExt e g).sec = s.sec := rfl
@[simp] theorem State.updExt_err (s : State) (e : Nat) (g : Ext → Ext) : (s.updExt e g).err = s.err := rfl
@[simp] theorem State.updExt_fw (s : State) (e : Nat) (g : Ext → Ext) : (s.updExt e g).fw = s.fw := rfl
@[simp] theorem State.updExt_pwr (s : State) (e : Nat) (g : Ext → Ext) : (s.updExt e g).pwr = s.pwr := rfl
@[simp] theorem State.updExt_out (s : State) (e : Nat) (g : Ext → Ext) : (s.updExt e g).out = s.out := rfl

/-! ## State.updSub -/

@[simp] theorem State.updSub_pending (s : State) (i : Nat) (g : Sub → Sub) : (s.updSub i g).pending = s.pending := rfl
@[simp] theorem State.updSub_free (s : State) (i : Nat) (g : Sub → Sub) : (s.updSub i g).free = s.free := rfl
@[simp] theorem State.updSub_now (s : State) (i : Nat) (g : Sub → Sub) : (s.updSub i g).now = s.now := rfl
@[simp] theorem State.updSub_t0 (s : State) (i : Nat) (g : Sub → Sub) : (s.updSub i g).t0 = s.t0 := rfl
@[simp] theorem State.updSub_dev (s : State) (i : Nat) (g : Sub → Sub) : (s.updSub i g).dev = s.dev := rfl
@[simp] theorem State.updSub_ctxs (s : State) (i : Nat) (g : Sub → Sub) : (s.updSub i g).ctxs = s.ctxs := rfl
@[simp] theorem State.updSub_flights (s : State) (i : Nat) (g : Sub → Sub) : (s.updSub i g).flights = s.flights := rfl
@[simp] theorem State.updSub_nextFlight (s : State) (i : Nat) (g : Sub → Sub) : (s.updSub i g).nextFlight = s.nextFlight := rfl
@[simp] theorem State.updSub_slice (s : State) (i : Nat) (g : Sub → Sub) : (s.updSub i g).slice = s.slice := rfl
@[simp] theorem State.updSub_lockUs (s : State) (i : Nat) (g : Sub → Sub) : (s.updSub i g).lockUs = s.lockUs := rfl
@[simp] theorem State.updSub_pools (s : State) (i : Nat) (g : Sub → Sub) : (s.updSub i g).pools = s.pools := rfl
@[simp] theorem State.updSub_fns (s : State) (i : Nat) (g : Sub → Sub) : (s.updSub i g).fns = s.fns := rfl
@[simp] theorem State.updSub_vms (s : State) (i : Nat) (g : Sub → Sub) : (s.updSub i g).vms = s.vms := rfl
@[simp] theorem State.updSub_ps (s : State) (i : Nat) (g : Sub → Sub) : (s.updSub i g).ps = s.ps := rfl
@[simp] theorem State.updSub_tier (s : State) (i : Nat) (g : Sub → Sub) : (s.updSub i g).tier = s.tier := rfl
@[simp] theorem State.updSub_margin (s : State) (i : Nat) (g : Sub → Sub) : (s.updSub i g).margin = s.margin := rfl
@[simp] theorem State.updSub_leadMax (s : State) (i : Nat) (g : Sub → Sub) : (s.updSub i g).leadMax = s.leadMax := rfl
@[simp] theorem State.updSub_gaths (s : State) (i : Nat) (g : Sub → Sub) : (s.updSub i g).gaths = s.gaths := rfl
@[simp] theorem State.updSub_spine (s : State) (i : Nat) (g : Sub → Sub) : (s.updSub i g).spine = s.spine := rfl
@[simp] theorem State.updSub_awl (s : State) (i : Nat) (g : Sub → Sub) : (s.updSub i g).awl = s.awl := rfl
@[simp] theorem State.updSub_press (s : State) (i : Nat) (g : Sub → Sub) : (s.updSub i g).press = s.press := rfl
@[simp] theorem State.updSub_fq (s : State) (i : Nat) (g : Sub → Sub) : (s.updSub i g).fq = s.fq := rfl
@[simp] theorem State.updSub_net (s : State) (i : Nat) (g : Sub → Sub) : (s.updSub i g).net = { s.net with subs := s.net.subs.upd i {} g } := rfl
@[simp] theorem State.updSub_eg (s : State) (i : Nat) (g : Sub → Sub) : (s.updSub i g).eg = s.eg := rfl
@[simp] theorem State.updSub_ptp (s : State) (i : Nat) (g : Sub → Sub) : (s.updSub i g).ptp = s.ptp := rfl
@[simp] theorem State.updSub_sec (s : State) (i : Nat) (g : Sub → Sub) : (s.updSub i g).sec = s.sec := rfl
@[simp] theorem State.updSub_err (s : State) (i : Nat) (g : Sub → Sub) : (s.updSub i g).err = s.err := rfl
@[simp] theorem State.updSub_fw (s : State) (i : Nat) (g : Sub → Sub) : (s.updSub i g).fw = s.fw := rfl
@[simp] theorem State.updSub_pwr (s : State) (i : Nat) (g : Sub → Sub) : (s.updSub i g).pwr = s.pwr := rfl
@[simp] theorem State.updSub_out (s : State) (i : Nat) (g : Sub → Sub) : (s.updSub i g).out = s.out := rfl

/-! ## State.updSet -/

@[simp] theorem State.updSet_pending (s : State) (k : Nat) (g : CmdSet → CmdSet) : (s.updSet k g).pending = s.pending := rfl
@[simp] theorem State.updSet_free (s : State) (k : Nat) (g : CmdSet → CmdSet) : (s.updSet k g).free = s.free := rfl
@[simp] theorem State.updSet_now (s : State) (k : Nat) (g : CmdSet → CmdSet) : (s.updSet k g).now = s.now := rfl
@[simp] theorem State.updSet_t0 (s : State) (k : Nat) (g : CmdSet → CmdSet) : (s.updSet k g).t0 = s.t0 := rfl
@[simp] theorem State.updSet_dev (s : State) (k : Nat) (g : CmdSet → CmdSet) : (s.updSet k g).dev = s.dev := rfl
@[simp] theorem State.updSet_ctxs (s : State) (k : Nat) (g : CmdSet → CmdSet) : (s.updSet k g).ctxs = s.ctxs := rfl
@[simp] theorem State.updSet_flights (s : State) (k : Nat) (g : CmdSet → CmdSet) : (s.updSet k g).flights = s.flights := rfl
@[simp] theorem State.updSet_nextFlight (s : State) (k : Nat) (g : CmdSet → CmdSet) : (s.updSet k g).nextFlight = s.nextFlight := rfl
@[simp] theorem State.updSet_slice (s : State) (k : Nat) (g : CmdSet → CmdSet) : (s.updSet k g).slice = s.slice := rfl
@[simp] theorem State.updSet_lockUs (s : State) (k : Nat) (g : CmdSet → CmdSet) : (s.updSet k g).lockUs = s.lockUs := rfl
@[simp] theorem State.updSet_pools (s : State) (k : Nat) (g : CmdSet → CmdSet) : (s.updSet k g).pools = s.pools := rfl
@[simp] theorem State.updSet_fns (s : State) (k : Nat) (g : CmdSet → CmdSet) : (s.updSet k g).fns = s.fns := rfl
@[simp] theorem State.updSet_vms (s : State) (k : Nat) (g : CmdSet → CmdSet) : (s.updSet k g).vms = s.vms := rfl
@[simp] theorem State.updSet_ps (s : State) (k : Nat) (g : CmdSet → CmdSet) : (s.updSet k g).ps = s.ps := rfl
@[simp] theorem State.updSet_tier (s : State) (k : Nat) (g : CmdSet → CmdSet) : (s.updSet k g).tier = s.tier := rfl
@[simp] theorem State.updSet_margin (s : State) (k : Nat) (g : CmdSet → CmdSet) : (s.updSet k g).margin = s.margin := rfl
@[simp] theorem State.updSet_leadMax (s : State) (k : Nat) (g : CmdSet → CmdSet) : (s.updSet k g).leadMax = s.leadMax := rfl
@[simp] theorem State.updSet_gaths (s : State) (k : Nat) (g : CmdSet → CmdSet) : (s.updSet k g).gaths = s.gaths := rfl
@[simp] theorem State.updSet_spine (s : State) (k : Nat) (g : CmdSet → CmdSet) : (s.updSet k g).spine = s.spine := rfl
@[simp] theorem State.updSet_awl (s : State) (k : Nat) (g : CmdSet → CmdSet) : (s.updSet k g).awl = s.awl := rfl
@[simp] theorem State.updSet_press (s : State) (k : Nat) (g : CmdSet → CmdSet) : (s.updSet k g).press = s.press := rfl
@[simp] theorem State.updSet_fq (s : State) (k : Nat) (g : CmdSet → CmdSet) : (s.updSet k g).fq = s.fq := rfl
@[simp] theorem State.updSet_net (s : State) (k : Nat) (g : CmdSet → CmdSet) : (s.updSet k g).net = { s.net with sets := s.net.sets.upd k {} g } := rfl
@[simp] theorem State.updSet_eg (s : State) (k : Nat) (g : CmdSet → CmdSet) : (s.updSet k g).eg = s.eg := rfl
@[simp] theorem State.updSet_ptp (s : State) (k : Nat) (g : CmdSet → CmdSet) : (s.updSet k g).ptp = s.ptp := rfl
@[simp] theorem State.updSet_sec (s : State) (k : Nat) (g : CmdSet → CmdSet) : (s.updSet k g).sec = s.sec := rfl
@[simp] theorem State.updSet_err (s : State) (k : Nat) (g : CmdSet → CmdSet) : (s.updSet k g).err = s.err := rfl
@[simp] theorem State.updSet_fw (s : State) (k : Nat) (g : CmdSet → CmdSet) : (s.updSet k g).fw = s.fw := rfl
@[simp] theorem State.updSet_pwr (s : State) (k : Nat) (g : CmdSet → CmdSet) : (s.updSet k g).pwr = s.pwr := rfl
@[simp] theorem State.updSet_out (s : State) (k : Nat) (g : CmdSet → CmdSet) : (s.updSet k g).out = s.out := rfl

/-! ## State.updRow -/

@[simp] theorem State.updRow_pending (s : State) (r : Nat) (g : Row → Row) : (s.updRow r g).pending = s.pending := rfl
@[simp] theorem State.updRow_free (s : State) (r : Nat) (g : Row → Row) : (s.updRow r g).free = s.free := rfl
@[simp] theorem State.updRow_now (s : State) (r : Nat) (g : Row → Row) : (s.updRow r g).now = s.now := rfl
@[simp] theorem State.updRow_t0 (s : State) (r : Nat) (g : Row → Row) : (s.updRow r g).t0 = s.t0 := rfl
@[simp] theorem State.updRow_dev (s : State) (r : Nat) (g : Row → Row) : (s.updRow r g).dev = s.dev := rfl
@[simp] theorem State.updRow_ctxs (s : State) (r : Nat) (g : Row → Row) : (s.updRow r g).ctxs = s.ctxs := rfl
@[simp] theorem State.updRow_flights (s : State) (r : Nat) (g : Row → Row) : (s.updRow r g).flights = s.flights := rfl
@[simp] theorem State.updRow_nextFlight (s : State) (r : Nat) (g : Row → Row) : (s.updRow r g).nextFlight = s.nextFlight := rfl
@[simp] theorem State.updRow_slice (s : State) (r : Nat) (g : Row → Row) : (s.updRow r g).slice = s.slice := rfl
@[simp] theorem State.updRow_lockUs (s : State) (r : Nat) (g : Row → Row) : (s.updRow r g).lockUs = s.lockUs := rfl
@[simp] theorem State.updRow_pools (s : State) (r : Nat) (g : Row → Row) : (s.updRow r g).pools = s.pools := rfl
@[simp] theorem State.updRow_fns (s : State) (r : Nat) (g : Row → Row) : (s.updRow r g).fns = s.fns := rfl
@[simp] theorem State.updRow_vms (s : State) (r : Nat) (g : Row → Row) : (s.updRow r g).vms = s.vms := rfl
@[simp] theorem State.updRow_ps (s : State) (r : Nat) (g : Row → Row) : (s.updRow r g).ps = s.ps := rfl
@[simp] theorem State.updRow_tier (s : State) (r : Nat) (g : Row → Row) : (s.updRow r g).tier = s.tier := rfl
@[simp] theorem State.updRow_margin (s : State) (r : Nat) (g : Row → Row) : (s.updRow r g).margin = s.margin := rfl
@[simp] theorem State.updRow_leadMax (s : State) (r : Nat) (g : Row → Row) : (s.updRow r g).leadMax = s.leadMax := rfl
@[simp] theorem State.updRow_gaths (s : State) (r : Nat) (g : Row → Row) : (s.updRow r g).gaths = s.gaths := rfl
@[simp] theorem State.updRow_spine (s : State) (r : Nat) (g : Row → Row) : (s.updRow r g).spine = { s.spine with rows := s.spine.rows.upd r {} g } := rfl
@[simp] theorem State.updRow_awl (s : State) (r : Nat) (g : Row → Row) : (s.updRow r g).awl = s.awl := rfl
@[simp] theorem State.updRow_press (s : State) (r : Nat) (g : Row → Row) : (s.updRow r g).press = s.press := rfl
@[simp] theorem State.updRow_fq (s : State) (r : Nat) (g : Row → Row) : (s.updRow r g).fq = s.fq := rfl
@[simp] theorem State.updRow_net (s : State) (r : Nat) (g : Row → Row) : (s.updRow r g).net = s.net := rfl
@[simp] theorem State.updRow_eg (s : State) (r : Nat) (g : Row → Row) : (s.updRow r g).eg = s.eg := rfl
@[simp] theorem State.updRow_ptp (s : State) (r : Nat) (g : Row → Row) : (s.updRow r g).ptp = s.ptp := rfl
@[simp] theorem State.updRow_sec (s : State) (r : Nat) (g : Row → Row) : (s.updRow r g).sec = s.sec := rfl
@[simp] theorem State.updRow_err (s : State) (r : Nat) (g : Row → Row) : (s.updRow r g).err = s.err := rfl
@[simp] theorem State.updRow_fw (s : State) (r : Nat) (g : Row → Row) : (s.updRow r g).fw = s.fw := rfl
@[simp] theorem State.updRow_pwr (s : State) (r : Nat) (g : Row → Row) : (s.updRow r g).pwr = s.pwr := rfl
@[simp] theorem State.updRow_out (s : State) (r : Nat) (g : Row → Row) : (s.updRow r g).out = s.out := rfl

/-! ## State.updBank -/

@[simp] theorem State.updBank_pending (s : State) (b : Nat) (g : Bank → Bank) : (s.updBank b g).pending = s.pending := rfl
@[simp] theorem State.updBank_free (s : State) (b : Nat) (g : Bank → Bank) : (s.updBank b g).free = s.free := rfl
@[simp] theorem State.updBank_now (s : State) (b : Nat) (g : Bank → Bank) : (s.updBank b g).now = s.now := rfl
@[simp] theorem State.updBank_t0 (s : State) (b : Nat) (g : Bank → Bank) : (s.updBank b g).t0 = s.t0 := rfl
@[simp] theorem State.updBank_dev (s : State) (b : Nat) (g : Bank → Bank) : (s.updBank b g).dev = s.dev := rfl
@[simp] theorem State.updBank_ctxs (s : State) (b : Nat) (g : Bank → Bank) : (s.updBank b g).ctxs = s.ctxs := rfl
@[simp] theorem State.updBank_flights (s : State) (b : Nat) (g : Bank → Bank) : (s.updBank b g).flights = s.flights := rfl
@[simp] theorem State.updBank_nextFlight (s : State) (b : Nat) (g : Bank → Bank) : (s.updBank b g).nextFlight = s.nextFlight := rfl
@[simp] theorem State.updBank_slice (s : State) (b : Nat) (g : Bank → Bank) : (s.updBank b g).slice = s.slice := rfl
@[simp] theorem State.updBank_lockUs (s : State) (b : Nat) (g : Bank → Bank) : (s.updBank b g).lockUs = s.lockUs := rfl
@[simp] theorem State.updBank_pools (s : State) (b : Nat) (g : Bank → Bank) : (s.updBank b g).pools = s.pools := rfl
@[simp] theorem State.updBank_fns (s : State) (b : Nat) (g : Bank → Bank) : (s.updBank b g).fns = s.fns := rfl
@[simp] theorem State.updBank_vms (s : State) (b : Nat) (g : Bank → Bank) : (s.updBank b g).vms = s.vms := rfl
@[simp] theorem State.updBank_ps (s : State) (b : Nat) (g : Bank → Bank) : (s.updBank b g).ps = s.ps := rfl
@[simp] theorem State.updBank_tier (s : State) (b : Nat) (g : Bank → Bank) : (s.updBank b g).tier = s.tier := rfl
@[simp] theorem State.updBank_margin (s : State) (b : Nat) (g : Bank → Bank) : (s.updBank b g).margin = s.margin := rfl
@[simp] theorem State.updBank_leadMax (s : State) (b : Nat) (g : Bank → Bank) : (s.updBank b g).leadMax = s.leadMax := rfl
@[simp] theorem State.updBank_gaths (s : State) (b : Nat) (g : Bank → Bank) : (s.updBank b g).gaths = s.gaths := rfl
@[simp] theorem State.updBank_spine (s : State) (b : Nat) (g : Bank → Bank) : (s.updBank b g).spine = { s.spine with banks := s.spine.banks.upd b {} g } := rfl
@[simp] theorem State.updBank_awl (s : State) (b : Nat) (g : Bank → Bank) : (s.updBank b g).awl = s.awl := rfl
@[simp] theorem State.updBank_press (s : State) (b : Nat) (g : Bank → Bank) : (s.updBank b g).press = s.press := rfl
@[simp] theorem State.updBank_fq (s : State) (b : Nat) (g : Bank → Bank) : (s.updBank b g).fq = s.fq := rfl
@[simp] theorem State.updBank_net (s : State) (b : Nat) (g : Bank → Bank) : (s.updBank b g).net = s.net := rfl
@[simp] theorem State.updBank_eg (s : State) (b : Nat) (g : Bank → Bank) : (s.updBank b g).eg = s.eg := rfl
@[simp] theorem State.updBank_ptp (s : State) (b : Nat) (g : Bank → Bank) : (s.updBank b g).ptp = s.ptp := rfl
@[simp] theorem State.updBank_sec (s : State) (b : Nat) (g : Bank → Bank) : (s.updBank b g).sec = s.sec := rfl
@[simp] theorem State.updBank_err (s : State) (b : Nat) (g : Bank → Bank) : (s.updBank b g).err = s.err := rfl
@[simp] theorem State.updBank_fw (s : State) (b : Nat) (g : Bank → Bank) : (s.updBank b g).fw = s.fw := rfl
@[simp] theorem State.updBank_pwr (s : State) (b : Nat) (g : Bank → Bank) : (s.updBank b g).pwr = s.pwr := rfl
@[simp] theorem State.updBank_out (s : State) (b : Nat) (g : Bank → Bank) : (s.updBank b g).out = s.out := rfl

/-! ## State.updRegion -/

@[simp] theorem State.updRegion_pending (s : State) (i : Nat) (g : Region → Region) : (s.updRegion i g).pending = s.pending := rfl
@[simp] theorem State.updRegion_free (s : State) (i : Nat) (g : Region → Region) : (s.updRegion i g).free = s.free := rfl
@[simp] theorem State.updRegion_now (s : State) (i : Nat) (g : Region → Region) : (s.updRegion i g).now = s.now := rfl
@[simp] theorem State.updRegion_t0 (s : State) (i : Nat) (g : Region → Region) : (s.updRegion i g).t0 = s.t0 := rfl
@[simp] theorem State.updRegion_dev (s : State) (i : Nat) (g : Region → Region) : (s.updRegion i g).dev = s.dev := rfl
@[simp] theorem State.updRegion_ctxs (s : State) (i : Nat) (g : Region → Region) : (s.updRegion i g).ctxs = s.ctxs := rfl
@[simp] theorem State.updRegion_flights (s : State) (i : Nat) (g : Region → Region) : (s.updRegion i g).flights = s.flights := rfl
@[simp] theorem State.updRegion_nextFlight (s : State) (i : Nat) (g : Region → Region) : (s.updRegion i g).nextFlight = s.nextFlight := rfl
@[simp] theorem State.updRegion_slice (s : State) (i : Nat) (g : Region → Region) : (s.updRegion i g).slice = s.slice := rfl
@[simp] theorem State.updRegion_lockUs (s : State) (i : Nat) (g : Region → Region) : (s.updRegion i g).lockUs = s.lockUs := rfl
@[simp] theorem State.updRegion_pools (s : State) (i : Nat) (g : Region → Region) : (s.updRegion i g).pools = s.pools := rfl
@[simp] theorem State.updRegion_fns (s : State) (i : Nat) (g : Region → Region) : (s.updRegion i g).fns = s.fns := rfl
@[simp] theorem State.updRegion_vms (s : State) (i : Nat) (g : Region → Region) : (s.updRegion i g).vms = s.vms := rfl
@[simp] theorem State.updRegion_ps (s : State) (i : Nat) (g : Region → Region) : (s.updRegion i g).ps = s.ps := rfl
@[simp] theorem State.updRegion_tier (s : State) (i : Nat) (g : Region → Region) : (s.updRegion i g).tier = s.tier := rfl
@[simp] theorem State.updRegion_margin (s : State) (i : Nat) (g : Region → Region) : (s.updRegion i g).margin = s.margin := rfl
@[simp] theorem State.updRegion_leadMax (s : State) (i : Nat) (g : Region → Region) : (s.updRegion i g).leadMax = s.leadMax := rfl
@[simp] theorem State.updRegion_gaths (s : State) (i : Nat) (g : Region → Region) : (s.updRegion i g).gaths = s.gaths := rfl
@[simp] theorem State.updRegion_spine (s : State) (i : Nat) (g : Region → Region) : (s.updRegion i g).spine = { s.spine with regions := s.spine.regions.upd i {} g } := rfl
@[simp] theorem State.updRegion_awl (s : State) (i : Nat) (g : Region → Region) : (s.updRegion i g).awl = s.awl := rfl
@[simp] theorem State.updRegion_press (s : State) (i : Nat) (g : Region → Region) : (s.updRegion i g).press = s.press := rfl
@[simp] theorem State.updRegion_fq (s : State) (i : Nat) (g : Region → Region) : (s.updRegion i g).fq = s.fq := rfl
@[simp] theorem State.updRegion_net (s : State) (i : Nat) (g : Region → Region) : (s.updRegion i g).net = s.net := rfl
@[simp] theorem State.updRegion_eg (s : State) (i : Nat) (g : Region → Region) : (s.updRegion i g).eg = s.eg := rfl
@[simp] theorem State.updRegion_ptp (s : State) (i : Nat) (g : Region → Region) : (s.updRegion i g).ptp = s.ptp := rfl
@[simp] theorem State.updRegion_sec (s : State) (i : Nat) (g : Region → Region) : (s.updRegion i g).sec = s.sec := rfl
@[simp] theorem State.updRegion_err (s : State) (i : Nat) (g : Region → Region) : (s.updRegion i g).err = s.err := rfl
@[simp] theorem State.updRegion_fw (s : State) (i : Nat) (g : Region → Region) : (s.updRegion i g).fw = s.fw := rfl
@[simp] theorem State.updRegion_pwr (s : State) (i : Nat) (g : Region → Region) : (s.updRegion i g).pwr = s.pwr := rfl
@[simp] theorem State.updRegion_out (s : State) (i : Nat) (g : Region → Region) : (s.updRegion i g).out = s.out := rfl

/-! ## State.updSp -/

@[simp] theorem State.updSp_pending (s : State) (n : Nat) (g : Sp → Sp) : (s.updSp n g).pending = s.pending := rfl
@[simp] theorem State.updSp_free (s : State) (n : Nat) (g : Sp → Sp) : (s.updSp n g).free = s.free := rfl
@[simp] theorem State.updSp_now (s : State) (n : Nat) (g : Sp → Sp) : (s.updSp n g).now = s.now := rfl
@[simp] theorem State.updSp_t0 (s : State) (n : Nat) (g : Sp → Sp) : (s.updSp n g).t0 = s.t0 := rfl
@[simp] theorem State.updSp_dev (s : State) (n : Nat) (g : Sp → Sp) : (s.updSp n g).dev = s.dev := rfl
@[simp] theorem State.updSp_ctxs (s : State) (n : Nat) (g : Sp → Sp) : (s.updSp n g).ctxs = s.ctxs := rfl
@[simp] theorem State.updSp_flights (s : State) (n : Nat) (g : Sp → Sp) : (s.updSp n g).flights = s.flights := rfl
@[simp] theorem State.updSp_nextFlight (s : State) (n : Nat) (g : Sp → Sp) : (s.updSp n g).nextFlight = s.nextFlight := rfl
@[simp] theorem State.updSp_slice (s : State) (n : Nat) (g : Sp → Sp) : (s.updSp n g).slice = s.slice := rfl
@[simp] theorem State.updSp_lockUs (s : State) (n : Nat) (g : Sp → Sp) : (s.updSp n g).lockUs = s.lockUs := rfl
@[simp] theorem State.updSp_pools (s : State) (n : Nat) (g : Sp → Sp) : (s.updSp n g).pools = s.pools := rfl
@[simp] theorem State.updSp_fns (s : State) (n : Nat) (g : Sp → Sp) : (s.updSp n g).fns = s.fns := rfl
@[simp] theorem State.updSp_vms (s : State) (n : Nat) (g : Sp → Sp) : (s.updSp n g).vms = s.vms := rfl
@[simp] theorem State.updSp_ps (s : State) (n : Nat) (g : Sp → Sp) : (s.updSp n g).ps = s.ps := rfl
@[simp] theorem State.updSp_tier (s : State) (n : Nat) (g : Sp → Sp) : (s.updSp n g).tier = s.tier := rfl
@[simp] theorem State.updSp_margin (s : State) (n : Nat) (g : Sp → Sp) : (s.updSp n g).margin = s.margin := rfl
@[simp] theorem State.updSp_leadMax (s : State) (n : Nat) (g : Sp → Sp) : (s.updSp n g).leadMax = s.leadMax := rfl
@[simp] theorem State.updSp_gaths (s : State) (n : Nat) (g : Sp → Sp) : (s.updSp n g).gaths = s.gaths := rfl
@[simp] theorem State.updSp_spine (s : State) (n : Nat) (g : Sp → Sp) : (s.updSp n g).spine = s.spine := rfl
@[simp] theorem State.updSp_awl (s : State) (n : Nat) (g : Sp → Sp) : (s.updSp n g).awl = s.awl := rfl
@[simp] theorem State.updSp_press (s : State) (n : Nat) (g : Sp → Sp) : (s.updSp n g).press = s.press := rfl
@[simp] theorem State.updSp_fq (s : State) (n : Nat) (g : Sp → Sp) : (s.updSp n g).fq = s.fq := rfl
@[simp] theorem State.updSp_net (s : State) (n : Nat) (g : Sp → Sp) : (s.updSp n g).net = s.net := rfl
@[simp] theorem State.updSp_eg (s : State) (n : Nat) (g : Sp → Sp) : (s.updSp n g).eg = s.eg := rfl
@[simp] theorem State.updSp_ptp (s : State) (n : Nat) (g : Sp → Sp) : (s.updSp n g).ptp = s.ptp := rfl
@[simp] theorem State.updSp_sec (s : State) (n : Nat) (g : Sp → Sp) : (s.updSp n g).sec = s.sec := rfl
@[simp] theorem State.updSp_err (s : State) (n : Nat) (g : Sp → Sp) : (s.updSp n g).err = s.err := rfl
@[simp] theorem State.updSp_fw (s : State) (n : Nat) (g : Sp → Sp) : (s.updSp n g).fw = { s.fw with sps := s.fw.sps.upd n {} g } := rfl
@[simp] theorem State.updSp_pwr (s : State) (n : Nat) (g : Sp → Sp) : (s.updSp n g).pwr = s.pwr := rfl
@[simp] theorem State.updSp_out (s : State) (n : Nat) (g : Sp → Sp) : (s.updSp n g).out = s.out := rfl

/-! ## State.updWrec -/

@[simp] theorem State.updWrec_pending (s : State) (i : Nat) (f : WRec → WRec) : (s.updWrec i f).pending = s.pending := rfl
@[simp] theorem State.updWrec_free (s : State) (i : Nat) (f : WRec → WRec) : (s.updWrec i f).free = s.free := rfl
@[simp] theorem State.updWrec_now (s : State) (i : Nat) (f : WRec → WRec) : (s.updWrec i f).now = s.now := rfl
@[simp] theorem State.updWrec_t0 (s : State) (i : Nat) (f : WRec → WRec) : (s.updWrec i f).t0 = s.t0 := rfl
@[simp] theorem State.updWrec_dev (s : State) (i : Nat) (f : WRec → WRec) : (s.updWrec i f).dev = s.dev := rfl
@[simp] theorem State.updWrec_ctxs (s : State) (i : Nat) (f : WRec → WRec) : (s.updWrec i f).ctxs = s.ctxs := rfl
@[simp] theorem State.updWrec_flights (s : State) (i : Nat) (f : WRec → WRec) : (s.updWrec i f).flights = s.flights := rfl
@[simp] theorem State.updWrec_nextFlight (s : State) (i : Nat) (f : WRec → WRec) : (s.updWrec i f).nextFlight = s.nextFlight := rfl
@[simp] theorem State.updWrec_slice (s : State) (i : Nat) (f : WRec → WRec) : (s.updWrec i f).slice = s.slice := rfl
@[simp] theorem State.updWrec_lockUs (s : State) (i : Nat) (f : WRec → WRec) : (s.updWrec i f).lockUs = s.lockUs := rfl
@[simp] theorem State.updWrec_pools (s : State) (i : Nat) (f : WRec → WRec) : (s.updWrec i f).pools = s.pools := rfl
@[simp] theorem State.updWrec_fns (s : State) (i : Nat) (f : WRec → WRec) : (s.updWrec i f).fns = s.fns := rfl
@[simp] theorem State.updWrec_vms (s : State) (i : Nat) (f : WRec → WRec) : (s.updWrec i f).vms = s.vms := rfl
@[simp] theorem State.updWrec_ps (s : State) (i : Nat) (f : WRec → WRec) : (s.updWrec i f).ps = s.ps := rfl
@[simp] theorem State.updWrec_tier (s : State) (i : Nat) (f : WRec → WRec) : (s.updWrec i f).tier = s.tier := rfl
@[simp] theorem State.updWrec_margin (s : State) (i : Nat) (f : WRec → WRec) : (s.updWrec i f).margin = s.margin := rfl
@[simp] theorem State.updWrec_leadMax (s : State) (i : Nat) (f : WRec → WRec) : (s.updWrec i f).leadMax = s.leadMax := rfl
@[simp] theorem State.updWrec_gaths (s : State) (i : Nat) (f : WRec → WRec) : (s.updWrec i f).gaths = s.gaths := rfl
@[simp] theorem State.updWrec_spine (s : State) (i : Nat) (f : WRec → WRec) : (s.updWrec i f).spine = s.spine := rfl
@[simp] theorem State.updWrec_awl (s : State) (i : Nat) (f : WRec → WRec) : (s.updWrec i f).awl = s.awl := rfl
@[simp] theorem State.updWrec_press (s : State) (i : Nat) (f : WRec → WRec) : (s.updWrec i f).press = s.press := rfl
@[simp] theorem State.updWrec_fq (s : State) (i : Nat) (f : WRec → WRec) : (s.updWrec i f).fq = { s.fq with wrecs := if i < 4096 then s.fq.wrecs.upd i {} f else s.fq.wrecs, past := if i < 4096 then s.fq.past else s.fq.past.upd (i - 4096) {} f } := rfl
@[simp] theorem State.updWrec_net (s : State) (i : Nat) (f : WRec → WRec) : (s.updWrec i f).net = s.net := rfl
@[simp] theorem State.updWrec_eg (s : State) (i : Nat) (f : WRec → WRec) : (s.updWrec i f).eg = s.eg := rfl
@[simp] theorem State.updWrec_ptp (s : State) (i : Nat) (f : WRec → WRec) : (s.updWrec i f).ptp = s.ptp := rfl
@[simp] theorem State.updWrec_sec (s : State) (i : Nat) (f : WRec → WRec) : (s.updWrec i f).sec = s.sec := rfl
@[simp] theorem State.updWrec_err (s : State) (i : Nat) (f : WRec → WRec) : (s.updWrec i f).err = s.err := rfl
@[simp] theorem State.updWrec_fw (s : State) (i : Nat) (f : WRec → WRec) : (s.updWrec i f).fw = s.fw := rfl
@[simp] theorem State.updWrec_pwr (s : State) (i : Nat) (f : WRec → WRec) : (s.updWrec i f).pwr = s.pwr := rfl
@[simp] theorem State.updWrec_out (s : State) (i : Nat) (f : WRec → WRec) : (s.updWrec i f).out = s.out := rfl

/-! ## State.updNetPort -/

@[simp] theorem State.updNetPort_pending (s : State) (p : Nat) (f : NetPort → NetPort) : (s.updNetPort p f).pending = s.pending := rfl
@[simp] theorem State.updNetPort_free (s : State) (p : Nat) (f : NetPort → NetPort) : (s.updNetPort p f).free = s.free := rfl
@[simp] theorem State.updNetPort_now (s : State) (p : Nat) (f : NetPort → NetPort) : (s.updNetPort p f).now = s.now := rfl
@[simp] theorem State.updNetPort_t0 (s : State) (p : Nat) (f : NetPort → NetPort) : (s.updNetPort p f).t0 = s.t0 := rfl
@[simp] theorem State.updNetPort_dev (s : State) (p : Nat) (f : NetPort → NetPort) : (s.updNetPort p f).dev = s.dev := rfl
@[simp] theorem State.updNetPort_ctxs (s : State) (p : Nat) (f : NetPort → NetPort) : (s.updNetPort p f).ctxs = s.ctxs := rfl
@[simp] theorem State.updNetPort_flights (s : State) (p : Nat) (f : NetPort → NetPort) : (s.updNetPort p f).flights = s.flights := rfl
@[simp] theorem State.updNetPort_nextFlight (s : State) (p : Nat) (f : NetPort → NetPort) : (s.updNetPort p f).nextFlight = s.nextFlight := rfl
@[simp] theorem State.updNetPort_slice (s : State) (p : Nat) (f : NetPort → NetPort) : (s.updNetPort p f).slice = s.slice := rfl
@[simp] theorem State.updNetPort_lockUs (s : State) (p : Nat) (f : NetPort → NetPort) : (s.updNetPort p f).lockUs = s.lockUs := rfl
@[simp] theorem State.updNetPort_pools (s : State) (p : Nat) (f : NetPort → NetPort) : (s.updNetPort p f).pools = s.pools := rfl
@[simp] theorem State.updNetPort_fns (s : State) (p : Nat) (f : NetPort → NetPort) : (s.updNetPort p f).fns = s.fns := rfl
@[simp] theorem State.updNetPort_vms (s : State) (p : Nat) (f : NetPort → NetPort) : (s.updNetPort p f).vms = s.vms := rfl
@[simp] theorem State.updNetPort_ps (s : State) (p : Nat) (f : NetPort → NetPort) : (s.updNetPort p f).ps = s.ps := rfl
@[simp] theorem State.updNetPort_tier (s : State) (p : Nat) (f : NetPort → NetPort) : (s.updNetPort p f).tier = s.tier := rfl
@[simp] theorem State.updNetPort_margin (s : State) (p : Nat) (f : NetPort → NetPort) : (s.updNetPort p f).margin = s.margin := rfl
@[simp] theorem State.updNetPort_leadMax (s : State) (p : Nat) (f : NetPort → NetPort) : (s.updNetPort p f).leadMax = s.leadMax := rfl
@[simp] theorem State.updNetPort_gaths (s : State) (p : Nat) (f : NetPort → NetPort) : (s.updNetPort p f).gaths = s.gaths := rfl
@[simp] theorem State.updNetPort_spine (s : State) (p : Nat) (f : NetPort → NetPort) : (s.updNetPort p f).spine = s.spine := rfl
@[simp] theorem State.updNetPort_awl (s : State) (p : Nat) (f : NetPort → NetPort) : (s.updNetPort p f).awl = s.awl := rfl
@[simp] theorem State.updNetPort_press (s : State) (p : Nat) (f : NetPort → NetPort) : (s.updNetPort p f).press = s.press := rfl
@[simp] theorem State.updNetPort_fq (s : State) (p : Nat) (f : NetPort → NetPort) : (s.updNetPort p f).fq = s.fq := rfl
@[simp] theorem State.updNetPort_net (s : State) (p : Nat) (f : NetPort → NetPort) : (s.updNetPort p f).net = { s.net with ports := s.net.ports.upd p {} f } := rfl
@[simp] theorem State.updNetPort_eg (s : State) (p : Nat) (f : NetPort → NetPort) : (s.updNetPort p f).eg = s.eg := rfl
@[simp] theorem State.updNetPort_ptp (s : State) (p : Nat) (f : NetPort → NetPort) : (s.updNetPort p f).ptp = s.ptp := rfl
@[simp] theorem State.updNetPort_sec (s : State) (p : Nat) (f : NetPort → NetPort) : (s.updNetPort p f).sec = s.sec := rfl
@[simp] theorem State.updNetPort_err (s : State) (p : Nat) (f : NetPort → NetPort) : (s.updNetPort p f).err = s.err := rfl
@[simp] theorem State.updNetPort_fw (s : State) (p : Nat) (f : NetPort → NetPort) : (s.updNetPort p f).fw = s.fw := rfl
@[simp] theorem State.updNetPort_pwr (s : State) (p : Nat) (f : NetPort → NetPort) : (s.updNetPort p f).pwr = s.pwr := rfl
@[simp] theorem State.updNetPort_out (s : State) (p : Nat) (f : NetPort → NetPort) : (s.updNetPort p f).out = s.out := rfl

/-! ## State.updGcl -/

@[simp] theorem State.updGcl_pending (s : State) (p : Nat) (f : Gcl → Gcl) : (s.updGcl p f).pending = s.pending := rfl
@[simp] theorem State.updGcl_free (s : State) (p : Nat) (f : Gcl → Gcl) : (s.updGcl p f).free = s.free := rfl
@[simp] theorem State.updGcl_now (s : State) (p : Nat) (f : Gcl → Gcl) : (s.updGcl p f).now = s.now := rfl
@[simp] theorem State.updGcl_t0 (s : State) (p : Nat) (f : Gcl → Gcl) : (s.updGcl p f).t0 = s.t0 := rfl
@[simp] theorem State.updGcl_dev (s : State) (p : Nat) (f : Gcl → Gcl) : (s.updGcl p f).dev = s.dev := rfl
@[simp] theorem State.updGcl_ctxs (s : State) (p : Nat) (f : Gcl → Gcl) : (s.updGcl p f).ctxs = s.ctxs := rfl
@[simp] theorem State.updGcl_flights (s : State) (p : Nat) (f : Gcl → Gcl) : (s.updGcl p f).flights = s.flights := rfl
@[simp] theorem State.updGcl_nextFlight (s : State) (p : Nat) (f : Gcl → Gcl) : (s.updGcl p f).nextFlight = s.nextFlight := rfl
@[simp] theorem State.updGcl_slice (s : State) (p : Nat) (f : Gcl → Gcl) : (s.updGcl p f).slice = s.slice := rfl
@[simp] theorem State.updGcl_lockUs (s : State) (p : Nat) (f : Gcl → Gcl) : (s.updGcl p f).lockUs = s.lockUs := rfl
@[simp] theorem State.updGcl_pools (s : State) (p : Nat) (f : Gcl → Gcl) : (s.updGcl p f).pools = s.pools := rfl
@[simp] theorem State.updGcl_fns (s : State) (p : Nat) (f : Gcl → Gcl) : (s.updGcl p f).fns = s.fns := rfl
@[simp] theorem State.updGcl_vms (s : State) (p : Nat) (f : Gcl → Gcl) : (s.updGcl p f).vms = s.vms := rfl
@[simp] theorem State.updGcl_ps (s : State) (p : Nat) (f : Gcl → Gcl) : (s.updGcl p f).ps = s.ps := rfl
@[simp] theorem State.updGcl_tier (s : State) (p : Nat) (f : Gcl → Gcl) : (s.updGcl p f).tier = s.tier := rfl
@[simp] theorem State.updGcl_margin (s : State) (p : Nat) (f : Gcl → Gcl) : (s.updGcl p f).margin = s.margin := rfl
@[simp] theorem State.updGcl_leadMax (s : State) (p : Nat) (f : Gcl → Gcl) : (s.updGcl p f).leadMax = s.leadMax := rfl
@[simp] theorem State.updGcl_gaths (s : State) (p : Nat) (f : Gcl → Gcl) : (s.updGcl p f).gaths = s.gaths := rfl
@[simp] theorem State.updGcl_spine (s : State) (p : Nat) (f : Gcl → Gcl) : (s.updGcl p f).spine = s.spine := rfl
@[simp] theorem State.updGcl_awl (s : State) (p : Nat) (f : Gcl → Gcl) : (s.updGcl p f).awl = s.awl := rfl
@[simp] theorem State.updGcl_press (s : State) (p : Nat) (f : Gcl → Gcl) : (s.updGcl p f).press = s.press := rfl
@[simp] theorem State.updGcl_fq (s : State) (p : Nat) (f : Gcl → Gcl) : (s.updGcl p f).fq = s.fq := rfl
@[simp] theorem State.updGcl_net (s : State) (p : Nat) (f : Gcl → Gcl) : (s.updGcl p f).net = s.net := rfl
@[simp] theorem State.updGcl_eg (s : State) (p : Nat) (f : Gcl → Gcl) : (s.updGcl p f).eg = { s.eg with gcl := s.eg.gcl.upd p {} f } := rfl
@[simp] theorem State.updGcl_ptp (s : State) (p : Nat) (f : Gcl → Gcl) : (s.updGcl p f).ptp = s.ptp := rfl
@[simp] theorem State.updGcl_sec (s : State) (p : Nat) (f : Gcl → Gcl) : (s.updGcl p f).sec = s.sec := rfl
@[simp] theorem State.updGcl_err (s : State) (p : Nat) (f : Gcl → Gcl) : (s.updGcl p f).err = s.err := rfl
@[simp] theorem State.updGcl_fw (s : State) (p : Nat) (f : Gcl → Gcl) : (s.updGcl p f).fw = s.fw := rfl
@[simp] theorem State.updGcl_pwr (s : State) (p : Nat) (f : Gcl → Gcl) : (s.updGcl p f).pwr = s.pwr := rfl
@[simp] theorem State.updGcl_out (s : State) (p : Nat) (f : Gcl → Gcl) : (s.updGcl p f).out = s.out := rfl

/-! ## State.updPtp -/

@[simp] theorem State.updPtp_pending (s : State) (f : Ptp → Ptp) : (s.updPtp f).pending = s.pending := rfl
@[simp] theorem State.updPtp_free (s : State) (f : Ptp → Ptp) : (s.updPtp f).free = s.free := rfl
@[simp] theorem State.updPtp_now (s : State) (f : Ptp → Ptp) : (s.updPtp f).now = s.now := rfl
@[simp] theorem State.updPtp_t0 (s : State) (f : Ptp → Ptp) : (s.updPtp f).t0 = s.t0 := rfl
@[simp] theorem State.updPtp_dev (s : State) (f : Ptp → Ptp) : (s.updPtp f).dev = s.dev := rfl
@[simp] theorem State.updPtp_ctxs (s : State) (f : Ptp → Ptp) : (s.updPtp f).ctxs = s.ctxs := rfl
@[simp] theorem State.updPtp_flights (s : State) (f : Ptp → Ptp) : (s.updPtp f).flights = s.flights := rfl
@[simp] theorem State.updPtp_nextFlight (s : State) (f : Ptp → Ptp) : (s.updPtp f).nextFlight = s.nextFlight := rfl
@[simp] theorem State.updPtp_slice (s : State) (f : Ptp → Ptp) : (s.updPtp f).slice = s.slice := rfl
@[simp] theorem State.updPtp_lockUs (s : State) (f : Ptp → Ptp) : (s.updPtp f).lockUs = s.lockUs := rfl
@[simp] theorem State.updPtp_pools (s : State) (f : Ptp → Ptp) : (s.updPtp f).pools = s.pools := rfl
@[simp] theorem State.updPtp_fns (s : State) (f : Ptp → Ptp) : (s.updPtp f).fns = s.fns := rfl
@[simp] theorem State.updPtp_vms (s : State) (f : Ptp → Ptp) : (s.updPtp f).vms = s.vms := rfl
@[simp] theorem State.updPtp_ps (s : State) (f : Ptp → Ptp) : (s.updPtp f).ps = s.ps := rfl
@[simp] theorem State.updPtp_tier (s : State) (f : Ptp → Ptp) : (s.updPtp f).tier = s.tier := rfl
@[simp] theorem State.updPtp_margin (s : State) (f : Ptp → Ptp) : (s.updPtp f).margin = s.margin := rfl
@[simp] theorem State.updPtp_leadMax (s : State) (f : Ptp → Ptp) : (s.updPtp f).leadMax = s.leadMax := rfl
@[simp] theorem State.updPtp_gaths (s : State) (f : Ptp → Ptp) : (s.updPtp f).gaths = s.gaths := rfl
@[simp] theorem State.updPtp_spine (s : State) (f : Ptp → Ptp) : (s.updPtp f).spine = s.spine := rfl
@[simp] theorem State.updPtp_awl (s : State) (f : Ptp → Ptp) : (s.updPtp f).awl = s.awl := rfl
@[simp] theorem State.updPtp_press (s : State) (f : Ptp → Ptp) : (s.updPtp f).press = s.press := rfl
@[simp] theorem State.updPtp_fq (s : State) (f : Ptp → Ptp) : (s.updPtp f).fq = s.fq := rfl
@[simp] theorem State.updPtp_net (s : State) (f : Ptp → Ptp) : (s.updPtp f).net = s.net := rfl
@[simp] theorem State.updPtp_eg (s : State) (f : Ptp → Ptp) : (s.updPtp f).eg = s.eg := rfl
@[simp] theorem State.updPtp_ptp (s : State) (f : Ptp → Ptp) : (s.updPtp f).ptp = f s.ptp := rfl
@[simp] theorem State.updPtp_sec (s : State) (f : Ptp → Ptp) : (s.updPtp f).sec = s.sec := rfl
@[simp] theorem State.updPtp_err (s : State) (f : Ptp → Ptp) : (s.updPtp f).err = s.err := rfl
@[simp] theorem State.updPtp_fw (s : State) (f : Ptp → Ptp) : (s.updPtp f).fw = s.fw := rfl
@[simp] theorem State.updPtp_pwr (s : State) (f : Ptp → Ptp) : (s.updPtp f).pwr = s.pwr := rfl
@[simp] theorem State.updPtp_out (s : State) (f : Ptp → Ptp) : (s.updPtp f).out = s.out := rfl

/-! ## State.updConn -/

@[simp] theorem State.updConn_pending (s : State) (t : Nat) (f : SpdmConn → SpdmConn) : (s.updConn t f).pending = s.pending := rfl
@[simp] theorem State.updConn_free (s : State) (t : Nat) (f : SpdmConn → SpdmConn) : (s.updConn t f).free = s.free := rfl
@[simp] theorem State.updConn_now (s : State) (t : Nat) (f : SpdmConn → SpdmConn) : (s.updConn t f).now = s.now := rfl
@[simp] theorem State.updConn_t0 (s : State) (t : Nat) (f : SpdmConn → SpdmConn) : (s.updConn t f).t0 = s.t0 := rfl
@[simp] theorem State.updConn_dev (s : State) (t : Nat) (f : SpdmConn → SpdmConn) : (s.updConn t f).dev = s.dev := rfl
@[simp] theorem State.updConn_ctxs (s : State) (t : Nat) (f : SpdmConn → SpdmConn) : (s.updConn t f).ctxs = s.ctxs := rfl
@[simp] theorem State.updConn_flights (s : State) (t : Nat) (f : SpdmConn → SpdmConn) : (s.updConn t f).flights = s.flights := rfl
@[simp] theorem State.updConn_nextFlight (s : State) (t : Nat) (f : SpdmConn → SpdmConn) : (s.updConn t f).nextFlight = s.nextFlight := rfl
@[simp] theorem State.updConn_slice (s : State) (t : Nat) (f : SpdmConn → SpdmConn) : (s.updConn t f).slice = s.slice := rfl
@[simp] theorem State.updConn_lockUs (s : State) (t : Nat) (f : SpdmConn → SpdmConn) : (s.updConn t f).lockUs = s.lockUs := rfl
@[simp] theorem State.updConn_pools (s : State) (t : Nat) (f : SpdmConn → SpdmConn) : (s.updConn t f).pools = s.pools := rfl
@[simp] theorem State.updConn_fns (s : State) (t : Nat) (f : SpdmConn → SpdmConn) : (s.updConn t f).fns = s.fns := rfl
@[simp] theorem State.updConn_vms (s : State) (t : Nat) (f : SpdmConn → SpdmConn) : (s.updConn t f).vms = s.vms := rfl
@[simp] theorem State.updConn_ps (s : State) (t : Nat) (f : SpdmConn → SpdmConn) : (s.updConn t f).ps = s.ps := rfl
@[simp] theorem State.updConn_tier (s : State) (t : Nat) (f : SpdmConn → SpdmConn) : (s.updConn t f).tier = s.tier := rfl
@[simp] theorem State.updConn_margin (s : State) (t : Nat) (f : SpdmConn → SpdmConn) : (s.updConn t f).margin = s.margin := rfl
@[simp] theorem State.updConn_leadMax (s : State) (t : Nat) (f : SpdmConn → SpdmConn) : (s.updConn t f).leadMax = s.leadMax := rfl
@[simp] theorem State.updConn_gaths (s : State) (t : Nat) (f : SpdmConn → SpdmConn) : (s.updConn t f).gaths = s.gaths := rfl
@[simp] theorem State.updConn_spine (s : State) (t : Nat) (f : SpdmConn → SpdmConn) : (s.updConn t f).spine = s.spine := rfl
@[simp] theorem State.updConn_awl (s : State) (t : Nat) (f : SpdmConn → SpdmConn) : (s.updConn t f).awl = s.awl := rfl
@[simp] theorem State.updConn_press (s : State) (t : Nat) (f : SpdmConn → SpdmConn) : (s.updConn t f).press = s.press := rfl
@[simp] theorem State.updConn_fq (s : State) (t : Nat) (f : SpdmConn → SpdmConn) : (s.updConn t f).fq = s.fq := rfl
@[simp] theorem State.updConn_net (s : State) (t : Nat) (f : SpdmConn → SpdmConn) : (s.updConn t f).net = s.net := rfl
@[simp] theorem State.updConn_eg (s : State) (t : Nat) (f : SpdmConn → SpdmConn) : (s.updConn t f).eg = s.eg := rfl
@[simp] theorem State.updConn_ptp (s : State) (t : Nat) (f : SpdmConn → SpdmConn) : (s.updConn t f).ptp = s.ptp := rfl
@[simp] theorem State.updConn_sec (s : State) (t : Nat) (f : SpdmConn → SpdmConn) : (s.updConn t f).sec = { s.sec with conns := s.sec.conns.upd t {} f } := rfl
@[simp] theorem State.updConn_err (s : State) (t : Nat) (f : SpdmConn → SpdmConn) : (s.updConn t f).err = s.err := rfl
@[simp] theorem State.updConn_fw (s : State) (t : Nat) (f : SpdmConn → SpdmConn) : (s.updConn t f).fw = s.fw := rfl
@[simp] theorem State.updConn_pwr (s : State) (t : Nat) (f : SpdmConn → SpdmConn) : (s.updConn t f).pwr = s.pwr := rfl
@[simp] theorem State.updConn_out (s : State) (t : Nat) (f : SpdmConn → SpdmConn) : (s.updConn t f).out = s.out := rfl

/-! ## State.updSession -/

@[simp] theorem State.updSession_pending (s : State) (i : Nat) (f : Session → Session) : (s.updSession i f).pending = s.pending := rfl
@[simp] theorem State.updSession_free (s : State) (i : Nat) (f : Session → Session) : (s.updSession i f).free = s.free := rfl
@[simp] theorem State.updSession_now (s : State) (i : Nat) (f : Session → Session) : (s.updSession i f).now = s.now := rfl
@[simp] theorem State.updSession_t0 (s : State) (i : Nat) (f : Session → Session) : (s.updSession i f).t0 = s.t0 := rfl
@[simp] theorem State.updSession_dev (s : State) (i : Nat) (f : Session → Session) : (s.updSession i f).dev = s.dev := rfl
@[simp] theorem State.updSession_ctxs (s : State) (i : Nat) (f : Session → Session) : (s.updSession i f).ctxs = s.ctxs := rfl
@[simp] theorem State.updSession_flights (s : State) (i : Nat) (f : Session → Session) : (s.updSession i f).flights = s.flights := rfl
@[simp] theorem State.updSession_nextFlight (s : State) (i : Nat) (f : Session → Session) : (s.updSession i f).nextFlight = s.nextFlight := rfl
@[simp] theorem State.updSession_slice (s : State) (i : Nat) (f : Session → Session) : (s.updSession i f).slice = s.slice := rfl
@[simp] theorem State.updSession_lockUs (s : State) (i : Nat) (f : Session → Session) : (s.updSession i f).lockUs = s.lockUs := rfl
@[simp] theorem State.updSession_pools (s : State) (i : Nat) (f : Session → Session) : (s.updSession i f).pools = s.pools := rfl
@[simp] theorem State.updSession_fns (s : State) (i : Nat) (f : Session → Session) : (s.updSession i f).fns = s.fns := rfl
@[simp] theorem State.updSession_vms (s : State) (i : Nat) (f : Session → Session) : (s.updSession i f).vms = s.vms := rfl
@[simp] theorem State.updSession_ps (s : State) (i : Nat) (f : Session → Session) : (s.updSession i f).ps = s.ps := rfl
@[simp] theorem State.updSession_tier (s : State) (i : Nat) (f : Session → Session) : (s.updSession i f).tier = s.tier := rfl
@[simp] theorem State.updSession_margin (s : State) (i : Nat) (f : Session → Session) : (s.updSession i f).margin = s.margin := rfl
@[simp] theorem State.updSession_leadMax (s : State) (i : Nat) (f : Session → Session) : (s.updSession i f).leadMax = s.leadMax := rfl
@[simp] theorem State.updSession_gaths (s : State) (i : Nat) (f : Session → Session) : (s.updSession i f).gaths = s.gaths := rfl
@[simp] theorem State.updSession_spine (s : State) (i : Nat) (f : Session → Session) : (s.updSession i f).spine = s.spine := rfl
@[simp] theorem State.updSession_awl (s : State) (i : Nat) (f : Session → Session) : (s.updSession i f).awl = s.awl := rfl
@[simp] theorem State.updSession_press (s : State) (i : Nat) (f : Session → Session) : (s.updSession i f).press = s.press := rfl
@[simp] theorem State.updSession_fq (s : State) (i : Nat) (f : Session → Session) : (s.updSession i f).fq = s.fq := rfl
@[simp] theorem State.updSession_net (s : State) (i : Nat) (f : Session → Session) : (s.updSession i f).net = s.net := rfl
@[simp] theorem State.updSession_eg (s : State) (i : Nat) (f : Session → Session) : (s.updSession i f).eg = s.eg := rfl
@[simp] theorem State.updSession_ptp (s : State) (i : Nat) (f : Session → Session) : (s.updSession i f).ptp = s.ptp := rfl
@[simp] theorem State.updSession_sec (s : State) (i : Nat) (f : Session → Session) : (s.updSession i f).sec = { s.sec with sessions := s.sec.sessions.upd i {} f } := rfl
@[simp] theorem State.updSession_err (s : State) (i : Nat) (f : Session → Session) : (s.updSession i f).err = s.err := rfl
@[simp] theorem State.updSession_fw (s : State) (i : Nat) (f : Session → Session) : (s.updSession i f).fw = s.fw := rfl
@[simp] theorem State.updSession_pwr (s : State) (i : Nat) (f : Session → Session) : (s.updSession i f).pwr = s.pwr := rfl
@[simp] theorem State.updSession_out (s : State) (i : Nat) (f : Session → Session) : (s.updSession i f).out = s.out := rfl

/-! ## State.updSlot -/

@[simp] theorem State.updSlot_pending (s : State) (i : Nat) (f : KSlot → KSlot) : (s.updSlot i f).pending = s.pending := rfl
@[simp] theorem State.updSlot_free (s : State) (i : Nat) (f : KSlot → KSlot) : (s.updSlot i f).free = s.free := rfl
@[simp] theorem State.updSlot_now (s : State) (i : Nat) (f : KSlot → KSlot) : (s.updSlot i f).now = s.now := rfl
@[simp] theorem State.updSlot_t0 (s : State) (i : Nat) (f : KSlot → KSlot) : (s.updSlot i f).t0 = s.t0 := rfl
@[simp] theorem State.updSlot_dev (s : State) (i : Nat) (f : KSlot → KSlot) : (s.updSlot i f).dev = s.dev := rfl
@[simp] theorem State.updSlot_ctxs (s : State) (i : Nat) (f : KSlot → KSlot) : (s.updSlot i f).ctxs = s.ctxs := rfl
@[simp] theorem State.updSlot_flights (s : State) (i : Nat) (f : KSlot → KSlot) : (s.updSlot i f).flights = s.flights := rfl
@[simp] theorem State.updSlot_nextFlight (s : State) (i : Nat) (f : KSlot → KSlot) : (s.updSlot i f).nextFlight = s.nextFlight := rfl
@[simp] theorem State.updSlot_slice (s : State) (i : Nat) (f : KSlot → KSlot) : (s.updSlot i f).slice = s.slice := rfl
@[simp] theorem State.updSlot_lockUs (s : State) (i : Nat) (f : KSlot → KSlot) : (s.updSlot i f).lockUs = s.lockUs := rfl
@[simp] theorem State.updSlot_pools (s : State) (i : Nat) (f : KSlot → KSlot) : (s.updSlot i f).pools = s.pools := rfl
@[simp] theorem State.updSlot_fns (s : State) (i : Nat) (f : KSlot → KSlot) : (s.updSlot i f).fns = s.fns := rfl
@[simp] theorem State.updSlot_vms (s : State) (i : Nat) (f : KSlot → KSlot) : (s.updSlot i f).vms = s.vms := rfl
@[simp] theorem State.updSlot_ps (s : State) (i : Nat) (f : KSlot → KSlot) : (s.updSlot i f).ps = s.ps := rfl
@[simp] theorem State.updSlot_tier (s : State) (i : Nat) (f : KSlot → KSlot) : (s.updSlot i f).tier = s.tier := rfl
@[simp] theorem State.updSlot_margin (s : State) (i : Nat) (f : KSlot → KSlot) : (s.updSlot i f).margin = s.margin := rfl
@[simp] theorem State.updSlot_leadMax (s : State) (i : Nat) (f : KSlot → KSlot) : (s.updSlot i f).leadMax = s.leadMax := rfl
@[simp] theorem State.updSlot_gaths (s : State) (i : Nat) (f : KSlot → KSlot) : (s.updSlot i f).gaths = s.gaths := rfl
@[simp] theorem State.updSlot_spine (s : State) (i : Nat) (f : KSlot → KSlot) : (s.updSlot i f).spine = s.spine := rfl
@[simp] theorem State.updSlot_awl (s : State) (i : Nat) (f : KSlot → KSlot) : (s.updSlot i f).awl = s.awl := rfl
@[simp] theorem State.updSlot_press (s : State) (i : Nat) (f : KSlot → KSlot) : (s.updSlot i f).press = s.press := rfl
@[simp] theorem State.updSlot_fq (s : State) (i : Nat) (f : KSlot → KSlot) : (s.updSlot i f).fq = s.fq := rfl
@[simp] theorem State.updSlot_net (s : State) (i : Nat) (f : KSlot → KSlot) : (s.updSlot i f).net = s.net := rfl
@[simp] theorem State.updSlot_eg (s : State) (i : Nat) (f : KSlot → KSlot) : (s.updSlot i f).eg = s.eg := rfl
@[simp] theorem State.updSlot_ptp (s : State) (i : Nat) (f : KSlot → KSlot) : (s.updSlot i f).ptp = s.ptp := rfl
@[simp] theorem State.updSlot_sec (s : State) (i : Nat) (f : KSlot → KSlot) : (s.updSlot i f).sec = { s.sec with slots := s.sec.slots.upd i {} f } := rfl
@[simp] theorem State.updSlot_err (s : State) (i : Nat) (f : KSlot → KSlot) : (s.updSlot i f).err = s.err := rfl
@[simp] theorem State.updSlot_fw (s : State) (i : Nat) (f : KSlot → KSlot) : (s.updSlot i f).fw = s.fw := rfl
@[simp] theorem State.updSlot_pwr (s : State) (i : Nat) (f : KSlot → KSlot) : (s.updSlot i f).pwr = s.pwr := rfl
@[simp] theorem State.updSlot_out (s : State) (i : Nat) (f : KSlot → KSlot) : (s.updSlot i f).out = s.out := rfl

/-! ## State.updCoCtx -/

@[simp] theorem State.updCoCtx_pending (s : State) (c : Nat) (f : CoCtx → CoCtx) : (s.updCoCtx c f).pending = s.pending := rfl
@[simp] theorem State.updCoCtx_free (s : State) (c : Nat) (f : CoCtx → CoCtx) : (s.updCoCtx c f).free = s.free := rfl
@[simp] theorem State.updCoCtx_now (s : State) (c : Nat) (f : CoCtx → CoCtx) : (s.updCoCtx c f).now = s.now := rfl
@[simp] theorem State.updCoCtx_t0 (s : State) (c : Nat) (f : CoCtx → CoCtx) : (s.updCoCtx c f).t0 = s.t0 := rfl
@[simp] theorem State.updCoCtx_dev (s : State) (c : Nat) (f : CoCtx → CoCtx) : (s.updCoCtx c f).dev = s.dev := rfl
@[simp] theorem State.updCoCtx_ctxs (s : State) (c : Nat) (f : CoCtx → CoCtx) : (s.updCoCtx c f).ctxs = s.ctxs := rfl
@[simp] theorem State.updCoCtx_flights (s : State) (c : Nat) (f : CoCtx → CoCtx) : (s.updCoCtx c f).flights = s.flights := rfl
@[simp] theorem State.updCoCtx_nextFlight (s : State) (c : Nat) (f : CoCtx → CoCtx) : (s.updCoCtx c f).nextFlight = s.nextFlight := rfl
@[simp] theorem State.updCoCtx_slice (s : State) (c : Nat) (f : CoCtx → CoCtx) : (s.updCoCtx c f).slice = s.slice := rfl
@[simp] theorem State.updCoCtx_lockUs (s : State) (c : Nat) (f : CoCtx → CoCtx) : (s.updCoCtx c f).lockUs = s.lockUs := rfl
@[simp] theorem State.updCoCtx_pools (s : State) (c : Nat) (f : CoCtx → CoCtx) : (s.updCoCtx c f).pools = s.pools := rfl
@[simp] theorem State.updCoCtx_fns (s : State) (c : Nat) (f : CoCtx → CoCtx) : (s.updCoCtx c f).fns = s.fns := rfl
@[simp] theorem State.updCoCtx_vms (s : State) (c : Nat) (f : CoCtx → CoCtx) : (s.updCoCtx c f).vms = s.vms := rfl
@[simp] theorem State.updCoCtx_ps (s : State) (c : Nat) (f : CoCtx → CoCtx) : (s.updCoCtx c f).ps = s.ps := rfl
@[simp] theorem State.updCoCtx_tier (s : State) (c : Nat) (f : CoCtx → CoCtx) : (s.updCoCtx c f).tier = s.tier := rfl
@[simp] theorem State.updCoCtx_margin (s : State) (c : Nat) (f : CoCtx → CoCtx) : (s.updCoCtx c f).margin = s.margin := rfl
@[simp] theorem State.updCoCtx_leadMax (s : State) (c : Nat) (f : CoCtx → CoCtx) : (s.updCoCtx c f).leadMax = s.leadMax := rfl
@[simp] theorem State.updCoCtx_gaths (s : State) (c : Nat) (f : CoCtx → CoCtx) : (s.updCoCtx c f).gaths = s.gaths := rfl
@[simp] theorem State.updCoCtx_spine (s : State) (c : Nat) (f : CoCtx → CoCtx) : (s.updCoCtx c f).spine = s.spine := rfl
@[simp] theorem State.updCoCtx_awl (s : State) (c : Nat) (f : CoCtx → CoCtx) : (s.updCoCtx c f).awl = s.awl := rfl
@[simp] theorem State.updCoCtx_press (s : State) (c : Nat) (f : CoCtx → CoCtx) : (s.updCoCtx c f).press = s.press := rfl
@[simp] theorem State.updCoCtx_fq (s : State) (c : Nat) (f : CoCtx → CoCtx) : (s.updCoCtx c f).fq = s.fq := rfl
@[simp] theorem State.updCoCtx_net (s : State) (c : Nat) (f : CoCtx → CoCtx) : (s.updCoCtx c f).net = s.net := rfl
@[simp] theorem State.updCoCtx_eg (s : State) (c : Nat) (f : CoCtx → CoCtx) : (s.updCoCtx c f).eg = s.eg := rfl
@[simp] theorem State.updCoCtx_ptp (s : State) (c : Nat) (f : CoCtx → CoCtx) : (s.updCoCtx c f).ptp = s.ptp := rfl
@[simp] theorem State.updCoCtx_sec (s : State) (c : Nat) (f : CoCtx → CoCtx) : (s.updCoCtx c f).sec = { s.sec with ctxs := s.sec.ctxs.upd c {} f } := rfl
@[simp] theorem State.updCoCtx_err (s : State) (c : Nat) (f : CoCtx → CoCtx) : (s.updCoCtx c f).err = s.err := rfl
@[simp] theorem State.updCoCtx_fw (s : State) (c : Nat) (f : CoCtx → CoCtx) : (s.updCoCtx c f).fw = s.fw := rfl
@[simp] theorem State.updCoCtx_pwr (s : State) (c : Nat) (f : CoCtx → CoCtx) : (s.updCoCtx c f).pwr = s.pwr := rfl
@[simp] theorem State.updCoCtx_out (s : State) (c : Nat) (f : CoCtx → CoCtx) : (s.updCoCtx c f).out = s.out := rfl

/-! ## State.updImage -/

@[simp] theorem State.updImage_pending (s : State) (i : Nat) (f : Image → Image) : (s.updImage i f).pending = s.pending := rfl
@[simp] theorem State.updImage_free (s : State) (i : Nat) (f : Image → Image) : (s.updImage i f).free = s.free := rfl
@[simp] theorem State.updImage_now (s : State) (i : Nat) (f : Image → Image) : (s.updImage i f).now = s.now := rfl
@[simp] theorem State.updImage_t0 (s : State) (i : Nat) (f : Image → Image) : (s.updImage i f).t0 = s.t0 := rfl
@[simp] theorem State.updImage_dev (s : State) (i : Nat) (f : Image → Image) : (s.updImage i f).dev = s.dev := rfl
@[simp] theorem State.updImage_ctxs (s : State) (i : Nat) (f : Image → Image) : (s.updImage i f).ctxs = s.ctxs := rfl
@[simp] theorem State.updImage_flights (s : State) (i : Nat) (f : Image → Image) : (s.updImage i f).flights = s.flights := rfl
@[simp] theorem State.updImage_nextFlight (s : State) (i : Nat) (f : Image → Image) : (s.updImage i f).nextFlight = s.nextFlight := rfl
@[simp] theorem State.updImage_slice (s : State) (i : Nat) (f : Image → Image) : (s.updImage i f).slice = s.slice := rfl
@[simp] theorem State.updImage_lockUs (s : State) (i : Nat) (f : Image → Image) : (s.updImage i f).lockUs = s.lockUs := rfl
@[simp] theorem State.updImage_pools (s : State) (i : Nat) (f : Image → Image) : (s.updImage i f).pools = s.pools := rfl
@[simp] theorem State.updImage_fns (s : State) (i : Nat) (f : Image → Image) : (s.updImage i f).fns = s.fns := rfl
@[simp] theorem State.updImage_vms (s : State) (i : Nat) (f : Image → Image) : (s.updImage i f).vms = s.vms := rfl
@[simp] theorem State.updImage_ps (s : State) (i : Nat) (f : Image → Image) : (s.updImage i f).ps = s.ps := rfl
@[simp] theorem State.updImage_tier (s : State) (i : Nat) (f : Image → Image) : (s.updImage i f).tier = s.tier := rfl
@[simp] theorem State.updImage_margin (s : State) (i : Nat) (f : Image → Image) : (s.updImage i f).margin = s.margin := rfl
@[simp] theorem State.updImage_leadMax (s : State) (i : Nat) (f : Image → Image) : (s.updImage i f).leadMax = s.leadMax := rfl
@[simp] theorem State.updImage_gaths (s : State) (i : Nat) (f : Image → Image) : (s.updImage i f).gaths = s.gaths := rfl
@[simp] theorem State.updImage_spine (s : State) (i : Nat) (f : Image → Image) : (s.updImage i f).spine = s.spine := rfl
@[simp] theorem State.updImage_awl (s : State) (i : Nat) (f : Image → Image) : (s.updImage i f).awl = s.awl := rfl
@[simp] theorem State.updImage_press (s : State) (i : Nat) (f : Image → Image) : (s.updImage i f).press = s.press := rfl
@[simp] theorem State.updImage_fq (s : State) (i : Nat) (f : Image → Image) : (s.updImage i f).fq = s.fq := rfl
@[simp] theorem State.updImage_net (s : State) (i : Nat) (f : Image → Image) : (s.updImage i f).net = s.net := rfl
@[simp] theorem State.updImage_eg (s : State) (i : Nat) (f : Image → Image) : (s.updImage i f).eg = s.eg := rfl
@[simp] theorem State.updImage_ptp (s : State) (i : Nat) (f : Image → Image) : (s.updImage i f).ptp = s.ptp := rfl
@[simp] theorem State.updImage_sec (s : State) (i : Nat) (f : Image → Image) : (s.updImage i f).sec = s.sec := rfl
@[simp] theorem State.updImage_err (s : State) (i : Nat) (f : Image → Image) : (s.updImage i f).err = s.err := rfl
@[simp] theorem State.updImage_fw (s : State) (i : Nat) (f : Image → Image) : (s.updImage i f).fw = { s.fw with images := s.fw.images.upd i {} f } := rfl
@[simp] theorem State.updImage_pwr (s : State) (i : Nat) (f : Image → Image) : (s.updImage i f).pwr = s.pwr := rfl
@[simp] theorem State.updImage_out (s : State) (i : Nat) (f : Image → Image) : (s.updImage i f).out = s.out := rfl

/-! ## State.emitOut -/

@[simp] theorem State.emitOut_pending (s : State) (o : Out) : (s.emitOut o).pending = s.pending := rfl
@[simp] theorem State.emitOut_free (s : State) (o : Out) : (s.emitOut o).free = s.free := rfl
@[simp] theorem State.emitOut_now (s : State) (o : Out) : (s.emitOut o).now = s.now := rfl
@[simp] theorem State.emitOut_t0 (s : State) (o : Out) : (s.emitOut o).t0 = s.t0 := rfl
@[simp] theorem State.emitOut_dev (s : State) (o : Out) : (s.emitOut o).dev = s.dev := rfl
@[simp] theorem State.emitOut_ctxs (s : State) (o : Out) : (s.emitOut o).ctxs = s.ctxs := rfl
@[simp] theorem State.emitOut_flights (s : State) (o : Out) : (s.emitOut o).flights = s.flights := rfl
@[simp] theorem State.emitOut_nextFlight (s : State) (o : Out) : (s.emitOut o).nextFlight = s.nextFlight := rfl
@[simp] theorem State.emitOut_slice (s : State) (o : Out) : (s.emitOut o).slice = s.slice := rfl
@[simp] theorem State.emitOut_lockUs (s : State) (o : Out) : (s.emitOut o).lockUs = s.lockUs := rfl
@[simp] theorem State.emitOut_pools (s : State) (o : Out) : (s.emitOut o).pools = s.pools := rfl
@[simp] theorem State.emitOut_fns (s : State) (o : Out) : (s.emitOut o).fns = s.fns := rfl
@[simp] theorem State.emitOut_vms (s : State) (o : Out) : (s.emitOut o).vms = s.vms := rfl
@[simp] theorem State.emitOut_ps (s : State) (o : Out) : (s.emitOut o).ps = s.ps := rfl
@[simp] theorem State.emitOut_tier (s : State) (o : Out) : (s.emitOut o).tier = s.tier := rfl
@[simp] theorem State.emitOut_margin (s : State) (o : Out) : (s.emitOut o).margin = s.margin := rfl
@[simp] theorem State.emitOut_leadMax (s : State) (o : Out) : (s.emitOut o).leadMax = s.leadMax := rfl
@[simp] theorem State.emitOut_gaths (s : State) (o : Out) : (s.emitOut o).gaths = s.gaths := rfl
@[simp] theorem State.emitOut_spine (s : State) (o : Out) : (s.emitOut o).spine = s.spine := rfl
@[simp] theorem State.emitOut_awl (s : State) (o : Out) : (s.emitOut o).awl = s.awl := rfl
@[simp] theorem State.emitOut_press (s : State) (o : Out) : (s.emitOut o).press = s.press := rfl
@[simp] theorem State.emitOut_fq (s : State) (o : Out) : (s.emitOut o).fq = s.fq := rfl
@[simp] theorem State.emitOut_net (s : State) (o : Out) : (s.emitOut o).net = s.net := rfl
@[simp] theorem State.emitOut_eg (s : State) (o : Out) : (s.emitOut o).eg = s.eg := rfl
@[simp] theorem State.emitOut_ptp (s : State) (o : Out) : (s.emitOut o).ptp = s.ptp := rfl
@[simp] theorem State.emitOut_sec (s : State) (o : Out) : (s.emitOut o).sec = s.sec := rfl
@[simp] theorem State.emitOut_err (s : State) (o : Out) : (s.emitOut o).err = s.err := rfl
@[simp] theorem State.emitOut_fw (s : State) (o : Out) : (s.emitOut o).fw = s.fw := rfl
@[simp] theorem State.emitOut_pwr (s : State) (o : Out) : (s.emitOut o).pwr = s.pwr := rfl
@[simp] theorem State.emitOut_out (s : State) (o : Out) : (s.emitOut o).out = o :: s.out := rfl

/-! ## State.framed -/

@[simp] theorem State.framed_pending (t s : State) : (t.framed s).pending = s.pending := rfl
@[simp] theorem State.framed_free (t s : State) : (t.framed s).free = t.free := rfl
@[simp] theorem State.framed_now (t s : State) : (t.framed s).now = t.now := rfl
@[simp] theorem State.framed_t0 (t s : State) : (t.framed s).t0 = t.t0 := rfl
@[simp] theorem State.framed_dev (t s : State) : (t.framed s).dev = { t.dev with held := s.dev.held, brownOut := s.dev.brownOut } := rfl
@[simp] theorem State.framed_ctxs (t s : State) : (t.framed s).ctxs = t.ctxs := rfl
@[simp] theorem State.framed_flights (t s : State) : (t.framed s).flights = t.flights := rfl
@[simp] theorem State.framed_nextFlight (t s : State) : (t.framed s).nextFlight = t.nextFlight := rfl
@[simp] theorem State.framed_slice (t s : State) : (t.framed s).slice = t.slice := rfl
@[simp] theorem State.framed_lockUs (t s : State) : (t.framed s).lockUs = t.lockUs := rfl
@[simp] theorem State.framed_pools (t s : State) : (t.framed s).pools = t.pools := rfl
@[simp] theorem State.framed_fns (t s : State) : (t.framed s).fns = t.fns := rfl
@[simp] theorem State.framed_vms (t s : State) : (t.framed s).vms = t.vms := rfl
@[simp] theorem State.framed_ps (t s : State) : (t.framed s).ps = t.ps := rfl
@[simp] theorem State.framed_tier (t s : State) : (t.framed s).tier = t.tier := rfl
@[simp] theorem State.framed_margin (t s : State) : (t.framed s).margin = t.margin := rfl
@[simp] theorem State.framed_leadMax (t s : State) : (t.framed s).leadMax = t.leadMax := rfl
@[simp] theorem State.framed_gaths (t s : State) : (t.framed s).gaths = t.gaths := rfl
@[simp] theorem State.framed_spine (t s : State) : (t.framed s).spine = t.spine := rfl
@[simp] theorem State.framed_awl (t s : State) : (t.framed s).awl = t.awl := rfl
@[simp] theorem State.framed_press (t s : State) : (t.framed s).press = t.press := rfl
@[simp] theorem State.framed_fq (t s : State) : (t.framed s).fq = t.fq := rfl
@[simp] theorem State.framed_net (t s : State) : (t.framed s).net = t.net := rfl
@[simp] theorem State.framed_eg (t s : State) : (t.framed s).eg = t.eg := rfl
@[simp] theorem State.framed_ptp (t s : State) : (t.framed s).ptp = t.ptp := rfl
@[simp] theorem State.framed_sec (t s : State) : (t.framed s).sec = t.sec := rfl
@[simp] theorem State.framed_err (t s : State) : (t.framed s).err = t.err := rfl
@[simp] theorem State.framed_fw (t s : State) : (t.framed s).fw = t.fw := rfl
@[simp] theorem State.framed_pwr (t s : State) : (t.framed s).pwr = t.pwr := rfl
@[simp] theorem State.framed_out (t s : State) : (t.framed s).out = t.out := rfl

end Sys2Proof.Machine
end

