-- ==== Sys2Proof/Laws/Frames.lean ====
section
/-! SUPPORT. What the shared operations can change: one lemma for each, which says every part of the state it may touch. -/
namespace Sys2Proof.Machine
open Sys2Proof

/-! ## The calculus -/

theorem OnlyChanges.refl (l : List Part) (s : State) : OnlyChanges l s s := by
  intro p _; cases p <;> rfl

theorem OnlyChanges.trans {l : List Part} {s t u : State} (h : OnlyChanges l s t) (k : OnlyChanges l t u) : OnlyChanges l s u := by
  intro p hp
  have a := h p hp
  have b := k p hp
  cases p <;> exact b.trans a

theorem OnlyChanges.mono {l m : List Part} {s t : State} (h : OnlyChanges l s t) (k : l ⊆ m := by decide) : OnlyChanges m s t :=
  fun p hp => h p fun hl => hp (k hl)

/-- A chain of two, each within its own parts. -/
theorem OnlyChanges.seq {l m : List Part} {s t u : State} (k : OnlyChanges m t u) (h : OnlyChanges l s t) (hm : m ⊆ l := by decide) :
    OnlyChanges l s u := h.trans (k.mono hm)

theorem OnlyChanges.foldl {α : Type} {l : List Part} (f : State → α → State) (h : ∀ s a, OnlyChanges l s (f s a)) (xs : List α) (s : State) :
    OnlyChanges l s (xs.foldl f s) := by
  induction xs generalizing s with
  | nil => exact .refl l s
  | cons a r ih => exact (h s a).trans (ih _)

theorem OnlyChanges.ite {l : List Part} {s t u : State} {c : Prop} [Decidable c] (h : c → OnlyChanges l s t) (k : ¬c → OnlyChanges l s u) :
    OnlyChanges l s (if c then t else u) := by
  split
  · exact h ‹_›
  · exact k ‹_›

/-- What agrees on T0 reads the same bytes. -/
theorem OnlyChanges.sameT0 {l : List Part} {s t : State} (h : OnlyChanges l s t) (k : Part.t0 ∉ l := by decide) : SameT0 s t :=
  fun a => by rw [show t.t0 = s.t0 from h .t0 k]

/-! ## Updates of one part -/

theorem OnlyChanges.updCtx (s : State) (c : Nat) (f : Ctx → Ctx) : OnlyChanges [.ctxs] s (s.updCtx c f) := by
  intro p hp; cases p <;> first | rfl | exact absurd hp (by decide)
theorem OnlyChanges.setFlight (s : State) (f : Nat) (x : Flight) : OnlyChanges [.flights] s (s.setFlight f x) := by
  intro p hp; cases p <;> first | rfl | exact absurd hp (by decide)
theorem OnlyChanges.updFlight (s : State) (f : Nat) (g : Flight → Flight) : OnlyChanges [.flights] s (s.updFlight f g) := by
  intro p hp; cases p <;> first | rfl | exact absurd hp (by decide)
theorem OnlyChanges.dropFlight (s : State) (f : Nat) : OnlyChanges [.flights] s (s.dropFlight f) := by
  intro p hp; cases p <;> first | rfl | exact absurd hp (by decide)
theorem OnlyChanges.updFn (s : State) (f : Nat) (g : Fn → Fn) : OnlyChanges [.fns] s (s.updFn f g) := by
  intro p hp; cases p <;> first | rfl | exact absurd hp (by decide)
theorem OnlyChanges.emitOut (s : State) (o : Out) : OnlyChanges [.out] s (s.emitOut o) := by
  intro p hp; cases p <;> first | rfl | exact absurd hp (by decide)
theorem OnlyChanges.updPage (s : State) (i : Nat) (g : Page → Page) : OnlyChanges [.ps] s (s.updPage i g) := by
  intro p hp; cases p <;> first | rfl | exact absurd hp (by decide)
theorem OnlyChanges.updExt (s : State) (e : Nat) (g : Ext → Ext) : OnlyChanges [.net] s (s.updExt e g) := by
  intro p hp; cases p <;> first | rfl | exact absurd hp (by decide)
theorem OnlyChanges.updSet (s : State) (k : Nat) (g : CmdSet → CmdSet) : OnlyChanges [.net] s (s.updSet k g) := by
  intro p hp; cases p <;> first | rfl | exact absurd hp (by decide)
theorem OnlyChanges.updQp (s : State) (k : Nat) (g : Qp → Qp) : OnlyChanges [.net] s (s.updQp k g) := by
  intro p hp; cases p <;> first | rfl | exact absurd hp (by decide)
theorem OnlyChanges.updAux (s : State) (i : Nat) (g : Aux → Aux) : OnlyChanges [.ps] s (s.updAux i g) := by
  intro p hp; cases p <;> first | rfl | exact absurd hp (by decide)
theorem OnlyChanges.updSum (s : State) (a : Nat) (g : SumRec → SumRec) : OnlyChanges [.ps] s (s.updSum a g) := by
  intro p hp; cases p <;> first | rfl | exact absurd hp (by decide)
theorem OnlyChanges.updSeq (s : State) (q : Nat) (g : Seq → Seq) : OnlyChanges [.ps] s (s.updSeq q g) := by
  intro p hp; cases p <;> first | rfl | exact absurd hp (by decide)
theorem OnlyChanges.updGath (s : State) (i : Nat) (g : Gath → Gath) : OnlyChanges [.gaths] s (s.updGath i g) := by
  intro p hp; cases p <;> first | rfl | exact absurd hp (by decide)
theorem OnlyChanges.updPort (s : State) (i : Nat) (g : Port → Port) : OnlyChanges [.tier] s (s.updPort i g) := by
  intro p hp; cases p <;> first | rfl | exact absurd hp (by decide)
theorem OnlyChanges.updMove (s : State) (i : Nat) (g : Move → Move) : OnlyChanges [.tier] s (s.updMove i g) := by
  intro p hp; cases p <;> first | rfl | exact absurd hp (by decide)
theorem OnlyChanges.updReg (s : State) (i : Nat) (g : Reg → Reg) : OnlyChanges [.net] s (s.updReg i g) := by
  intro p hp; cases p <;> first | rfl | exact absurd hp (by decide)
theorem OnlyChanges.updSub (s : State) (i : Nat) (g : Sub → Sub) : OnlyChanges [.net] s (s.updSub i g) := by
  intro p hp; cases p <;> first | rfl | exact absurd hp (by decide)
theorem OnlyChanges.updNetPort (s : State) (i : Nat) (g : NetPort → NetPort) : OnlyChanges [.net] s (s.updNetPort i g) := by
  intro p hp; cases p <;> first | rfl | exact absurd hp (by decide)
theorem OnlyChanges.updRow (s : State) (i : Nat) (g : Row → Row) : OnlyChanges [.spine] s (s.updRow i g) := by
  intro p hp; cases p <;> first | rfl | exact absurd hp (by decide)
theorem OnlyChanges.updBank (s : State) (i : Nat) (g : Bank → Bank) : OnlyChanges [.spine] s (s.updBank i g) := by
  intro p hp; cases p <;> first | rfl | exact absurd hp (by decide)
theorem OnlyChanges.updRegion (s : State) (i : Nat) (g : Region → Region) : OnlyChanges [.spine] s (s.updRegion i g) := by
  intro p hp; cases p <;> first | rfl | exact absurd hp (by decide)
theorem OnlyChanges.updWrec (s : State) (i : Nat) (g : WRec → WRec) : OnlyChanges [.fq] s (s.updWrec i g) := by
  intro p hp; cases p <;> first | rfl | exact absurd hp (by decide)
theorem OnlyChanges.updGcl (s : State) (i : Nat) (g : Gcl → Gcl) : OnlyChanges [.eg] s (s.updGcl i g) := by
  intro p hp; cases p <;> first | rfl | exact absurd hp (by decide)
theorem OnlyChanges.updPtp (s : State) (g : Ptp → Ptp) : OnlyChanges [.ptp] s (s.updPtp g) := by
  intro p hp; cases p <;> first | rfl | exact absurd hp (by decide)
theorem OnlyChanges.updConn (s : State) (i : Nat) (g : SpdmConn → SpdmConn) : OnlyChanges [.sec] s (s.updConn i g) := by
  intro p hp; cases p <;> first | rfl | exact absurd hp (by decide)
theorem OnlyChanges.updSession (s : State) (i : Nat) (g : Session → Session) : OnlyChanges [.sec] s (s.updSession i g) := by
  intro p hp; cases p <;> first | rfl | exact absurd hp (by decide)
theorem OnlyChanges.updSlot (s : State) (i : Nat) (g : KSlot → KSlot) : OnlyChanges [.sec] s (s.updSlot i g) := by
  intro p hp; cases p <;> first | rfl | exact absurd hp (by decide)
theorem OnlyChanges.updCoCtx (s : State) (i : Nat) (g : CoCtx → CoCtx) : OnlyChanges [.sec] s (s.updCoCtx i g) := by
  intro p hp; cases p <;> first | rfl | exact absurd hp (by decide)
theorem OnlyChanges.updImage (s : State) (i : Nat) (g : Image → Image) : OnlyChanges [.fw] s (s.updImage i g) := by
  intro p hp; cases p <;> first | rfl | exact absurd hp (by decide)
theorem OnlyChanges.updSp (s : State) (i : Nat) (g : Sp → Sp) : OnlyChanges [.fw] s (s.updSp i g) := by
  intro p hp; cases p <;> first | rfl | exact absurd hp (by decide)
theorem OnlyChanges.takeCredits (s : State) (i n : Nat) : OnlyChanges [.pools] s (s.takeCredits i n) := by
  intro p hp; cases p <;> first | rfl | exact absurd hp (by decide)
theorem OnlyChanges.freeCredits (s : State) (i n : Nat) : OnlyChanges [.pools] s (s.freeCredits i n) := by
  intro p hp; cases p <;> first | rfl | exact absurd hp (by decide)
theorem OnlyChanges.dropWalker (s : State) (i : Nat) : OnlyChanges [.ps] s (s.dropWalker i) := by
  intro p hp; cases p <;> first | rfl | exact absurd hp (by decide)
theorem OnlyChanges.retire (s : State) (r : Retire) : OnlyChanges [.ps] s (s.retire r) := by
  intro p hp; cases p <;> first | rfl | exact absurd hp (by decide)
theorem OnlyChanges.dropQuires (s : State) (f : Nat) : OnlyChanges [.fq, .pwr] s (s.dropQuires f) := by
  intro p hp; cases p <;> first | rfl | exact absurd hp (by decide)
theorem OnlyChanges.draw (s : State) : OnlyChanges [.free] s s.draw.2 := by
  intro p hp; cases p <;> first | rfl | exact absurd hp (by decide)

/-! ## Logs, counters, records, interrupts -/

theorem OnlyChanges.logEntry (s : State) (kind point : Nat) (data : List Nat) (r : Option ErrRec) :
    OnlyChanges [.fw] s (s.logEntry kind point data r) := by
  intro p hp; cases p <;> first | rfl | exact absurd hp (by decide)

theorem OnlyChanges.traceEvent (s : State) (kind point : Nat) (data : List Nat) : OnlyChanges [.fw] s (s.traceEvent kind point data) := by
  unfold State.traceEvent
  refine .ite (fun _ => .logEntry s _ _ _ _) fun _ => .ite (fun _ => ?_) fun _ => ?_ <;>
    (intro p hp; cases p <;> first | rfl | exact absurd hp (by decide))

theorem OnlyChanges.trace (s : State) (q : Nat) (data : List Nat) : OnlyChanges [.fw] s (s.trace q data) :=
  .ite (fun _ => .traceEvent s 2 q data) fun _ => .refl _ s

theorem OnlyChanges.fwEvent (s : State) (q : Nat) (data : List Nat) : OnlyChanges [.fw] s (s.fwEvent q data) := .traceEvent s 3 q data

theorem OnlyChanges.sendMsix (s : State) (f i : Nat) : OnlyChanges [.fns, .out] s (s.sendMsix f i).1 := by
  unfold State.sendMsix
  dsimp only
  split_ifs
  · exact .refl _ s
  · exact (OnlyChanges.updFn s f _).mono
  · exact (OnlyChanges.emitOut s _).mono

theorem OnlyChanges.addCount (s : State) (fn : Option Nat) (i n : Nat) : OnlyChanges [.fns, .err] s (s.addCount fn i n).1 := by
  cases fn with
  | none => intro p hp; cases p <;> first | rfl | exact absurd hp (by decide)
  | some f => exact (OnlyChanges.updFn s f _).mono

/-- The parts that counting, recording and signalling touch. -/
abbrev evParts : List Part := [.fns, .vms, .err, .fw, .out]

theorem OnlyChanges.setErr (s : State) (e : Err) : OnlyChanges [.err] s { s with err := e } := by
  intro p hp; cases p <;> first | rfl | exact absurd hp (by decide)
theorem OnlyChanges.setFw (s : State) (w : Fw) : OnlyChanges [.fw] s { s with fw := w } := by
  intro p hp; cases p <;> first | rfl | exact absurd hp (by decide)

theorem OnlyChanges.copyRecord (s : State) (r : ErrRec) : OnlyChanges [.fw] s (s.copyRecord r) :=
  .ite (fun _ => (OnlyChanges.setFw _ _).seq (OnlyChanges.logEntry s 1 0 [] (some r))) fun _ => .refl _ s

theorem OnlyChanges.aerUnc (s : State) (f b : Nat) : OnlyChanges [.err, .out] s (s.aerUnc f b) :=
  (OnlyChanges.emitOut _ _).seq (OnlyChanges.setErr s _).mono
theorem OnlyChanges.aerCor (s : State) (f b : Nat) : OnlyChanges [.err, .out] s (s.aerCor f b) :=
  (OnlyChanges.emitOut _ _).seq (OnlyChanges.setErr s _).mono
theorem OnlyChanges.aerMark (s : State) (r : ErrRec) : OnlyChanges [.err, .out] s (s.aerMark r) :=
  .ite (fun _ => .aerUnc s _ _) fun _ => .ite (fun _ => .aerCor s _ _) fun _ => .refl _ s
theorem OnlyChanges.upAer (s : State) (f r : Nat) : OnlyChanges [.err, .out] s (s.upAer f r) :=
  .ite (fun _ => .aerUnc s _ _) fun _ => .ite (fun _ => .aerUnc s _ _) fun _ => .refl _ s

theorem OnlyChanges.putRecord (s : State) (r : ErrRec) : OnlyChanges evParts s (s.putRecord r).1 := by
  unfold State.putRecord
  dsimp only
  generalize (if r.cls = 3 then 1024 else 1008) = limit
  split
  · exact (OnlyChanges.setErr s _).mono
  · exact (OnlyChanges.aerMark _ r).seq ((OnlyChanges.copyRecord _ _).seq (OnlyChanges.setErr s _).mono)

/-- Counting, recording and signalling touch the functions, the moderation registers, the error ring, the log and what leaves the device. -/
theorem OnlyChanges.emitEv (k : Nat) (e : Ev) (s : State) : OnlyChanges evParts s (emitEv k e s) := by
  induction k generalizing e s with
  | zero => cases e <;> exact .refl _ s
  | succ k ih =>
    cases e with
    | count fn i n =>
      have h := (OnlyChanges.addCount s fn i n).mono (m := evParts)
      unfold Machine.emitEv
      dsimp only
      split_ifs
      · exact h.trans (ih _ _)
      · exact (h.trans (ih _ _)).trans (ih _ _)
      · exact h
    | record r =>
      have h := OnlyChanges.putRecord s r
      unfold Machine.emitEv
      dsimp only
      split
      · split
        · split_ifs
          · exact (h.trans (ih _ _)).trans (ih _ _)
          · exact h.trans (ih _ _)
        · exact h
      · exact h.trans (ih _ _)
    | irq f i share urgent =>
      unfold Machine.emitEv
      dsimp only
      have hv (v : Tbl Vm) : OnlyChanges evParts s { s with vms := v } := by
        intro p hp; cases p <;> first | rfl | exact absurd hp (by decide)
      split_ifs
      · exact ih _ _
      · exact ((hv _).trans (OnlyChanges.sendMsix _ f i).mono).trans (ih _ _)
      · exact (hv _).trans (OnlyChanges.sendMsix _ f i).mono
      · exact hv _

theorem OnlyChanges.countFn (s : State) (f i n : Nat) : OnlyChanges evParts s (s.countFn f i n) := .ite (fun _ => .refl _ s) fun _ => .emitEv _ _ s
theorem OnlyChanges.countWaits (s : State) (f e : Nat) (c : Cause × Nat) : OnlyChanges (.free :: evParts) s (s.countWaits f e c) :=
  .ite (fun _ => (OnlyChanges.countFn s f _ _).mono) fun _ => (OnlyChanges.countFn _ f _ _).seq (OnlyChanges.draw s).mono
theorem OnlyChanges.countDev (s : State) (i n : Nat) : OnlyChanges evParts s (s.countDev i n) := .ite (fun _ => .refl _ s) fun _ => .emitEv _ _ s
theorem OnlyChanges.report (s : State) (r : ErrRec) : OnlyChanges evParts s (s.report r) := .emitEv _ _ s
theorem OnlyChanges.irq (s : State) (f i share : Nat) (urgent : Bool) : OnlyChanges evParts s (s.irq f i share urgent) := .emitEv _ _ s
theorem OnlyChanges.badGranule (s : State) (source addr : Nat) (fn ctx : Option Nat) (st tag : BitVec 16) :
    OnlyChanges evParts s (s.badGranule source addr fn ctx st tag) := (OnlyChanges.countDev s 9 1).trans (.report _ _)

/-! ## Contexts -/

theorem OnlyChanges.ctxTo (s : State) (c : Nat) (st : CtxState) : OnlyChanges [.ctxs, .fw] s (s.ctxTo c st) :=
  .ite (fun _ => .refl _ s) fun _ => (OnlyChanges.trace _ 0 _).seq (OnlyChanges.updCtx s c _).mono

theorem OnlyChanges.settle (s : State) (c : Nat) : OnlyChanges [.ctxs, .fw] s (s.settle c) :=
  .ite (fun _ => .ctxTo s c .idle) fun _ => .refl _ s

theorem OnlyChanges.noteWant (s : State) (c : Nat) : OnlyChanges [.ctxs] s (s.noteWant c) := by
  unfold State.noteWant
  dsimp only
  exact .ite (fun _ => .updCtx s c _) fun _ => .ite (fun _ => .updCtx s c _) fun _ => .refl _ s

theorem OnlyChanges.noteWants (s : State) : OnlyChanges [.ctxs] s s.noteWants :=
  OnlyChanges.foldl (α := Nat × Ctx) (fun (t : State) p => t.noteWant p.1) (fun t p => OnlyChanges.noteWant t p.1) s.ctxs s

theorem OnlyChanges.upWrite (s : State) (c addr : Nat) (b : Bytes) : OnlyChanges evParts s (s.upWrite c addr b) :=
  .ite (fun _ => .countFn s _ 9 1) fun _ => (OnlyChanges.emitOut s _).mono

/-! ## T0 -/

theorem OnlyChanges.t0Write1 (s : State) (a : Nat) (b : Byte) : OnlyChanges [.t0] s (s.t0Write1 a b) :=
  .ite (fun _ => .refl _ s) fun _ => by intro p hp; cases p <;> first | rfl | exact absurd hp (by decide)

theorem OnlyChanges.t0Write (s : State) (a : Nat) (bs : Bytes) : OnlyChanges [.t0] s (s.t0Write a bs) := by
  induction bs generalizing s a with
  | nil => exact .refl _ s
  | cons b r ih => exact (OnlyChanges.t0Write1 s a b).trans (ih _ _)

/-- A write of T0 leaves every byte outside it. -/
theorem t0Write_out (s : State) (a : Nat) (bs : Bytes) : SameT0But a bs.length s (s.t0Write a bs) := by
  induction bs generalizing s a with
  | nil => intro c _; rfl
  | cons b r ih =>
    intro c hc
    simp only [List.length_cons] at hc
    have h := ih (s.t0Write1 a b) (a + 1) c (by omega)
    refine h.trans ?_
    unfold State.t0Write1
    split
    · rfl
    · exact memRead_write1_ne s.t0 b (by omega)

/-- A write of T0 keeps its canonical form. -/
theorem t0Write_canonical (s : State) (a : Nat) (bs : Bytes) (h : s.t0Canonical) : (s.t0Write a bs).t0Canonical := by
  induction bs generalizing s a with
  | nil => exact h
  | cons b r ih =>
    refine ih (s.t0Write1 a b) (a + 1) ?_
    unfold State.t0Write1
    split
    · exact h
    · exact Memory.wf_write1 s.t0 a b h

/-! ## The ending of an instruction -/

theorem OnlyChanges.dropHolds (s : State) (f : Nat) : OnlyChanges [.pools, .ps, .fq, .pwr, .flights] s (s.dropHolds f) := by
  unfold State.dropHolds
  dsimp only
  have h := OnlyChanges.foldl (l := [.pools, .ps, .fq, .pwr, .flights]) (fun (s : State) i => s.freeCredits i 1)
    (fun s i => (OnlyChanges.freeCredits s i 1).mono) (s.flight f).holds s
  refine (OnlyChanges.updFlight _ f _).seq ((OnlyChanges.dropQuires _ f).seq ?_)
  split
  · exact (OnlyChanges.dropWalker _ _).seq h
  · exact h

theorem OnlyChanges.countEnd (s : State) (fn : Nat) (st : BitVec 16) : OnlyChanges evParts s (s.countEnd fn st) := by
  unfold State.countEnd
  dsimp only
  have step (c : Prop) [Decidable c] (i : Nat) (t : State) : OnlyChanges evParts t (if c then t.countFn fn i 1 else t) :=
    .ite (fun _ => .countFn t fn i 1) fun _ => .refl _ t
  exact ((((OnlyChanges.countFn s fn 20 1).trans (step _ 21 _)).trans (step _ 22 _)).trans (step _ 23 _)).trans (step _ 24 _)

/-- The parts that the ending of an instruction touches on its context's side. -/
abbrev endParts : List Part := [.ctxs, .flights, .fw]

theorem OnlyChanges.endCtx (s : State) (f : Nat) (st : BitVec 16) (res : BitVec 64) : OnlyChanges endParts s (s.endCtx f st res) := by
  unfold State.endCtx
  dsimp only
  set x := s.flight f
  have h1 : OnlyChanges endParts s (if stClass st ≤ 1 ∧ wSelD x.word < 16 then s.updCtx x.ctx fun c => c.setReg (wSelD x.word) res else s) :=
    .ite (fun _ => (OnlyChanges.updCtx s _ _).mono) fun _ => .refl _ s
  have h2 := (OnlyChanges.updCtx _ x.ctx fun c => c.updRing x.ring fun r => { r with latch := latchAfter r.latch st }).seq h1
  refine .ite (fun _ => ?_) fun _ => h2
  split
  · exact (OnlyChanges.updFlight _ f _).seq ((OnlyChanges.ctxTo _ _ _).seq ((OnlyChanges.updCtx _ _ _).seq h2))
  · exact (OnlyChanges.updFlight _ f _).seq ((OnlyChanges.updCtx _ _ _).seq h2)
  · exact h2

theorem OnlyChanges.retireTaken (s : State) (ps : List Nat) : OnlyChanges [.ps] s (s.retireTaken ps) := by
  unfold State.retireTaken
  exact .ite (fun _ => .refl _ s) fun _ => (OnlyChanges.retire _ _).seq (.foldl _ (fun s i => (OnlyChanges.updPage s i _).mono) _ _)

theorem OnlyChanges.putEnd (s : State) (p : Putting) (ok : Bool) : OnlyChanges [.net, .ps] s (s.putEnd p ok) := by
  unfold State.putEnd
  dsimp only
  have h := (OnlyChanges.updExt s p.ext fun e => { e with begun := e.begun - 1 }).mono (m := [.net, .ps])
  exact .ite (fun _ => h) fun _ => (OnlyChanges.retireTaken _ _).seq h

theorem OnlyChanges.dropJob (s : State) (j : Job) (ok : Bool) : OnlyChanges [.net, .ps] s (s.dropJob j ok) := by
  unfold State.dropJob
  split
  · exact OnlyChanges.putEnd s _ _
  · exact (OnlyChanges.retireTaken s _).mono
  · exact .refl _ s

/-- The parts that the ending of an instruction touches. -/
abbrev finishParts : List Part := [.ctxs, .flights, .pools, .ps, .fq, .pwr, .net, .free, .fns, .vms, .err, .fw, .out]

/-- The ending of an instruction leaves T0, the tiers, the gatherings, the Spine and every other part outside `finishParts`. -/
theorem OnlyChanges.finish (s : State) (f : Nat) (st : BitVec 16) (res : BitVec 64) (cw : Option (BitVec 64)) :
    OnlyChanges finishParts s (s.finish f st res cw) := by
  unfold State.finish
  dsimp only
  set x := s.flight f
  have h1 : OnlyChanges finishParts s (s.dropJob x.job (decide (stClass st ≤ 1))) := (OnlyChanges.dropJob s _ _).mono
  have h2 := (OnlyChanges.dropHolds _ f).seq h1
  have h3 := (OnlyChanges.updFlight _ f fun x => { x with
    phase := .ended, status := st, result := resultOf st res, catchword := catchwordOf x.word st cw, job := .none, waitsFor := [] }).seq h2
  refine .ite (fun _ => ?_) fun _ => (OnlyChanges.endCtx _ f st res).seq ?_ <;>
  · refine OnlyChanges.trans ?_ (.foldl _ (fun s c => (OnlyChanges.countWaits s _ _ _).mono) _ _)
    exact .ite (fun _ => h3) fun _ => (OnlyChanges.countEnd _ _ st).seq h3

theorem OnlyChanges.fail (s : State) (f : Nat) (st : BitVec 16) : OnlyChanges finishParts s (s.fail f st) := .finish s f st 0 none

end Sys2Proof.Machine
end

