-- ==== Sys2Proof/Laws/Records.lean ====
section
/-! SUPPORT. A record read after a change of it or of another; the typed records of T0 change unless their channel has failed (04 R117). -/
namespace Sys2Proof.Machine
open Sys2Proof

/-- With every pseudo-channel working no granule is lost. -/
@[simp] theorem State.granuleLost_none (s : State) (a : Nat) (h : s.dev.pchDown = []) : s.granuleLost a = false := by
  simp [State.granuleLost, h]

theorem State.updPage_page (s : State) (p : Nat) (g : Page → Page) (h : s.granuleLost (s.descAddr p) = false) : (s.updPage p g).page p = g (s.page p) := by
  simp [State.page, h]
theorem State.updPage_page_ne (s : State) {p q : Nat} (g : Page → Page) (h : q ≠ p) : (s.updPage p g).page q = s.page q := by
  simp only [State.page, State.updPage_ps]
  split
  · rfl
  · exact Tbl.get_upd_ne _ _ _ h
/-- On a failed channel the write is discarded. -/
theorem State.updPage_lost (s : State) (p : Nat) (g : Page → Page) (h : s.granuleLost (s.descAddr p) = true) : s.updPage p g = s := by
  simp [State.updPage, h]
theorem State.updAux_auxRec (s : State) (p : Nat) (g : Aux → Aux) (h : s.granuleLost (s.auxAddr p) = false) : (s.updAux p g).auxRec p = g (s.auxRec p) := by
  simp [State.auxRec, h]
theorem State.updAux_auxRec_ne (s : State) {p q : Nat} (g : Aux → Aux) (h : q ≠ p) : (s.updAux p g).auxRec q = s.auxRec q := by
  simp only [State.auxRec, State.updAux_ps]
  split
  · rfl
  · exact Tbl.get_upd_ne _ _ _ h
/-- On a failed channel the write is discarded. -/
theorem State.updAux_lost (s : State) (p : Nat) (g : Aux → Aux) (h : s.granuleLost (s.auxAddr p) = true) : s.updAux p g = s := by
  simp [State.updAux, h]
theorem State.updSum_sum (s : State) (p : Nat) (g : SumRec → SumRec) (h : s.granuleLost (256 * p) = false) : (s.updSum p g).sum p = g (s.sum p) := by
  simp [State.sum, h]
theorem State.updSum_sum_ne (s : State) {p q : Nat} (g : SumRec → SumRec) (h : q ≠ p) : (s.updSum p g).sum q = s.sum q := by
  simp only [State.sum, State.updSum_ps]
  split
  · rfl
  · exact Tbl.get_upd_ne _ _ _ h
/-- On a failed channel the write is discarded. -/
theorem State.updSum_lost (s : State) (p : Nat) (g : SumRec → SumRec) (h : s.granuleLost (256 * p) = true) : s.updSum p g = s := by
  simp [State.updSum, h]
theorem State.updSeq_seq (s : State) (p : Nat) (g : Seq → Seq) (h : s.granuleLost (s.headAddr p) = false) : (s.updSeq p g).seq p = g (s.seq p) := by
  simp [State.seq, h]
theorem State.updSeq_seq_ne (s : State) {p q : Nat} (g : Seq → Seq) (h : q ≠ p) : (s.updSeq p g).seq q = s.seq q := by
  simp only [State.seq, State.updSeq_ps]
  split
  · rfl
  · exact Tbl.get_upd_ne _ _ _ h
/-- On a failed channel the write is discarded. -/
theorem State.updSeq_lost (s : State) (p : Nat) (g : Seq → Seq) (h : s.granuleLost (s.headAddr p) = true) : s.updSeq p g = s := by
  simp [State.updSeq, h]

@[simp] theorem State.updFn_fn (s : State) (i : Nat) (g : Fn → Fn) : (s.updFn i g).fn i = g (s.fn i) := by simp [State.fn]
theorem State.updFn_fn_ne (s : State) {i j : Nat} (g : Fn → Fn) (h : j ≠ i) : (s.updFn i g).fn j = s.fn j := Tbl.get_upd_ne _ _ _ h
@[simp] theorem State.updGath_gath (s : State) (i : Nat) (g : Gath → Gath) : (s.updGath i g).gath i = g (s.gath i) := by simp [State.gath]
theorem State.updGath_gath_ne (s : State) {i j : Nat} (g : Gath → Gath) (h : j ≠ i) : (s.updGath i g).gath j = s.gath j := Tbl.get_upd_ne _ _ _ h
@[simp] theorem State.updPort_port (s : State) (i : Nat) (g : Port → Port) : (s.updPort i g).port i = g (s.port i) := by simp [State.port]
theorem State.updPort_port_ne (s : State) {i j : Nat} (g : Port → Port) (h : j ≠ i) : (s.updPort i g).port j = s.port j := Tbl.get_upd_ne _ _ _ h
@[simp] theorem State.updQp_qp (s : State) (i : Nat) (g : Qp → Qp) : (s.updQp i g).qp i = g (s.qp i) := by simp [State.qp]
theorem State.updQp_qp_ne (s : State) {i j : Nat} (g : Qp → Qp) (h : j ≠ i) : (s.updQp i g).qp j = s.qp j := Tbl.get_upd_ne _ _ _ h
@[simp] theorem State.updReg_reg (s : State) (i : Nat) (g : Reg → Reg) : (s.updReg i g).reg i = g (s.reg i) := by simp [State.reg]
theorem State.updReg_reg_ne (s : State) {i j : Nat} (g : Reg → Reg) (h : j ≠ i) : (s.updReg i g).reg j = s.reg j := Tbl.get_upd_ne _ _ _ h
@[simp] theorem State.updExt_extent (s : State) (i : Nat) (g : Ext → Ext) : (s.updExt i g).extent i = g (s.extent i) := by simp [State.extent]
theorem State.updExt_extent_ne (s : State) {i j : Nat} (g : Ext → Ext) (h : j ≠ i) : (s.updExt i g).extent j = s.extent j := Tbl.get_upd_ne _ _ _ h
@[simp] theorem State.updSub_sub (s : State) (i : Nat) (g : Sub → Sub) : (s.updSub i g).sub i = g (s.sub i) := by simp [State.sub]
theorem State.updSub_sub_ne (s : State) {i j : Nat} (g : Sub → Sub) (h : j ≠ i) : (s.updSub i g).sub j = s.sub j := Tbl.get_upd_ne _ _ _ h
@[simp] theorem State.updSet_cmdSet (s : State) (i : Nat) (g : CmdSet → CmdSet) : (s.updSet i g).cmdSet i = g (s.cmdSet i) := by simp [State.cmdSet]
theorem State.updSet_cmdSet_ne (s : State) {i j : Nat} (g : CmdSet → CmdSet) (h : j ≠ i) : (s.updSet i g).cmdSet j = s.cmdSet j := Tbl.get_upd_ne _ _ _ h
@[simp] theorem State.updRow_row (s : State) (i : Nat) (g : Row → Row) : (s.updRow i g).row i = g (s.row i) := by simp [State.row]
theorem State.updRow_row_ne (s : State) {i j : Nat} (g : Row → Row) (h : j ≠ i) : (s.updRow i g).row j = s.row j := Tbl.get_upd_ne _ _ _ h
@[simp] theorem State.updBank_bank (s : State) (i : Nat) (g : Bank → Bank) : (s.updBank i g).bank i = g (s.bank i) := by simp [State.bank]
theorem State.updBank_bank_ne (s : State) {i j : Nat} (g : Bank → Bank) (h : j ≠ i) : (s.updBank i g).bank j = s.bank j := Tbl.get_upd_ne _ _ _ h
@[simp] theorem State.updRegion_region (s : State) (i : Nat) (g : Region → Region) : (s.updRegion i g).region i = g (s.region i) := by simp [State.region]
theorem State.updRegion_region_ne (s : State) {i j : Nat} (g : Region → Region) (h : j ≠ i) : (s.updRegion i g).region j = s.region j := Tbl.get_upd_ne _ _ _ h
@[simp] theorem State.updSp_sp (s : State) (i : Nat) (g : Sp → Sp) : (s.updSp i g).sp i = g (s.sp i) := by simp [State.sp]
theorem State.updSp_sp_ne (s : State) {i j : Nat} (g : Sp → Sp) (h : j ≠ i) : (s.updSp i g).sp j = s.sp j := Tbl.get_upd_ne _ _ _ h
@[simp] theorem State.updGcl_gcl (s : State) (i : Nat) (g : Gcl → Gcl) : (s.updGcl i g).gcl i = g (s.gcl i) := by simp [State.gcl]
theorem State.updGcl_gcl_ne (s : State) {i j : Nat} (g : Gcl → Gcl) (h : j ≠ i) : (s.updGcl i g).gcl j = s.gcl j := Tbl.get_upd_ne _ _ _ h
@[simp] theorem State.updConn_conn (s : State) (i : Nat) (g : SpdmConn → SpdmConn) : (s.updConn i g).conn i = g (s.conn i) := by simp [State.conn]
theorem State.updConn_conn_ne (s : State) {i j : Nat} (g : SpdmConn → SpdmConn) (h : j ≠ i) : (s.updConn i g).conn j = s.conn j := Tbl.get_upd_ne _ _ _ h
@[simp] theorem State.updSession_session (s : State) (i : Nat) (g : Session → Session) : (s.updSession i g).session i = g (s.session i) := by simp [State.session]
theorem State.updSession_session_ne (s : State) {i j : Nat} (g : Session → Session) (h : j ≠ i) : (s.updSession i g).session j = s.session j := Tbl.get_upd_ne _ _ _ h
@[simp] theorem State.updImage_image (s : State) (i : Nat) (g : Image → Image) : (s.updImage i g).image i = g (s.image i) := by simp [State.image]
theorem State.updImage_image_ne (s : State) {i j : Nat} (g : Image → Image) (h : j ≠ i) : (s.updImage i g).image j = s.image j := Tbl.get_upd_ne _ _ _ h

@[simp] theorem State.updCtx_ctx (s : State) (c : Nat) (g : Ctx → Ctx) : (s.updCtx c g).ctx c = g (s.ctx c) := by simp [State.ctx]
theorem State.updCtx_ctx_ne (s : State) {c d : Nat} (g : Ctx → Ctx) (h : d ≠ c) : (s.updCtx c g).ctx d = s.ctx d := Tbl.get_set_ne _ _ _ h

end Sys2Proof.Machine
end

