-- ==== Sys2Proof/WellFormed.lean ====
section
/-! DEFINITION. Which operands a command can have: the ranges that the fields of the spec leave. A command outside them still has a
meaning, which ignores it or ends it as the spec says. -/
namespace Sys2Proof

/-- The number names a function (13 R394). -/
def fnNo (n : Nat) : Bool := n < 256
/-- The number names a context (02 R26). -/
def ctxNo (n : Nat) : Bool := n < 1024
/-- The number names a command ring (02 R27). -/
def ringNo (n : Nat) : Bool := n < 8
/-- The number names a ring index (02 R41). -/
def indexNo (n : Nat) : Bool := n < 65536
/-- The number names the reserved field of a doorbell (02 R41). -/
def rsvNo (n : Nat) : Bool := n < 2 ^ 44
/-- The number names a width in bytes of one register access (16 R480). -/
def bytesNo (n : Nat) : Bool := n < 9
/-- The number is a length in bytes of one memory request (16 R480). -/
def reqNo (n : Nat) : Bool := n < 4097
/-- The number names a gathering (03 R74). -/
def gathNo (n : Nat) : Bool := n < 4096
/-- The number names a credit pool (01 R19). -/
def poolNo (n : Nat) : Bool := n < 333
/-- The number names a page ID (04 R120). -/
def pageNo (n : Nat) : Bool := n < 2 ^ 32
/-- The number names a Press pipeline (09 R281). -/
def pipeNo (n : Nat) : Bool := n < 8
/-- The number names a weight record (09 R298). -/
def wrecNo (n : Nat) : Bool := n < 4096
/-- The number names an Awl engine (07 R232). -/
def engineNo (n : Nat) : Bool := n < 16
/-- The number names an automaton (07 R232). -/
def autoNo (n : Nat) : Bool := n < 64
/-- The number names a binding entry (07 R232). -/
def bindNo (n : Nat) : Bool := n < 4
/-- The number names a Spine bank (06 R214). -/
def bankNo (n : Nat) : Bool := n < 128
/-- The number names a queue pair (10 R334). -/
def qpNo (n : Nat) : Bool := n < 16384
/-- The number names an Ethernet port (10 R334). -/
def ethNo (n : Nat) : Bool := n < 8
/-- The number names a downstream port (05 R181). -/
def dsNo (n : Nat) : Bool := n < 16
/-- The number names a PSN or message number (10 R302). -/
def psnNo (n : Nat) : Bool := n < 2 ^ 24
/-- The number names a registration (10 R334). -/
def regNo (n : Nat) : Bool := n < 65536
/-- The number names an extent index (10 R326). -/
def extNo (n : Nat) : Bool := n < 4096
/-- The number names a 32-bit field of a command register (07 R232, 10 R334). -/
def wordNo (n : Nat) : Bool := n < 2 ^ 32
/-- The number names a transport: SMBus, I3C, PCIe, or a mailbox (12 R378, 14 R429). -/
def srcNo (n : Nat) : Bool := n < 4
/-- The number names an MCTP binding (14 R443). -/
def bindingNo (n : Nat) : Bool := n < 3
/-- The number names an upstream link (16 R477). -/
def linkNo (n : Nat) : Bool := n < 2
/-- The number names a firmware image (14 R434). -/
def imageNo (n : Nat) : Bool := n < 4
/-- The number names a service processor (14 R446). -/
def spNo (n : Nat) : Bool := n < 3
/-- The number names a device vector (13 R399). -/
def vmNo (n : Nat) : Bool := n < 16384
/-- The number names an MSI-X table entry (16 R484). -/
def vecNo (n : Nat) : Bool := n < 2048
/-- The number names a pseudo-channel (16 R482). -/
def pchNo (n : Nat) : Bool := n < 512
/-- The number names a resident slot or a key slot (02 R36, 12 R391). -/
def slotNo (n : Nat) : Bool := n < 256
/-- The number names TARGET of CO_CMD (12 R391). -/
def targetNo (n : Nat) : Bool := n < 1024
/-- The number names an SPDM session ID (12 R391). -/
def sessionNo (n : Nat) : Bool := n < 2 ^ 32
/-- The number names STRAP_CLKMODE (15 R463). -/
def clkNo (n : Nat) : Bool := n < 4
/-- The number names STRAP_SMB (15 R463). -/
def smbNo (n : Nat) : Bool := n < 8
/-- The number is a count of Folio-cycles in an interval of the gauges (10 R320). -/
def folioCyclesNo (n : Nat) : Bool := n < 256 * 65536 + 1
/-- The number names a kind of lease (13 R410). -/
def leaseNo (n : Nat) : Bool := n < 8
/-- The window of a command register: BAR0 or BAR2 (16 R487). -/
def barNo (n : Nat) : Bool := n == 0 || n == 2
/-- The window of a register write: BAR0, BAR2, or the configuration space. -/
def regBarNo (n : Nat) : Bool := barNo n || n == 16

/-- The command is well formed. -/
def Instr.wf : Instr → Bool
  | .commandRingTailDoorbell fn ctx ring index rsv bytes => fnNo fn && ctxNo ctx && ringNo ring && indexNo index && rsvNo rsv && bytesNo bytes
  | .completionHeadDoorbell fn ctx ring index rsv bytes => fnNo fn && ctxNo ctx && ringNo ring && indexNo index && rsvNo rsv && bytesNo bytes
  | .instructionFetch ctx ring => ctxNo ctx && ringNo ring
  | .instructionDispatch ctx ring => ctxNo ctx && ringNo ring
  | .instructionComplete _ => true
  | .nop _ => true
  | .fence _ => true
  | .wait _ => true
  | .waitSatisfied _ => true
  | .waitTimeout _ => true
  | .signal _ => true
  | .set _ => true
  | .addx _ => true
  | .branch _ => true
  | .loop _ => true
  | .lookup _ => true
  | .lookupRecordRead _ => true
  | .overflowWalk _ => true
  | .attach _ => true
  | .fork _ => true
  | .release _ => true
  | .publish _ => true
  | .retract _ => true
  | .append _ => true
  | .seqAppendAtStepBoundary g => gathNo g
  | .seal _ => true
  | .stage _ => true
  | .hint _ => true
  | .demote _ => true
  | .deliver _ => true
  | .gsetCreate _ => true
  | .gsetUpdate _ => true
  | .gsetDissolve _ => true
  | .step _ => true
  | .attend _ => true
  | .combine _ => true
  | .loadw _ => true
  | .digest _ => true
  | .awaitLanding _ => true
  | .awaitTimeout _ => true
  | .contextEnable ctx => ctxNo ctx
  | .contextReset ctx => ctxNo ctx
  | .contextResetFinished ctx => ctxNo ctx
  | .resume bar fn ctx => barNo bar && fnNo fn && ctxNo ctx
  | .slotGrant => true
  | .contextSwapOut slot => slotNo slot
  | .schedulerTick => true
  | .creditGrant pool => poolNo pool
  | .quireGrant => true
  | .heartbeat fn bytes => fnNo fn && bytesNo bytes
  | .heartbeatTimeout fn => fnNo fn
  | .orphanHoldExpired ctx => ctxNo ctx
  | .leaseExpired _ kind => leaseNo kind
  | .stepHoldExpired g => gathNo g
  | .kettleDoorbell fn _ bytes => fnNo fn && bytesNo bytes
  | .gathererMoveStart => true
  | .inwardMoveLanded page _ => pageNo page
  | .inwardMoveFailed page _ => pageNo page
  | .tierReadTimeout page => pageNo page
  | .outwardMoveDone page => pageNo page
  | .outwardWriteFail page => pageNo page
  | .reclaimPass => true
  | .pressSeal pipe => pipeNo pipe
  | .pageSealed pipe => pipeNo pipe
  | .chainHashFormed => true
  | .weightPass wrec page => wrecNo wrec && pageNo page
  | .retirementFree => true
  | .awlTokenScan engine => engineNo engine
  | .awlLoad ctx auto offset => ctxNo ctx && autoNo auto && wordNo offset
  | .awlUnload ctx auto => ctxNo ctx && autoNo auto
  | .awlBind ctx auto target entry => ctxNo ctx && autoNo auto && ctxNo target && bindNo entry
  | .awlUnbind ctx auto target entry => ctxNo ctx && autoNo auto && ctxNo target && bindNo entry
  | .spineInsertion => true
  | .spineCarry => true
  | .spineWithdrawal => true
  | .scrubRow => true
  | .probeSearch _ => true
  | .spBankWrite bank _ => bankNo bank
  | .spOvfWrite _ => true
  | .dirKeyFlush qp => qpNo qp
  | .dirKeyMessage qp => qpNo qp
  | .dirLookup qp => qpNo qp
  | .dirLookupResponse qp => qpNo qp
  | .dirLookupTimeout _ => true
  | .commit _ => true
  | .layoutInitDone => true
  | .governorInterval _ _ => true
  | .loadInterval folio _ _ => folioCyclesNo folio
  | .frameRx port _ => ethNo port
  | .inboundRdmaWrite qp => qpNo qp
  | .inboundSend qp => qpNo qp
  | .inboundRdmaReadRequest qp => qpNo qp
  | .inboundAcknowledge qp => qpNo qp
  | .inboundNak qp => qpNo qp
  | .inboundReadResponse qp => qpNo qp
  | .retransmitTimeout qp psn => qpNo qp && psnNo psn
  | .reorderGapTimeout qp => qpNo qp
  | .messageTimeout qp msg => qpNo qp && psnNo msg
  | .vangedLookup qp => qpNo qp
  | .vangedGetPages qp => qpNo qp
  | .putPages qp => qpNo qp
  | .vangedPublish qp => qpNo qp
  | .vangedAttend qp => qpNo qp
  | .vangedStep qp => qpNo qp
  | .extentGrant qp => qpNo qp
  | .extentReturn qp => qpNo qp
  | .extentWithdrawn e => extNo e
  | .vangedLoad qp => qpNo qp
  | .frameTx port => ethNo port
  | .meterTick => true
  | .shaperRefill => true
  | .histSample => true
  | .histCopy _ => true
  | .gclCommit port _ => ethNo port
  | .gclChangeTime port => ethNo port
  | .gclEntryChange port => ethNo port
  | .ptpAnnounce _ => true
  | .ptpSync _ => true
  | .ptpFollowUp _ => true
  | .ptpDelayResp _ => true
  | .syncTimeout => true
  | .announceTimeout => true
  | .ptpEnableWrite _ => true
  | .ptpTimeSecRead => true
  | .ppsEdge => true
  | .qpRead bar fn qp => barNo bar && fnNo fn && qpNo qp
  | .qpWrite bar fn qp => barNo bar && fnNo fn && qpNo qp
  | .toInit bar fn qp => barNo bar && fnNo fn && qpNo qp
  | .toRtr bar fn qp => barNo bar && fnNo fn && qpNo qp
  | .toRts bar fn qp => barNo bar && fnNo fn && qpNo qp
  | .toReset bar fn qp => barNo bar && fnNo fn && qpNo qp
  | .toError bar fn qp => barNo bar && fnNo fn && qpNo qp
  | .create bar fn => barNo bar && fnNo fn
  | .revoke bar fn reg => barNo bar && fnNo fn && regNo reg
  | .revocationEnd reg => regNo reg
  | .extentRevoke bar fn e => barNo bar && fnNo fn && wordNo e
  | .netModeWrite _ => true
  | .dirRoleWrite _ => true
  | .spdmGetMeasurements transport _ => srcNo transport
  | .spdmChallenge transport _ => srcNo transport
  | .spdmKeyExchange transport _ => srcNo transport
  | .spdmRequest transport session _ => srcNo transport && sessionNo session
  | .getPqSignature transport _ => srcNo transport
  | .keyRelease session _ => sessionNo session
  | .slotLoaded slot => slotNo slot
  | .keyErase session _ => sessionNo session
  | .getContextKey session _ => sessionNo session
  | .spdmSessionTimeout session => sessionNo session
  | .authSlot slot session fn => targetNo slot && sessionNo session && fnNo fn
  | .authCtx ctx session => targetNo ctx && sessionNo session
  | .eraseSlot slot => slotNo slot
  | .debug1 => true
  | .debug2 => true
  | .colophonActivationEnd => true
  | .drbgReseed _ => true
  | .fnVecWrite fn _ => fnNo fn
  | .vfConfigWrite _ num => fnNo num
  | .functionLevelReset fn => fnNo fn
  | .devReset _ => true
  | .upstreamLinkDown link => linkNo link
  | .warmStart _ _ => true
  | .resetNAssert => true
  | .coldStart _ clkMode smb _ _ _ _ _ _ => clkNo clkMode && smbNo smb
  | .perstNChange link _ => linkNo link
  | .hbmTrainingDone _ => true
  | .t0ZeroingDone => true
  | .imageVerified image _ _ _ => imageNo image
  | .configurationReady link => linkNo link
  | .brownOut => true
  | .portReset port => dsNo port
  | .downstreamLinkEvent port _ => dsNo port
  | .enumerationDone port _ _ _ _ _ _ => dsNo port
  | .pchFailed pch => pchNo pch
  | .upstreamReadCompletion _ ctx ring page _ _ => ctxNo ctx && ringNo ring && pageNo page
  | .watchdogExpiry n => spNo n
  | .spRestartWrite n _ => spNo n
  | .spReady n => spNo n
  | .hello src _ => srcNo src
  | .getInfo src _ => srcNo src
  | .fwStage src _ => srcNo src
  | .fwVerify src _ => srcNo src
  | .fwActivate src _ => srcNo src
  | .portInfo src _ => srcNo src
  | .traceSet src _ => srcNo src
  | .sensors src _ => srcNo src
  | .mailboxTimeout => true
  | .mctpControl binding _ => bindingNo binding
  | .pldmRequest binding _ => bindingNo binding
  | .sensorSample _ _ _ => true
  | .operatingPointChange _ => true
  | .voltageInRegulation => true
  | .regulationTimeout => true
  | .pmCtlWrite _ => true
  | .idleEntry => true
  | .msixHoldoffExpiry vm => vmNo vm
  | .msixUnmask fn entry => fnNo fn && vecNo entry
  | .cntCmd _ => true
  | .sigClear fn _ => fnNo fn
  | .errHeadWrite _ => true
  | .bufferWindowAccess fn _ _ _ => fnNo fn
  | .registerWrite bar fn _ _ bytes => regBarNo bar && fnNo fn && reqNo bytes
  | .demandLandingTimeout page => pageNo page
  | .tierWriteTimeout page => pageNo page
  | .unitMarkedUnavailable _ _ => true
  | .ideKm session _ => sessionNo session
  | .watchdogCountRestart n => spNo n
  | .ethernetLinkChange port _ => ethNo port

end Sys2Proof
end

