-- ==== Sys2Proof/Tests/Slice0.lean ====
section
/-! SUPPORT. Tests: an ill-formed command for each well-formedness check, one concrete state that meets the hypotheses of each clause of each
statement (wit_…), and single steps whose results are worked out from the rules (test_…). -/
namespace Sys2Proof.Tests
open Sys2Proof Sys2Proof.Machine
set_option maxRecDepth 100000
set_option exponentiation.threshold 1000

/-- The reset state with RESET_N deasserted. -/
def awake : State := { State.reset with dev := { State.reset.dev with held := false } }
/-- `awake` with instruction 1 in flight. -/
def flying (x : Flight) : State := awake.setFlight 1 x
/-- `awake` with context 0 as given. -/
def withCtx (x : Ctx) : State := awake.setCtx 0 x
/-- The next state; the state itself where there is none. -/
def after (c : Instr) (s : State) : State := match exec c s with | .next t => t | _ => s
/-- What `Acts` asks, as one decidable sentence. -/
theorem acts_of {s : State} {f op : Nat} {x : Flight}
    (h : s.stopped = false ∧ s.flight? f = some x ∧ wOpcode x.word = op ∧ x.phase ≠ .ended ∧ s.mayBegin f x = true ∧ s.enginesUp x = true) : Acts s f op x :=
  ⟨h.1, h.2.1, h.2.2.1, h.2.2.2.1, h.2.2.2.2.1, h.2.2.2.2.2⟩
/-! ## Ill-formed commands are refused, and the largest well-formed operand is not -/

theorem test_wf_fnNo : Instr.wf (.heartbeat 256 8) = false ∧ Instr.wf (.heartbeat 255 8) = true := by decide
theorem test_wf_ctxNo : Instr.wf (.contextReset 1024) = false ∧ Instr.wf (.contextReset 1023) = true := by decide
theorem test_wf_ringNo : Instr.wf (.instructionFetch 0 8) = false ∧ Instr.wf (.instructionFetch 0 7) = true := by decide
theorem test_wf_indexNo : Instr.wf (.commandRingTailDoorbell 0 0 0 65536 0 8) = false ∧ Instr.wf (.commandRingTailDoorbell 0 0 0 65535 0 8) = true := by decide
theorem test_wf_rsvNo : Instr.wf (.commandRingTailDoorbell 0 0 0 0 (2 ^ 44) 8) = false ∧ Instr.wf (.commandRingTailDoorbell 0 0 0 0 (2 ^ 44 - 1) 8) = true := by decide
theorem test_wf_bytesNo : Instr.wf (.heartbeat 0 9) = false ∧ Instr.wf (.heartbeat 0 8) = true := by decide
theorem test_wf_gathNo : Instr.wf (.seqAppendAtStepBoundary 4096) = false ∧ Instr.wf (.seqAppendAtStepBoundary 4095) = true := by decide
theorem test_wf_poolNo : Instr.wf (.creditGrant 333) = false ∧ Instr.wf (.creditGrant 332) = true := by decide
theorem test_wf_pageNo : Instr.wf (.tierWriteTimeout (2 ^ 32)) = false ∧ Instr.wf (.tierWriteTimeout (2 ^ 32 - 1)) = true := by decide
theorem test_wf_pipeNo : Instr.wf (.pageSealed 8) = false ∧ Instr.wf (.pageSealed 7) = true := by decide
theorem test_wf_wrecNo : Instr.wf (.weightPass 4096 0) = false ∧ Instr.wf (.weightPass 4095 0) = true := by decide
theorem test_wf_engineNo : Instr.wf (.awlTokenScan 16) = false ∧ Instr.wf (.awlTokenScan 15) = true := by decide
theorem test_wf_autoNo : Instr.wf (.awlUnload 0 64) = false ∧ Instr.wf (.awlUnload 0 63) = true := by decide
theorem test_wf_bindNo : Instr.wf (.awlBind 0 0 0 4) = false ∧ Instr.wf (.awlBind 0 0 0 3) = true := by decide
theorem test_wf_bankNo : Instr.wf (.spBankWrite 128 0) = false ∧ Instr.wf (.spBankWrite 127 0) = true := by decide
theorem test_wf_qpNo : Instr.wf (.inboundSend 16384) = false ∧ Instr.wf (.inboundSend 16383) = true := by decide
theorem test_wf_ethNo : Instr.wf (.frameTx 8) = false ∧ Instr.wf (.frameTx 7) = true := by decide
theorem test_wf_dsNo : Instr.wf (.portReset 16) = false ∧ Instr.wf (.portReset 15) = true := by decide
theorem test_wf_psnNo : Instr.wf (.messageTimeout 0 (2 ^ 24)) = false ∧ Instr.wf (.messageTimeout 0 (2 ^ 24 - 1)) = true := by decide
theorem test_wf_regNo : Instr.wf (.revocationEnd 65536) = false ∧ Instr.wf (.revocationEnd 65535) = true := by decide
theorem test_wf_extNo : Instr.wf (.extentWithdrawn 4096) = false ∧ Instr.wf (.extentWithdrawn 4095) = true := by decide
theorem test_wf_wordNo : Instr.wf (.extentRevoke 0 0 (2 ^ 32)) = false ∧ Instr.wf (.extentRevoke 0 0 (2 ^ 32 - 1)) = true := by decide
theorem test_wf_srcNo : Instr.wf (.spdmRequest 4 0 []) = false ∧ Instr.wf (.spdmRequest 3 0 []) = true := by decide
theorem test_wf_bindingNo : Instr.wf (.pldmRequest 3 []) = false ∧ Instr.wf (.pldmRequest 2 []) = true := by decide
theorem test_wf_linkNo : Instr.wf (.upstreamLinkDown 2) = false ∧ Instr.wf (.upstreamLinkDown 1) = true := by decide
theorem test_wf_imageNo : Instr.wf (.imageVerified 4 true 0 0) = false ∧ Instr.wf (.imageVerified 3 true 0 0) = true := by decide
theorem test_wf_spNo : Instr.wf (.spReady 3) = false ∧ Instr.wf (.spReady 2) = true := by decide
theorem test_wf_vmNo : Instr.wf (.msixHoldoffExpiry 16384) = false ∧ Instr.wf (.msixHoldoffExpiry 16383) = true := by decide
theorem test_wf_vecNo : Instr.wf (.msixUnmask 0 2048) = false ∧ Instr.wf (.msixUnmask 0 2047) = true := by decide
theorem test_wf_pchNo : Instr.wf (.pchFailed 512) = false ∧ Instr.wf (.pchFailed 511) = true := by decide
theorem test_wf_slotNo : Instr.wf (.slotLoaded 256) = false ∧ Instr.wf (.slotLoaded 255) = true := by decide
theorem test_wf_targetNo : Instr.wf (.authCtx 1024 0) = false ∧ Instr.wf (.authCtx 1023 0) = true := by decide
theorem test_wf_sessionNo : Instr.wf (.spdmSessionTimeout (2 ^ 32)) = false ∧ Instr.wf (.spdmSessionTimeout (2 ^ 32 - 1)) = true := by decide
theorem test_wf_clkNo : Instr.wf (.coldStart true 4 0 true {} {} {} [] true) = false ∧ Instr.wf (.coldStart true 3 0 true {} {} {} [] true) = true := by decide
theorem test_wf_smbNo : Instr.wf (.coldStart true 0 8 true {} {} {} [] true) = false ∧ Instr.wf (.coldStart true 0 7 true {} {} {} [] true) = true := by decide
theorem test_wf_folioCyclesNo : Instr.wf (.loadInterval 16777217 0 0) = false ∧ Instr.wf (.loadInterval 16777216 0 0) = true := by decide
theorem test_wf_leaseNo : Instr.wf (.leaseExpired 0 8) = false ∧ Instr.wf (.leaseExpired 0 7) = true := by decide
theorem test_wf_barNo : Instr.wf (.create 1 0) = false ∧ Instr.wf (.create 2 0) = true := by decide
theorem test_wf_regBarNo : Instr.wf (.registerWrite 1 0 0 [0] 8) = false ∧ Instr.wf (.registerWrite 16 0 0 [0] 8) = true := by decide
theorem test_wf_reqNo : Instr.wf (.registerWrite 0 0 0 [0] 4097) = false ∧ Instr.wf (.registerWrite 0 0 0 [0] 4096) = true := by decide

/-! ## The whole machine, and the control commands -/

theorem wit_IdleStepLetsTimePass : State.reset.pending = [] ∧ State.reset.stopped = true ∧ awake.pending = [] ∧ awake.stopped = false := by decide
theorem wit_HeldMachineStaysAtReset : State.reset.heldAtReset ∧ (∃ t, step State.reset = .next t) ∧ State.reset.dev.held = true :=
  ⟨⟨fun _ => rfl, fun h => nomatch h⟩, ⟨_, rfl⟩, rfl⟩
/-- A brown-out that lasts. -/
def brown : State := awake.brown
theorem wit_StoppedMachineDoesNothing : State.reset.stopped = true ∧ brown.stopped = true ∧ brown.dev.held = false ∧ State.reset.dev.held = true ∧
    (∃ t, exec .resetNAssert brown = .next t) ∧ (∃ t, exec (.coldStart true 0 0 true {} {} {} [] true) brown = .next t) ∧
    (∃ t, exec (.perstNChange 0 true) brown = .next t) ∧ (∃ t, exec .brownOut State.reset = .next t) ∧ ∃ t, exec (.nop 0) brown = .next t :=
  ⟨rfl, rfl, rfl, rfl, ⟨_, rfl⟩, ⟨_, rfl⟩, ⟨_, rfl⟩, ⟨_, rfl⟩, ⟨_, rfl⟩⟩
theorem wit_T0StaysCanonical : { awake with t0 := [(4, 7), (9, 1)] }.t0Canonical ∧ ∃ t, step { awake with t0 := [(4, 7), (9, 1)] } = .next t :=
  ⟨by unfold State.t0Canonical; decide, _, rfl⟩
theorem wit_Frames : (Instr.nop 1).family = .control ∧ (Instr.slotGrant).family = .context ∧ (Instr.spineCarry).family = .index ∧
    (Instr.release 1).family = .sequence ∧ (Instr.step 1).family = .attention ∧ (Instr.reclaimPass).family = .tier ∧ (Instr.awlUnload 0 0).family = .fence ∧
    (Instr.mailboxTimeout).family = .management ∧ (Instr.idleEntry).family = .device ∧ (Instr.inboundSend 0).family = .rdma ∧
    (Instr.extentGrant 0).family = .vanged ∧ (Instr.netModeWrite 0).family = .netRegister ∧ (Instr.meterTick).family = .time ∧
    (Instr.debug1).family = .security ∧ Part.t0 ∉ (Instr.nop 1).touches ∧ ∀ c : Instr, (∃ t, exec c State.reset = .next t) → exec c State.reset ≠ .fault .unreachable :=
  ⟨rfl, rfl, rfl, rfl, rfl, rfl, rfl, rfl, rfl, rfl, rfl, rfl, rfl, rfl, by decide, fun _ h e => by obtain ⟨t, h⟩ := h; rw [h] at e; cases e⟩

theorem wit_NopSetAddx : Acts (flying { word := 0x00 }) 1 0x00 { word := 0x00 } ∧ Acts (flying { word := 0x04, a := 7 }) 1 0x04 { word := 0x04, a := 7 } ∧
    Acts (flying { word := 0x05, a := 7, b := 8 }) 1 0x05 { word := 0x05, a := 7, b := 8 } :=
  ⟨acts_of (by decide), acts_of (by decide), acts_of (by decide)⟩
/-- SET writes operand A to the register that SEL_D names (03 R77). -/
theorem test_set : let t := after (.set 1) (flying { word := 0x0000000300000004, a := 7 }); (t.ctx 0).reg 3 = 7 ∧ (t.ctx 0).reg 4 = 0 := by decide
/-- ADDX adds modulo 2^64. -/
theorem test_addx : let t := after (.addx 1) (flying { word := 0x05, a := 0xFFFFFFFFFFFFFFFF, b := 3 }); (t.ctx 0).reg 0 = 2 := by decide

theorem wit_FenceAndWaitEnd_fence : let x : Flight := { word := 0x01, waitsFor := [0] }
    Acts (flying x) 1 0x01 x ∧ (∀ g ∈ x.waitsFor, (flying x).flight? g = none) ∧
    Acts ((flying x).setFlight 0 {}) 1 0x01 x ∧ ∃ g ∈ x.waitsFor, ((flying x).setFlight 0 {}).flight? g ≠ none :=
  ⟨acts_of (by decide), by decide, acts_of (by decide), by decide⟩
/-- WAITs on signal counter 2: one whose TARGET is the counter's value, one whose TARGET is one more and whose LIMIT ends now. -/
def waits (target limit : Nat) : Flight := { word := 0x02, a := 0x20000, b := BitVec.ofNat 64 target, c := BitVec.ofNat 64 limit }
def waiting (x : Flight) : State :=
  { ((flying x).setCtx 0 { resident := true }).updFn 0 fun f => { f with sig := [(2, 5)] } with now := 2100 }
theorem wit_FenceAndWaitEnd_wait : (waiting (waits 5 0)).waitCheck (waits 5 0) = stOk ∧ (waiting (waits 5 0)).waitValue (waits 5 0) = some 5 ∧
    (waits 5 0).b.toNat ≤ 5 ∧ ((waiting (waits 5 0)).ctx 0).resident = true ∧ 5 < (waits 6 2).b.toNat ∧ fld (waits 6 2).c.toNat 0 32 ≠ 0 ∧
    (waits 6 2).since + fld (waits 6 2).c.toNat 0 32 * 1050 ≤ (waiting (waits 6 2)).now ∧ (waiting (waits 6 2)).waitCheck (waits 6 2) = stOk ∧
    (waiting (waits 6 2)).waitValue (waits 6 2) = some 5 := by decide
theorem wit_FenceAndWaitEnd_acts : Acts (waiting (waits 5 0)) 1 0x02 (waits 5 0) ∧ Acts (waiting (waits 6 2)) 1 0x02 (waits 6 2) :=
  ⟨acts_of (by decide), acts_of (by decide)⟩
theorem test_wait : ((after (.wait 1) (waiting (waits 5 0))).flight? 1).map (·.phase) = some .ended ∧
    ((after (.wait 1) (waiting (waits 6 2))).flight? 1).map (·.phase) = some .dispatched := by decide
theorem test_wait_timeout : ((after (.waitTimeout 1) (waiting (waits 6 2))).flight? 1).map (·.status) = some stTimeout ∧
    ((after (.waitTimeout 1) (waiting (waits 6 3))).flight? 1).map (·.phase) = some .dispatched := by decide

theorem wit_SignalAdds : let x : Flight := { word := 0x03, a := 63, b := 9 }
    Acts (flying x) 1 0x03 x ∧ (∀ p ∈ (flying x).ringFlights 0 0, 1 ≤ p.1) ∧ ∃ p ∈ ((flying x).setFlight 0 {}).ringFlights 0 0, p.1 < 1 :=
  ⟨acts_of (by decide), by decide, by decide⟩
/-- SIGNAL saturates its counter (13 R421). -/
theorem test_signal : ((after (.signal 1) ((flying { word := 0x03, a := 2, b := 9 }).updFn 0 fun f => { f with sig := [(2, 0xFFFFFFFFFFFFFFF8)] })).fn 0).sig.get 2 0
    = 0xFFFFFFFFFFFFFFFF := by decide

/-- A BRANCH at index 5 by 3 backwards under condition 1 (B = C), and one under LATCH_SET. -/
def branchEq (b : BitVec 64) : Flight := { word := 0x06, index := 5, a := 0x1FFFD, b := b, c := 4 }
def branchLatch : Flight := { word := 0x06, index := 5, a := 0x70003 }
theorem wit_BranchAndLoop : Acts (flying (branchEq 4)) 1 0x06 (branchEq 4) ∧ fld (branchEq 4).a.toNat 16 4 < 7 ∧
    Acts (flying branchLatch) 1 0x06 branchLatch ∧ fld branchLatch.a.toNat 16 4 = 7 ∧
    (∀ p ∈ (flying branchLatch).ringFlights 0 0, p.1 < 1 → p.2.phase = .ended) ∧ Acts (flying { word := 0x07, c := 1 }) 1 0x07 { word := 0x07, c := 1 } :=
  ⟨acts_of (by decide), by decide, acts_of (by decide), by decide, by decide, acts_of (by decide)⟩
/-- A resident, ACTIVE context with a LOOP fetched at index 9. -/
def loopFetched : State := withCtx { state := .active, resident := true, rings := [(1, { enable := true, fetched := [{ index := 9, granule := 7 }] })] }
theorem wit_BranchAndLoop_dispatch : loopFetched.stopped = false ∧ (((loopFetched.ctx 0).ring 1).fetched = [{ index := 9, granule := 7 }]) ∧
    wOpcode (granWord 7 0) = 0x07 ∧ loopFetched.mayDispatch 0 1 (granWord 7 0) = true := by decide
theorem test_branch : let r := fun b => ((after (.branch 1) (flying (branchEq b))).ctx 0).ring 0
    (r 4).fetch = 2 ∧ (r 3).fetch = 0 ∧ (r 3) = {} := by decide
theorem test_loop : let t := after (.loop 1) (flying { word := 0x0000000200000007, index := 65535, a := 2, c := 2 })
    (t.ctx 0).reg 2 = 1 ∧ ((t.ctx 0).ring 0).fetch = 1 := by decide

/-- An IDLE context of function 3 with ring 1 of 64 entries at tail 65,530 and a completion ring at head 10, tail 12. -/
def belled : State := withCtx { state := .idle, function := 3, chead := 10, ctail := 12, rings := [(1, { enable := true, tail := 65530, fetch := 65530 })] }
theorem wit_Doorbells : belled.stopped = false ∧ (belled.ctx 0).state = .idle ∧ (belled.ctx 0).function = 3 ∧ ((belled.ctx 0).ring 1).enable = true ∧
    sub16 57 65530 < ((belled.ctx 0).ring 1).depth ∧ ¬ sub16 58 65530 < ((belled.ctx 0).ring 1).depth ∧
    sub16 12 10 ≤ sub16 12 10 ∧ ¬ sub16 13 10 ≤ sub16 12 10 ∧ (4 : Nat) ≠ 8 := by decide
theorem test_tail_doorbell : (((after (.commandRingTailDoorbell 3 0 1 57 0 8) belled).ctx 0).ring 1).tail = 57 ∧
    (((after (.commandRingTailDoorbell 3 0 1 58 0 8) belled).ctx 0).ring 1).tail = 65530 ∧
    ((after (.commandRingTailDoorbell 3 0 1 58 0 8) belled).fn 3).cnt.get 0 0 = 1 ∧
    (((after (.commandRingTailDoorbell 3 0 1 57 0 8) belled).ctx 0).state) = .active := by decide
theorem test_head_doorbell : ((after (.completionHeadDoorbell 3 0 0 12 0 8) belled).ctx 0).chead = 12 ∧
    ((after (.completionHeadDoorbell 3 0 0 13 0 8) belled).ctx 0).chead = 10 := by decide

/-- Rings of an ACTIVE, resident context with three entries posted, before the end of a ring of 64: 0 in upstream memory, 1 in T0, 2 with its first
entry buffered. -/
def posted : State := withCtx { state := .active, resident := true, rings := [(0, { enable := true, base := 5, fetch := 62, tail := 65, left := 3 }), (1, { enable := true, base := 5, loc := 1, fetch := 62, tail := 65, left := 3 }), (2, { enable := true, fetch := 62, tail := 65, left := 3, buf := [{ index := 62, granule := 4 }] })] }
theorem wit_FetchAndDispatch : let r := fun n => (posted.ctx 0).ring n
    (posted.ctx 0).state = .active ∧ (posted.ctx 0).resident = true ∧ posted.dev.engineDown.get 0 false = false ∧ posted.dev.pchDown = [] ∧
    (∀ n < 3, (r n).enable = true ∧ min (r n).toFetch (16 - (r n).fetched.length) ≠ 0 ∧ (r n).reading = 0) ∧ (r 0).loc ≠ 1 ∧ (r 1).loc = 1 ∧
    (r 1).fetch < 65536 ∧ (r 0).buffered 62 = none ∧ (r 1).buffered 62 = none ∧ (r 2).buffered 62 = some { index := 62, granule := 4 } := by decide
theorem wit_FetchAndDispatch_dispatch : loopFetched.mayDispatch 0 1 (granWord 7 0) = true ∧
    loopFetched.dispatchCheck (loopFetched.ctx 0) ((loopFetched.ctx 0).ring 1) (granWord 7 0) 0 0 0 ≠ stOk := by decide
/-- At the ring's end a fetch stops: two of the three entries (02 R39). -/
theorem test_fetch : let t := after (.instructionFetch 0 0) posted
    ((t.ctx 0).ring 0).reading = 2 ∧ t.out = [.upRead 0 (5 * 4096 + 32 * 62) 64] ∧
    (((after (.instructionFetch 0 1) posted).ctx 0).ring 1).fetch = 64 := by decide
theorem test_dispatch_checks : ((after (.instructionDispatch 0 1) loopFetched).flights.map fun p => (p.2.index, p.2.status)) = [(9, stRange)] := by decide

/-- An ended instruction with an entry due, in a context whose completion ring of 64 is in T0 at sheet 2 (or in upstream memory) and stands at its last place. -/
def completing (cloc : Nat) (due : Bool) : State :=
  (flying { word := 0xABCD0404, index := 3, phase := .ended, status := 0x0101, result := 0x55, credit := due }).setCtx 0 { state := .active, function := 3, cloc := cloc, cbase := 2, ctail := 63 }
theorem wit_CompleteWritesItsEntry (l : Nat) (d : Bool) : let s := completing l d
    s.stopped = false ∧ s.outstanding 1 = false ∧ (s.flight 1).phase = .ended ∧ (s.flight 1).mirror = none ∧ (s.ctx 0).state ≠ .resetting ∧
    (s.ctx 0).conf = false ∧ wOpcode (s.flight 1).word ≠ 0x30 ∧ (s.flight 1).writesEntry = d ∧ (s.ctx 0).cloc = l ∧ s.dev.pchDown = [] := by
  cases d <;> exact ⟨rfl, rfl, rfl, rfl, (fun h => by cases h), rfl, (by decide : wOpcode 0xABCD0404 ≠ 0x30), rfl, rfl, rfl⟩
set_option maxRecDepth 8000 in
/-- The entry (02 R58): tag, status and phase, RESULT, and the index; the phase of the pass that it ends, which then turns. -/
theorem test_complete : let t := after (.instructionComplete 1) (completing 1 true)
    (t.ctx 0).ctail = 64 ∧ (t.ctx 0).cphase = false ∧ t.flights = [] ∧
    t.t0 = [(10208, 0xCD), (10209, 0xAB), (10210, 1), (10211, 1), (10215, 0x80), (10216, 0x55), (10236, 3)] := by decide

/-- A FENCE's shape stands for any instruction that waits for two landed sheets. -/
def landing (b : Bool) : State :=
  { ((flying { word := 0x15, job := .landing 0 4 2 }).setCtx 0 { landing := [(4, true), (5, b), (6, true)] }) with now := 2000000000 }
theorem wit_LandingWaits : (∀ b : Bool, (landing b).stopped = false ∧ (landing b).flight? 1 = some { word := 0x15, job := .landing 0 4 2 }) ∧
    (∀ i < 2, ((landing true).ctx 0).landing.get (4 + i) false = true) ∧ ¬ (∀ i < 2, ((landing false).ctx 0).landing.get (4 + i) false = true) ∧
    0 + (landing false).net.msgUs * 1050 ≤ (landing false).now := by decide
theorem test_landing : ((after (.awaitLanding 1) (landing true)).ctx 0).landing = [(6, true)] ∧
    ((after (.awaitTimeout 1) (landing false)).flight? 1).map (·.status) = some stTimeout := by decide

/-! ## Lookups, regions, the Spine and the directory -/

/-- A LOOKUP of two blocks in scope 1; T0 lists nothing, so both hashes are 0. -/
def look : Flight := { word := 0x10, a := 0x200000000, b := 0x10000 }
/-- The key of those hashes in scope 1, and a Spine that holds it. -/
def key1 : Nat := 2 ^ 112
def spined (s : State) : State := s.updRow 0 fun _ => { unit := mkUnit key1 0xB00 false false, slot := { unit := mkUnit key1 0xB00 false false } }
theorem wit_LookupRunsTheDescent (h : Bool) : let s := if h then spined (flying look) else flying look
    Acts s 1 0x10 look ∧ look.mirror = none ∧ bAwait look.a = false ∧ s.dev.pchDown = [] ∧ s.freeWalker.isSome = true ∧ look.holds.find? (· < 8) = none ∧
    s.searchQueue 1 = some 0 ∧ (s.hashStore 0).1 + 12 * bCount look.a ≤ 12582912 ∧ (s.hashStore 0).2 < 32 ∧
    prefixKey 1 0 0 (BitVec.ofNat 96 (ofLe (s.t0Read 12 12))) = key1 ∧ (∀ sc ∈ scopesOf 0x10000, sc = 1) ∧ s.ovfOf key1 = 0 ∧
    descentOf (fun _ => (s.search key1).isSome) 2 (probes 2) 0 = (if h then 2 else 0) ∧ fld look.b.toNat 49 1 = 0 := by
  cases h <;> exact ⟨acts_of (by decide), by decide, by decide, by decide, by decide, by decide, by decide, by decide, by decide, by decide, by decide, by decide,
    by decide, by decide⟩
theorem test_lookup : (match (after (.lookup 1) (spined (flying look))).flight? 1 with | some { job := .lookup l, .. } => (l.m, l.i, l.win) | _ => (9, 9, none))
    = (2, 0, some (0, 1)) ∧ ((after (.lookup 1) (flying look)).flight? 1).map (·.status) = some stMiss := by decide

/-- A LOOKUP whose descent ended with 1 of 2 blocks and row 0 as its winner, of scope `sc`; the row's slot holds `u`. -/
def won (sc : Nat) : Flight := { word := 0x10, b := 0x10000, job := .lookup { hashes := [1, 2], m := 1, win := some (0, sc), descents := 3 } }
def winning (sc owner : Nat) (u : BitVec 144) : State := (flying (won sc)).updRow 0 fun _ => { unit := 5, slot := { unit := u, owner := owner, handle := 0xABC } }
theorem wit_LookupRecord (sc o : Nat) (u : BitVec 144) : let s := winning sc o u
    s.stopped = false ∧ s.flight? 1 = some (won sc) ∧ (won sc).mirror = none ∧ fld (won sc).b.toNat 49 1 = 0 ∧ s.dev.pchDown = [] ∧ (s.row 0).unit = 5 ∧
    (s.row 0).slot.unit = u ∧ (s.row 0).slot.owner = o ∧ (won sc).ctx = 0 := ⟨rfl, rfl, rfl, (by decide : fld (0x10000 : BitVec 64).toNat 49 1 = 0), rfl, rfl, rfl, rfl, rfl⟩
/-- PARTIAL, one block, the handle's low 40 bits above it (03 R83). -/
theorem test_record : ((after (.lookupRecordRead 1) (winning 1 1 5)).flight? 1).map (fun x => (x.status, x.result)) = some (stPartial, 0xABC000001) ∧
    ((after (.lookupRecordRead 1) (winning 0 1 5)).flight? 1).map (·.status) = some stMiss ∧
    ((after (.lookupRecordRead 1) (winning 1 1 6)).row 0).suspect = true := by decide
/-- It waits for the walk of block 1 in scope 1. -/
def walks : Flight := { word := 0x10, b := 0x10000, stallOn := some .spineOvf, job := .lookup { hashes := [1, 2], i := 1, walk := some (1, 1) } }
theorem wit_OverflowWalkAnswers : (flying walks).stopped = false ∧ (flying walks).flight? 1 = some walks ∧ walks.holds.contains 8 = false ∧
    (flying walks).creditFree 0 8 = true ∧ (flying walks).creditWaited 1 8 = false ∧ { walks with holds := [8] }.holds.contains 8 = true := by decide
theorem test_walk : ((after (.overflowWalk 1) (flying { walks with holds := [8] })).flight? 1).map (fun x => (x.stallOn, x.holds)) = some (none, []) := by decide

/-- PUBLISH of version 2 of region 7, one block of sequence 4, in scope 1; and a sealed, hashed page 8 for it. -/
def publ (j : Job) : Flight := { word := 0x14, a := 0x1000004, b := 0x200000007, c := 1, job := j, walker := some 0 }
def publishing (j : Job) (ver : Nat) (last : BitVec 96) : State :=
  (((((flying (publ j)).updSeq 4 fun _ => { state := 1, layers := 1, tpp := 8, entries := [{ base := 8 }] }).updPage 8 fun _ => { state := .sealed, formed := true, summary := 512 }).updSum 512 fun _ =>
    { hashed := true, chain := 77 }).updRegion 3 fun _ =>
    { used := true, scope := 1, rid := 7, committed := true, version := ver, hashes := [last], newVersion := 9, newEntries := [{ base := 8 }], newHashes := [77] })
theorem wit_PublishAndRetractEnd_done : let s := publishing (.publish 5 0 []) 3 77
    Acts s 1 0x14 (publ (.publish 5 0 [])) ∧ s.opsLeft 1 = false ∧ (s.region 5).entries.length ≤ 0 :=
  ⟨acts_of (by decide), by decide, by decide⟩
theorem wit_PublishAndRetractEnd (v : Fin 2) (same : Bool) : let s := publishing .none (v.val + 2) (if same then 77 else 78)
    let x := publ .none
    let q := s.seq 4
    Acts s 1 0x14 x ∧ (s.dev.pchDown = [] ∧ s.seqCheck 0 (sSeq x.a) = stOk) ∧ sSeq x.a = 4 ∧ sBlock x.a = 1 ∧ q.entries.length = 1 ∧
    (∀ p ∈ q.rangePages 0 1 0 q.layers, (s.page p).state ≠ .openP ∧ (s.page p).formed = true) ∧
    (∀ p ∈ (q.entries.take 1).map (·.base), (s.page p).formed = true ∧ (s.sum (s.page p).summary).hashed = true) ∧
    s.awl.queues.get (4 % 16) [] = [] ∧ (∀ p ∈ s.flights, ∀ a b c d, p.2.job ≠ .append a b c d) ∧ (∀ e ∈ q.entries.take 1, e.fenced = false) ∧
    s.findRegion 1 7 0 = some (3, s.region 3) ∧ ((s.region 3).committed = true ∧ (s.region 3).retracting = false ∧ (s.region 3).publishing = false) ∧
    ((s.region 3).version = v.val + 2 ∧ (s.region 3).hashes = [if same then 77 else 78]) ∧ (fld x.c.toNat 0 16 = 1 ∧ fld x.b.toNat 0 32 = 7 ∧ fld x.b.toNat 32 32 = 2) := by
  have hj : ∀ (v : Nat) (l : BitVec 96), ∀ p ∈ (publishing .none v l).flights, ∀ a b c d, p.2.job ≠ .append a b c d :=
    fun v l p hp a b c d h => by cases List.mem_singleton.mp hp; cases h
  match v, same with
  | 0, true => exact ⟨acts_of (by decide), by decide, by decide, by decide, by decide, by decide, by decide, by decide, hj _ _, by decide, by decide, by decide, by decide, by decide⟩
  | 0, false => exact ⟨acts_of (by decide), by decide, by decide, by decide, by decide, by decide, by decide, by decide, hj _ _, by decide, by decide, by decide, by decide, by decide⟩
  | 1, true => exact ⟨acts_of (by decide), by decide, by decide, by decide, by decide, by decide, by decide, by decide, hj _ _, by decide, by decide, by decide, by decide, by decide⟩
  | 1, false => exact ⟨acts_of (by decide), by decide, by decide, by decide, by decide, by decide, by decide, by decide, hj _ _, by decide, by decide, by decide, by decide, by decide⟩
/-- Older: SUPERSEDED; same version and hash: OK; same version, another hash: CONFLICT (03 R88). -/
theorem test_publish : let st := fun v l => ((after (.publish 1) (publishing .none v l)).flight? 1).map (fun x => (x.status, x.result))
    st 3 77 = some (stSuperseded, 3) ∧ st 2 77 = some (stOk, 1) ∧ st 2 78 = some (stConflict, 2) := by decide
/-- RETRACT of version 0 of region 7. -/
def retr (j : Job) : Flight := { word := 0x15, a := 7, b := 1, job := j }
theorem wit_PublishAndRetractEnd_retract : Acts (flying (retr (.retract 3 []))) 1 0x15 (retr (.retract 3 [])) ∧
    (flying (retr (.retract 3 []))).opsLeft 1 = false ∧ Acts (flying (retr .none)) 1 0x15 (retr .none) ∧ (flying (retr .none)).findRegion 1 7 0 = none :=
  ⟨acts_of (by decide), by decide, acts_of (by decide), by decide⟩
theorem test_retract : ((after (.retract 1) (flying (retr .none))).flight? 1).map (·.status) = some stNotFound := by decide

/-- Region 3 publishes version 9 of region 7 in scope 1, whose block 0 has hash 0. -/
def updating (q : List UpdOp) (rows : List (Nat × Nat)) : State :=
  let s := (awake.updRegion 3 fun _ => { used := true, scope := 1, rid := 7, newVersion := 9, newEntries := [{ base := 8 }], newHashes := [0], places := rows }).updPage 8 fun _ => { state := .sealed, cls := 1 }
  { s with spine := { s.spine with updq := q } }
theorem wit_SpineUpdates : let s := updating [.insert 0 3 0] []
    s.stopped = false ∧ s.ovfOf key1 = 0 ∧ prefixKey 1 0 0 0 = key1 ∧ s.place203 1 0 key1 (2 ^ 128 - 1) = .slot 0 ∧ (s.net.role && s.net.selfPeer) = false ∧
    (((updating [.carry 0 3 0] [(0, 4)]).region 3).places.find? (fun e => e.1 == 0)) = some (0, 4) ∧
    ((((updating [.withdraw 0 3 0 0] [(0, 4)]).region 3).listOf 0).find? (fun e => e.1 == 0)) = some (0, 4) ∧
    (updating [.withdraw 0 3 0 0] [(0, 4)]).segHeld 4 = false := by decide
/-- Class 1 (SPILL) has PRIORITY 0xA00 (06 R202). -/
theorem test_insertion : let t := after .spineInsertion (updating [.insert 0 3 0] [])
    (t.row 0).unit = mkUnit key1 0xA00 false false ∧ (t.region 3).newPlaces = [(0, 0)] ∧ (t.row 0).slot.version = 9 ∧ t.spine.updq = [] := by decide
theorem test_carry : ((after .spineCarry (updating [.carry 0 3 0] [(0, 4)])).row 4).slot.version = 9 ∧
    ((after .spineCarry (updating [.carry 0 3 0] [(0, 4)])).row 4).slot.rindex = 3 := by decide
theorem test_withdrawal : let s := (updating [.withdraw 0 3 0 0] [(0, 4)]).updRow 4 fun _ => { unit := mkUnit key1 0xA00 false false }
    ((after .spineWithdrawal s).row 4).unit = 0 := by decide

/-- Row 3 differs from its shadow copy; the scrubber looks at it next. Bank 0 holds no entry, bank 1 holds one. -/
def scrubbing : State :=
  let s := (awake.updRow 3 fun _ => { unit := 1 }).updRow 8200 fun _ => { unit := mkUnit key1 0xB00 false false }
  { s with spine := { s.spine with scrubEn := true, scrubAt := 3 } }
theorem wit_ScrubProbeAndSpineRegisters : scrubbing.stopped = false ∧ scrubbing.spine.scrubEn = true ∧
    (scrubbing.row 3).unit ≠ (scrubbing.row 3).slot.unit ∧ fld (9 : BitVec 64).toNat 2 2 < 3 ∧ fld (9 : BitVec 64).toNat 0 1 = 1 ∧ fld (8 : BitVec 64).toNat 0 1 = 0 ∧
    fld (2 : BitVec 64).toNat 0 2 ≠ (scrubbing.bank 0).width ∧ scrubbing.bankEntries 0 = 0 ∧ scrubbing.bankSuspect 0 = 0 ∧ scrubbing.bankEntries 1 = 1 ∧
    (∀ e ∈ scrubbing.spine.ovf, uValid e.2.unit = false) ∧ fld (10 : BitVec 64).toNat 0 5 = 10 ∧ fld (24 : BitVec 64).toNat 0 5 = 24 ∧
    ¬ (∀ e ∈ (scrubbing.updOvf 0 fun _ => { unit := mkUnit key1 0xB00 false false }).spine.ovf, uValid e.2.unit = false) := by decide
theorem test_scrub : ((after .scrubRow scrubbing).row 3).suspect = true ∧ (after .scrubRow scrubbing).spine.scrubAt = 4 := by decide
/-- A probe search of width 1 with mask 0 finds any whole entry of a working row in its own place. -/
theorem test_probe : let s := spined awake
    let t := after (.probeSearch 1) s
    t.spine.probeDone = true ∧ t.spine.probeHit = true ∧ t.spine.probePos = 0 ∧ (after (.probeSearch 9) s).spine.probeHit = false := by decide
theorem test_sp_bank : ((after (.spBankWrite 0 2) scrubbing).bank 0).width = 2 ∧ ((after (.spBankWrite 1 2) scrubbing).bank 1).width = 0 ∧
    ((after (.spBankWrite 1 2) scrubbing).bank 1).cfgErr = true ∧ ((after (.spBankWrite 0 1) scrubbing).bank 0).cfgErr = true := by decide
theorem test_sp_ovf : (after (.spOvfWrite 24) scrubbing).spine.k = 24 ∧ (after (.spOvfWrite 25) scrubbing).spine.k = scrubbing.spine.k ∧
    (after (.spOvfWrite 9) scrubbing).spine.k = scrubbing.spine.k := by decide

/-- A worker with a key to report to the directory on queue pair 3. -/
def worker : State := { awake with net := { awake.net with worker := true, dirQp := 3, dirAdds := [5] } }
/-- A directory that holds key1, whose queue pair 3 holds a message; worker 2 is its peer when `peer`. -/
def directory (peer : Bool) (m : List (BitVec 8)) : State :=
  let s := (awake.updQp 3 fun _ => { state := .rts, dirPeer := true, vanged := true, expect := 1, credit := 1, slots := [m] }).updBank 0 fun _ => { width := 1, role := 1 }
  let s := (s.updRow 0 fun _ => { unit := mkUnit key1 0x100 false true }).updRow 1 fun _ => { unit := mkUnit 1 0 true true }
  { s with net := { s.net with role := true, peers := if peer then [(2, 16387)] else [] } }
/-- One key added; and a search of one hash. -/
def keyMsg : List (BitVec 8) := vangedHeader 4 false false true 1 0 0 0 48 ++ leBytes 32 1 ++ leBytes 16 key1
def findMsg : List (BitVec 8) := vangedHeader 1 false false true 1 0 0 0 44 ++ (leBytes 8 0xFFFFFFFF00000010 ++ (leBytes 8 0x100000000 ++ (leBytes 8 0x10000 ++ zeros 20)))
theorem wit_DirectoryMessages_flush : worker.stopped = false ∧ worker.net.worker = true ∧ worker.net.dirQp = 3 ∧ worker.net.dirAdds ≠ [] ∧
    ((worker.updQp 3 fun _ => { state := .rts }).qp 3).state = .rts := by decide
theorem wit_DirectoryMessages_key (p : Bool) : let s := directory p keyMsg
    let h := ofLe (keyMsg.take 32)
    (s.stopped = false ∧ (s.qp 3).slots = [keyMsg] ∧ (s.qp 3).state = .rts ∧ fld h 16 1 = 0) ∧
    (s.qp 3).refuses h (vangedKind h) keyMsg.length (keyMsg.drop 32) = stOk ∧ (s.ctx (s.qp 3).owner).state ≠ .orphaned ∧ vangedKind h = 20 ∧
    s.workerOf 3 = (if p then some 2 else none) ∧ fld (ofLe ((keyMsg.drop 32).take 8)) 0 64 = 1 ∧ ofLe ((keyMsg.drop 64).take 16) = key1 ∧ s.dirSearch key1 = some 0 := by
  cases p <;> decide
theorem wit_DirectoryMessages_find (p : Bool) : let s := directory p findMsg
    let h := ofLe (findMsg.take 32)
    (s.stopped = false ∧ (s.qp 3).slots = [findMsg] ∧ (s.qp 3).state = .rts ∧ fld h 16 1 = 0) ∧
    (s.qp 3).refuses h (vangedKind h) findMsg.length (findMsg.drop 32) = stOk ∧ (s.ctx (s.qp 3).owner).state ≠ .orphaned ∧ vangedKind h = 17 ∧
    s.workerOf 3 = (if p then some 2 else none) ∧ dirGranuleOk (findMsg.drop 32) = true ∧ dirGranuleOk ((keyMsg.drop 32) ++ zeros 16) = false := by
  cases p <;> decide
/-- A LOOKUP that asked the directory with REQ_SEQ 7; its answer is the message at the head of queue pair 0. -/
def asked : Flight := { word := 0x10, job := .dirWait stPartial 5 [] 0 7 }
def answer : List (BitVec 8) := vangedHeader 1 true false false 7 0 0 0 0
def asking : State := { ((flying asked).updQp 0 fun _ => { slots := [answer] }) with now := 2000000000 }
theorem wit_DirectoryMessages_answer : asking.stopped = false ∧ asking.flight? 1 = some asked ∧ asked.mirror = none ∧ asking.net.dirQp = 0 ∧
    (asking.qp 0).slots = [answer] ∧ fld (ofLe (answer.take 32)) 16 1 = 1 ∧ fld (ofLe (answer.take 32)) 8 8 = 1 ∧ fld (ofLe (answer.take 32)) 32 32 = 7 ∧
    0 + asking.net.msgUs * 1050 ≤ asking.now ∧ ∀ p ∈ asking.flights, ∀ a b c d, p.2.job = .dirWait a b c d 7 → p = (1, asked) :=
  ⟨by decide, by decide, by decide, by decide, by decide, by decide, by decide, by decide, by decide, fun _ hp _ _ _ _ _ => List.mem_singleton.mp hp⟩
theorem test_dir_flush : (after (.dirKeyFlush 3) worker).net.dirAdds = [] := by decide
theorem test_dir_key : ((after (.dirKeyMessage 3) (directory true keyMsg)).workersAt 0) = 5 := by decide

/-! ## Sequences, pages and the Press -/

/-- Three picks of single sheets from three free ones find one each, whatever the picks. -/
theorem pick3 (v1 v2 v3 lo : Nat) : (match pickRun [] lo 3 1 v1 with
    | none => false
    | some a => match pickRun (Tbl.put [] a 1) lo 3 1 v2 with
      | none => false
      | some b => (pickRun (Tbl.put (Tbl.put [] a 1) b 1) lo 3 1 v3).isSome) = true := by
  have hm : ∀ v : Nat, v % 3 = 0 ∨ v % 3 = 1 ∨ v % 3 = 2 := fun v => by omega
  simp only [pickRun]
  rcases hm v1 with h | h | h <;> rcases hm v2 with h' | h' | h' <;> rcases hm v3 with h'' | h'' | h'' <;>
    simp [h, h', h'', runFree, firstFit, Tbl.put]
/-- `s` after one more SEQ sheet. -/
def tookSheet (s : State) (a : Nat) : State := { s with free := s.free + 1, ps := { s.ps with seqRuns := s.ps.seqRuns.put a 1 } }
theorem more_some (l : List Nat) (s : State) (m lo n a : Nat) (runs : Tbl Nat) (h0 : s.ps.seqRuns = runs) (hb : s.regBase 1 + 131072 = lo) (h1 : s.regSize 1 = m)
    (h2 : m - 131072 = n) (h : pickRun runs lo n 1 (Config.freeValue s.free).toNat = some a) :
    State.moreSeqSheets (some (l, s)) = some (l ++ [a], tookSheet s a) := by
  have e : s.takeSeqSheet = (pickRun s.ps.seqRuns (s.regBase 1 + 131072) (s.regSize 1 - 131072) 1 (Config.freeValue s.free).toNat).map fun a => (a, tookSheet s a) := rfl
  rw [State.moreSeqSheets.eq_1, e, h0, hb, h1, h2, h]
  rfl
/-- With three SEQ sheets free, three can be taken. -/
theorem seq3 (s : State) (m : Nat) (h1 : s.ps.seqRuns = []) (h2 : s.regSize 1 = m) (h3 : m - 131072 = 3) : (s.takeSeqSheets 3).isSome = true := by
  have h := pick3 (Config.freeValue s.free).toNat (Config.freeValue (s.free + 1)).toNat (Config.freeValue (s.free + 1 + 1)).toNat (s.regBase 1 + 131072)
  rw [State.takeSeqSheets, show List.range 3 = [0, 1, 2] from rfl, List.foldl_cons, List.foldl_cons, List.foldl_cons, List.foldl_nil]
  cases ha : pickRun [] (s.regBase 1 + 131072) 3 1 (Config.freeValue s.free).toNat with
  | none => rw [ha] at h; cases h
  | some a =>
    rw [ha] at h
    dsimp only at h
    cases hb : pickRun (Tbl.put [] a 1) (s.regBase 1 + 131072) 3 1 (Config.freeValue (s.free + 1)).toNat with
    | none => rw [hb] at h; cases h
    | some b =>
      rw [hb] at h
      dsimp only at h
      cases hc : pickRun (Tbl.put (Tbl.put [] a 1) b 1) (s.regBase 1 + 131072) 3 1 (Config.freeValue (s.free + 1 + 1)).toNat with
      | none => rw [hc] at h; cases h
      | some c =>
        rw [more_some [] s m _ 3 a [] h1 rfl h2 h3 ha,
          more_some _ (tookSheet s a) m (s.regBase 1 + 131072) 3 b (Tbl.put [] a 1) (congrArg (Tbl.put · a 1) h1) rfl h2 h3 hb,
          more_some _ (tookSheet (tookSheet s a) b) m (s.regBase 1 + 131072) 3 c (Tbl.put (Tbl.put [] a 1) b 1)
            (congrArg (fun r => Tbl.put (Tbl.put r a 1) b 1) h1) rfl h2 h3 hc]
        rfl
theorem edit_isSome (s : State) (q lo : Nat) (es : List Entry) (n : Nat)
    (hn : ((treePath lo (s.seq q).entries.length es.length).2.filter fun k => !((treePath lo (s.seq q).entries.length es.length).2.contains k && s.treeLost (s.seq q) k)).length = n)
    (h : (s.takeSeqSheets n).isSome = true) : (s.edit q lo es).isSome = true := by
  subst hn
  unfold State.edit
  simp only
  revert h
  cases s.takeSeqSheets _ with
  | none => exact fun h => nomatch h
  | some r => exact fun _ => rfl
/-- A state with three free SEQ sheets and three free page IDs. -/
def paged : State := { awake with ps := { awake.ps with size := [(1, 131075)], limit := 64 } }
/-- ATTACH at block 0 of sequence 4, its lookup record at OUT: region 7 version 2 of scope 1, 1 block. -/
def att : Flight := { word := 0x11, a := 4 }
def region7 : Region := { used := true, scope := 1, rid := 7, committed := true, version := 2, entries := [{ base := 8, filled := 8, sealed := true }], layers := 1, tpp := 8 }
def attaching : State :=
  ((({ ((paged.setFlight 1 att).setCtx 0 { scopes := [(0, 1)], outSheets := 1 }) with t0 := [(8, 1), (11, 1), (16, 7), (20, 2)] }.updRegion 3 fun _ => region7).updPage 8 fun _ =>
    { state := .sealed, formed := true, refcount := 1, aux := 1 }).updSeq 4 fun _ => { state := 1, layers := 1, tpp := 8 })
def attached : State := match attaching.addRefs [8] with | some s => s | none => attaching
theorem attach_isSome (s s1 : State) (c q n cls model : Nat) (r : Region) (es : List Entry)
    (he : es = (r.entries.take n).map fun e => { e with shared := true, cls := cls, hint := 0, fenced := (s.seq q).fenceOn }) (hq : (s.seq q).state ≠ 0)
    (h1 : s.addRefs (blockPages (es.map (·.base)) r.layers) = some s1)
    (h : (s1.edit q (s.seq q).entries.length ((s.seq q).entries ++ es)).isSome = true) : (s.attach c q n cls model r).isSome = true := by
  have e : s.attachSeq c q n model r = some s := if_pos hq
  unfold State.attach
  simp only [e, ← he, h1]
  revert h
  cases s1.edit q (s.seq q).entries.length ((s.seq q).entries ++ es) with
  | none => exact fun h => nomatch h
  | some r => exact fun _ => rfl
theorem wit_AttachForkRelease_attach : Acts attaching 1 0x11 att ∧ attaching.freeWalker.isSome = true ∧ attaching.dev.pchDown = [] ∧ (attaching.seq 4).owner = 0 ∧
    (let lrec := ofLe (attaching.t0Read ((attaching.ctx 0).outAddr + fld att.b.toNat 0 32) 32);
      attaching.findRegion (fld lrec 88 16) (fld lrec 128 32) 0 = some (3, region7) ∧ attaching.attachCheck 0 (sSeq att.a) (sBlock att.a) 0 lrec (some region7) = stOk ∧
      min (fld lrec 64 24) 1 = 1 ∧ fld lrec 104 16 = 0) ∧
    attaching.refRoom ((region7.entries.take 1).map (·.base)) 1 = true ∧ (attaching.attach 0 4 1 0 0 region7).isSome = true :=
  ⟨acts_of (by decide), by decide, by decide, by decide, by decide, by decide,
    attach_isSome attaching attached 0 4 1 0 0 region7 [{ base := 8, filled := 8, sealed := true, shared := true }] rfl (by decide) rfl
      (edit_isSome attached 4 0 [{ base := 8, filled := 8, sealed := true, shared := true }] 3 rfl (seq3 _ 131075 rfl rfl rfl))⟩

/-- FORK of the one block of sequence 4 into sequence 5; RELEASE of that block, and of the whole sequence. -/
def frk : Flight := { word := 0x12, a := 0x1000004, b := 5 }
def rel (whole : Bool) : Flight := { word := 0x13, a := 4, b := if whole then 1 else 0 }
def owning (x : Flight) : State :=
  ((paged.setFlight 1 x).updSeq 4 fun _ => { state := 1, layers := 1, tpp := 8, entries := [{ base := 8, filled := 8, sealed := true }] }).updPage 8 fun _ =>
    { state := .sealed, formed := true, refcount := 1, aux := 1 }
def forking : State := match ((owning frk).newSeq 5 { layers := 1, tpp := 8 } {}) with | some s => (match s.addRefs [8] with | some s => s | none => s) | none => awake
theorem fork_isSome (s s0 s1 : State) (src dst n cls : Nat) (keep : List Entry) (h0 : (s.stream src).used = false)
    (hk : ((s.seq src).entries.take n).filter (fun e => !e.isOpen) = keep) (hn : ((s.seq src).entries.take n).filter (·.isOpen) = [])
    (h1 : s.newSeq dst { owner := (s.seq src).owner, model := (s.seq src).model, layers := (s.seq src).layers, tpp := (s.seq src).tpp, ptok := (s.seq src).ptok, format := (s.seq src).format, groups := (s.seq src).groups, dims := (s.seq src).dims, weight := (s.seq src).weight, fenceOn := ((s.seq src).entries.take n).any (·.fenced) } {} = some s0)
    (h2 : s0.addRefs (blockPages (keep.map (·.base)) (s.seq src).layers) = some s1)
    (h : (s1.edit dst 0 (keep.map fun e => { e with shared := true })).isSome = true) : ∃ r, s.fork src dst n cls = .ok r := by
  unfold State.fork
  simp only [hk, hn, h0, Bool.false_eq_true, if_false, h1, h2, State.forkOpen, List.append_nil]
  revert h
  cases s1.edit dst 0 (keep.map fun e => { e with shared := true }) with
  | none => exact fun h => nomatch h
  | some r => exact fun _ => ⟨_, rfl⟩
theorem wit_AttachForkRelease_fork : let s := owning frk
    Acts s 1 0x12 frk ∧ (∀ a b c d, frk.job ≠ .append a b c d) ∧ (∀ p l k, frk.job ≠ .pages (p :: l) k) ∧ (s.freeWalker.isSome = true ∧ s.dev.pchDown = []) ∧ s.seqCheck 0 (sSeq frk.a) = stOk ∧
    sBlock frk.a = 1 ∧ (s.seq 4).entries.length = 1 ∧ fld frk.b.toNat 0 24 = 5 ∧ (s.seq 5).state = 0 ∧ (s.stream 4).used = false ∧
    (∀ e ∈ (s.seq 4).entries.take 1, e.isOpen = false) ∧ s.refRoom [8] 1 = true ∧ ∃ r, s.fork 4 5 1 0 = .ok r :=
  ⟨acts_of (by decide), (fun _ _ _ _ h => nomatch h), (fun _ _ _ h => nomatch h), by decide, by decide, by decide, by decide, by decide, by decide, by decide, by decide, by decide,
    fork_isSome (owning frk) _ forking 4 5 1 0 [{ base := 8, filled := 8, sealed := true }] (by decide) rfl rfl rfl rfl
      (edit_isSome forking 5 0 [{ base := 8, filled := 8, sealed := true, shared := true }] 3 rfl (seq3 _ 131075 rfl rfl rfl))⟩
theorem wit_AttachForkRelease_release (w : Bool) : let s := owning (rel w)
    Acts s 1 0x13 (rel w) ∧ (s.dev.pchDown = [] ∧ s.seqCheck 0 (sSeq (rel w).a) = stOk) ∧ sBlock (rel w).a ≤ (s.seq 4).entries.length ∧ ((s.stream 4).used && s.unscanned 4) = false ∧
    fld (rel w).b.toNat 0 1 = b2n w ∧ (s.releaseTail 4 0).isSome = true := by
  cases w <;> exact ⟨acts_of (by decide), by decide, by decide, by decide, by decide, rfl⟩
theorem test_release : ((after (.release 1) (owning (rel true))).seq 4).state = 0 ∧ ((after (.release 1) (owning (rel true))).page 8).state = .retiring := by decide

/-- APPEND of two tokens, under gathering 5, to sequence 4, whose open block 8 holds one token of eight in each of two layers. -/
def app (j : Job) : Flight := { word := 0x20, a := 0x40050000, b := 0x200000000, job := j }
def appending (j : Job) (members : List Nat) : State :=
  let p (l : Nat) : Page := { state := .openP, length := 16, tokens := 1, sheets := 16, location := 16 * l, refcount := 1, origin := { layer := l } }
  (((((flying (app j)).setCtx 0 { inSheet := 64, inSheets := 1 }).updSeq 4 fun _ => { state := 1, layers := 2, tpp := 8, ptok := 16, entries := [{ base := 8, filled := 1, isOpen := true }] }).updPage 8 fun _ => p 1).updPage 9 fun _ => p 2).updGath 5 fun _ =>
    { live := true, members := members }
theorem wit_AppendWritesTokens (boundary : Bool) : let j : Job := if boundary then .boundary [] else .none
    let s := appending j (if boundary then [4] else [])
    let x := app j
    let y := s.seq 4
    Acts s 1 0x20 x ∧ (fld x.a.toNat 52 1 = 0 ∧ fld x.a.toNat 28 24 = 4 ∧ gField x.a = 5) ∧ (s.gath 5).live = true ∧ (s.gath 5).owner = x.ctx ∧ (y.state = 1 ∧ y.owner = x.ctx) ∧
    bOffset x.b + y.layers * bCount x.b * y.ptok ≤ (s.ctx 0).inLen ∧ bCount x.b = 2 ∧ nextPos y.entries y.tpp = 1 ∧ y.tpp = 8 ∧ y.entries.length = 1 ∧
    (1 + 2 ≤ 2 ^ 24 * y.tpp ∧ ∀ l < y.layers, (s.page (8 + l)).length < y.ptok * y.tpp) ∧ (s.stream 4).used = false ∧ s.dev.pchDown = [] ∧ s.appendBefore 1 0 true [4] = false ∧
    bAwait x.b = false ∧ s.listing 4 = (if boundary then [5] else []) ∧ s.flights = [(1, x)] := by
  cases boundary <;> exact ⟨acts_of (by decide), by decide, by decide, by decide, by decide, by decide, by decide, by decide, by decide, by decide, by decide,
    by decide, by decide, by decide, by decide, by decide, rfl⟩
/-- Layer 1's second token of input, at its place behind the first of the page (03 R93, 04 R135). -/
theorem test_append : let t := after (.append 1) { appending .none [] with t0 := [(64 * 4096 + 48, 7)] }
    memRead t.t0 (32 * 4096 + 32) = 7 ∧ (t.page 9).tokens = 3 ∧ (t.page 9).length = 48 ∧ (t.flight? 1).map (·.result) = some 2 := by decide
theorem test_append_boundary : ((after (.seqAppendAtStepBoundary 5) (appending (.boundary []) [4])).page 8).length = 48 ∧
    ((after (.seqAppendAtStepBoundary 4) (appending (.boundary []) [4])).page 8).length = 16 := by decide

/-- Sequence 4 with blocks 8 and 10 of one layer; page 8 in T0, page 10 in tier `t`. -/
def twoBlocks (x : Flight) (t : Nat) : State :=
  ((((flying x).setCtx 0 { outSheets := 32, inSheet := 64, inSheets := 1 }).updSeq 4 fun _ => { state := 1, layers := 1, tpp := 8, entries := [{ base := 8, sealed := true, cls := 1 }, { base := 10, sealed := true, cls := 1 }] }).updPage 8 fun _ =>
    { state := .sealed, formed := true, length := 5, location := 3, refcount := 1, cls := 1 }).updPage 10 fun _ =>
    { state := .sealed, formed := true, length := 6, location := 4, tier := t, refcount := 1, cls := 1 }
/-- SEAL of blocks below 2, with FINAL; STAGE, HINT (COLD, class 2) and DEMOTE of blocks 1 and on. -/
def seals (j : Job) : Flight := { word := 0x21, a := 0x2000004, b := 1, job := j }
def stages (j : Job) : Flight := { word := 0x22, a := 0x4, b := 2, job := j, walker := some 0 }
def hints : Flight := { word := 0x23, a := 0x1000004, b := 0x16000001 }
def demotes (j : Job) : Flight := { word := 0x24, a := 0x1000004, b := 0x1000001, job := j, walker := some 0 }
theorem wit_SealStageHintDemote_seal : Acts (twoBlocks (seals (.sealing [8])) 0) 1 0x21 (seals (.sealing [8])) ∧ Acts (twoBlocks (seals .none) 0) 1 0x21 (seals .none) ∧
    (let s := twoBlocks (seals .none) 0;
      (∀ p ∈ [8], (s.page p).state ≠ .sealing ∧ ((s.page p).formed = true → (s.page p).poison = false)) ∧ s.dev.pchDown = [] ∧ s.seqCheck 0 4 = stOk ∧ sBlock (seals .none).a = 2 ∧
      sSeq (seals .none).a = 4 ∧ fld (seals .none).b.toNat 0 1 = 1 ∧ ((s.seq 4).entries.getLastD {}).isOpen = false ∧
      ∀ p ∈ (s.seq 4).rangePages 0 2 0 1, (s.page p).state ≠ .sealing) :=
  ⟨acts_of (by decide), acts_of (by decide), by decide⟩
theorem wit_SealStageHintDemote_stage (t : Fin 2) : Acts (twoBlocks (stages (.pages [] 3)) 0) 1 0x22 (stages (.pages [] 3)) ∧
    Acts (twoBlocks (stages .none) t.val) 1 0x22 (stages .none) ∧
    (let s := twoBlocks (stages .none) t.val;
      s.dev.pchDown = [] ∧ s.seqCheck 0 4 = stOk ∧ (s.seq 4).rangeOk 0 2 0 0 = true ∧ (s.page 8).tier = 0 ∧ (s.page 10).tier = t.val ∧ (s.page 10).poison = false ∧
      (s.seq 4).rangePages 0 2 0 (layerCount 1 0 0) = [8, 10] ∧ (s.page 10).state = .sealed) := by
  match t with
  | 0 => exact ⟨acts_of (by decide), acts_of (by decide), by decide⟩
  | 1 => exact ⟨acts_of (by decide), acts_of (by decide), by decide⟩
theorem wit_SealStageHintDemote_rest : Acts (twoBlocks hints 0) 1 0x23 hints ∧ Acts (twoBlocks (demotes (.demote [] 1 2 3)) 0) 1 0x24 (demotes (.demote [] 1 2 3)) ∧
    Acts (twoBlocks (demotes .none) 1) 1 0x24 (demotes .none) ∧ (let s := twoBlocks (demotes .none) 1;
      s.dev.pchDown = [] ∧ s.seqCheck 0 4 = stOk ∧ sBlock hints.a + fld hints.b.toNat 0 24 ≤ (s.seq 4).entries.length ∧ sBlock (demotes .none).a + fld (demotes .none).b.toNat 0 24 ≤ 2 ∧
      ((s.seq 4).rangePages 1 1 0 1).eraseDups = [10] ∧ (s.page 10).scope = 0 ∧ s.demoteSkips 10 = true) :=
  ⟨acts_of (by decide), acts_of (by decide), acts_of (by decide), by decide⟩
theorem test_seal_final : ((after (.seal 1) (twoBlocks (seals .none) 0)).seq 4).state = 2 := by decide
theorem test_stage : ((after (.stage 1) (twoBlocks (stages .none) 1)).moveOf 10).map (·.kind) = some .stage ∧
    ((after (.stage 1) (twoBlocks (stages .none) 0)).flight? 1).map (·.status) = some stOk := by decide
theorem test_hint : ((after (.hint 1) (twoBlocks hints 0)).seq 4).entries.map (fun e => (e.hint, e.cls)) = [(0, 1), (2, 2)] := by decide
/-- The pseudo-channel of its sheet has failed: HINT cannot read the header of its sequence. -/
def hintLost : State :=
  let s := twoBlocks hints 0
  { s with dev := { s.dev with pchDown := [(s.pchOf (s.headAddr 4 / 4096), true)] } }
theorem wit_SealStageHintDemote_lost : Acts hintLost 1 0x23 hints ∧ hintLost.lostOf [hintLost.headAddr 4] = some (hintLost.headAddr 4) := ⟨acts_of (by decide), by decide⟩
theorem test_hint_lost : ((after (.hint 1) hintLost).flight? 1).map (·.status) = some stPoisoned := by decide
theorem test_demote : ((after (.demote 1) (twoBlocks (demotes .none) 1)).flight? 1).map (·.result) = some 0x100000000 ∧
    ((after (.demote 1) (twoBlocks (demotes .none) 0)).moveOf 10).map (·.kind) = some .demote := by decide

/-- DELIVER of both blocks in raw form to the output buffer, by a record of zeros. -/
def delivers (j : Job) : Flight := { word := 0x25, a := 0x4, b := 2, job := j, walker := some 0 }
theorem wit_DeliverWritesPages : Acts (twoBlocks (delivers (.writes stOk 2 none)) 0) 1 0x25 (delivers (.writes stOk 2 none)) ∧
    Acts (twoBlocks (delivers .none) 0) 1 0x25 (delivers .none) ∧ (let s := twoBlocks (delivers .none) 0;
      s.outstanding 1 = false ∧ (s.ctx 0).conf = false ∧ s.dev.pchDown = [] ∧ s.seqCheck 0 4 = stOk ∧ (s.seq 4).rangeOk 0 2 0 0 = true ∧
      ofLe (s.t0Read ((s.ctx 0).inAddr + 0) 32) = 0 ∧ 65536 * 2 ≤ (s.ctx 0).outLen ∧
      ∀ p ∈ [8, 10], (s.page p).tier = 0 ∧ (s.page p).poison = false ∧ (s.page p).length ≤ 65536) :=
  ⟨acts_of (by decide), acts_of (by decide), by decide⟩
theorem test_deliver : let t := after (.deliver 1) { twoBlocks (delivers .none) 0 with t0 := [(4 * 4096 + 5, 9)] }
    memRead t.t0 (65536 + 5) = 9 ∧ (t.flight? 1).map (·.result) = some 2 := by decide

/-- Page 8 SEALING with three payload bytes, queued or in pipeline 2, which is to seal it raw; a chain hash to form. -/
def pressing (inPipe : Bool) : State :=
  let s := awake.updPage 8 fun _ => { state := .sealing, length := 3, tokens := 1, location := 16, sheets := 16, refcount := 1, cls := 1, summary := 512, format := 1, origin := { ptok := 3, tpp := 8, groups := 1, dims := 1 } }
  { s with press := { s.press with queue := if inPipe then [] else [8], pipes := if inPipe then [(2, 9)] else [], pipeFlags := [(2, 1)], hashWait := [8] } }
theorem wit_PressSealsPages : (pressing false).stopped = false ∧ (pressing false).dev.pressDown.get 2 false = false ∧ (pressing false).press.pipes.get 2 0 = 0 ∧
    (pressing false).freeWalker.isSome = true ∧ (pressing false).press.queue = [8] ∧ ((pressing false).page 8).state = .sealing ∧ (pressing true).press.pipes.get 2 0 = 9 ∧
    (storedForm 1 ((pressing true).t0Read (16 * 4096) 3) true).2 = true ∧ bit ((pressing true).press.pipeFlags.get 2 0) 0 = true ∧ (pressing false).dev.pchDown = [] ∧
    (pressing false).passesFirst = false ∧ (pressing true).press.hashWait = [8] ∧ ((pressing true).page 8).origin.prev = 0 ∧
    ((pressing true).press.hashWait.find? fun p => !((pressing true).formHash p).2) = some 8 ∧ (pressing true).parentHash 8 = (some 0, false) := by decide
theorem test_press_seal : (after (.pressSeal 2) (pressing false)).press.pipes = [(2, 9)] := by decide
theorem test_page_sealed : let g := (after (.pageSealed 2) (pressing true)).page 8
    g.state = .sealed ∧ g.raw = true ∧ g.length = 3 ∧ g.sheets = 1 := by decide
/-- SHA-384 of "abc" (FIPS 180-4's example). -/
theorem test_sha384 : (sha384 [0x61, 0x62, 0x63]).take 8 = [0xCB, 0x00, 0x75, 0x3F, 0x45, 0xA3, 0x5E, 0x8B] := by decide
/-- AES-256 (FIPS 197's example). -/
theorem test_aes256 : aesEnc (aesKeys ((List.range 32).map (BitVec.ofNat 8))) ((List.range 16).map fun i => BitVec.ofNat 8 (17 * i)) =
    [0x8E, 0xA2, 0xB7, 0xCA, 0x51, 0x67, 0x45, 0xBF, 0xEA, 0xFC, 0x49, 0x90, 0x4B, 0x49, 0x60, 0x89] := by decide

/-- DIGESTs of three bytes: SHA384, and CHAIN of one block of eight token IDs. -/
def digs (chain : Bool) : Flight := { word := 0x38, a := if chain then 0x804 else 1, b := if chain then 0x100000000 else 0x300000000 }
theorem wit_DigestAndFreeing (ch : Bool) : let s := flying (digs ch)
    Acts s 1 0x38 (digs ch) ∧ (s.ctx 0).conf = false ∧ bAwait (digs ch).b = false ∧ s.dev.pchDown = [] ∧ s.dev.pressDown.get 0 false = false ∧ s.press.pipes.get 0 0 = 0 ∧
    ofLe (s.t0Read ((s.ctx 0).inAddr + bOffset (digs ch).b + 12) 20) = 0 := by
  cases ch <;> exact ⟨acts_of (by decide), by decide⟩
/-- A retirement at the head, older than every epoch held, or not. -/
def retiring (tag : Nat) : State := { awake with ps := { awake.ps with epoch := 1, retired := [{ tag := tag, pages := [8], pool := [16] }], poolRuns := [(16, 4)] } }
theorem wit_DigestAndFreeing_free : (retiring 0).stopped = false ∧ (retiring 0).dev.pchDown = [] ∧ 0 < (retiring 0).oldest ∧ (retiring 1).oldest ≤ 1 := by decide
theorem test_digest : ((after (.digest 1) (flying (digs false))).flight? 1).map (·.result) = some 48 := by decide
theorem test_retirement : (after .retirementFree (retiring 0)).ps.poolRuns = [] ∧ (after .retirementFree (retiring 1)).ps.poolRuns = [(16, 4)] := by decide

/-! ## Gatherings, ATTEND, COMBINE and weights -/

/-- A gathering record of one member, one layer and one head of 16 FP8 dimensions, eight tokens a page, on Quire 0. -/
def gr : GRec := { layers := 1, qheads := 1, kvheads := 1, headdim := 16, tpp := 8, qmask := 1, scale := 0x3F800000, members := 1 }
def grNum : Nat := 2 ^ 16 + 2 ^ 32 + 2 ^ 40 + 16 * 2 ^ 48 + 8 * 2 ^ 88 + 2 ^ 128 + 0x3F800000 * 2 ^ 192 + 2 ^ 224
/-- GSET of gathering 5 with that record, and member 4, at the start of the input buffer; a WAIT on the gathering is in flight. -/
def gset (action : Nat) : Flight := { word := 0x40, a := BitVec.ofNat 64 (0x50000 + 0x1000 * action) }
def gsetting (action : Nat) (live : Bool) : State :=
  (((((flying (gset action)).setFlight 2 { word := 0x02, a := 0x50001 }).setCtx 0 { inSheet := 64, inSheets := 1 }).t0Write 262144 (leBytes 64 grNum ++ leBytes 4 4)).updGath 5 fun _ => { live := live, step := 9 })
theorem test_grec : parseGRec grNum = gr := by decide
theorem wit_GatheringCommands (live : Bool) : (let s := gsetting 0 live;
    s.gsetCheck 0 0 = stOk ∧ s.dev.pchDown = [] ∧ fld (gset 0).a.toNat 12 2 = 0 ∧ fld (gset 1).a.toNat 12 2 = 1 ∧ fld (gset 2).a.toNat 12 2 = 2 ∧
    gField (gset 0).a = 5 ∧ (s.gath 5).live = live ∧ (s.gath 5).owner = 0 ∧ (parseGRec (s.readGRec 0 0).1).latent = false ∧ s.flight? 2 = some { word := 0x02, a := 0x50001 }) ∧
    (Acts (gsetting 0 live) 1 0x40 (gset 0) ∧ Acts (gsetting 1 live) 1 0x40 (gset 1) ∧ Acts (gsetting 2 live) 1 0x40 (gset 2)) ∧
    (∀ p ∈ (gsetting 0 live).flights, ∀ gs, p.2.job ≠ .boundary gs) := by
  have hq : ∀ p ∈ (gsetting 0 live).flights, ∀ gs, p.2.job ≠ .boundary gs := by
    intro p hp gs h
    rcases List.mem_cons.mp hp with e | hp
    · subst e; cases h
    · cases List.mem_singleton.mp hp; cases h
  cases live <;> exact ⟨by decide, ⟨acts_of (by decide), acts_of (by decide), acts_of (by decide)⟩, hq⟩
theorem test_gset : let l := fun a v => (after (.gsetCreate 1) (gsetting a v)).gath 5
    (l 0 false).live = true ∧ (l 0 false).members = [4] ∧ (l 0 false).step = 0 ∧ (l 0 true).step = 9 := by decide
theorem test_gset_update : ((after (.gsetUpdate 1) (gsetting 1 true)).gath 5).grec = gr ∧ ((after (.gsetUpdate 1) (gsetting 1 true)).gath 5).step = 9 := by decide
theorem test_gset_dissolve : ((after (.gsetDissolve 1) (gsetting 2 true)).gath 5).live = false ∧
    ((after (.gsetDissolve 1) (gsetting 2 true)).flight? 2).map (·.status) = some stNotFound := by decide

/-- Gathering 5 of two layers stands at (7, 1), its hold begun at cycle 0 with a limit of 1 µs. -/
def standing (x : Flight) (now : Nat) : State :=
  { ((flying x).updGath 5 fun _ => { live := true, grec := { layers := 2 }, step := 7, layer := 1, hold := some 0, holdLimit := 1 }) with now := now }
def stepTo (v layer : Nat) : Flight := { word := 0x33, a := 0x50000, b := BitVec.ofNat 64 v, c := BitVec.ofNat 64 layer }
def bell (v layer : Nat) : BitVec 64 := BitVec.ofNat 64 (v + layer * 2 ^ 44 + 5 * 2 ^ 52)
theorem wit_PositionsOnlyMoveOn : (∀ v ∈ [7, 8], Acts (standing (stepTo v 1) 0) 1 0x33 (stepTo v 1)) ∧ Acts (standing (stepTo 7 0) 0) 1 0x33 (stepTo 7 0) ∧
    (let s := standing (stepTo 7 0) 1050;
      s.stopped = false ∧ (s.gath 5).live = true ∧ s.fnOf (s.gath 5).owner = 0 ∧ (1 : Nat) < (s.gath 5).grec.layers ∧ (s.gath 5).step = 7 ∧ (s.gath 5).layer = 1 ∧
      fld (bell 6 0).toNat 52 12 = 5 ∧ stepFrom 7 (fld (bell 7 0).toNat 0 44) = 7 ∧ stepFrom 7 (fld (bell 6 0).toNat 0 44) = 6 + 2 ^ 44 ∧
      (s.gath 5).hold.isSome = true ∧ (s.gath 5).holdLimit ≠ 0 ∧ (s.gath 5).holdAt + (s.gath 5).holdLimit * 1050 ≤ s.now ∧ ¬ (1050 ≤ (standing {} 1049).now)) := by
  refine ⟨fun v hv => ?_, acts_of (by decide), by decide⟩
  rcases List.mem_cons.mp hv with e | hv
  · subst e; exact acts_of (by decide)
  · cases List.mem_singleton.mp hv; exact acts_of (by decide)
theorem test_step : ((after (.step 1) (standing (stepTo 8 0) 0)).gath 5).step = 8 ∧ ((after (.step 1) (standing (stepTo 7 0) 0)).flight? 1).map (·.status) = some stStale := by decide
theorem test_kettle : ((after (.kettleDoorbell 0 (bell 6 0) 8) (standing {} 0)).gath 5).step = 6 + 2 ^ 44 ∧ ((after (.kettleDoorbell 0 (bell 7 0) 8) (standing {} 0)).gath 5).layer = 1 ∧
    ((after (.kettleDoorbell 0 (bell 7 0) 8) (standing {} 0)).fn 0).cnt.get 1 0 = 1 := by decide
theorem test_hold_expired : ((after (.stepHoldExpired 5) (standing {} 1050)).gath 5).hold = none ∧ ((after (.stepHoldExpired 5) (standing {} 1049)).gath 5).hold = some 0 := by decide

/-- ATTEND of gathering 5, which has begun: one member of one token on page 8, whose K and V elements are 1.0. -/
def att1 : Attending := { grec := gr, queries := List.replicate 16 0x80 ++ List.replicate 16 0, members := [{ seq := 4, tokens := 1, blocks := [(0, 8, false)] }], selected := true }
def atts (j : Job) : Flight := { word := 0x30, a := 0x50000, job := j }
def attending (j : Job) (live : Bool) (out : Nat) : State :=
  let s := (((flying (atts j)).setCtx 0 { inSheet := 64, inSheets := 1, outSheet := 8, outSheets := out }).updGath 5 fun _ => { live := live, grec := gr }).updPage 8 fun _ => { state := .openP, length := 32, location := 16 }
  { (s.t0Write 65536 (List.replicate 32 0x38)) with fq := { s.fq with held := [(0, 2)] } }
theorem wit_AttendWritesItsOutput : Acts (attending (.writes stOk 1 none) true 1) 1 0x30 (atts (.writes stOk 1 none)) ∧ Acts (attending .none false 1) 1 0x30 (atts .none) ∧
    Acts (attending .none true 0) 1 0x30 (atts .none) ∧ Acts (attending (.attend [] att1) true 1) 1 0x30 (atts (.attend [] att1)) :=
  ⟨acts_of (by decide), acts_of (by decide), acts_of (by decide), acts_of (by decide)⟩
theorem wit_AttendWritesItsOutput_checks : (attending .none false 1).gathCheck 0 5 0 = stNotFound ∧ (attending .none true 0).gathCheck 0 5 0 = stOk ∧
    (attending .none true 0).attendCheck (atts .none) ((attending .none true 0).gath 5) = stRange ∧ (attending .none true 1).outstanding 1 = false ∧
    (∀ p ∈ att1.pages, ((attending (.attend [] att1) true 1).page p).tier = 0) ∧ gr.latent = false ∧ gr.odest = 0 ∧ (attending .none true 1).dev.pchDown = [] ∧ ((attending .none true 1).ctx 0).conf = false := by decide
/-- Its Quire 0 fails while it runs. -/
def attendDown : State := let s := attending (.attend [] att1) true 1; { s with dev := { s.dev with quireDown := [(0, true)] } }
theorem wit_AttendWritesItsOutput_down : Acts attendDown 1 0x30 (atts (.attend [] att1)) ∧ attendDown.unitDown att1.grec.qmask = true ∧
    (attending (.attend [] att1) true 1).unitDown att1.grec.qmask = false ∧ att1.spoiled = false := ⟨acts_of (by decide), by decide⟩
theorem test_attend_down : ((after (.attend 1) attendDown).flight? 1).map (·.status) = some stUnavailable := by decide
theorem wit_AttendWritesItsOutput_payloads : ∃ ps, (attending (.attend [] att1) true 1).payloads att1 att1.pages = .ok ps := ⟨_, rfl⟩
/-- With one token the output is its value: 1.0 in each dimension, 0x3F80 in BF16; RESULT counts one page for the gathering and for its member. -/
theorem test_attend : ∃ ps, (attending (.attend [] att1) true 1).payloads att1 att1.pages = .ok ps ∧
    (let rows := (ps.map fun p => (p.1, tokenRows gr gr.tpp p.2)).foldl (fun t p => Tbl.put t p.1 p.2) [];
      (packResults gr {} [attendHead att1 {} rows 0 0]).1.take 4 = [0x80, 0x3F, 0x80, 0x3F]) ∧ att1.result = 0x100000001 := ⟨_, rfl, by decide, by decide⟩

/-- COMBINE of two empty sets of gathering 5. -/
def combs (j : Job) : Flight := { word := 0x31, a := 0x50000, b := 0x200000000, job := j }
def combining (j : Job) : State :=
  let s := ((flying (combs j)).setCtx 0 { inSheet := 64, inSheets := 1, outSheet := 8, outSheets := 1 }).updGath 5 fun _ => { live := true, grec := gr }
  { ((s.t0Write 262144 (setHeader gr 0)).t0Write (262144 + 160) (setHeader gr 0)) with fq := { s.fq with held := [(0, 2)] } }
theorem wit_CombineAndWeights_combine : Acts (combining (.writes stOk 2 none)) 1 0x31 (combs (.writes stOk 2 none)) ∧ Acts (combining .none) 1 0x31 (combs .none) ∧
    (let s := combining .none;
      s.outstanding 1 = false ∧ s.gathCheck 0 5 0 = stOk ∧ gr.setBytes = 160 ∧ 0 + 2 * 160 ≤ (s.ctx 0).inLen ∧ 0 + gr.outBytes ≤ (s.ctx 0).outLen ∧ s.quiresHeld 1 1 = true ∧
      s.dev.pchDown = [] ∧ ∀ b ∈ chunks 160 2 (s.t0Read 262144 (2 * 160)), setOk gr 0 b = true) :=
  ⟨acts_of (by decide), acts_of (by decide), by decide⟩
theorem test_combine : ((after (.combine 1) (combining .none)).flight? 1).map (·.result) = some 2 := by decide

/-- LOADW of layers 3 and 4 of model 0, a page each from page 8 on, with the key of slot 0. -/
def loads : Flight := { word := 0x32, a := 0x2030000, b := 8, c := 1 }
def loading : State :=
  let s := ((flying loads).updPage 8 fun _ => { state := .sealed, format := 0x10, refcount := 0 }).updPage 9 fun _ => { state := .sealed, format := 0x10, refcount := 0 }
  { s with ps := { s.ps with limit := 64 }, sec := { s.sec with slots := [(0, { state := .loaded, keygen := 5 })] } }
theorem wit_CombineAndWeights_loadw : Acts loading 1 0x32 loads ∧ loading.dev.pchDown = [] ∧ loading.slotActivating 0 = false ∧ loading.slotFor 0 0 = true ∧
    (∀ p ∈ [8, 9], loading.pageExists p = true ∧ (loading.page p).state ≠ .retiring ∧ (loading.page p).format = 0x10 ∧ (loading.page p).refcount < 2 ^ 24 - 1) ∧
    (loading.addRefs [8, 9]).isSome = true ∧ loading.wrecPlaces 0 3 2 = some [(3, 0), (4, 1)] ∧ [0, 1].Nodup :=
  ⟨acts_of (by decide), by decide, by decide, by decide, by decide, by decide, by decide, by decide⟩
theorem test_loadw : let t := after (.loadw 1) loading
    (t.wrecOf 0 4).map (fun r => (r.1, r.2.page)) = some (1, 9) ∧ (t.page 8).refcount = 1 := by decide
/-- Page 8 of layer 0 of model 0, record 0: its envelope, two bytes of ciphertext and its tag, under the key 0 of slot 0. -/
def envHead : List (BitVec 8) := leBytes 32 (2 ^ 40 + 2 * 2 ^ 64)
def envelope : List (BitVec 8) := envHead ++ [1, 2] ++ gcmTag (zeros 32) ((envHead.drop 12).take 12) envHead [1, 2]
def passing (keygen : Nat) : State :=
  let s := (awake.updPage 8 fun _ => { state := .sealed, format := 0x10, length := 50, location := 16 }).t0Write 65536 envelope
  { s with fq := { s.fq with wrecs := [(0, { valid := true, page := 8, ppl := 1, keygen := keygen, clear := some 32 })] }
           sec := { s.sec with slots := [(0, { state := .loaded, keygen := 5 })] } }
theorem wit_CombineAndWeights_pass : let s := passing 5
    s.stopped = false ∧ (s.page 8).tier = 0 ∧ (s.page 8).state = .sealed ∧ s.dev.pressDown.get 0 false = false ∧ s.press.pipes.get 0 0 = 0 ∧ s.slotActivating 0 = false ∧
    s.slotFor 0 0 = true ∧ (s.kslot 0).keygen = 5 ∧ ((passing 4).kslot 0).keygen ≠ ((passing 4).fq.wrecs.get 0 {}).keygen ∧ (s.page 8).poison = false := by decide
theorem wit_CombineAndWeights_tag : let s := passing 5
    let b := s.pageBytes 8
    envelopeOk (ofLe (b.take 32)) (s.fq.wrecs.get 0 {}) 0 (s.page 8).length = true ∧ fld (ofLe (b.take 32)) 64 17 = 2 ∧
    gcmTag (leBytes 32 (s.kslot 0).key.toNat) ((b.drop 12).take 12) (b.take 32) ((b.drop 32).take 2) = (b.drop 34).take 16 := by decide
theorem test_weight_pass : ((after (.weightPass 0 8) (passing 5)).fq.wrecs.get 0 {}).passed = [0] ∧ ((after (.weightPass 0 8) (passing 4)).fq.wrecs.get 0 {}).failed = stPermission := by decide

/-! ## Contexts, the scheduler, host loss, functions, interrupts -/

/-- Context 0 of function 3 (enabled), with one ring, in an operational device with an active layout and certified configuration. -/
def described (st : CtxState) (conf ring : Bool) : State :=
  let s := (withCtx { state := st, conf := conf, function := 3, faultMore := 5, rings := if ring then [(0, { enable := true, tail := 1 })] else [] }).updFn 3 fun _ => { enabled := true }
  { s with dev := { s.dev with operational := true }, ps := { s.ps with layoutActive := true, layoutValid := true }, sec := { s.sec with configOk := true } }
theorem wit_EnableResumeReset : (described .disabled true true).stopped = false ∧ (described .disabled true true).enableOk 0 = true ∧
    (described .disabled false false).enableOk 0 = false ∧ ((described .disabled true true).ctx 0).state = .disabled ∧ ((described .stopped false true).ctx 0).function = 3 ∧
    ((described .stopped false true).ctx 0).state = .stopped ∧ ((described .active false true).ctx 0).state ≠ .stopped ∧ ((described .active false true).ctx 0).resetAt = none ∧
    (described .active false true).resetsRunning = 0 := by decide
/-- A context reset that runs, nothing of it left. -/
def resetting : State := (withCtx { state := .resetting, resetAt := some 7, function := 3, resident := true, ctail := 5, x := [(2, 9)] }).setFlight 1 { phase := .ended }
theorem wit_EnableResumeReset_finished : (resetting.ctx 0).state = .resetting ∧ (resetting.ctx 0).resetAt.isSome = true ∧ (resetting.retractOwn 0).resetDone 0 = true := by decide
theorem test_enable : ((after (.contextEnable 0) (described .disabled false true)).ctx 0).state = .idle ∧ ((after (.contextEnable 0) (described .disabled false false)).ctx 0).cfgErr = true := by decide
theorem test_resume : let x := (after (.resume 2 3 0) (described .stopped false true)).ctx 0
    x.state = .active ∧ x.faultMore = 0 ∧ ((after (.resume 2 4 0) (described .stopped false true)).ctx 0).state = .stopped := by decide
theorem test_reset : ((after (.contextReset 0) (described .active false true)).ctx 0).state = .resetting ∧ ((after (.contextReset 0) (described .active false true)).ctx 0).resetAt = some 0 := by decide
theorem test_reset_finished : let x := (after (.contextResetFinished 0) resetting).ctx 0
    x.state = .disabled ∧ x.ctail = 0 ∧ x.reg 2 = 0 ∧ (after (.contextResetFinished 0) resetting).flights = [] := by decide

/-- Contexts 1 (VTIME 9) and 2 (VTIME 4) want a slot. -/
def wanting : State :=
  let x (v : Nat) : Ctx := { state := .active, vtime := v, rings := [(0, { enable := true, tail := 1, left := 1 })] }
  (awake.setCtx 1 (x 9)).setCtx 2 (x 4)
theorem wit_SchedulerGrants_slot : wanting.stopped = false ∧ wanting.wants 1 = true ∧ (wanting.fn 0).maxSlots = 0 ∧ wanting.ctxs.map (·.1) = [1, 2] ∧ wanting.freeSlot = some 0 := by decide
/-- All 256 slots taken by idle contexts, and context 300 wants one. -/
def full : State :=
  { awake with ctxs := ((List.range 256).map fun i => (i, { state := .idle, resident := true, slot := i, vtime := 256 - i })) ++ [(300, { state := .active, rings := [(0, { enable := true, tail := 1, left := 1 })] })] }
theorem wit_SchedulerGrants_swap : full.nextWanting = some 300 ∧ full.freeSlot = none ∧ full.leaver 300 = some 255 ∧ (full.ctx 255).slot = 255 := by decide
theorem test_slot_grant : ((after .slotGrant wanting).ctx 2).resident = true ∧ ((after .slotGrant wanting).ctx 1).resident = false := by decide
theorem test_swap_out : ((after (.contextSwapOut 255) full).ctx 255).resident = false := by decide
theorem test_scheduler_tick : ((after .schedulerTick ((awake.setCtx 1 { resident := true, share := 16 }).setCtx 2 { share := 1 })).ctx 1).vtime = 256 ∧
    ((after .schedulerTick ((awake.setCtx 1 { resident := true, share := 16 }).setCtx 2 { share := 1 })).ctx 2).vtime = 0 := by decide
/-- Two instructions wait for a credit of pool 9, of contexts 1 and 2; two ATTENDs for Quire 0. -/
def crediting : State := (wanting.setFlight 5 { ctx := 1, wantCredit := some 9 }).setFlight 6 { ctx := 2, wantCredit := some 9 }
def quiring : State := ((wanting.setFlight 5 { ctx := 1, word := 0x30 }).updGath 0 fun _ => { live := true, owner := 1, grec := { layers := 1, qmask := 3 } })
theorem wit_SchedulerGrants_credit : (∀ p ∈ crediting.flights, p.2.phase ≠ .ended ∧ p.2.awaits 9 = true ∧ crediting.creditFree p.2.ctx 9 = true) ∧ crediting.flights ≠ [] ∧
    quiring.pwr.tripped = false ∧ quiring.firstFlight (quiring.flights.filter quiring.quireWaiter) = some 5 ∧
    (∀ q ∈ quiresOf (quiring.gath (gField (quiring.flight 5).a)).grec.qmask, quiring.fq.held.get q 0 = 0) ∧ quiresOf 3 = [0, 1] ∧ crediting.poolExists 9 = true ∧ crediting.poolExists 12 = true ∧ crediting.poolExists 333 = false := by decide
theorem test_credit_grant : (after (.creditGrant 9) crediting).flights.map (fun p => (p.1, p.2.holds)) = [(5, []), (6, [9])] := by decide
theorem test_quire_grant : (after .quireGrant quiring).fq.held = [(0, 6), (1, 6)] := by decide

/-- Function 3, whose heartbeat ends at cycle 1,050,000, with an ACTIVE context 0 that was orphaned at 0 in another state of it; and a lease. -/
def beating (now : Nat) : State := { (({ withCtx { state := .active, function := 3 } with dev := { awake.dev with cfgReady := true } }).updFn 3 fun _ => { enabled := true, hbMs := 1 }) with now := now }
def orphaned : State :=
  { ((withCtx { state := .orphaned, function := 3, orphanAt := some 0 }).updSeq 4 fun _ => { state := 1, owner := 0, entries := [{ base := 8 }] }) with now := 2 ^ 60 }
def leasing (j : Job) (now : Nat) : State := { ((flying { word := 0x14, walker := some 7, job := j }).updRegion 3 fun _ => { used := true, publishing := true }) with now := now }
theorem wit_HostLossAndLeases : (beating 1050000).stopped = false ∧ ((beating 0).fn 3).enabled = true ∧ ((beating 0).fn 3).hbMs ≠ 0 ∧ ((beating 0).fn 3).silent = false ∧
    ((beating 0).fn 3).beatAt + ((beating 0).fn 3).hbMs * 1050000 = 1050000 ∧ (orphaned.ctx 0).orphanAt = some 0 ∧ (orphaned.ctx 0).state = .orphaned ∧
    (0 + (orphaned.fn (orphaned.ctx 0).function).holdS * secCycles ≤ orphaned.now ∧ orphaned.dev.pchDown = []) ∧
    (leasing .none 0).lease 1 5 = some 7 ∧ (leasing (.publish 3 0 [(1, 0)]) 0).lease 1 5 = some 7 ∧
    (leasing .none (2 ^ 60)).lockUs * 1050 ≤ 2 ^ 60 ∧ 0 < (leasing .none 0).lockUs * 1050 ∧ (∀ j, (leasing j 0).flight? 1 = some { word := 0x14, walker := some 7, job := j }) := by
  refine ⟨by decide, by decide, by decide, by decide, by decide, by decide, by decide, by decide, by decide, by decide, by decide, by decide, fun _ => rfl⟩
theorem wit_HostLossAndLeases_job : ∀ a b c, Job.none ≠ .publish a b c := fun _ _ _ h => nomatch h
theorem test_heartbeat : ((after (.heartbeat 3 8) (beating 9)).fn 3).beatAt = 9 ∧ ((after (.heartbeat 3 8) (beating 9)).fn 3).beats = 1 := by decide
theorem test_heartbeat_timeout : ((after (.heartbeatTimeout 3) (beating 1050000)).ctx 0).state = .orphaned ∧ ((after (.heartbeatTimeout 3) (beating 1049999)).ctx 0).state = .active := by decide
theorem test_orphan_hold : ((after (.orphanHoldExpired 0) orphaned).seq 4).entries.map (fun e => (e.cls, e.hint)) = [(1, 2)] := by decide
theorem test_lease : ((after (.leaseExpired 1 5) (leasing .none (2 ^ 60))).flight? 1).map (·.status) = some stAborted ∧ ((after (.leaseExpired 1 5) (leasing .none 0)).flight? 1).map (·.phase) = some .dispatched := by decide

theorem wit_FunctionResets : ((beating 0).fn 3).enabled = true ∧ ((beating 0).ctx 0).function = 3 ∧ ((beating 0).ctx 0).state ≠ .disabled ∧ (((beating 0).updQp 2 fun _ => { state := .rts, function := 3 }).qp 2).function = 3 ∧ 3 ≠ 0 := by decide
theorem test_flr : ((after (.functionLevelReset 3) (beating 0)).ctx 0).state = .resetting ∧
    ((after (.functionLevelReset 3) ((beating 0).updQp 2 fun _ => { state := .rts, retry := 1, function := 3 })).qp 2).state = .reset := by decide
theorem test_vf : ((after (.vfConfigWrite true 2) (beating 0)).fn 2).enabled = true ∧ ((after (.vfConfigWrite true 2) awake).fn 2).enabled = false ∧
    ((after (.vfConfigWrite false 2) (beating 0)).fn 3).enabled = false := by decide

/-- Function 3's vectors 4,096 to 4,099, MSI-X enabled, entry 1 unmasked and entry 2 kept; a request is pending at device vector 4,097. -/
def vectored (now : Nat) : State :=
  let s := awake.updFn 3 fun _ => { vecBase := 4096, vecCount := 4, msixEn := true, msix := [(1, { unmasked := true, addr := 64, data := 9 }), (2, { pending := true, addr := 68, data := 7 })], cnt := [(5, 8)], sig := [(0, 1), (1, 2)] }
  { s with vms := [(4097, { pending := 1, first := 0, least := 2 })], now := now, err := { s.err with head := 3, tail := 5, cnt := [(5, 8)] } }
theorem wit_InterruptsAndCounters : (vectored 2100).stopped = false ∧
    (vectored 2100).fns.find? (fun p => decide (p.2.vecBase ≤ 4097 ∧ 4097 < p.2.vecBase + p.2.vecCount)) = some (3, (vectored 0).fn 3) ∧
    ((vectored 2100).vms.get 4097 {}).pending ≠ 0 ∧ ((vectored 2100).vms.get 4097 {}).first + ((vectored 2100).vms.get 4097 {}).least * 1050 ≤ (vectored 2100).now ∧
    ((vectored 0).fn 3).msixEn = true ∧ ((vectored 0).fn 3).fnMask = false ∧ (((vectored 0).fn 3).msix.get 1 {}).unmasked = true ∧ (((vectored 0).fn 3).msix.get 2 {}).pending = true ∧
    (vectored 0).rangeOk 4 4100 4 = true ∧ (vectored 0).rangeOk 4 4099 4 = false ∧ fld (0x105 : BitVec 64).toNat 8 1 = 1 ∧ fld (0x30005 : BitVec 64).toNat 8 1 = 0 := by decide
theorem test_fn_vec : ((after (.fnVecWrite 4 0x41004) (vectored 0)).fn 4).vecBase = 4100 ∧ ((after (.fnVecWrite 4 0x41003) (vectored 0)).fn 4).cfgErr = true := by decide
theorem test_holdoff : (after (.msixHoldoffExpiry 4097) (vectored 2100)).out = [.msix 3 64 9] ∧ (after (.msixHoldoffExpiry 4097) (vectored 2099)).out = [] := by decide
theorem test_unmask : (after (.msixUnmask 3 2) (vectored 0)).out = [.msix 3 68 7] := by decide
theorem test_cnt_cmd : (after (.cntCmd 0x105) (vectored 0)).err.cnt = [] ∧ ((after (.cntCmd 0x30005) (vectored 0)).fn 3).cnt = [] := by decide
theorem test_sig_clear : ((after (.sigClear 3 2) (vectored 0)).fn 3).sig = [(0, 1)] := by decide
theorem test_err_head : (after (.errHeadWrite 5) (vectored 0)).err.head = 5 ∧ (after (.errHeadWrite 6) (vectored 0)).err.head = 3 := by decide

/-- Ring 1 of an ACTIVE context has asked for two entries at index 65,535; page 8's swap read has returned. -/
def reads : State := withCtx { state := .active, rings := [(1, { enable := true, fetch := 65535, tail := 1, left := 2, reading := 2 })] }
def swapped : State :=
  let s := (awake.updPage 8 fun _ => { state := .sealed, tier := 3, aux := 1, refcount := 1, cls := 1, moving := true })
  let s := { s with tier := { s.tier with moves := [{ page := 8, kind := .demand, started := true, tier := 3, landing := 32 }] } }
  s.updAux 1 fun _ => { homeTier := 3, tag := BitVec.ofNat 128 (ofLe (gcmTag (s.k2 0) (homeIv 8 0 3) (homeAad 8 (s.page 8) 0) [])) }
theorem wit_UpstreamCompletions : reads.stopped = false ∧ ((reads.ctx 0).ring 1).reading ≠ 0 ∧ ((reads.ctx 0).ring 1).fetch < 65536 ∧ (reads.ctx 0).state = .active ∧
    ((reads.ctx 0).ring 2).reading = 0 := by decide
theorem wit_UpstreamCompletions_swap : ∃ m b, swapped.moveOf 8 = some m ∧ m.started = true ∧ m.kind.inward = true ∧ m.byKettle = false ∧ (swapped.page 8).hint ≠ 2 ∧ m.tier = 3 ∧ swapped.dev.pchDown = [] ∧
    ([] : List (BitVec 8)).length = (swapped.page 8).sheets * 4096 ∧ swapped.openRun m [] = some b := by
  have h : swapped.openRun { page := 8, tier := 3, landing := 32, started := true } [] = some (gcmCrypt (swapped.k2 0) (homeIv 8 0 3) []) := by
    unfold State.openRun
    exact (if_neg (fun h => nomatch h)).trans (if_pos rfl)
  exact ⟨_, _, rfl, rfl, rfl, rfl, by decide, rfl, rfl, rfl, h⟩
theorem test_completion : let r := ((after (.upstreamReadCompletion false 0 1 0 0 (leBytes 64 (7 + 9 * 2 ^ 256))) reads).ctx 0).ring 1
    r.fetch = 1 ∧ r.fetched = [{ index := 65535, granule := 7 }, { index := 0, granule := 9 }] := by decide
theorem test_completion_fails : ((after (.upstreamReadCompletion false 0 1 0 2 []) reads).ctx 0).faultStatus = stTimeout := by decide

/-- Page 5, sealed, of one sheet, on Filament port 0 at sheet 7; its move is wanted (or started at cycle 0, to land at sheet 40), and instruction 1 waits for it. -/
def fetching (started : Bool) (now : Nat) : State :=
  let s := ((flying { word := 0x30, phase := .begun, job := .pages [5] 1 }).updPage 5 fun _ => { state := .sealed, tier := 1, location := 7, sheets := 1, refcount := 1, cls := 2, moving := started }).updPort 0 fun _ =>
    { kind := 1, width := 2, avail := true, sheets := 64 }
  { s with now := now, ps := { s.ps with size := s.ps.size.put 6 1000 }, tier := { s.tier with moves := [{ page := 5, tier := 1, loc := 7, credit := 11, started := started, landing := if started then 40 else 0 }] } }
theorem wit_InwardMoves_start : let s := fetching false 0
    s.stopped = false ∧ s.dev.engineDown.get 4 false = false ∧ (∃ m, s.moveOf 5 = some m ∧ (∃ r, sortBy Move.before (s.tier.moves.filter fun m => !m.started) = m :: r) ∧ m.kind.inward = true ∧ m.credit ≠ 0) ∧
    (s.page 5).state = .sealed ∧ (s.page 5).tier ≠ 0 ∧ (s.port (s.locPort (s.page 5).tier (s.page 5).location)).avail = true ∧
    s.portReady 1 (s.locPort 1 7) 1 = true ∧ s.freeWalker.isSome = true ∧ (s.takePool (s.page 5).sheets false).isSome = true ∧ s.dev.pchDown = [] ∧ (s.moveOf 5).map (·.kind) = some .demand := by
  refine ⟨by decide, by decide, ⟨_, rfl, ⟨_, rfl⟩, rfl, by decide⟩, by decide, by decide, by decide, by decide, by decide, rfl, rfl, rfl⟩
theorem wit_InwardMoves_land : let s := fetching true 105000
    ∃ m, s.moveOf 5 = some m ∧ m.started = true ∧ m.kind.inward = true ∧ m.kind ≠ .prefetch ∧ s.dev.pchDown = [] ∧ m.since + s.tierTimeout m.tier ≤ s.now ∧
      (fetching true 104999).now < m.since + s.tierTimeout m.tier ∧ (∃ c b, (s.tierRead m (zeros 4608)).2 = some c ∧ s.openRun m c = some b) ∧
      (zeros 4608).length = (s.page 5).sheets * 4608 ∧ m.byKettle = false ∧ (s.page 5).hint ≠ 2 ∧ s.flight? 1 = some { word := 0x30, phase := .begun, job := .pages [5] 1 } :=
  ⟨_, rfl, rfl, rfl, (fun h => nomatch h), rfl, by decide, by decide, ⟨_, _, rfl, rfl⟩, List.length_replicate .., rfl, by decide, rfl⟩
theorem wit_InwardMoves_wait : let s := { fetching false 105000 with ps := { (fetching false 0).ps with size := (fetching false 0).ps.size.put 6 128 } }
    ∃ m, s.moveOf 5 = some m ∧ m.started = false ∧ m.kind = .demand ∧ m.asked + s.tierTimeout (s.page 5).tier ≤ s.now ∧ s.takePool (s.page 5).sheets false = none ∧
      (fetching false 104999).now < m.asked + s.tierTimeout 1 := ⟨_, rfl, rfl, rfl, by decide, rfl, by decide⟩
theorem test_inward_fails : let t := after (.inwardMoveFailed 5 1) (fetching true 0)
    (t.page 5).poison = true ∧ t.tier.moves = [] ∧ (t.flight? 1).map (·.status) = some stPoisoned := by decide
theorem test_inward_timeout : ((after (.tierReadTimeout 5) (fetching true 105000)).flight? 1).map (·.status) = some stTierFail ∧
    ((after (.tierReadTimeout 5) (fetching true 104999)).flight? 1).map (·.phase) = some .begun := by decide

/-- Page 5 in T0 at sheet 40 is being written to tier `t`: port 3's run 8. -/
def writing (t now : Nat) : State :=
  let s := (((awake.updPage 5 fun _ => { state := .sealed, location := 40, sheets := 1, refcount := 1, cls := 1, aux := 1, moving := true, hint := 2 }).updAux 1 fun _ => {}).updPort 3 fun _ => { kind := t, avail := true, sheets := 64 })
  { s with now := now, ps := { s.ps with poolRuns := [(40, 1)] }, tier := { s.tier with moves := [{ page := 5, kind := .spill, tier := t, port := 3, loc := 8, started := true }] } }
theorem wit_OutwardMoves : let s := writing 2 2100000
    s.stopped = false ∧ (∃ m, s.moveOf 5 = some m ∧ m.started = true ∧ m.kind.inward = false ∧ m.abandoned = false ∧ m.tier = 2 ∧ m.kind ≠ .placement ∧ m.keep = false ∧
      m.since + s.tier.t2us * 1050 ≤ s.now ∧ (writing 2 2099999).now < m.since + s.tier.t2us * 1050) ∧ (s.page 5).cls ≠ 0 ∧ (s.page 5).aux ≠ 0 ∧ (s.page 5).state ≠ .retiring ∧ (s.page 5).tier = 0 :=
  ⟨rfl, ⟨_, rfl, rfl, rfl, rfl, rfl, (fun h => nomatch h), rfl, by decide, by decide⟩, by decide⟩
theorem test_spilled : let t := after (.outwardMoveDone 5) (writing 1 0)
    (t.page 5).tier = 1 ∧ (t.page 5).location = 8 ∧ (t.auxRec 1).homeTier = 1 ∧ t.tier.moves = [] := by decide
theorem test_write_fails : let t := after (.outwardWriteFail 5) (writing 2 0)
    (t.page 5).tier = 0 ∧ (t.port 3).writeErr = true ∧ (t.page 5).moving = false := by decide
/-- Pages 5 (no hint) and 6 (COLD) have copies at home; FREE_SHEETS is 100. -/
def reclaiming : State :=
  let g (a h : Nat) : Page := { state := .sealed, location := 40 + a, sheets := 1, refcount := 1, cls := 1, aux := a, hint := h }
  let s := (((awake.updPage 5 fun _ => g 1 0).updPage 6 fun _ => g 2 2).updAux 1 fun _ => { homeTier := 1, homeLoc := 8 }).updAux 2 fun _ => { homeTier := 1, homeLoc := 9 }
  { s with ps := { s.ps with size := s.ps.size.put 6 230, poolRuns := [(41, 1), (42, 1)] }, tier := { s.tier with low := 101, high := 101 } }
theorem wit_OutwardMoves_pass : reclaiming.freeSheets = 100 ∧ reclaiming.tier.low = 101 ∧ reclaiming.passDone = false ∧
    sortBy reclaiming.keyBefore ((reclaiming.ps.pages.filter fun p => reclaiming.canDrop p.1).map (·.1)) = [6, 5] ∧
    (let s := { reclaiming with tier := { reclaiming.tier with low := 100 } }; s.stopped = false ∧ s.tier.low ≤ s.freeSheets) := by decide
/-- Page 5 has no home copy and Filament port 3 has room; FREE_SHEETS is 101, below LOW. -/
def spilling : State :=
  let s := (awake.updPage 5 fun _ => { state := .sealed, location := 41, sheets := 1, refcount := 1, cls := 1, aux := 1 }).updPort 3 fun _ => { kind := 1, width := 2, avail := true, sheets := 64 }
  { s with ps := { s.ps with size := s.ps.size.put 6 230, poolRuns := [(41, 1)] }, tier := { s.tier with low := 102, high := 102, spillEn := true } }
theorem wit_OutwardMoves_spill : spilling.stopped = false ∧ spilling.passDone = false ∧ spilling.freeSheets < spilling.tier.low ∧
    sortBy spilling.keyBefore ((spilling.ps.pages.filter fun p => spilling.canDrop p.1).map (·.1)) = [] ∧ spilling.tier.spillEn = true ∧ spilling.small = false ∧
    spilling.nextSpill = some 5 ∧ ({ spilling with tier := { spilling.tier with passing := true, low := 1, high := 200 } } : State).passDone = false ∧
    ({ spilling with tier := { spilling.tier with low := 1, high := 1 } } : State).passDone = true := by decide
theorem test_spill : ((after .reclaimPass spilling).moveOf 5).map (·.kind) = some .spill := by decide
/-- COLD goes first, and one sheet is enough (05 R160, R161). -/
theorem test_reclaim : ((after .reclaimPass reclaiming).page 6).tier = 1 ∧ ((after .reclaimPass reclaiming).page 5).tier = 0 := by decide

/-- A policy context 0 with an input buffer of one sheet at sheet 64; slot 3 holds an automaton of two states and two classes at sheet 80, or none. -/
def ruling (loaded poison : Bool) : State :=
  let s := withCtx { state := .idle, policy := true, inSheet := 64, inSheets := 1 }
  let s := { s with ps := { s.ps with size := s.ps.size.put 6 (2 ^ 20) } }
  if loaded then { s with awl := { s.awl with autos := [(3, { loaded := true, poison := poison, states := 2, classes := 2, vocab := 4, maxlen := 2, sheet := 80 })] } } else s
/-- `ruling` with the image of such an automaton at input offset 32: token 1 has class 1; from state 0 it leads to state 1, which accepts. -/
def image : List (Nat × BitVec 8) :=
  let b := 64 * 4096 + 32
  [(b, 2), (b + 4, 2), (b + 6, 4), (b + 12, 2), (b + 65, 1), (b + 98, 1), (b + 128, 2)]
def imaging : State := { ruling false false with t0 := image }
theorem wit_AwlCommandsAndScan : (ruling true false).stopped = false ∧ (ruling true false).awl.loading = none ∧ awake.awl.loading = none ∧ (awake.ctx 0).policy = false ∧
    ((ruling true false).ctx 0).policy = true ∧ ((ruling true false).ctx 0).state = .idle ∧ ((ruling true false).auto 3).loaded = true ∧
    ((ruling true true).auto 3).poison = true ∧ ((ruling true false).auto 3).poison = false ∧ (ruling true false).autoUsed 3 = false ∧
    ({ ruling true false with awl := { (ruling true false).awl with binds := [(5, 4)] } } : State).autoUsed 3 = true ∧ (ruling false false).auto 3 = {} ∧
    ((ruling false false).ctx 0).inLen < 4096 - 32 + 64 ∧ 31 % 32 ≠ 0 := by decide
theorem wit_AwlCommandsAndScan_load : let s := imaging
    let h := ofLe (s.t0Read ((s.ctx 0).inAddr + 32) 64)
    let img := parseAuto h
    32 % 32 = 0 ∧ 32 + 64 ≤ (s.ctx 0).inLen ∧ s.dev.pchDown = [] ∧ autoHeaderOk h = true ∧ img.imageLen = 129 ∧ 32 + img.imageLen ≤ (s.ctx 0).inLen ∧
      autoBodyOk img (s.t0Read ((s.ctx 0).inAddr + 32) img.imageLen) = true ∧ ∃ run u, s.takeRun (cdiv img.imageLen 4096) = some (run, u) :=
  ⟨by decide, by decide, by decide, by decide, by decide, by decide, by decide, ⟨_, _, rfl⟩⟩
theorem test_awl_load : (after (.awlLoad 0 3 0) (ruling false false)).awl.status = stRange ∧ (after (.awlLoad 0 3 0) (ruling true false)).awl.status = stBusy ∧
    (after (.awlLoad 0 3 0) awake).awl.status = stPermission := by decide
theorem test_awl_bind : (after (.awlBind 0 3 9 1) (ruling true false)).awl.binds = [(37, 4)] := by decide
/-- The image stands at sheet 80 as well; sequence 4, of two tokens a block, has it in entry 0 in state 0; token 1 of position 5 waits in queue 2. -/
def scanning : State :=
  let s := (((ruling true false).updSeq 4 fun _ => { state := 1, tpp := 2, entries := [{ base := 8 }, { base := 10 }, { base := 12 }] }).updStream 4 fun _ => { used := true, autos := [(0, 4)] })
  { s with t0 := image.map fun c => (c.1 + 16 * 4096 - 32, c.2), awl := { s.awl with queues := [(2, [{ seq := 4, pos := 5, id := 1 }, { seq := 4, pos := 6, id := 2 }])] } }
theorem wit_AwlCommandsAndScan_scan : let s := scanning
    s.awl.queues.get 2 [] = { seq := 4, pos := 5, id := 1 } :: [{ seq := 4, pos := 6, id := 2 }] ∧ s.dev.awlDown.get 2 false = false ∧ s.dev.pchDown = [] ∧
      (s.stream 4).used = true ∧ (s.stream 4).autos.get 0 0 = 3 + 1 ∧ (s.auto 3).poison = false ∧ s.autoStep (s.auto 3) ((s.stream 4).states.get 0 0) 1 = (1, true) ∧
      (5 + 1 - (s.auto 3).maxlen) / max (s.seq 4).tpp 1 = 2 := by decide
theorem test_awl_scan : let t := after (.awlTokenScan 2) scanning
    (t.stream 4).nextPos = 1 ∧ (t.stream 4).matchCount = 1 ∧ (t.seq 4).entries.map (·.fenced) = [false, false, true] := by decide

/-- Queue pair 5 of function 3 in a state, its port 0 with source 1 enabled; subscriber 9 of function `f`; 1 Ethernet port in use. -/
def pairing (st : QpState) (f : Nat) : State :=
  let s := awake.updQp 5 fun _ => { state := st, function := 3, owner := 0, subscriber := 9, sgid := 1, path := [(0, {})], sent := [{}] }
  let s := s.setCtx 0 { function := 3 }
  { s with net := { s.net with srcs := [(1, 1)], subs := [(9, { function := f })], mode := 2, wInit := 16 } }
theorem wit_QueuePairCommands : (pairing .reset 3).stopped = false ∧ ((pairing .reset 3).qp (5 % 16384)).function ≠ 4 ∧ ((pairing .reset 3).qp 5).function = 3 ∧
    ((pairing .reset 3).qp 5).state = .reset ∧ (pairing .reset 3).initOk 5 = true ∧ (pairing .reset 3).initOk 1 = false ∧
    ((pairing .reset 3).sub 9).function = 3 ∧ ((pairing .reset 4).sub 9).function ≠ 3 := by decide
theorem wit_QueuePairCommands_state (st : QpState) : ((pairing st 3).qp (16384 + 5)).function = 0 ∧ ((pairing st 3).qp ((16384 + 5) % 16384)).state = st := by cases st <;> decide
theorem test_qp_init : let t := after (.toInit 2 3 5) (pairing .reset 3)
    (t.qp 5).state = .init ∧ (t.cmdSet 4).qpStatus = stOk ∧ (t.qp 5).sent = [] := by decide
theorem test_qp_init_permission : ((after (.toInit 2 3 5) (pairing .reset 4)).cmdSet 4).qpStatus = stPermission ∧ ((after (.toRtr 2 4 5) (pairing .init 3)).cmdSet 5).qpStatus = stPermission := by decide
theorem test_qp_rts : let t := after (.toRts 0 0 5) (pairing .rtr 3)
    (t.qp 5).state = .rts ∧ ((t.qp 5).path.get 0 {}).w = 4096 ∧ (t.qp 5).credit = 64 ∧ (t.qp 5).expect = 1 := by decide
theorem test_qp_error : ((after (.toError 0 0 5) (pairing .rts 3)).qp 5).errCause = 8 ∧ ((after (.toError 0 0 5) (pairing .init 3)).qp 5).state = .init ∧
    ((after (.toReset 0 0 5) (pairing .error 3)).qp 5).state = .reset := by decide
/-- The words of a queue pair's context (10 R302): STATE 3, FUNCTION 3 and SUBSCRIBER 9; RETRY 7 at bit 24 of the third word. -/
theorem test_qp_read : let m := (after (.qpRead 0 0 5) (pairing .rts 3)).cmdSet 0
    m.data.get 0 0 = 0x1009200000000303 ∧ m.data.get 2 0 = 0x7000000 := by decide
theorem test_qp_write : ((after (.qpWrite 0 0 5) { pairing .reset 3 with net := { (pairing .reset 3).net with sets := [(0, { data := [(0, 0x300), (1, 0x1234)] })] } }).qp 5).destQpn = 0x1234 := by decide

/-- BAR0's command set asks for a write registration of bytes 4,096 to 8,191 of context 0's input buffer, of function 3. -/
def creating (regs : Tbl Reg) : State :=
  let s := withCtx { function := 3, inSheet := 64, inSheets := 2 }
  { s with net := { s.net with regs := regs, sets := [(0, { regData0 := 0x10000, regData1 := 0x100000001000 }), (5, { regData0 := 0x10000, regData1 := 0x100000001000 })] } }
theorem get_filled {α : Type} (r d : α) (j : Nat) : ∀ l : List Nat, j ∈ l → Tbl.get (l.map fun i => (i, r)) j d = r
  | [], h => nomatch h
  | i :: l, h => by
    by_cases e : i = j
    · simp [Tbl.get, e]
    · have := get_filled r d j l ((List.mem_cons.mp h).resolve_left fun h => e h.symm)
      simpa [Tbl.get, e] using this
theorem wit_RegistrationCommands : let s := creating []
    s.stopped = false ∧ (s.cmdSet 0).regBusy = false ∧ (awake.ctx 0).object 5 0 = none ∧
      (let d0 := (s.cmdSet 0).regData0.toNat; let d1 := (s.cmdSet 0).regData1.toNat;
        (s.ctx (fld d0 0 10)).object (fld d0 10 3) (fld d0 13 3) = some (8192, [1, 2, 3]) ∧ fld d0 16 2 ∈ [1, 2, 3] ∧ fld d1 0 32 + fld d1 32 32 = 8192 ∧ fld d0 10 3 ≠ 4) ∧
      (s.cmdSet 5).regData0 = (s.cmdSet 0).regData0 ∧ (s.ctx 0).function ≠ 4 ∧ (s.reg 65535).valid = false ∧ (s.cmdSet 0).extBusy = false := by decide
theorem wit_RegistrationCommands_full : ∀ j < 65536, ((creating ((List.range 65536).map fun j => (j, { valid := true }))).reg j).valid = true := fun j h => by
  have e : (creating ((List.range 65536).map fun j => (j, { valid := true }))).reg j = { valid := true } := get_filled _ _ j _ (List.mem_range.mpr h)
  rw [e]
/-- Registration 7 of context 0, REVOKING for BAR0's set or not; extents 1 (granted, generation 2) and 2 (withdrawing) of subscriber 9 of function 3. -/
def revokingReg (b : Bool) (msgs : List InMsg) : State :=
  let s := (creating [(7, { valid := true, gen := 65535, revoking := b, revokedBy := if b then 1 else 0 })]).updQp 5 fun _ => { state := .rts, msgs := msgs }
  { s with net := { s.net with exts := [(1, { granted := true, gen := 2, sub := 9 }), (2, { granted := true, gen := 2, withdrawing := true, sub := 9 })], subs := [(9, { function := 3 })] } }
theorem wit_RegistrationCommands_revoke : let s := revokingReg true []
    let u := revokingReg false []
    (u.reg 7).valid = true ∧ (u.reg 7).revoking = false ∧ (u.ctx (u.reg 7).ctx).function = 3 ∧ (s.reg 7).valid = true ∧ (s.reg 7).revoking = true ∧
      (∀ q ∈ s.net.qps, ∀ g ∈ q.2.msgs, g.reg ≠ 8) ∧ (∃ q ∈ (revokingReg true [{ reg := 8 }]).net.qps, ∃ g ∈ q.2.msgs, g.reg = 8) ∧
      s.extent (extIndex 0x2001) = { granted := true, gen := extGen 0x2001, sub := 9 } ∧ (s.extent (extIndex 0x3001)).gen ≠ extGen 0x3001 ∧
      (s.extent (extIndex 0x2002)).withdrawing = true ∧ (s.extent (extIndex 0x2002)).gen = extGen 0x2002 ∧ (s.sub 9).function = 3 := by decide
theorem test_create : let t := after (.create 0 0) (creating [])
    (t.cmdSet 0).regStatus = stOk ∧ (t.net.regs.map fun r => (r.2.offset, r.2.length, r.2.access)) = [(4096, 4096, 1)] := by decide
theorem test_revoked : let t := after (.revocationEnd 7) (revokingReg true [])
    (t.reg 7).gen = 0 ∧ (t.reg 7).valid = false ∧ (after (.revocationEnd 7) (revokingReg true [{ reg := 8 }])).net.regs.length = 1 := by decide

/-- The network in MODE 1 with link 0 enabled and up. -/
def linked : State := { awake with net := { awake.net with mode := 1, linkEn := 1, ports := [(0, { linkUp := true })] } }
theorem wit_PortsLayoutAndGauges_mode : linked.stopped = false ∧ fld (0x100 : BitVec 64).toNat 0 2 ≠ linked.net.mode ∧ linked.net.linkEn ≠ 0 ∧ fld (0x101 : BitVec 64).toNat 0 2 = linked.net.mode ∧
    awake.net.linkEn = 0 ∧ awake.dev.variant ≠ .lg4080 ∧ 0 < linked.netPorts ∧ linked.net.linkEn.getLsbD 0 = true ∧ linked.portDown 0 = false ∧ linked.net.linkEn.getLsbD 1 = false := by decide
theorem test_mode : (after (.netModeWrite 0x102) linked).net.mode = 1 ∧ (after (.netModeWrite 0x102) linked).net.cfgErr = true ∧
    (after (.netModeWrite 0x202) awake).net.mode = 2 ∧ ((after (.netModeWrite 0x001) linked).net.ports.get 0 {}).linkUp = false := by decide
theorem test_link : ((after (.ethernetLinkChange 0 false) linked).net.ports.get 0 {}).linkUp = false ∧ (after (.ethernetLinkChange 1 true) linked).net.ports.length = 1 := by decide
/-- A directory bank in each of the eight partitions. -/
def dirBanked : State := { awake with spine := { awake.spine with banks := (List.range 8).map fun g => (16 * g + 3, { width := 1, role := 1 }) } }
theorem wit_PortsLayoutAndGauges_role : (∀ g < 8, ∃ k < 16, (dirBanked.bank (16 * g + k)).units = 2 ∧ (dirBanked.bank (16 * g + k)).role = 1) ∧
    (¬ ∀ g < 8, ∃ k < 16, (linked.bank (16 * g + k)).units = 2 ∧ (linked.bank (16 * g + k)).role = 1) ∧ (0x51 : BitVec 64).getLsbD 0 = true := by decide
theorem test_role : (after (.dirRoleWrite 0x51) dirBanked).net.role = true ∧ (after (.dirRoleWrite 0x51) dirBanked).net.workerId = 5 ∧ (after (.dirRoleWrite 0x51) linked).net.dirCfgErr = true := by decide
/-- The reset layout is pending; in `squeezed`, SUM lies beyond T0 (a size of 2^27 sheets). -/
def squeezed : State := { awake with ps := { awake.ps with pSize := awake.ps.pSize.put 3 (2 ^ 27) } }
theorem wit_PortsLayoutAndGauges_commit : awake.layoutIdle = true ∧ (awake.updPage 5 fun _ => { state := .sealed }).layoutIdle = false ∧ (1 : BitVec 64).getLsbD 0 = true ∧
    awake.layoutBad awake.ps.pBase awake.ps.pSize awake.ps.pLimit = none ∧ squeezed.layoutBad squeezed.ps.pBase squeezed.ps.pSize squeezed.ps.pLimit = some 3 := by decide
theorem test_commit : (after (.commit 1) squeezed).ps.errRegion = 3 ∧ (after (.commit 1) squeezed).ps.size = awake.ps.size ∧ (after (.commit 1) { squeezed with ps := { squeezed.ps with pSize := squeezed.ps.size.put 3 524288, layoutValid := true } }).ps.size.get 3 0 = 524288 := by decide
theorem test_commit_busy : (after (.commit 1) (awake.updPage 5 fun _ => { state := .sealed })).ps.errRegion = 15 ∧ (after (.commit 0) awake).ps.layoutErr = false := by decide
theorem wit_PortsLayoutAndGauges_active : ({ awake with ps := { awake.ps with layoutActive := true } } : State).ps.layoutActive = true := rfl
/-- The governor at level 1 with limits 160 W and 96 °C, after `n` intervals below. -/
def governed (mode : Bool) (n : Nat) : State := { awake with now := 1048576, fq := { awake.fq with powerW := 160, tempC := 96, level := 1, below := n, mode := mode, govW := if mode then 5 else 0, limitW := 0x100006000A0 } }
/-- Two samples in the interval, of `w` W in the mean and a peak of `c` °C; and none, the last sample being as hot and as high. -/
def sampled (s : State) (w : Nat) (c : Int) : State := { s with pwr := { s.pwr with powerSum := 2000000 * w, powerCount := 2, diePeak := some c } }
def unsampled (s : State) (w : Nat) (c : Int) : State := { s with pwr := { s.pwr with powerCount := 0, lastPower := 1000000 * w, dieC := c } }
theorem wit_PortsLayoutAndGauges_governor : (governed true 0).fq.govFrom + (governed true 0).fq.interval * 1024 ≤ (governed true 0).now ∧ (governed true 0).fq.govW.getLsbD 0 = true ∧ (governed false 15).fq.govW.getLsbD 0 = false ∧ (governed false 0).fq.mode = false ∧
    (sampled (governed false 3) 161 0).pwr.interval = (322000000, 2, 0) ∧ (unsampled (governed false 3) 161 9).pwr.interval = (161000000, 1, 9) ∧ (governed false 0).fq.powerW * 1000000 * 2 < 322000000 ∧ Int.ofNat (governed false 0).fq.tempC < 97 ∧
    16 * 298000000 < 15 * ((governed false 0).fq.powerW * 1000000 * 2) ∧ 16 * (89 : Int) < 15 * Int.ofNat (governed false 0).fq.tempC ∧ (governed false 14).fq.below < 15 ∧ (governed false 15).fq.below = 15 := by decide
theorem test_governor : (after (.governorInterval 0 0) (sampled (governed false 3) 161 0)).fq.level = 2 ∧ (after (.governorInterval 0 0) (sampled (governed false 3) 0 97)).fq.level = 2 ∧ (after (.governorInterval 0 0) (sampled (governed false 15) 149 89)).fq.level = 0 ∧
    (after (.governorInterval 0 0) (unsampled (governed false 3) 161 0)).fq.level = 2 ∧ (after (.governorInterval 0 0) (sampled (governed false 14) 149 89)).fq.level = 1 ∧ (after (.governorInterval 0 0) (governed true 0)).fq.level = 2 := by decide
/-- Half the Folio-cycles worked; a quarter of the 1,022,611,260 bytes of 16,384 GB/s in 65,536 cycles at 1.05 GHz (10 R320, 01 R14). -/
theorem test_load : (after (.loadInterval 8388608 155652815 100000000) { awake with now := 65536 }).net.gFolio = 127 ∧
    (after (.loadInterval 8388608 155652815 100000000) { awake with now := 65536 }).net.gT0 = 63 := by decide

/-- Port 0 is up; queue pair 5, of subscriber 9 with meter `m`, is in a state. -/
def hearing (st : QpState) (m : Meter) : State :=
  let s := linked.updQp 5 fun _ => { state := st, subscriber := 9, vanged := true }
  { s with eg := { s.eg with meters := s.eg.meters.set 9 m {} }, net := { s.net with subs := [(9, { function := 3 })] } }
theorem wit_FramesReceived : (hearing .rts {}).stopped = false ∧ (hearing .rts {}).portUp 0 = true ∧ (hearing .rts {}).dev.engineDown.get 6 false = false ∧ 4352 < 4353 ∧
    ¬ 4352 < 4352 ∧ ((hearing .rts {}).qp 5).takes 0x0A = true ∧ ((hearing .rts { en := true }).eg.meters.get 9 {}).en = true ∧ opKind 0x0A = 1 ∧ 3 ≤ opKind 0x11 ∧
    (((hearing .rts { en := true }).eg.meters.get 9 {}).run ((hearing .rts { en := true }).dscpColor 0) 64).1 = 2 ∧ awake.portUp 0 = false ∧ 16383 < 16384 := by decide
theorem test_frame_rx : (after (.frameRx 0 { len := 64, qpn := 5, pkt := { op := 0x0A } }) (hearing .rts {})).net.accepted = [(5, { op := 0x0A })] ∧
    (after (.frameRx 0 { len := 4353, qpn := 5, pkt := { op := 0x0A } }) (hearing .rts {})).net.accepted = [] ∧
    (after (.frameRx 0 { len := 64, qpn := 5, pkt := { op := 0x0A } }) (hearing .rts { en := true })).net.accepted = [] := by decide

/-- Queue pair 5 of context 0 (an input buffer at sheet 64, the output buffer at 32) in RTS at RQ_PSN 16,777,215; registration 7 allows writing and reading of input bytes 4,094 to 8,191; `p` has come. -/
def placing (msgs : List InMsg) (p : Packet) : State :=
  let s := (hearing .rts {}).updQp 5 fun x => { x with rqPsn := 16777215, msgs := msgs }
  let s := s.setCtx 0 { inSheet := 64, inSheets := 2, outSheets := 2, outSheet := 32 }
  { s with now := 2 ^ 30, net := { s.net with accepted := [(5, p)], regs := [(7, { valid := true, kind := 0, access := 3, offset := 4094, length := 4098 })] } }
def writeOnly : Packet := { op := 0x0A, psn := 16777215, rkey := 7, va := 1, mlen := 2, payload := [5, 6] }
def sendOnly : Packet := { op := 0x04, psn := 16777215, payload := [1, 2, 3] }
def readReq : Packet := { op := 0x0C, psn := 16777215, rkey := 7, va := 4094, mlen := 4 }
theorem wit_InboundMessages : let s := placing [] writeOnly
    s.stopped = false ∧ s.net.accepted.find? (fun a => a.1 == 5) = some (5, writeOnly) ∧ writeOnly.psn = (s.qp 5).rqPsn ∧ (s.qp 5).rqPsn < 16777216 ∧ (s.qp 5).above = [] ∧
      (s.qp 5).held = [] ∧ (s.qp 5).state = .rts ∧ writeOnly.payload.length = 2 ∧ 2 ≤ (s.qp 5).mtu ∧ s.regAllows 5 7 1 2 0 = some 7 ∧ (s.reg 7).kind = 0 ∧
      s.tracks (s.qp 5) = true ∧ s.dev.pchDown = [] ∧ s.regAllows 5 0x10007 1 2 0 = none ∧ s.regAllows 5 7 4097 2 0 = none ∧ (s.qp 5).slots.length < (s.qp 5).rslots + 1 ∧
      s.regAllows 5 7 4094 4 1 = some 7 := by decide
theorem wit_InboundMessages_late : let s := placing [{ first := 8, mlen := some 9000 }] writeOnly
    (∃ m ∈ (s.qp 5).msgs, m.first = 8 ∧ m.done = false ∧ m.since + s.net.msgUs * 1050 ≤ s.now) ∧
      ¬ (∃ m ∈ (s.qp 5).msgs, m.first = 9 ∧ m.done = false ∧ m.since + s.net.msgUs * 1050 ≤ s.now) := by decide
/-- Bytes 4,095 and 4,096 of the buffer: sheets 0 and 1 have landings. -/
theorem test_inbound_write : let t := after (.inboundRdmaWrite 5) (placing [] writeOnly)
    t.t0 = [(64 * 4096 + 4095, 5), (64 * 4096 + 4096, 6)] ∧ (t.ctx 0).landing = [(0, true), (1, true)] ∧ (t.qp 5).rqPsn = 0 := by decide
theorem test_inbound_write_denied : ((after (.inboundRdmaWrite 5) (placing [] { writeOnly with va := 4097 })).qp 5).errCause = 4 := by decide
theorem test_inbound_send : ((after (.inboundSend 5) (placing [] sendOnly)).qp 5).slots = [[1, 2, 3]] := by decide
theorem test_message_timeout : ((after (.messageTimeout 5 8) (placing [{ first := 8, mlen := some 9000 }] writeOnly)).qp 5).errCause = 6 := by decide

/-- Queue pair 5 has sent PSNs 16,777,214 to 0 at cycle 0 (the last a read of two packets); the peer's packet `p` has come. -/
def sentAll (multi : Bool) (tries now : Nat) (p : Packet) : State :=
  let k (n : Nat) : SentPkt := { psn := n, frame := { qp := 5, op := 0x0A }, tries := tries };
  let s := (placing [] p).updQp 5 fun x => { x with multipath := multi, sqPsn := 2, path := [(0, { w := 9999 })], sent := [k 16777214, { k 16777215 with acked := multi, ackedAt := 0 }, { k 0 with frame := { qp := 5, op := 0x0C, psns := 2 } }] }
  { s with now := now }
theorem wit_AcknowledgedAndSentAgain : let s := sentAll false 0 16800 { op := 0x11, psn := 16777215 }
    let x := s.qp 5
    s.stopped = false ∧ x.state = .rts ∧ s.net.accepted.find? (fun a => a.1 == 5) = some (5, { op := 0x11, psn := 16777215 }) ∧ (∃ m ∈ x.sent, m.upTo 16777215 = true) ∧
      ¬ 8388608 ≤ psnSub (psnSub x.sqPsn 1) 16777215 ∧ (∃ m ∈ x.sent, psnSub 16777215 m.psn < m.frame.psns) ∧ (∀ m ∈ x.sent, m.frame.qp = 5 ∧ m.tries < x.retry) ∧
      s.requeued 5 16777214 = false ∧ x.ackUs * 1050 = s.now ∧ x.gapAt = none := by decide
theorem wit_AcknowledgedAndSentAgain_retry : (∃ k, ((sentAll false 7 16800 {}).qp 5).sent.find? (fun m => m.psn == 16777214) = some k ∧ k.acked = false ∧ 7 ≤ k.tries ∧ k.frame.qp = 5) ∧
    (sentAll false 7 16799 {}).now < ((sentAll false 7 0 {}).qp 5).ackUs * 1050 := ⟨⟨_, rfl, rfl, by decide, rfl⟩, by decide⟩
theorem wit_AcknowledgedAndSentAgain_multi : let s := sentAll true 0 (2 ^ 40) { op := 0xC4, msn := 16777214, bitmap := 1 }
    (s.qp 5).multipath = true ∧ psnSub (psnSub (s.qp 5).sqPsn 1) 16777214 < 8388608 ∧ (∃ m ∈ (s.qp 5).sent, m.acked = false ∧ ∃ l ∈ (s.qp 5).sent, l.acked = true ∧ l.psn ≠ m.psn ∧
      m.upTo l.psn = true ∧ max l.ackedAt m.since + s.net.reorderUs * 1050 ≤ s.now) := by decide
theorem wit_AcknowledgedAndSentAgain_response : ∃ k, ((sentAll false 0 0 {}).qp 5).sent.find? (fun m => m.isRead && m.frame.op == 0x0C && decide (psnSub 1 m.psn < m.frame.psns)) = some k ∧
    (∀ g ∈ k.got, g.1 ≠ psnSub 1 k.psn) ∧ k.got.length + 1 < k.frame.psns := ⟨_, rfl, (fun _ h => nomatch h), by decide⟩
def gapped (multi : Bool) : State := { ((hearing .rts {}).updQp 5 fun x => { x with multipath := multi, rqPsn := 3, above := [(4, 0)], gapAt := some 0 }) with now := 2 ^ 40 }
theorem wit_AcknowledgedAndSentAgain_gap (multi : Bool) : ((gapped multi).qp 5).gapAt = some 0 ∧ 0 + (gapped multi).net.reorderUs * 1050 ≤ (gapped multi).now ∧
    ((gapped multi).qp 5).state = .rts ∧ ((gapped multi).qp 5).multipath = multi ∧ ((gapped multi).qp 5).sent = [] := by cases multi <;> decide
theorem test_acknowledge : ((after (.inboundAcknowledge 5) (sentAll false 0 0 { op := 0x11, psn := 0 })).qp 5).sent.map (·.psn) = [0] ∧
    ((after (.inboundAcknowledge 5) (sentAll true 0 0 { op := 0xC4, msn := 16777214, bitmap := 1 })).qp 5).sent.map (·.psn) = [16777215, 0] := by decide
theorem test_nak : ((after (.inboundNak 5) (sentAll false 0 0 { op := 0x11, psn := 16777214, nak := 3 })).qp 5).errCause = 2 ∧
    ((after (.inboundNak 5) (sentAll false 0 0 { op := 0x11, psn := 16777215, nak := 1 })).queued 5).map (·.psn) = [16777215, 0] := by decide
theorem test_retransmit : ((after (.retransmitTimeout 5 16777214) (sentAll false 7 16800 {})).qp 5).errCause = 1 ∧
    ((after (.retransmitTimeout 5 16777214) (sentAll false 0 16800 {})).queued 5).map (fun f => (f.psn, f.again)) = [(16777214, true)] := by decide
theorem test_gap : (after (.reorderGapTimeout 5) (gapped true)).eg.bypass.get 0 [] = [{ kind := 1, qp := 5, psn := 2, bitmap := 2 }] ∧
    (after (.reorderGapTimeout 5) (gapped false)).eg.bypass.get 0 [] = [{ kind := 2, qp := 5, psn := 3 }] := by decide

/-- A request of a type with REQ_SEQ 1, extent ID 0x2001 and the given granules of body (0 to 2, as one number). -/
def request (typ granules body : Nat) : List (BitVec 8) := leBytes 32 (1 + typ * 2 ^ 8 + 2 ^ 32 + 0x2001 * 2 ^ 128 + 32 * granules * 2 ^ 160) ++ leBytes (32 * granules) body
/-- The body of a mirrored request: instruction word with immediate selectors, and operands A, B and C. -/
def mirrorBody (op a b c : Nat) : Nat := op + 0xFFFFFFFF * 2 ^ 32 + a * 2 ^ 64 + b * 2 ^ 128 + c * 2 ^ 192
/-- Queue pair 5 of subscriber 9 in RTS holds a request, EXPECT 1 and CREDIT 64; context 0 in a state owns it; extent 1 of generation 2 has 32 sheets. -/
def petition (st : CtxState) (m : List (BitVec 8)) : State :=
  let s := awake.updQp 5 fun _ => { state := .rts, subscriber := 9, expect := 1, credit := 64, slots := [m], owner := 0, vanged := true }
  let s := s.setCtx 0 { state := st, inSheet := 64, inSheets := 2, outSheets := 2 }
  { s with net := { s.net with subs := [(9, { extLimit := 4, function := 3 })], exts := [(1, { granted := true, gen := 2, sub := 9, left := 32 })] } }
def lookupReq : List (BitVec 8) := request 1 1 (mirrorBody 0x10 (2 ^ 32) 0 0)
def getReq : List (BitVec 8) := request 2 2 (mirrorBody 0x25 4 1 0)
def publishReq : List (BitVec 8) := request 4 1 (mirrorBody 0x14 (4 + 2 ^ 24) (2 ^ 32) 0)
def attendReq : List (BitVec 8) := request 5 1 (mirrorBody 0x30 0x50000 0 0)
def stepReq : List (BitVec 8) := request 6 1 (mirrorBody 0x33 0x50000 0 0)
/-- The checks of a request m as the statement asks them. -/
def begins (kind op : Nat) (m : List (BitVec 8)) : Bool :=
  let s := petition .active m
  let h := ofLe (m.take 32)
  let body := m.drop 32
  let u := s.updQp 5 fun y => { y with slots := [], expect := 2, running := y.running ++ [1] }
  vangedKind h == kind && (s.qp 5).refuses h kind m.length body == stOk && !bit h 16 && fld h 32 32 == 1 && mirrorOk (bodyWord body 0) op &&
    mirrorFields op (bit h 17) (bodyWord body 1) (bodyWord body 3) && !(s.ctx 0).conf &&
    u.dispatchCheck (mirrorCtx (s.ctx 0) op (bit h 17)) {} (bodyWord body 0) (bodyWord body 1) (bodyWord body 2) (bodyWord body 3) == stOk
theorem wit_VangedRequests_lookup : begins 1 0x10 lookupReq = true ∧ begins 2 0x25 getReq = true := by decide
theorem wit_VangedRequests_mirrors : begins 4 0x14 publishReq = true ∧ begins 5 0x30 attendReq = true ∧ begins 6 0x33 stepReq = true := by decide
theorem wit_VangedRequests : let s := petition .active lookupReq
    s.stopped = false ∧ (s.qp 5).slots = lookupReq :: [] ∧ (s.qp 5).state = .rts ∧ s.ps.layoutValid = true ∧ bit (ofLe (lookupReq.take 32)) 16 = false ∧
      (s.ctx 0).state ≠ .orphaned ∧ ((petition .orphaned lookupReq).ctx 0).state = .orphaned := by decide
theorem wit_VangedRequests_refused : let m := request 9 1 0
    ((petition .active m).qp 5).refuses (ofLe (m.take 32)) 9 m.length (m.drop 32) = stRange ∧ vangedKind (ofLe (m.take 32)) = 9 := by decide
theorem wit_VangedRequests_load : let m := request 9 0 0
    ((petition .active m).qp 5).refuses (ofLe (m.take 32)) 9 m.length (m.drop 32) = stOk ∧ vangedKind (ofLe (m.take 32)) = 9 := by decide
theorem wit_VangedRequests_grant (n : Fin 2) : let m := request 7 1 n.val
    let s := petition .active m
    let b := ofLe (m.drop 32)
    (s.qp 5).refuses (ofLe (m.take 32)) 7 m.length (m.drop 32) = stOk ∧ vangedKind (ofLe (m.take 32)) = 7 ∧ fld b 28 228 = 0 ∧
      min (min (fld b 0 28) ((s.sub 9).extLimit * 256 - s.extUsed 9)) (s.freeSheets - s.tier.landing) = n.val ∧ (s.extent 0).granted = false := by
  match n with | 0 => decide | 1 => decide
theorem wit_VangedRequests_grant_rsv : let m := request 7 1 (2 ^ 255)
    fld (ofLe (m.drop 32)) 28 228 ≠ 0 ∧ ((petition .active m).qp 5).refuses (ofLe (m.take 32)) 7 m.length (m.drop 32) = stOk := by decide
theorem wit_VangedRequests_return : let m := request 8 0 0
    (petition .active m).extOk (fld (ofLe (m.take 32)) 128 32) 9 = true ∧ (petition .active m).extOk (fld (ofLe (m.take 32)) 128 32) 8 = false ∧
      ((petition .active m).qp 5).refuses (ofLe (m.take 32)) 8 m.length (m.drop 32) = stOk ∧ vangedKind (ofLe (m.take 32)) = 8 := by decide
/-- PUT_PAGES of one block of sequence 4 of one layer, class 0. -/
def putReq : List (BitVec 8) := request 3 2 (4 + 2 ^ 48)
theorem wit_VangedRequests_put : let s := (petition .active putReq).updSeq 4 fun _ => { state := 1, layers := 1, tpp := 8 }
    let b := ofLe ((putReq.drop 32).take 64)
    s.dev.pchDown = [] ∧ s.flight? s.nextFlight = none ∧ s.putWaits 5 b = false ∧ putRsvOk (ofLe (putReq.drop 32)) = true ∧ fld b 48 24 = 1 ∧ s.classOk (fld b 25 2) = true ∧ (s.seq 4).state = 1 ∧
      fld b 0 24 = 4 ∧ s.putSeqCheck 0 4 1 (bit b 24) = stOk ∧ s.extOk (fld (ofLe (putReq.take 32)) 128 32) 9 = true ∧ 16 * (1 * max (s.seq 4).layers 1) ≤ (s.extent 1).left ∧
      (s.qp 5).refuses (ofLe (putReq.take 32)) 3 putReq.length (putReq.drop 32) = stOk := by decide
theorem wit_VangedRequests_put_run : (pickRun ((petition .active putReq).updSeq 4 fun _ => { state := 1, layers := 1, tpp := 8 }).pageRuns 0 awake.ps.limit 1 awake.draw.1).isSome = true := rfl
def withdrawing (begun : Nat) : State :=
  let s := petition .active []
  { s with net := { s.net with exts := [(1, { granted := true, withdrawing := true, gen := 1048575, sub := 9, left := 32, begun := begun, returnTo := some (5, 7), revokedBy := 1 })] }, ps := { s.ps with reserved := 40 } }
theorem wit_VangedRequests_withdrawn : ((withdrawing 0).extent 1).granted = true ∧ ((withdrawing 0).extent 1).withdrawing = true ∧ ((withdrawing 0).extent 1).begun = 0 ∧
    ((withdrawing 1).extent 1).begun ≠ 0 ∧ ((withdrawing 0).extent 1).returnTo = some (5, 7) ∧ ((withdrawing 0).qp 5).state = .rts ∧ ((withdrawing 0).extent 1).revokedBy = 0 + 1 := by decide
theorem test_vanged_lookup : let t := after (.vangedLookup 5) (petition .active lookupReq)
    (t.qp 5).expect = 2 ∧ (t.qp 5).slots = [] ∧ (t.flight? 0).map (fun f => (f.mirror, bCount f.a)) = some (some (5, 1), 1) := by decide
theorem test_withdrawn : let t := after (.extentWithdrawn 1) (withdrawing 0)
    t.ps.reserved = 8 ∧ (t.cmdSet 0).extStatus = stOk ∧ (t.extent 1).granted = false ∧ (t.extent 1).gen = 0 := by decide

/-- Port 0 is up, with a frame of queue pair 5 in queue (port 0, subscriber 9, service 0), and maybe a bypass frame. -/
def queuing (b : List Bypass) : State :=
  let s := linked.updQp 5 fun _ => { state := .rts, subscriber := 9, sqPsn := 16777215, path := [(0, { w := 4096 })] }
  { s with eg := { s.eg with queues := [(72, [{ qp := 5, op := 0x0A, len := 64, payload := [1, 2] }])], bypass := if b = [] then [] else [(0, b)] } }
theorem wit_EgressTicksAndFrames_bypass : (queuing [{ kind := 2 }]).stopped = false ∧ (queuing [{ kind := 2 }]).portUp 0 = true ∧ (queuing []).dev.engineDown.get 7 false = false ∧
    (queuing [{ kind := 2 }]).eg.bypass.get 0 [] = { kind := 2 } :: [] ∧ (queuing []).eg.bypass.get 0 [] = [] := by decide
theorem wit_EgressTicksAndFrames_frame : let u := (queuing []).shutOut 0
    u.eligible 0 = [(0, 9, { qp := 5, op := 0x0A, len := 64, payload := [1, 2] }, { turn := 10, deficit := [(9, 8192)] })] ∧
      Round.choose 0 8 (fun v => u.prioOf v == u.prioOf 0) u.svcQuantumOf [(0, 64)] { turn := u.eg.svcTurn.get (u.prioOf 0) 0, deficit := u.eg.svcDeficit } = some (0, { turn := 1, deficit := [(0, 8192)] }) ∧
      queueIdx 0 9 0 = 72 := by decide
theorem test_frame_tx : let t := after (.frameTx 0) (queuing [])
    t.eg.queues = [] ∧ (t.qp 5).sqPsn = 0 ∧ (t.qp 5).sent.map (·.psn) = [16777215] ∧ t.eg.svcDeficit = [] := by decide
theorem test_bypass_tx : (after (.frameTx 0) (queuing [{ kind := 2 }])).out = [.bypass 0 { kind := 2 }] ∧ (after (.frameTx 0) (queuing [{ kind := 2 }])).eg.bypass = [] := by decide

/-- Meter 9 was written (EN, CIR 256, CBS 1, PIR 512, PBS 2); shaper 8 holds 0 tokens and gains 256 up to 1 byte; shaper 9 was written; queue 72's sample and copy. -/
def ticking (now : Nat) : State :=
  let s := queuing []
  { s with now := now, eg := { s.eg with meters := [(9, { dirty := true, w0 := 0x20000000100, w1 := 0x4000002000001 })], ssh := [(8, { rate := 256, burst := 1, en := true, tokens := -10 }), (9, { written := some 0x100000300000010 })], histNext := 3, bins := [(32 * 72 + 2, 6)], samples := 9 } }
theorem wit_EgressTicksAndFrames_ticks : let s := ticking 3072
    (Tbl.keys s.eg.meters).Nodup ∧ (Tbl.keys s.eg.ssh).Nodup ∧ (Tbl.keys s.eg.queues).Nodup ∧ s.eg.meterTicks < s.now / 1024 + 1 ∧ s.eg.shaperTicks < s.now / 1024 + 1 ∧
      s.eg.histNext ≤ s.now / 1024 ∧ (ticking 3071).now / 1024 < (ticking 3071).eg.histNext ∧ s.queueExists (fld (72 : BitVec 64).toNat 0 14) = true ∧
      (0x4048 : BitVec 64).getLsbD 14 = true ∧ (72 : BitVec 64).getLsbD 14 = false ∧ fld (0x4048 : BitVec 64).toNat 0 14 = 72 ∧ (s.eg.ssh.get 9 {}).written = some 0x100000300000010 ∧
      ({ s with eg := { s.eg with meterTicks := 4, shaperTicks := 4 } } : State).now / 1024 + 1 = 4 := by decide
theorem test_meter_tick : let m := (after .meterTick (ticking 0)).eg.meters.get 9 {}
    m.en = true ∧ m.cir = 256 ∧ m.ctok = 256 ∧ m.ptok = 512 ∧ m.dirty = false := by decide
theorem test_shaper : let t := after .shaperRefill (ticking 0)
    (t.eg.ssh.get 8 {}).tokens = 246 ∧ (t.eg.ssh.get 9 {}).tokens = 768 ∧ (t.eg.ssh.get 9 {}).rate = 16 := by decide
/-- Two bytes queued: bin 1 of the depth, and bin 7 of a delay of 2,925 ns (2^(5+6) and over); and the copy clears. -/
theorem test_hist : (after .histSample (ticking 3072)).eg.bins = [(2305, 1), (2306, 6), (2327, 1)] ∧ (after (.histCopy 0x4048) (ticking 0)).eg.histData = [(0, 3), (2, 6), (16, 9)] ∧
    (after (.histCopy 0x4048) (ticking 0)).eg.bins = [] := by decide

/-- Port 0's admin schedule: two entries of 600 ns and 400 ns in a cycle of 1,000 ns from 0; pending for 5,000 ns; or in force from 5,000 ns. -/
def gating (ns : Nat) : State :=
  let s := linked.updGcl 0 fun _ => { en := true, adminCycle := 1000, admin := [(0, 0x25800000001), (1, 0x19000000002)], next := [(0, 0x25800000001), (1, 0x19000000002)], nextLen := 2, nextCycle := 1000, pending := true, changeT := 5000 }
  { s with ptp := { s.ptp with time := ns * 5376000000000 } }
theorem wit_EgressTicksAndFrames_gates : let s := gating 5000
    let v : BitVec 64 := 0x23F03
    let g := { s.gcl 0 with en := v.getLsbD 0, cfgErr := (s.gcl 0).cfgErr && !v.getLsbD 3, deflt := fld v.toNat 8 6, adminLen := fld v.toNat 16 9 }
    0 < s.lanes ∧ v.getLsbD 1 = true ∧ g.adminBad = false ∧ { g with adminLen := 0 }.adminBad = true ∧ fld v.toNat 4 4 = 0 ∧ fld v.toNat 14 2 = 0 ∧ fld v.toNat 25 7 = 0 ∧
      fld v.toNat 41 7 = 0 ∧ fld v.toNat 62 2 = 0 ∧ (s.gcl 0).pending = true ∧ (s.gcl 0).changeT ≤ s.netNs ∧ (gating 4999).netNs < ((gating 4999).gcl 0).changeT := by decide
/-- COMMIT at 5,000 ns waits until the first cycle boundary at least 2,000 ns on: 7,000. -/
theorem test_gcl_commit : ((after (.gclCommit 0 0x23F03) (gating 5000)).gcl 0).changeT = 7000 ∧ ((after (.gclCommit 0 0x3F03) (gating 5000)).gcl 0).cfgErr = true := by decide
theorem test_gcl_change : let t := after (.gclChangeTime 0) (gating 5000)
    (t.gcl 0).pending = false ∧ (t.gcl 0).gates = 1 ∧ ((after (.gclEntryChange 0) { t with ptp := { t.ptp with time := 5600 * 5376000000000 } }).gcl 0).gates = 2 := by decide

/-- The time unit on port 0, its parent port 1 of clock 7 (twice announced), in a state at 10,000 ns; last Sync at cycle 0. -/
def timing (st : PtpState) (now : Nat) : State :=
  let a : Foreign := { clockId := 7, portNum := 1, gmId := 7, logInt := 128, before := some 0 }
  { linked with now := now, ptp := { linked.ptp with en := true, state := st, parent := true, clockId := 7, parentPort := 1, foreign := [a], time := 10000 * 5376000000000, mpd := 100, mpdSet := true } }
def sync (two : Bool) (o : Int) : PtpMsg := { clockId := 7, portNum := 1, transport := 1, seq := 3, twoStep := two, origin := o, correction := 5, gmId := 7, prio1 := 4, steps := 1, logInterval := 0 }
theorem wit_NetworkTime (b : Bool) : let s := timing .uncalibrated 52500000
    s.stopped = false ∧ s.ptpTakes (sync b 0) = true ∧ (sync b 0).clockId = s.ptp.clockId ∧ (sync b 0).portNum = s.ptp.parentPort ∧ s.ptp.parent = true ∧ s.ptp.state ≠ .listening ∧
      s.ptpTakes { sync b 0 with domain := 1 } = false ∧ (s.ptp.state = .uncalibrated ∧ s.ptp.lastSync + s.ptp.syncTimeout * 1050000 ≤ s.now) ∧
      ¬ (timing .locked 0).ptp.lastSync + (timing .locked 0).ptp.syncTimeout * 1050000 ≤ 52499999 ∧ (timing .holdover 0).ptp.state = .holdover := by cases b <;> decide
/-- Awaiting a Follow_Up of Sync 3; or a Delay_Resp to request 3, with or without the Sync's pair of times. -/
def awaiting (pair : Option (Int × Int)) (two : Option (Int × Int × Nat)) : State :=
  let s := timing .uncalibrated 0
  { s with ptp := { s.ptp with delayReq := some (20000, 3), pair := pair, twoStep := two, mpdSet := false } }
theorem wit_NetworkTime_answers : (awaiting none (some (9800, 2, 3))).ptp.twoStep = some (9800, 2, (sync true 0).seq) ∧ (awaiting none none).ptp.delayReq = some (20000, (sync true 0).seq) ∧
    (awaiting (some (9000, 9800)) none).ptp.pair = some (9000, 9800) ∧ (awaiting (some (9000, 9800)) none).ptp.mpdSet = false ∧ (awaiting none none).ptp.pair = none := by decide
/-- The parent's Announces ended three seconds after the last. -/
theorem wit_NetworkTime_announce : let s := timing .locked 3150000000
    (∀ a ∈ s.ptp.foreign, a.clockId = s.ptp.clockId → a.portNum = s.ptp.parentPort → a.alive s.now = false) ∧
      (s.ptp.foreign.filter fun a => !(a.clockId == s.ptp.clockId && a.portNum == s.ptp.parentPort)) = [] ∧ (timing .listening 0).bestForeign.isSome = true ∧
      ({ linked with ptp := { linked.ptp with en := true } } : State).bestForeign = none := by decide
theorem test_ptp_enable : (after (.ptpEnableWrite 1) awake).ptp.state = .listening ∧ (after (.ptpEnableWrite 0) (timing .locked 0)).ptp.state = .disabled := by decide
/-- 10,000 − (9,795 + 5) − 100 = 100 ns: adj is 64 · 100 · 16 + 16 · 100; 10,000 − (8,800 + 5) − 100 = 1,095 is a step back. -/
theorem test_sync : let t := after (.ptpSync (sync false 9795)) (timing .holdover 0)
    t.ptp.offset = 100 ∧ t.ptp.adj = 104000 ∧ t.ptp.state = .uncalibrated ∧ t.ptp.nextReq = 1 ∧
      (after (.ptpSync (sync false 8800)) (timing .locked 0)).ptp.time = 8905 * 5376000000000 := by decide
theorem test_follow_up : (after (.ptpFollowUp (sync true 9593)) (awaiting none (some (9800, 2, 3)))).ptp.offset = 100 := by decide
/-- The mean of 9,800 − 9,000 and 20,205 − 5 − 20,000 is 500. -/
theorem test_delay_resp : (after (.ptpDelayResp (sync true 20205)) (awaiting (some (9000, 9800)) none)).ptp.mpd = 500 := by decide
theorem test_announce : let t := after (.ptpAnnounce (sync false 0)) (timing .listening 0)
    t.ptp.state = .uncalibrated ∧ t.ptp.foreign.map (·.prio1) = [4] := by decide
theorem test_time_out : (after .syncTimeout (timing .locked 52500000)).ptp.state = .holdover ∧ (after .syncTimeout (timing .locked 52499999)).ptp.state = .locked ∧
    (after .announceTimeout (timing .locked 3150000000)).ptp.state = .listening ∧ (after .announceTimeout (timing .locked 3149999999)).ptp.state = .locked := by decide
theorem test_time_read : (after .ptpTimeSecRead { awake with ptp := { awake.ptp with time := 3000000007 * 5376000000000 } }).out = [.readData [3, 0, 0, 0, 0, 0, 0, 0]] ∧
    (after .ppsEdge { awake with ptp := { awake.ptp with time := 99999999 * 5376000000000 } }).dev.pps = true ∧
    (after .ppsEdge { awake with ptp := { awake.ptp with time := 100000000 * 5376000000000 } }).dev.pps = false := by decide

/-- The Colophon runs with a good identity; session 9 on transport 3 is open since cycle 0, authorised for slot 2 (KEYGEN 65,535, loaded) and context 6. -/
def sealed_ (ident : Bool) : State :=
  { awake with sec := { awake.sec with state := .running, identityOk := ident, sessions := [(9, { live := true, finished := true, transport := 3 })], slots := [(2, { state := .loaded, auth := 9, keygen := 65535 })], ctxs := [(6, { auth := 9, keyValid := true })] } }
def measReq (sig : Bool) : List (BitVec 8) := [0x13, 0xE0, if sig then 1 else 0, 7] ++ List.replicate (if sig then 41 else 8) 0
theorem wit_ColophonMessages : (sealed_ true).stopped = false ∧ (sealed_ true).sec.state = .running ∧ (sealed_ true).transportUp 3 = true ∧
    msgByte (measReq false) 1 = 0xE0 ∧ (measReq false).length = 12 ∧ (measReq true).length = 45 ∧ msgByte (measReq true) 2 % 2 = 1 ∧ (sealed_ true).sec.identityOk = true ∧
    (sealed_ false).sec.identityOk = false ∧ spdmSupported 0xE6 = false ∧ (sealed_ true).sessionsOpen = 1 ∧
    8 ≤ ({ sealed_ true with sec := { (sealed_ true).sec with sessions := (List.range 8).map fun i => (i + 1, { live := true }) } } : State).sessionsOpen ∧
    (sealed_ true).sec.lastM.find? (fun q => q.1 == 3) = none ∧
    ({ awake with sec := { awake.sec with state := .activating } } : State).transportUp 3 = true ∧
    (let m := [0x13, 0x83, 0, 255] ++ zeros 40; msgByte m 0 = 0x13 ∧ msgByte m 1 = 0x83 ∧ m.length = 44 ∧ msgByte m 2 ≤ 1 ∧ msgByte m 3 = 255) ∧
    ((sealed_ true).conn 3).peerSize = 0 := by decide
/-- A FINISH of session 9, which is not yet established; whether its verify data are good is Config's, which nothing can evaluate. -/
theorem wit_ColophonMessages_finish : let s := { sealed_ true with sec := { (sealed_ true).sec with sessions := [(9, { live := true, transport := 3 })] } }
    s.stopped = false ∧ s.sec.state = .running ∧ (s.session 9).live = true ∧ s.transportUp (s.session 9).transport = true ∧ (s.session 9).finished = false ∧
      msgByte [0x13, 0xE5, 0, 0] 1 = 0xE5 ∧ ((sealed_ true).session 9).finished = true := by decide
/-- A vendor-defined request of Oserzen with a payload of fewer than 256 bytes. -/
def vendorMsg (p : List (BitVec 8)) : List (BitVec 8) := [0x13, 0xFE, 0, 0, 4, 0, 4] ++ leBytes 4 Config.pen.toNat ++ [BitVec.ofNat 8 p.length, 0] ++ p
theorem ofLe_leBytes_pen : ofLe (leBytes 4 Config.pen.toNat) = Config.pen.toNat := by
  have h := Config.pen.isLt
  simp only [leBytes, ofLe, BitVec.toNat_ofNat]
  omega
def keyReleaseMsg : List (BitVec 8) := vendorMsg ([2, 2, 0, 0, 0] ++ List.replicate 32 7)
theorem vendorRequest_of {p : List (BitVec 8)} (h : ofLe (msgPart (vendorMsg p) 11 2) = p.length) (n : 1 ≤ p.length) : vendorRequest (vendorMsg p) = some p := by
  have e : ofLe (msgPart (vendorMsg p) 7 4) = Config.pen.toNat := ofLe_leBytes_pen
  have l : (vendorMsg p).length = 13 + p.length := by simp [vendorMsg, leBytes]; omega
  unfold vendorRequest
  exact if_pos ⟨rfl, rfl, e, by rw [h]; exact l, by rw [h]; exact n⟩
theorem wit_ColophonMessages_vendor : vendorRequest (vendorMsg [1]) = some [1] ∧ vendorRequest keyReleaseMsg = some ([2, 2, 0, 0, 0] ++ List.replicate 32 7) ∧
    vendorRequest (vendorMsg [3, 2]) = some [3, 2] ∧ vendorRequest (vendorMsg [4, 6, 0]) = some [4, 6, 0] :=
  ⟨vendorRequest_of rfl (by decide), vendorRequest_of rfl (by decide), vendorRequest_of rfl (by decide), vendorRequest_of rfl (by decide)⟩
theorem wit_ColophonMessages_op : vendorOp (vendorMsg [1]) = 1 := by
  have e : msgByte (vendorMsg [1]) 1 = 0xFE := by decide
  unfold vendorOp
  rw [e, wit_ColophonMessages_vendor.1]
  rfl
theorem wit_ColophonMessages_keys : ((sealed_ true).session 9).live = true ∧ (sealed_ true).transportUp ((sealed_ true).session 9).transport = true ∧ (sealed_ true).sec.debug ≠ 2 ∧
    ((sealed_ true).sec.slots.get 2 {}).auth = 9 ∧ ((sealed_ true).sec.slots.get 3 {}).auth ≠ 9 ∧ ((sealed_ true).sec.ctxs.get (ofLe (msgPart [4, 6, 0] 1 2)) {}).auth = 9 ∧
    ((sealed_ true).sec.ctxs.get 6 {}).keyValid = true ∧ ([2, 2, 0, 0, 0] ++ List.replicate 32 (7 : BitVec 8)).length = 37 ∧ ofLe (msgPart ([2, 2, 0, 0, 0] ++ List.replicate 32 7) 2 3) = 0 ∧
    ({ sealed_ true with now := 63000000000 } : State).now = ((sealed_ true).session 9).since + 63000000000 := by decide
/-- A KEY_EXCHANGE whose one opaque element is an ML-KEM-1024 key. -/
def kemElement : List (BitVec 8) := [4, 4] ++ leBytes 4 Config.pen.toNat ++ [0x21, 6] ++ 1 :: List.replicate 1568 5
def exchangeMsg : List (BitVec 8) := [0x13, 0xE4] ++ List.replicate 134 0 ++ [0x2D, 6] ++ List.replicate 4 0 ++ kemElement
theorem wit_ColophonMessages_kem : (findKem (ofLe (msgPart exchangeMsg 136 2)) (msgPart exchangeMsg 142 (ofLe (msgPart exchangeMsg 136 2) - 4))).isSome = true := by
  have e : ofLe (msgPart exchangeMsg 136 2) = 1581 := by decide
  have l : kemElement.length = 1577 := by simp [kemElement, leBytes]
  have p : msgPart exchangeMsg 142 1577 = kemElement := by
    have : exchangeMsg.drop 142 = kemElement := rfl
    rw [msgPart, this, ← l, List.take_length]
  have d : msgPart kemElement 8 1569 = 1 :: List.replicate 1568 5 := by
    have : kemElement.drop 8 = 1 :: List.replicate 1568 5 := rfl
    rw [msgPart, this]
    exact List.take_of_length_le (by simp)
  rw [e, show 1581 - 4 = 1577 from rfl, p, show (1581 : Nat) = 1580 + 1 from rfl, findKem]
  rw [show msgByte kemElement 1 = 4 from rfl, show ofLe (msgPart kemElement (2 + 4) 2) = 1569 from rfl, show 4 + 4 = 8 from rfl, d]
  rw [if_neg (by rw [l]; decide), if_pos ⟨rfl, ofLe_leBytes_pen, rfl, by simp, rfl⟩]
  rfl
theorem test_key_release : (((sealed_ true).keyRelease 9 ([2, 2, 0, 0, 0] ++ List.replicate 32 7)).2.sec.slots.get 2 {}).keygen = 0 ∧
    (((sealed_ true).keyRelease 9 ([2, 3, 0, 0, 0] ++ List.replicate 32 7)).2.sec.slots.get 3 {}).keygen = 0 ∧ (((sealed_ true).keyErase 9 [3, 2]).2.sec.slots.get 2 {}).state = .empty ∧
    (((sealed_ true).contextKey 9 [4, 6, 0]).2.sec.ctxs.get 6 {}).exported = true := by decide
theorem test_session_ends : let t := after (.spdmSessionTimeout 9) { sealed_ true with now := 63000000000 }
    t.sec.sessions = [] ∧ (t.sec.slots.get 2 {}).auth = 0 ∧ (t.sec.ctxs.get 6 {}).auth = 0 ∧ (after (.spdmSessionTimeout 9) { sealed_ true with now := 62999999999 }).sec.sessions.length = 1 := by decide
theorem test_spdm_refused : getBuf (after (.spdmRequest 3 0 [0x13, 0xE6, 0, 0]) (sealed_ true)).sec.rsp 0 4 = [0x13, 0x7F, 0x07, 0xE6] := by decide
theorem test_spdm_measures : ((sealed_ true).getMeasurements 3 (measReq false)).1.take 9 = [0x13, 0x60, 0, 0, 1, 23, 0, 0, 7] := by decide

/-- The Colophon is activated; slot 2 is loaded. -/
def activating_ : State := { sealed_ true with sec := { (sealed_ true).sec with state := .activating } }
theorem wit_ColophonCommands : (sealed_ true).stopped = false ∧ (sealed_ true).sec.state = .running ∧ activating_.sec.state = .activating ∧ 255 < 256 ∧ 1023 < 1024 ∧
    1048576 ≤ ({ awake with sec := { awake.sec with drbg := 1048576 } } : State).sec.drbg ∧ awake.sec.drbg < 1048576 ∧ ((sealed_ true).session 9).live = true ∧
    ((sealed_ true).session 8).live = false ∧ msgByte (2 :: List.replicate 39 0) 0 = 2 ∧ (2 :: List.replicate 39 (0 : BitVec 8)).length = 40 ∧
    ({ sealed_ true with sec := { (sealed_ true).sec with ideKeys := [(0, 1)] } } : State).sec.ideKeys ≠ [] := by decide
theorem test_co_commands : let s := sealed_ true
    ((after (.authSlot 255 4 3) s).sec.slots.get 255 {}).function = 3 ∧ (after (.authSlot 256 4 3) s).sec.cmdStatus = stRange ∧
      ((after (.eraseSlot 2) s).sec.slots.get 2 {}).keygen = 65535 ∧ (after .debug1 s).sec.debug = 1 ∧ (after .debug1 activating_).sec.cmdStatus = stBusy := by decide
theorem test_activation_end : let t := after .colophonActivationEnd activating_
    t.sec.state = .running ∧ t.sec.activations = 1 ∧ (t.sec.slots.get 2 {}).stale = true := by decide
theorem test_reseed : (after (.drbgReseed false) { sealed_ true with sec := { (sealed_ true).sec with drbg := 1048576, entropyOk := true } }).sec.entropyOk = false := by decide
theorem test_ide : let s := after (.ideKm 9 (2 :: List.replicate 39 1)) (sealed_ true)
    s.sec.ideKeys.length = 1 ∧ (after (.ideKm 9 [4]) s).sec.ide = true ∧ (after (.ideKm 9 [4]) (sealed_ true)).sec.ide = false := by decide

/-- Service processor 2 is READY and serves; the configuration record was accepted or not; image 1 is staged in bank B. -/
def serving (cfg : Bool) : State :=
  { awake with dev := { awake.dev with served := true, zeroed := true }, sec := { awake.sec with configOk := cfg, state := .running }, fw := { awake.fw with sps := [(2, { state := .ready, verified := true })], images := [(1, { staged := true })] } }
/-- A request of major 1 with an OP, TAG 0x1234 and a payload. -/
def ask (op : Nat) (p : List (BitVec 8)) : List (BitVec 8) := [1, 0, BitVec.ofNat 8 op, 0, 0x34, 0x12, 0, 0] ++ leBytes 4 p.length ++ leBytes 4 0 ++ p
def stage (i off : Nat) (b : List (BitVec 8)) : List (BitVec 8) := leBytes 4 i ++ leBytes 4 off ++ leBytes 8 0 ++ b
theorem wit_MailboxAndServiceProcessors : (serving true).stopped = false ∧ (serving true).fw.mboxBusy = false ∧ (serving true).dev.served = true ∧ ((serving true).sp 2).state = .ready ∧
    (serving true).hold = 0 ∧ (serving false).hold = 1 ∧ (serving true).dev.operational = false ∧
    (∀ x ∈ [(0x01, 0), (0x02, 0), (0x31, 0), (0x20, 16), (0x30, 8), (0x11, 16), (0x12, 16), (0x10, 18)],
      let m := ask x.1 (if x.1 = 0x10 then stage 1 4194302 [5, 6] else 1 :: List.replicate 15 0 |>.take x.2);
      16 ≤ m.length ∧ msgByte m 0 = 1 ∧ msgByte m 3 / 2 = 0 ∧ ofLe (msgPart m 12 4) = 0 ∧ ofLe (msgPart m 8 4) = (m.drop 16).length ∧ msgByte m 2 = x.1 ∧ (m.drop 16).length = x.2) := by decide
theorem wit_MailboxAndServiceProcessors_images : let p := stage 1 4194302 [5, 6]
    ofLe (msgPart p 4 4) + (p.drop 16).length = 4194304 ∧ msgByte p 0 = 1 ∧ ofLe (msgPart p 1 3) = 0 ∧ ofLe (msgPart p 8 8) = 0 ∧ (serving true).fw.staging = 0 ∧
      (serving true).otherActivation 1 = false ∧ ((serving true).image 1).staged = true ∧ (∀ k < 3, ((serving true).sp k).state ≠ .restarting) ∧ (serving true).sec.state ≠ .activating ∧
      ({ serving true with fw := { (serving true).fw with images := [(0, { staged := true })] } } : State).sec.fwFailed = false ∧
      (serving true).onlyRecovery 1 = false ∧ ({ serving true with sec := { (serving true).sec with fwFailed := true } } : State).onlyRecovery 1 = true := by decide
/-- A GET_INFO is in progress since cycle 0; service processor 2 restarts, or is READY. -/
def stuck_ (st : SpState) (busy : Bool) (now : Nat) : State :=
  { serving true with now := now, fw := { (serving true).fw with sps := [(2, { state := st, verified := true, wdMs := 2000 })], mboxBusy := busy, request := if busy then ask 2 [] else [] } }
theorem wit_MailboxAndServiceProcessors_wait : (stuck_ .ready true 2100000000).fw.mboxBusy = true ∧ (stuck_ .ready true 2100000000).dev.served = true ∧
    (stuck_ .ready true 2100000000).fw.goAt + 2100000000 ≤ (stuck_ .ready true 2100000000).now ∧ ((stuck_ .restarting false 0).sp 2).state = .restarting ∧
    ((stuck_ .ready true 0).sp 2).kickAt + ((stuck_ .ready true 0).sp 2).wdMs * 1050000 = 2100000000 ∧ ((stuck_ .restarting false 0).sp 2).verified = true ∧
    (stuck_ .restarting false 0).dev.zeroed = true ∧ fld (0x5A00 : BitVec 64).toNat 8 8 = 0x5A ∧ fld (0x5B00 : BitVec 64).toNat 8 8 ≠ 0x5A := by decide
theorem wit_MailboxAndServiceProcessors_mctp : msgByte [0, 1, 1, 9] 1 = 1 ∧ [0, 1, 1, (9 : BitVec 8)].length = 4 ∧ msgByte [0, 1, 1, 9] 2 % 4 ≤ 1 := by decide
theorem test_hello : let t := after (.hello 3 (ask 1 [])) (serving true)
    t.dev.operational = true ∧ getBuf t.fw.rsp 0 t.fw.rspLen = [1, 0, 1, 1, 0x34, 0x12, 0, 0, 4, 0, 0, 0, 0, 0, 0, 0, 1, 0, 0, 0] := by decide
theorem test_hello_hold : let t := after (.hello 3 (ask 1 [])) (serving false)
    t.dev.operational = false ∧ getBuf t.fw.rsp 16 1 = [16] := by decide
theorem test_fw_stage : let t := after (.fwStage 3 (ask 16 (stage 1 4194302 [5, 6]))) (serving true)
    (t.image 1).bankB = [(4194302, 5), (4194303, 6)] ∧ (t.image 1).staged = false ∧ t.fw.staging = 2 := by decide
theorem test_activate : let t := after (.fwActivate 3 (ask 18 (1 :: List.replicate 15 0))) (serving true)
    (t.image 1).activeB = true ∧ (t.sp 0).state = .restarting := by decide
theorem test_mailbox_timeout : let t := after .mailboxTimeout (stuck_ .ready true 2100000000)
    t.fw.mboxDone = true ∧ (t.sp 2).state = .restarting ∧ (after .mailboxTimeout (stuck_ .ready true 2099999999)).fw.mboxBusy = true := by decide
theorem test_held : (after (.getInfo 3 (ask 2 [])) (stuck_ .restarting false 0)).fw.mboxHeld = true ∧ (after (.spReady 2) (stuck_ .restarting true 0)).fw.mboxDone = true := by decide
theorem test_watchdog : ((after (.watchdogExpiry 2) (stuck_ .ready false 2100000000)).sp 2).restarts = 1 ∧ ((after (.watchdogExpiry 2) (stuck_ .ready false 2099999999)).sp 2).restarts = 0 ∧
    ((after (.spRestartWrite 2 0x635A00) (stuck_ .ready false 0)).sp 2).state = .restarting ∧ ((after (.spRestartWrite 2 0x635A00) (stuck_ .ready false 0)).sp 2).wdMs = 2000 := by decide

/-- Port 3 enumerates while service processor 2 is in a state. -/
def porting (st : SpState) : State :=
  let s := awake.updPort 3 fun _ => { enum := .enumerating }
  { s with fw := { s.fw with sps := [(2, { state := st })] } }
/-- At a point, wanting another; service processor 0 is READY; rising since cycle 0 or not. -/
def powering (point target now : Nat) (rising : Option (Nat × Nat)) : State :=
  { awake with now := now, fw := { awake.fw with sps := [(0, { state := .ready })] }, pwr := { awake.pwr with point := point, request := target, rising := rising, hot := 9 } }
theorem wit_PortsPowerAndRegisters_ports : (porting .ready).stopped = false ∧ (porting .ready).dev.variant = .lg8160 ∧ ((porting .ready).sp 2).state = .ready ∧ ((porting .restarting).sp 2).state ≠ .ready ∧
    ((porting .ready).port 3).enum = .enumerating ∧ 4608 ≤ 4608 ∧ 4607 < 4608 ∧ 511 < awake.pchFitted ∧ awake.dev.pchDown.get 511 false = false ∧ 255 < 16 * awake.quires ∧
    awake.dev.folioDown.get 255 false = false ∧ 7 < awake.lanes ∧ awake.dev.engineDown.get 8 false = false := by decide
theorem wit_PortsPowerAndRegisters_points : (powering 0 2 0 none).pwr.target = 2 ∧ (powering 0 2 0 none).pwr.point < 2 ∧ (powering 2 0 0 none).pwr.target < (powering 2 0 0 none).pwr.point ∧
    (powering 1 1 0 none).pwr.target = (powering 1 1 0 none).pwr.point ∧ ((powering 2 0 0 none).sp 0).state = .ready ∧ (powering 2 0 0 none).pwr.idle = false ∧
    (powering 2 0 210000 (some (0, 0))).pwr.rising = some (0, 0) ∧ 0 + 210000 ≤ (powering 2 0 210000 (some (0, 0))).now ∧ (powering 2 0 209999 (some (0, 0))).now < 0 + 210000 ∧
    (powering 0 0 105000 none).pwr.autoIdle = true ∧ (powering 0 0 105000 none).fq.held = [] ∧ (powering 0 0 105000 none).pwr.idleFrom + (powering 0 0 105000 none).pwr.idleUs * 1050 = 105000 ∧
    (powering 0 0 0 none).pwr.hot = 9 ∧ (powering 0 0 0 none).pwr.wait = 0 ∧ Int.ofNat (powering 0 0 0 none).pwr.throttleC ≤ 102 ∧ (∀ c ∈ [(99 : Int)], c < 100) ∧ (∃ c ∈ [(100 : Int)], 100 ≤ c) := by decide
/-- The physical function's BARs are mapped. -/
def mapped : State := awake.updFn 0 fun x => { x with memEn := true }
theorem wit_PortsPowerAndRegisters_registers : mapped.stopped = false ∧ mapped.memOn 0 = true ∧ awake.memOn 0 = false ∧ (mapped.ctx 1023).state = .disabled ∧ ((mapped.setCtx 5 { state := .stopped }).ctx 5).state = .stopped ∧ ((mapped.setCtx 5 { state := .active }).ctx 5).state = .active ∧
    0x17 / 8 = 2 ∧ 12 % 8 ≠ 0 ∧ 0x192020 / 65536 ≠ 129 ∧ 0x192020 / 65536 ≠ 161 ∧ 0x192020 % 8 = 0 := by decide
/-- Function 3, enabled, with an input buffer at the first sheet of CTX's region 4 and an output buffer behind it. -/
def windowed : State :=
  let s := (awake.updFn 3 fun _ => { enabled := true }).setCtx 0 { function := 3, inSheet := awake.regBase 4, inSheets := 1, outSheet := awake.regBase 4 + 1, outSheets := 1 }
  { s with dev := { s.dev with zeroed := true, vfMem := true } }
theorem wit_PortsPowerAndRegisters_window : windowed.memOn 3 = true ∧ { windowed with dev := { windowed.dev with vfMem := false } }.memOn 3 = false ∧ windowed.dev.cfgOpen (windowed.linkOf 3) = false ∧ (windowed.fn 3).enabled = true ∧ windowed.dev.zeroed = true ∧ windowed.dev.pchDown = [] ∧ windowed.windowMaps 4095 = true ∧ windowed.windowMaps (2 ^ 32) = false ∧
    windowed.windowAccess 3 (windowed.windowAddr 4095 / 4096) = 2 ∧ windowed.windowAccess 3 (windowed.windowAddr 4096 / 4096) = 1 ∧ windowed.windowAccess 4 (windowed.windowAddr 0 / 4096) = 0 := by decide
/-- The byte in the input buffer is written, one not enabled and that in the output buffer are not. -/
theorem test_window : (after (.bufferWindowAccess 3 4093 true [some 9, none, some 7, some 8]) windowed).t0 = [(windowed.windowAddr 4093, 9), (windowed.windowAddr 4095, 7)] ∧
    (after (.bufferWindowAccess 4 4095 true [some 7, some 8]) windowed).t0 = [] := by decide
/-- The pseudo-channel of the input buffer has failed: the byte read is not the byte stored, and the granule is counted. -/
theorem test_window_lost : let s := { windowed with t0 := [(windowed.windowAddr 1, 9)], dev := { windowed.dev with pchDown := [(windowed.pchOf (windowed.regBase 4), true)] } }
    s.rangeBad (s.windowAddr 1) 1 = true ∧ (after (.bufferWindowAccess 3 1 false [some 0]) s).err.cnt.get 9 0 = 1 ∧
      (after (.bufferWindowAccess 3 1 false [some 0, none, some 0]) windowed).out = [.readData [0, 0]] := by decide
/-- A drive with blocks of 512 bytes is asked up to Identify Namespace 1 and rejected with 3 (14 R439). -/
theorem test_enumeration : ((after (.enumerationDone 3 1 4 {} 9 5 4608) (porting .ready)).port 3).sheets = 1 ∧ ((after (.enumerationDone 3 1 4 {} 9 5 4607) (porting .ready)).port 3).reject = 2 ∧
    ((after (.enumerationDone 3 2 4 { block := 512 } 9 5 99999) (porting .ready)).port 3).reject = 3 ∧ enumSteps 2 99999 { block := 512 } = [3, 4] ∧
    ((after (.downstreamLinkEvent 3 true) (porting .restarting)).port 3).latched = true := by decide
theorem test_points : (after (.operatingPointChange true) (powering 0 2 0 none)).pwr.point = 2 ∧ (after (.operatingPointChange true) (powering 2 0 0 none)).pwr.rising = some (0, 0) ∧
    (after .voltageInRegulation (powering 2 0 0 (some (0, 0)))).pwr.point = 0 ∧ (after .regulationTimeout (powering 2 0 210000 (some (0, 0)))).pwr.changeFail = true := by decide
theorem test_idle : (after .idleEntry (powering 0 0 105000 none)).pwr.idle = true ∧ (after .idleEntry (powering 0 0 104999 none)).pwr.idle = false := by decide
theorem test_thermal : (after (.sensorSample 102 [] []) (powering 0 0 0 none)).pwr.ceiling = 1 ∧ (after (.sensorSample 115 [] []) awake).dev.thermTripN = true ∧
    (after (.sensorSample 114 [99] []) awake).dev.thermTripN = false ∧ (after (.sensorSample 0 [100] []) awake).dev.thermTripN = true := by decide
/-- 10 A on VDD_FQ at 800 mV and none on the other rails that are read; VDD_AON, VDD_IO and VPP_HBM at their maxima of 4, 1 and 4 A (15 R447, R448). -/
theorem test_power : awake.packagePower [some 10000, some 0, some 0, some 0, some 0, some 0] = 8000000 + 3000000 + 1800000 + 7200000 ∧
    (after (.sensorSample 0 [] [some 10000, some 0, some 0, some 0, some 0, some 0]) awake).pwr.lastPower = 20000000 := by decide
theorem test_units : (after (.unitMarkedUnavailable 0 17) awake).dev.folioDown = [(17, true)] ∧ ((after (.unitMarkedUnavailable 6 3) awake).bank 3).down = true ∧ (after (.pchFailed 9) awake).dev.pchDown = [(9, true)] ∧ (after (.pmCtlWrite 2) awake).pwr.request = 2 := by decide
/-- A write to PM_CTL of 8 bytes, of 4, and of 16, LANDING behind LOW and HIGH; nothing with Memory Space Enable 0. -/
theorem test_register : (after (.registerWrite 0 0 0x902000 [2] 8) mapped).pwr.request = 2 ∧ (after (.registerWrite 0 0 0x902000 [2] 4) mapped).pwr.request = 0 ∧
    (after (.registerWrite 0 0 0x902000 [2] 8) awake).pwr.request = 0 ∧ (let t := after (.registerWrite 0 0 0x310008 [0x200000001, 3] 16) mapped; (t.tier.low, t.tier.high, t.tier.landing) = (1, 2, 3)) := by decide

/-- A configuration record of an LG-8160. -/
def record8160 : List (BitVec 8) := leBytes 4 (1 + 2 ^ 16 + 0x81 * 2 ^ 24) ++ leBytes 60 0 ++ leBytes 64 0
/-- A start in which HBM training is done or not; image 0 is due. -/
def starting (hbm zeroed : Bool) : State := { awake with dev := { awake.dev with starting := true, romDone := true, hbmDone := hbm, zeroed := zeroed, perst0 := false, perst1 := false, bifPin := true } }
theorem wit_ResetsAndStarts : State.reset.dev.held = true ∧ awake.dev.held = false ∧ awake.stopped = false ∧ msgByte record8160 2 = 1 ∧
    ({ awake with dev := { awake.dev with dl0 := true, draining := true } } : State).dev.dl0 = true ∧ awake.dev.dl0 = false ∧ awake.dev.draining = false ∧
    ({ awake with dev := { awake.dev with draining := true } } : State).dev.draining = true := by decide
/-- The fields of the record fit; whether signatures, seed and keys are good is Config's, which nothing can evaluate: both cases of the record's check. -/
theorem wit_ResetsAndStarts_record : recordFits record8160 0x81 none = true ∧ recordFits [] 0x81 none = false ∧
    (State.reset.recordOk none = true ∨ State.reset.recordOk none = false) := ⟨by decide, by decide, (Bool.eq_false_or_eq_true _)⟩
theorem wit_ResetsAndStarts_start : (starting false false).dev.romDone = true ∧ (starting false false).dev.perst0 = false ∧ (starting false false).dev.dl0 = false ∧ (starting false false).dev.perst1 = false ∧
    (starting false false).dev.dl1 = false ∧ (starting false false).dev.bifPin = true ∧ awake.dev.romDone = false ∧ (starting false false).dev.starting = true ∧ (starting false false).dev.hbmDone = false ∧
    (starting true false).dev.hbmDone = true ∧ (starting true false).dev.zeroed = false ∧ (starting true true).dev.zeroed = true ∧ (∀ i ∈ [512], (starting true true).pchFitted ≤ i) ∧
    (starting true false).imageDue 0 = true ∧ (starting true false).imageDue 1 = false ∧ (starting true false).fw.mboxBusy = false ∧ ((starting true false).image 0).bank ((starting true false).image 0).activeB = [] := by decide
theorem test_reset_n : (after .resetNAssert (flying {})).flights = [] ∧ (after .resetNAssert awake).dev.held = true ∧ (after .brownOut awake).dev.faultN = true := by decide
/-- A start with no identity: the variant is that of a record that is accepted. -/
def romming : State := let s := State.reset.outlive; { s with dev := { s.dev with flash := { record := record8160 } } }
theorem test_cold_start : (romming.romChecks none true true).dev.variant = .lg8160 ∧ (romming.romChecks none false true).dev.variant = .lg4080 ∧
    (romming.romChecks none false true).ps.limit = 134217728 ∧ (romming.romChecks none true true).sec.identityOk = false ∧
    exec (.coldStart true 5 9 false {} {} { record := record8160 } [] true) awake = .next awake := ⟨by decide, by decide, by decide, by decide, rfl⟩
theorem test_dev_reset : (after (.devReset 0x5A01) awake).dev.draining = true ∧ (after (.devReset 0x5B01) awake).dev.draining = false ∧
    (after (.upstreamLinkDown 0) { awake with dev := { awake.dev with dl0 := true } }).dev.draining = true := by decide
theorem test_hbm : (after (.hbmTrainingDone [511, 512]) (starting false false)).dev.pchOut = [(511, true)] ∧ (after .t0ZeroingDone { starting true false with t0 := [(5, 1)] }).t0 = [] ∧
    (after (.configurationReady 0) (starting false false)).dev.cfgReady = true := by decide
theorem test_image : (after (.imageVerified 0 true 77 3) (starting true false)).sec.meas.get 2 0 = 77 ∧ (after (.imageVerified 0 false 77 3) (starting true false)).sec.fwFailed = true ∧
    (after (.imageVerified 1 true 77 3) (starting true false)).sec.meas = [] := by decide

/-! ## Further witnesses, by statement -/

theorem wit_HeldMachineStaysAtReset_brown : brown.heldAtReset ∧ brown.dev.held = false ∧ brown.dev.brownOut = true ∧ ∃ t, step brown = .next t :=
  ⟨⟨(fun h => nomatch h), fun _ _ => rfl⟩, rfl, rfl, ⟨_, rfl⟩⟩
/-- An ACTIVE (or STOPPED) context with an empty latch, whose instruction ends with a fault or a refusal. -/
def ending (st : CtxState) (x : Flight) : State := { (flying x).setCtx 0 { state := st, resident := true } with now := 2100 }
theorem wit_FenceAndWaitEnd_fault : (∀ c ∈ [CtxState.active, .stopped], Acts (ending c (waits 6 2)) 1 0x02 (waits 6 2) ∧ ((ending c (waits 6 2)).ctx 0).state = c ∧
    (waits 6 2).since + fld (waits 6 2).c.toNat 0 32 * 1050 ≤ (ending c (waits 6 2)).now ∧ (ending c (waits 6 2)).waitValue (waits 6 2) = some 0) ∧
    (waits 6 2).mirror = none ∧ stClass stTimeout = 3 ∧ stClass stBusy = 2 ∧ (((ending .active {}).ctx 0).ring 0).latch = 0 := by
  refine ⟨fun c hc => ?_, by decide⟩
  rcases List.mem_cons.mp hc with e | hc
  · subst e; exact ⟨acts_of (by decide), by decide⟩
  · cases List.mem_singleton.mp hc; exact ⟨acts_of (by decide), by decide⟩
/-- TIMEOUT stops the ACTIVE context and names the instruction; in a STOPPED one only FAULT_MORE rises (02 R61). -/
theorem test_fault_stops : (let c := (after (.waitTimeout 1) (ending .active (waits 6 2))).ctx 0; c.state = .stopped ∧ c.faultStatus = stTimeout ∧ c.faultMore = 0) ∧
    (let c := (after (.waitTimeout 1) (ending .stopped (waits 6 2))).ctx 0; c.state = .stopped ∧ c.faultStatus = 0 ∧ c.faultMore = 1) := by decide
theorem wit_FetchAndDispatch_fault : (loopFetched.ctx 0).state = .active ∧
    stClass (loopFetched.dispatchCheck (loopFetched.ctx 0) ((loopFetched.ctx 0).ring 1) (granWord 7 0) 0 0 0) = 3 ∧ (4 : Nat) ≠ 8 := by decide

/-- A completed ATTEND of layer 0 of step 7 of gathering 5, which stands there; or a mirrored request that has ended. -/
def attended (m : Option (Nat × Nat)) : State :=
  ((flying { word := 0x30, a := 0x50000, phase := .ended, status := 0x0000, stepAt := 7, mirror := m }).setCtx 0 { state := .active }).updGath 5 fun _ =>
    { live := true, grec := { layers := 2 }, step := 7 }
theorem wit_CompleteWritesItsEntry_attend (b : Bool) : let m := if b then some (3, 1) else none
    let s := attended m
    s.stopped = false ∧ s.outstanding 1 = false ∧ (s.flight 1).phase = .ended ∧ (s.flight 1).mirror = m ∧ wOpcode (s.flight 1).word = 0x30 ∧ stClass (s.flight 1).status ≤ 1 ∧
    gField (s.flight 1).a = 5 ∧ (s.gath 5).live = true ∧ (s.gath 5).step = (s.flight 1).stepAt ∧ (s.gath 5).layer ≤ 0 ∧ 0 + 1 < (s.gath 5).grec.layers := by cases b <;> decide
theorem test_attend_position : ((after (.instructionComplete 1) (attended none)).gath 5).layer = 1 := by decide
/-- `completing` in a confidential context, whose seal ring is in T0 at sheet 3, or in upstream memory; another instruction has taken the next seal message or not. -/
def sealing_ (l : Nat) (taken : Bool) : State :=
  let s := (completing l true).updCtx 0 fun c => { c with conf := true }
  let s := { s with sec := { s.sec with ctxs := [(0, { sealLoc := l, sealBase := 3, oseq := 8 })] } }
  if taken then s.setFlight 2 { sealedAs := some 8 } else s
theorem wit_CompleteWritesItsEntry_conf (l : Nat) : let s := sealing_ l false
    s.stopped = false ∧ s.outstanding 1 = false ∧ (s.ctx 0).conf = true ∧ (s.flight 1).writesEntry = true ∧ s.sealTaken 0 1 = false ∧ (s.ctx 0).cloc = l ∧
    (s.sec.ctxs.get 0 {}).sealLoc = l ∧ s.dev.pchDown = [] ∧ (s.ctx 0).state = .active ∧ (sealing_ l true).sealTaken 0 1 = true ∧ 2 * 4096 + 32 * 63 + 32 ≤ 3 * 4096 + 32 * 63 :=
  ⟨rfl, rfl, rfl, rfl, rfl, rfl, rfl, rfl, rfl, rfl, by decide⟩
/-- The entry of a confidential context names neither RESULT nor CATCHWORD (12 R375). -/
theorem test_sealed_entry : ((sealing_ 1 false).entryOf ((sealing_ 1 false).flight 1)).getD 8 1 = 0 ∧ (after (.instructionComplete 1) (sealing_ 1 true)).flights.length = 2 := by decide

theorem wit_SpineUpdates_plain : let s := updating [.withdraw 0 3 0 0] [(0, 4)]
    s.spine.dirWait = [] ∧ (∀ e ∈ s.spine.regions, e.2.recov = none) ∧ (s.net.role && s.net.selfPeer) = false := by decide
/-- A directory whose update queue is full. -/
def dirFull : State := let s := directory true keyMsg; { s with pools := s.pools.put 9 { used := 128 } }
theorem wit_DirectoryMessages_full : dirFull.avail 9 = 0 ∧ (directory true keyMsg).avail 9 = 128 ∧ (directory true keyMsg).spine.dirWait = [] ∧ dirFull.workerOf 3 = some 2 ∧
    (dirFull.qp 3).slots = [keyMsg] := by decide
theorem test_dir_full : (after (.dirKeyMessage 3) dirFull).spine.dirWait = [(true, 2, BitVec.ofNat 128 key1)] := by decide
theorem wit_AppendWritesTokens_open : ∀ l < 2, ((appending .none []).page (8 + l)).closed = false := by decide
theorem wit_GatheringCommands_busy : (((gsetting 0 true).ctx 0).ring 0).latch = 0 ∧ ((gsetting 0 true).flight 1).mirror = none := by decide
/-- STEP as a mirrored request of queue pair 3, of function 0 or of another. -/
def mirroredStep (f : Nat) : State := (standing { stepTo 8 0 with mirror := some (3, 9) } 0).updQp 3 fun _ => { function := f }
theorem wit_PositionsOnlyMoveOn_mirror (f : Fin 2) : Acts (mirroredStep f) 1 0x33 { stepTo 8 0 with mirror := some (3, 9) } ∧ ((mirroredStep f).qp 3).function = f ∧
    (mirroredStep f).fnOf ((mirroredStep f).gath 5).owner = 0 := by
  match f with
  | 0 => exact ⟨acts_of (by decide), by decide⟩
  | 1 => exact ⟨acts_of (by decide), by decide⟩
theorem test_mirrored_step : ((after (.step 1) (mirroredStep 0)).gath 5).step = 8 ∧ ((after (.step 1) (mirroredStep 1)).flight? 1).map (·.status) = some stPermission := by decide
theorem wit_AttendWritesItsOutput_clock : (attending (.attend [] att1) true 1).pwr.tripped = false ∧ (combining .none).pwr.tripped = false := by decide
/-- A lease on a committed region's new version, not yet committed; on one that has; and on a RETRACT under way. -/
def releasing (j : Job) : State := { (leasing j (2 ^ 60)).updRegion 3 fun r => { r with committed := true, version := 5, entries := [{ base := 8 }], newVersion := 6 } with now := 2 ^ 60 }
theorem wit_HostLossAndLeases_committed : (∀ j ∈ [Job.publish 3 0 [(1, 0)], .publish 3 1 [], .none], (releasing j).lease 1 5 = some 7 ∧ (releasing j).flight? 1 = some { word := 0x14, walker := some 7, job := j }) ∧
    ((releasing .none).region 3).committed = true ∧ (releasing .none).dev.pchDown = [] := by decide
theorem test_lease_publish : let t := after (.leaseExpired 1 5) (releasing (.publish 3 0 [(1, 0)]))
    (t.flight? 1).map (·.status) = some stAborted ∧ (t.region 3).version = 5 ∧ (t.region 3).entries = [{ base := 8 }] := by decide
theorem wit_FunctionResets_ready : (beating 0).dev.cfgOpen ((beating 0).linkOf 3) = true ∧ (beating 0).dev.cfgOpen 0 = true ∧ awake.dev.cfgOpen (awake.linkOf 3) = false ∧ awake.dev.cfgOpen 0 = false := by decide
theorem test_retry : (after (.functionLevelReset 3) awake).out = [.cfgAnswer 1] := by decide
theorem wit_InterruptsAndCounters_vector : 2 < ((vectored 0).fn 3).vecCount ∧ ((vectored 0).fn 3).vecCount ≤ 4 := by decide
/-- No message of a vector that the function no longer has (16 R484). -/
theorem test_unmask_none : (after (.msixUnmask 3 2) ((vectored 0).updFn 3 fun x => { x with vecCount := 2 })).out = [] := by decide

/-- Two reads of ring 1 that a BRANCH cancelled have not come back. -/
def strayed : State := withCtx { state := .active, rings := [(1, { enable := true, base := 5, stray := [3, 4] })] }
theorem wit_UpstreamCompletions_stray : strayed.stopped = false ∧ ((strayed.ctx 0).ring 1).stray = [3, 4] ∧ strayed.recordFull = false ∧ ((reads.ctx 0).ring 1).stray = [] ∧ ((reads.ctx 0).ring 2).stray = [] := by decide
theorem test_stray : ((after (.upstreamReadCompletion false 0 1 0 2 []) strayed).ctx 0).state = .active ∧
    ((after (.upstreamReadCompletion false 0 1 0 2 []) strayed).err.ring.get 0 {}).object = 5 * 4096 + 32 * 3 := by decide
/-- A STAGE, a FORK, a DELIVER and an ATTEND wait for page 5 (or 8, of `swapped`). -/
def waiters (s : State) (p : Nat) : State :=
  (((s.setFlight 1 { word := 0x22, phase := .begun, job := .pages [p] 1 }).setFlight 2 { word := 0x12, phase := .begun, job := .pages [p, p] 2 }).setFlight 3
    { word := 0x25, phase := .begun, job := .deliver [p, 9] {} }).setFlight 4 { word := 0x30, phase := .begun, job := .attend [p] {} }
theorem wit_InwardMoves_waiters : let s := waiters (fetching true 105000) 5
    s.stopped = false ∧ s.dev.pchDown = [] ∧ (∃ m, s.moveOf 5 = some m ∧ m.started = true ∧ m.kind.inward = true ∧ m.byKettle = false ∧ m.since + s.tierTimeout m.tier ≤ s.now) ∧
    (∀ p ∈ s.flights, 5 ∈ p.2.job.waits) ∧ s.flights.length = 4 ∧ wOpcode (s.flight 2).word = 0x12 := ⟨by decide, rfl, ⟨_, rfl, rfl, rfl, rfl, by decide⟩, by decide, rfl, by decide⟩
theorem test_waiters_fail : (after (.inwardMoveFailed 5 0) (waiters (fetching true 0) 5)).flights.map (fun p => p.2.status) = [stTierFail, stPoisoned, stTierFail, stTierFail] := by decide
/-- A page that retires while an ATTEND of its step waits for it moves in all the same (04 R142, 05 R166). -/
def fetchingRetired : State := (waiters (fetching false 0) 5).updPage 5 fun g => { g with state := .retiring }
theorem wit_InwardMoves_retiring : let s := fetchingRetired
    s.stopped = false ∧ (s.page 5).state = .retiring ∧ s.awaited 5 = true ∧ s.dev.engineDown.get 4 false = false ∧ (∃ m, s.moveOf 5 = some m ∧ (∃ r, sortBy Move.before (s.tier.moves.filter fun m => !m.started) = m :: r) ∧ m.kind = .demand ∧ m.credit ≠ 0) ∧
    s.portReady 1 (s.locPort 1 7) 1 = true ∧ s.freeWalker.isSome = true ∧ (s.takePool (s.page 5).sheets false).isSome = true :=
  ⟨rfl, by decide, by decide, by decide, ⟨_, rfl, ⟨_, rfl⟩, rfl, by decide⟩, by decide, by decide, rfl⟩
theorem wit_UpstreamCompletions_waiters : let s := waiters swapped 8
    s.stopped = false ∧ s.dev.pchDown = [] ∧ (∃ m, s.moveOf 8 = some m ∧ m.started = true ∧ m.kind.inward = true ∧ m.tier = 3) ∧ (∀ p ∈ s.flights, 8 ∈ p.2.job.waits) :=
  ⟨by decide, rfl, ⟨_, rfl, rfl, rfl, rfl⟩, by decide⟩
/-- Page 5's class has become T1 while it was written as a spill. -/
def misplaced : State := (writing 2 0).updPage 5 fun g => { g with cls := 2 }
theorem wit_OutwardMoves_placed : (∃ m, misplaced.moveOf 5 = some m ∧ m.started = true ∧ m.kind.inward = false ∧ m.kind ≠ .placement ∧ m.tier = 2) ∧ 2 ≤ (misplaced.page 5).cls ∧
    (misplaced.page 5).state = .sealed ∧ (misplaced.page 5).tier = 0 ∧ (misplaced.page 5).poison = false := ⟨⟨_, rfl, rfl, rfl, (fun h => nomatch h), rfl⟩, by decide⟩
theorem test_placed_instead : ((after (.outwardWriteFail 5) misplaced).moveOf 5).map (fun m => (m.kind, m.started)) = some (.placement, false) := by decide

theorem wit_AcknowledgedAndSentAgain_nak : let s := sentAll true 0 0 { op := 0x11, psn := 16777215, nak := 1 }
    s.stopped = false ∧ (s.qp 5).multipath = true ∧ s.net.accepted.find? (fun a => a.1 == 5) = some (5, { op := 0x11, psn := 16777215, nak := 1 }) ∧
      (∃ m ∈ (s.qp 5).sent, psnSub 16777215 m.psn < m.frame.psns) := by decide
theorem test_nak_multi : (after (.inboundNak 5) (sentAll true 0 0 { op := 0x11, psn := 16777215, nak := 1 })).queued 5 = [] := by decide
theorem wit_NetworkTime_late : (timing .holdover 0).ptp.state ≠ .uncalibrated ∧ (timing .holdover 0).ptp.state ≠ .locked ∧ (timing .holdover 0).stopped = false ∧ (awaiting none (some (9800, 2, 3))).ptp.state = .uncalibrated := by decide
theorem test_late_follow_up : (after (.ptpFollowUp (sync true 9593)) { awaiting none (some (9800, 2, 3)) with ptp := { (awaiting none (some (9800, 2, 3))).ptp with state := .holdover } }).ptp.offset = 0 := by decide

/-- The Colophon with a device reset asserted; and while it answers. -/
def draining_ (b : Bool) : State := { sealed_ true with dev := { (sealed_ true).dev with draining := b } }
theorem wit_ColophonMessages_draining : (draining_ true).stopped = false ∧ (draining_ true).dev.draining = true ∧ (sealed_ true).dev.draining = false ∧ activating_.dev.draining = false ∧
    (let m : List (BitVec 8) := [0x13, 0x86, 0, 1]; msgByte m 0 = 0x13 ∧ msgByte m 1 = 0x86 ∧ 4 ≤ m.length) := by decide
theorem wit_ColophonMessages_exchange : exchangeMsg.length = 138 + 1581 ∧ msgByte exchangeMsg 1 = 0xE4 ∧ msgByte exchangeMsg 2 = 0 ∧ msgByte exchangeMsg 3 = 0 ∧ msgByte exchangeMsg 0 = 0x13 ∧
    ofLe (msgPart exchangeMsg 136 2) = 1581 := ⟨by simp [exchangeMsg, kemElement, leBytes], by decide, by decide, by decide, by decide, by decide⟩
/-- M is discarded by a chunk request between (12 R379), and nothing is answered once a reset is asserted (12 R389). -/
theorem test_chunk_drops_m : (after (.spdmRequest 3 0 [0x13, 0x86, 0, 1, 0, 0]) { sealed_ true with sec := { (sealed_ true).sec with lastM := [(3, [1])] } }).sec.lastM = [] ∧
    (after (.spdmRequest 3 0 [0x13, 0xE6, 0, 0]) (draining_ true)).sec.mboxDone = false ∧ (after .debug1 (draining_ true)).sec.debug = 0 := by decide
/-- Image 1 is being staged: 6 bytes at offset 0 came last. -/
def staged_ : State := { serving true with fw := { (serving true).fw with staging := 2, stageTop := 6, stageShort := true } }
theorem wit_MailboxAndServiceProcessors_chunks : staged_.fw.staging = 2 ∧ staged_.fw.chunkBad 0 4096 = false ∧ staged_.fw.chunkBad 4096 4096 = true ∧ (serving true).busUp 3 = false ∧
    ({ serving true with dev := { (serving true).dev with i3c := true } } : State).busUp 1 = true ∧ (serving true).busUp 0 = true ∧
    (stuck_ .ready true 2100000000).fw.mboxHeld = false ∧ (stuck_ .ready true 2100000000).dev.served = true := by decide
/-- A chunk behind a short one is refused (14 R436); a request under way ends with ABORTED when processor 2 is restarted (14 R433). -/
theorem test_chunk_short : (getBuf (after (.fwStage 3 (ask 16 (stage 1 4096 [5, 6]))) staged_).fw.rsp 6 2 = leBytes 2 stRange.toNat) ∧
    getBuf (after (.watchdogExpiry 2) (stuck_ .ready true 2100000000)).fw.rsp 6 2 = leBytes 2 stAborted.toNat := by decide
/-- A record written in a context that is DISABLED; a write of QUOTA alone is taken in another state (02 R28). -/
theorem test_descriptor : ((after (.registerWrite 0 0 0x100508 [0x2003] 8) mapped).ctx 5).csize = 3 ∧
    (let t := after (.registerWrite 0 0 0x100508 [0x2003] 8) (mapped.setCtx 5 { state := .active }); (t.ctx 5).csize = 0) ∧
    ((after (.registerWrite 0 0 0x100580 [9] 8) (mapped.setCtx 5 { state := .active })).ctx 5).quota = 9 := by decide
/-- Bank A of image 0 has been staged, or not since the first start. -/
theorem wit_ResetsAndStarts_bank : ((starting true false).image 0).erased ((starting true false).image 0).activeB = [] ∧
    ({ (starting true false).image 0 with erasedA := [(0, true)] } : Image).erased false ≠ [] := by decide

theorem wit_FrameControlAndContexts : Instr.family (.heartbeat 3 8) ∈ ([.control, .context] : List Family) ∧ (.t0 ∉ (Instr.heartbeat 3 8).touches) ∧ ∃ t, exec (.heartbeat 3 8) (beating 9) = .next t ∧ t ≠ beating 9 :=
  ⟨by decide, by decide, _, rfl, by decide⟩
theorem wit_FrameIndexSequencesAttention : Instr.family .spineCarry ∈ ([.index, .sequence, .attention] : List Family) ∧ (.t0 ∉ Instr.spineCarry.touches) ∧ ∃ t, exec .spineCarry awake = .next t :=
  ⟨by decide, by decide, _, rfl⟩
theorem wit_FrameTiersFenceDevice : Instr.family (.outwardMoveDone 5) ∈ ([.tier, .fence, .management, .device] : List Family) ∧ (.t0 ∉ (Instr.outwardMoveDone 5).touches) ∧
    ∃ t, exec (.outwardMoveDone 5) (writing 1 0) = .next t ∧ t ≠ writing 1 0 := ⟨by decide, by decide, _, rfl, by decide⟩
theorem wit_FrameNetwork : Instr.family (.toInit 0 0 5) ∈ ([.rdma, .vanged, .netRegister] : List Family) ∧ (.t0 ∉ (Instr.toInit 0 0 5).touches) ∧
    ∃ t, exec (.toInit 0 0 5) (pairing .reset 3) = .next t ∧ t ≠ pairing .reset 3 := ⟨by decide, by decide, _, rfl, by decide⟩
theorem wit_FrameTimeAndSecurity : Instr.family (.ptpEnableWrite 1) ∈ ([.time, .security] : List Family) ∧ (.t0 ∉ (Instr.ptpEnableWrite 1).touches) ∧
    ∃ t, exec (.ptpEnableWrite 1) awake = .next t ∧ t ≠ awake := ⟨by decide, by decide, _, rfl, by decide⟩

end Sys2Proof.Tests
end

section
-- One proof after another: so many at once would not fit beside the model in memory.
set_option Elab.async false
/-! The frame of a meaning, the flights by number, and what the ending of an instruction leaves: rules that the proofs share. -/
namespace Sys2Proof.Machine
open Sys2Proof

/-! ## The frame of a meaning -/

/-- A state framed by itself is itself. -/
@[simp] theorem State.framed_self (s : State) : s.framed s = s := rfl
@[simp] theorem State.framed_ctx (t s : State) (c : Nat) : (t.framed s).ctx c = t.ctx c := rfl
@[simp] theorem State.framed_flight? (t s : State) (f : Nat) : (t.framed s).flight? f = t.flight? f := rfl
@[simp] theorem State.framed_flight (t s : State) (f : Nat) : (t.framed s).flight f = t.flight f := rfl
@[simp] theorem State.framed_fn (t s : State) (f : Nat) : (t.framed s).fn f = t.fn f := rfl
@[simp] theorem State.framed_gath (t s : State) (g : Nat) : (t.framed s).gath g = t.gath g := rfl

/-- While the device runs, a meaning is its effect within its frame. -/
theorem act_running {s : State} (h : s.stopped = false) (g : State → State) : act s g = .next ((g s).framed s) := by
  simp [act, h]

/-- On an instruction that may act, the meaning of its opcode is its effect within its frame. -/
theorem onFlight_acts {s : State} {f op : Nat} {x : Flight} (h : Acts s f op x) (k : Flight → State → State) :
    onFlight op f s k = .next ((k x s).framed s) := by
  simp [onFlight, act_running h.runs, h.here, h.code, h.live, h.free, h.up]

/-- The frame adds nothing to what an effect changes. -/
theorem OnlyChanges.framed {l : List Part} {s t : State} (h : OnlyChanges l s t) : OnlyChanges l s (t.framed s) := by
  intro p hp
  cases p
  case pending => rfl
  case dev => exact congrArg (fun d : Dev => { d with held := s.dev.held, brownOut := s.dev.brownOut }) (h .dev hp)
  all_goals exact h _ hp

/-- What an effect leaves, its meaning leaves. -/
theorem OnlyChanges.act {l : List Part} {s t : State} {g : State → State} (e : Machine.act s g = .next t) (h : OnlyChanges l s (g s)) :
    OnlyChanges l s t := by
  obtain rfl : (if s.stopped then s else (g s).framed s) = t := by simpa [Machine.act] using e
  exact .ite (fun _ => .refl l s) fun _ => h.framed

/-- What an instruction's work and the ending of one whose engine is unavailable leave, its meaning leaves. -/
theorem OnlyChanges.onFlight {l : List Part} {s t : State} {op f : Nat} {k : Flight → State → State} (e : Machine.onFlight op f s k = .next t)
    (h : ∀ x, OnlyChanges l s (k x s)) (hl : finishParts ⊆ l := by decide) : OnlyChanges l s t := by
  refine OnlyChanges.act e ?_
  split
  · exact .ite (fun _ => .ite (fun _ => h _) fun _ => (OnlyChanges.fail s f _).mono hl) fun _ => .refl l s
  · exact .refl l s

/-! ## Flights by number -/

theorem find?_put_same {α : Type} (t : Tbl α) (k : Nat) (v : α) : (Tbl.put t k v).find? (fun p => p.1 == k) = some (k, v) := by
  induction t with
  | nil => simp [Tbl.put]
  | cons p r ih =>
    obtain ⟨k', v'⟩ := p
    unfold Tbl.put
    split_ifs with h1 h2 <;> simp [h1, ih]

theorem find?_put_ne {α : Type} (t : Tbl α) {j k : Nat} (v : α) (h : j ≠ k) :
    (Tbl.put t k v).find? (fun p => p.1 == j) = t.find? fun p => p.1 == j := by
  induction t with
  | nil => simp [Tbl.put, h.symm]
  | cons p r ih =>
    obtain ⟨k', v'⟩ := p
    unfold Tbl.put
    split_ifs with h1 h2
    · simp [h1, h.symm]
    · simp [List.find?_cons, h.symm]
    · simp [List.find?_cons, ih]

@[simp] theorem State.setFlight_flight?_same (s : State) (f : Nat) (x : Flight) : (s.setFlight f x).flight? f = some x := by
  simp [State.flight?, State.setFlight, find?_put_same]

theorem State.setFlight_flight?_ne (s : State) {f g : Nat} (x : Flight) (h : g ≠ f) : (s.setFlight f x).flight? g = s.flight? g := by
  simp [State.flight?, State.setFlight, find?_put_ne _ _ h]

theorem State.updFlight_flight?_same {s : State} {f : Nat} {x : Flight} (h : s.flight? f = some x) (g : Flight → Flight) :
    (s.updFlight f g).flight? f = some (g x) := by
  simp [State.updFlight, State.flight, h]

theorem State.updFlight_flight?_self (s : State) (f : Nat) (g : Flight → Flight) : (s.updFlight f g).flight? f = some (g (s.flight f)) :=
  s.setFlight_flight?_same f _

theorem State.updFlight_flight?_ne (s : State) {f j : Nat} (g : Flight → Flight) (h : j ≠ f) : (s.updFlight f g).flight? j = s.flight? j :=
  State.setFlight_flight?_ne s _ h

@[simp] theorem State.dropFlight_flight?_same (s : State) (f : Nat) : (s.dropFlight f).flight? f = none := by
  simp [State.flight?, State.dropFlight, Tbl.del, List.find?_filter]

theorem State.dropFlight_flight?_ne (s : State) {f g : Nat} (h : g ≠ f) : (s.dropFlight f).flight? g = s.flight? g := by
  have e : (fun p : Nat × Flight => p.1 != f && p.1 == g) = fun p => p.1 == g := funext fun p => by by_cases hp : p.1 = g <;> simp [hp, h]
  simp only [State.flight?, State.dropFlight, Tbl.del, List.find?_filter, Bool.decide_and, Bool.decide_eq_true, e]

theorem State.flight_of_flight? {s : State} {f : Nat} {x : Flight} (h : s.flight? f = some x) : s.flight f = x := by simp [State.flight, h]

/-- States that list the same flights find the same ones. -/
theorem flight?_congr {s t : State} (h : t.flights = s.flights) (f : Nat) : t.flight? f = s.flight? f := by simp [State.flight?, h]
theorem flight_congr {s t : State} (h : t.flights = s.flights) (f : Nat) : t.flight f = s.flight f := by simp [State.flight, flight?_congr h]
theorem updFlight_flight?_of_flights {s t : State} (h : t.flights = s.flights) (f : Nat) (k : Flight → Flight) (g : Nat) :
    (t.updFlight f k).flight? g = if g = f then some (k (s.flight f)) else s.flight? g := by
  split_ifs with hg
  · subst hg; rw [State.updFlight_flight?_self, flight_congr h]
  · rw [State.updFlight_flight?_ne t k hg, flight?_congr h]
theorem ctx_congr {s t : State} (h : t.ctxs = s.ctxs) (c : Nat) : t.ctx c = s.ctx c := by simp [State.ctx, h]

/-! ## Rings and registers of a context -/

@[simp] theorem Ctx.updRing_ring_same (x : Ctx) (n : Nat) (g : Ring → Ring) : (x.updRing n g).ring n = g (x.ring n) := by
  simp [Ctx.updRing, Ctx.ring]
theorem Ctx.updRing_ring_ne (x : Ctx) {m n : Nat} (g : Ring → Ring) (h : m ≠ n) : (x.updRing n g).ring m = x.ring m := by
  simp [Ctx.updRing, Ctx.ring, Tbl.get_set_ne _ _ _ h]
@[simp] theorem Ctx.updRing_reg (x : Ctx) (n : Nat) (g : Ring → Ring) (i : Nat) : (x.updRing n g).reg i = x.reg i := rfl
@[simp] theorem Ctx.updRing_state (x : Ctx) (n : Nat) (g : Ring → Ring) : (x.updRing n g).state = x.state := rfl
@[simp] theorem Ctx.setReg_ring (x : Ctx) (n : Nat) (v : BitVec 64) (i : Nat) : (x.setReg n v).ring i = x.ring i := rfl
@[simp] theorem Ctx.setReg_state (x : Ctx) (n : Nat) (v : BitVec 64) : (x.setReg n v).state = x.state := rfl
theorem Ctx.setReg_reg (x : Ctx) (n : Nat) (v : BitVec 64) (i : Nat) : (x.setReg n v).reg i = if i = n then v else x.reg i := by
  by_cases h : i = n
  · simp [Ctx.setReg, Ctx.reg, h]
  · simp [Ctx.setReg, Ctx.reg, h, Tbl.get_set_ne _ _ _ h]

end Sys2Proof.Machine
end

section
-- One proof after another: so many at once would not fit beside the model in memory.
set_option Elab.async false
/-! What the ending of an instruction does: its own record, and its context as one function of what the context was (02 R50, R53, R61; 03 R108). -/
namespace Sys2Proof.Machine
open Sys2Proof

/-! ## Changes of all rings -/

/-- A change of every listed ring changes nothing of the context but its rings. -/
theorem foldl_updRing_eq (g : Ring → Ring) (l : Tbl Ring) (y : Ctx) :
    ∃ rs, l.foldl (fun (y : Ctx) p => y.updRing p.1 g) y = { y with rings := rs } := by
  induction l generalizing y with
  | nil => exact ⟨y.rings, rfl⟩
  | cons p r ih =>
    obtain ⟨rs, h⟩ := ih (y.updRing p.1 g)
    exact ⟨rs, h⟩

/-- Each ring is changed once for each time that it is listed. -/
theorem foldl_updRing_ring (g : Ring → Ring) (l : Tbl Ring) (y : Ctx) (n : Nat) :
    (l.foldl (fun (y : Ctx) p => y.updRing p.1 g) y).ring n = g^[(l.filter fun p => p.1 == n).length] (y.ring n) := by
  induction l generalizing y with
  | nil => rfl
  | cons p r ih =>
    rw [List.foldl_cons, ih]
    by_cases h : p.1 = n
    · subst h; simp [Function.iterate_succ_apply]
    · simp [h, Ctx.updRing_ring_ne y g (Ne.symm h)]

/-- What every change of a ring leaves, the change of all of them leaves. -/
theorem foldl_updRing_keeps {α : Type} (g : Ring → Ring) (a : Ring → α) (h : ∀ r, a (g r) = a r) (l : Tbl Ring) (y : Ctx) (n : Nat) :
    a ((l.foldl (fun (y : Ctx) p => y.updRing p.1 g) y).ring n) = a (y.ring n) := by
  rw [foldl_updRing_ring]
  generalize (l.filter fun p => p.1 == n).length = k
  induction k with
  | zero => rfl
  | succ k ih => rw [Function.iterate_succ_apply', h, ih]

theorem Tbl.get_unlisted {α : Type} (t : Tbl α) (n : Nat) (d : α) (h : t.filter (fun p => p.1 == n) = []) : Tbl.get t n d = d := by
  induction t with
  | nil => rfl
  | cons p r ih =>
    obtain ⟨k, v⟩ := p
    by_cases hk : k = n
    · simp [hk] at h
    · rw [Tbl.get_cons, if_neg hk, ih (by simpa [hk] using h)]

/-- What the change gives every ring and the default ring has, all rings have afterwards. -/
theorem foldl_updRing_sets (g : Ring → Ring) (P : Ring → Prop) (h : ∀ r, P (g r)) (h0 : P {}) (y : Ctx) (n : Nat) :
    P ((y.rings.foldl (fun (y : Ctx) p => y.updRing p.1 g) y).ring n) := by
  rw [foldl_updRing_ring]
  cases e : y.rings.filter fun p => p.1 == n with
  | nil => simpa [Ctx.ring, Tbl.get_unlisted _ _ _ e] using h0
  | cons p r => rw [List.length_cons, Function.iterate_succ_apply']; exact h _

@[simp] theorem Ring.cancel_latch (r : Ring) : r.cancel.latch = r.latch := by unfold Ring.cancel; split <;> rfl
@[simp] theorem Ring.cancel_fetched (r : Ring) : r.cancel.fetched = r.fetched := by unfold Ring.cancel; split <;> rfl
@[simp] theorem Ring.unfetch_latch (r : Ring) : r.unfetch.latch = r.latch := by unfold Ring.unfetch; split <;> simp
@[simp] theorem Ring.unfetch_fetched (r : Ring) : r.unfetch.fetched = [] := by unfold Ring.unfetch; split <;> simp [*]

/-! ## The context's side -/

/-- A context after an instruction of it has ended: its destination register, the latch of its ring, and the stop of a fault. -/
def Ctx.ended (c : Ctx) (x : Flight) (st : BitVec 16) (res : BitVec 64) : Ctx :=
  let c := if stClass st ≤ 1 ∧ wSelD x.word < 16 then c.setReg (wSelD x.word) res else c
  let c := c.updRing x.ring fun r => { r with latch := latchAfter r.latch st }
  if stClass st = 3 then
    match c.state with
    | .active => { c.faultStop x.ring st (wTag x.word) with state := .stopped }
    | .stopped => { c with faultMore := min (c.faultMore + 1) 255 }
    | _ => c
  else c

/-- The instruction's record, when its ending stops its context, or meets it stopped. -/
def Flight.stopped (x : Flight) (c : CtxState) (st : BitVec 16) : Flight :=
  if stClass st = 3 then match c with | .active => { x with stop := true } | .stopped => { x with more := true } | _ => x else x

@[simp] theorem State.trace_ctx (s : State) (q : Nat) (d : List Nat) (c : Nat) : (s.trace q d).ctx c = s.ctx c :=
  ctx_congr (OnlyChanges.trace s q d .ctxs (by decide)) c
@[simp] theorem State.trace_flight? (s : State) (q : Nat) (d : List Nat) (f : Nat) : (s.trace q d).flight? f = s.flight? f :=
  flight?_congr (OnlyChanges.trace s q d .flights (by decide)) f

@[simp] theorem State.updCtx_flight? (s : State) (c : Nat) (g : Ctx → Ctx) (f : Nat) : (s.updCtx c g).flight? f = s.flight? f := rfl
@[simp] theorem State.updCtx_flight (s : State) (c : Nat) (g : Ctx → Ctx) (f : Nat) : (s.updCtx c g).flight f = s.flight f := rfl
@[simp] theorem State.updFlight_ctx (s : State) (f : Nat) (g : Flight → Flight) (c : Nat) : (s.updFlight f g).ctx c = s.ctx c := rfl
@[simp] theorem State.setFlight_ctx (s : State) (f : Nat) (x : Flight) (c : Nat) : (s.setFlight f x).ctx c = s.ctx c := rfl
@[simp] theorem State.dropFlight_ctx (s : State) (f : Nat) (c : Nat) : (s.dropFlight f).ctx c = s.ctx c := rfl

theorem State.updCtx_ctx_eq (s : State) (c d : Nat) (g : Ctx → Ctx) : (s.updCtx c g).ctx d = if d = c then g (s.ctx c) else s.ctx d := by
  split_ifs with h
  · subst h; simp
  · exact s.updCtx_ctx_ne g h

/-- A context moved to a state has that state, and nothing else of any context changes. -/
theorem State.ctxTo_ctx (s : State) (c : Nat) (st : CtxState) (d : Nat) :
    (s.ctxTo c st).ctx d = if d = c then { s.ctx c with state := st } else s.ctx d := by
  unfold State.ctxTo
  dsimp only
  split_ifs with h hd hd
  · subst hd; rw [← h]
  · rfl
  · rw [State.trace_ctx, State.updCtx_ctx_eq, if_pos hd]
  · rw [State.trace_ctx, State.updCtx_ctx_eq, if_neg hd]

@[simp] theorem State.ctxTo_flights (s : State) (c : Nat) (st : CtxState) : (s.ctxTo c st).flights = s.flights :=
  OnlyChanges.ctxTo s c st .flights (by decide)
@[simp] theorem State.ctxTo_flight? (s : State) (c : Nat) (st : CtxState) (f : Nat) : (s.ctxTo c st).flight? f = s.flight? f :=
  flight?_congr (s.ctxTo_flights c st) f

/-- The context with the destination register written and the latch of the ring set. -/
def Ctx.latched (c : Ctx) (x : Flight) (st : BitVec 16) (res : BitVec 64) : Ctx :=
  (if stClass st ≤ 1 ∧ wSelD x.word < 16 then c.setReg (wSelD x.word) res else c).updRing x.ring fun r => { r with latch := latchAfter r.latch st }

@[simp] theorem Ctx.latched_state (c : Ctx) (x : Flight) (st : BitVec 16) (res : BitVec 64) : (c.latched x st res).state = c.state := by
  unfold Ctx.latched; split_ifs <;> rfl

/-- The context after an ending, by its state before. -/
theorem Ctx.ended_eq (c : Ctx) (x : Flight) (st : BitVec 16) (res : BitVec 64) :
    c.ended x st res = if stClass st = 3 then
        match c.state with
        | .active => { (c.latched x st res).faultStop x.ring st (wTag x.word) with state := .stopped }
        | .stopped => { c.latched x st res with faultMore := min ((c.latched x st res).faultMore + 1) 255 }
        | _ => c.latched x st res
      else c.latched x st res := by
  rw [← c.latched_state x st res]; rfl

/-- The state with the register and the latch written. -/
def State.latchCtx (s : State) (x : Flight) (st : BitVec 16) (res : BitVec 64) : State :=
  (if stClass st ≤ 1 ∧ wSelD x.word < 16 then s.updCtx x.ctx fun c => c.setReg (wSelD x.word) res else s).updCtx x.ctx fun c =>
    c.updRing x.ring fun r => { r with latch := latchAfter r.latch st }

theorem State.latchCtx_ctx (s : State) (x : Flight) (st : BitVec 16) (res : BitVec 64) (c : Nat) :
    (s.latchCtx x st res).ctx c = if c = x.ctx then (s.ctx x.ctx).latched x st res else s.ctx c := by
  unfold State.latchCtx Ctx.latched
  split_ifs <;> simp_all [State.updCtx_ctx_eq]

@[simp] theorem State.latchCtx_flight? (s : State) (x : Flight) (st : BitVec 16) (res : BitVec 64) (f : Nat) :
    (s.latchCtx x st res).flight? f = s.flight? f := by
  unfold State.latchCtx; split_ifs <;> rfl

theorem State.endCtx_eq (s : State) {f : Nat} {x : Flight} (h : s.flight? f = some x) (st : BitVec 16) (res : BitVec 64) :
    s.endCtx f st res = if stClass st = 3 then
        match (s.ctx x.ctx).state with
        | .active => (((s.latchCtx x st res).updCtx x.ctx fun c => c.faultStop x.ring st (wTag x.word)).ctxTo x.ctx .stopped).updFlight f
            fun x => { x with stop := true }
        | .stopped => ((s.latchCtx x st res).updCtx x.ctx fun c => { c with faultMore := min (c.faultMore + 1) 255 }).updFlight f
            fun x => { x with more := true }
        | _ => s.latchCtx x st res
      else s.latchCtx x st res := by
  have e : (s.ctx x.ctx).state = ((s.latchCtx x st res).ctx x.ctx).state := by simp [State.latchCtx_ctx]
  rw [e]
  unfold State.endCtx
  rw [State.flight_of_flight? h]
  rfl

/-- The ending on its context's side: the context is `Ctx.ended`, no other context changes. -/
theorem State.endCtx_ctx (s : State) {f : Nat} {x : Flight} (h : s.flight? f = some x) (st : BitVec 16) (res : BitVec 64) (c : Nat) :
    (s.endCtx f st res).ctx c = if c = x.ctx then (s.ctx x.ctx).ended x st res else s.ctx c := by
  rw [s.endCtx_eq h, Ctx.ended_eq]
  by_cases h3 : stClass st = 3
  · rw [if_pos h3, if_pos h3]
    cases (s.ctx x.ctx).state <;> simp only [State.updFlight_ctx, State.ctxTo_ctx, State.updCtx_ctx_eq, State.latchCtx_ctx, if_true] <;>
      split_ifs <;> rfl
  · rw [if_neg h3, if_neg h3, State.latchCtx_ctx]

/-- … and the instruction is marked as one that has stopped it. -/
theorem State.endCtx_flight? (s : State) {f : Nat} {x : Flight} (h : s.flight? f = some x) (st : BitVec 16) (res : BitVec 64) (g : Nat) :
    (s.endCtx f st res).flight? g = if g = f then some (x.stopped (s.ctx x.ctx).state st) else s.flight? g := by
  have same (t : State) (k : Flight → Flight) (ht : ∀ g, t.flight? g = s.flight? g) :
      (t.updFlight f k).flight? g = if g = f then some (k x) else s.flight? g := by
    split_ifs with hg
    · subst hg; exact State.updFlight_flight?_same ((ht g).trans h) k
    · rw [State.updFlight_flight?_ne t k hg, ht]
  have none : s.flight? g = if g = f then some x else s.flight? g := by split_ifs with hg <;> simp [hg, h]
  rw [s.endCtx_eq h]
  unfold Flight.stopped
  by_cases h3 : stClass st = 3
  · rw [if_pos h3, if_pos h3]
    cases (s.ctx x.ctx).state
    case active => exact same _ _ fun g => by simp
    case stopped => exact same _ _ fun g => by simp
    all_goals simpa using none
  · simpa [h3] using none

/-! ## The ending -/

/-- An instruction's record once it has ended, its holds given back and the work it held given up. -/
def Flight.done (x : Flight) (st : BitVec 16) (res : BitVec 64) (cw : Option (BitVec 64)) : Flight :=
  { x with
    holds := [], wantCredit := none, walker := none, stallOn := none
    phase := .ended, status := st, result := resultOf st res, catchword := catchwordOf x.word st cw, job := .none, waitsFor := [] }

/-- Returning what an instruction holds changes no flight but its own. -/
theorem State.dropHolds_flight? (s : State) {f : Nat} {x : Flight} (h : s.flight f = x) (g : Nat) :
    (s.dropHolds f).flight? g = if g = f then some { x with holds := [], wantCredit := none, walker := none, stallOn := none } else s.flight? g := by
  unfold State.dropHolds
  rw [h]
  extract_lets y s1 s2 s3
  have h1 : s1.flights = s.flights := OnlyChanges.foldl (l := [.pools]) _ (fun s i => OnlyChanges.freeCredits s i 1) x.holds s .flights (by decide)
  have h2 : s2.flights = s.flights := by
    unfold s2
    split <;> exact h1
  have h3 : s3.flights = s.flights := h2
  rw [updFlight_flight?_of_flights h3, h]

/-- The counters of an ending and of its waits. -/
theorem OnlyChanges.endCounts (s : State) (x : Flight) (e : Nat) (st : BitVec 16) :
    OnlyChanges (.free :: evParts) s (x.waited.foldl (fun (s : State) c => s.countWaits (s.fnOf x.ctx) e c)
      (if x.word = putWord then s else s.countEnd (s.fnOf x.ctx) st)) :=
  (OnlyChanges.ite (fun _ => .refl _ s) fun _ => (OnlyChanges.countEnd s _ st).mono).trans
    (.foldl _ (fun s c => OnlyChanges.countWaits s _ e c) _ _)

/-- The ending is that of the instruction's record, in a state whose contexts are as they were, and then its context's. -/
theorem State.finish_eq (s : State) {f : Nat} {x : Flight} (h : s.flight f = x) (st : BitVec 16) (res : BitVec 64) (cw : Option (BitVec 64)) :
    ∃ u : State, s.finish f st res cw = (if x.mirror.isSome then u else u.endCtx f st res) ∧ u.ctxs = s.ctxs ∧
      ∀ g, u.flight? g = if g = f then some (x.done st res cw) else s.flight? g := by
  unfold State.finish
  rw [h]
  dsimp only
  have hj := OnlyChanges.dropJob s x.job (decide (stClass st ≤ 1))
  generalize s.dropJob x.job (decide (stClass st ≤ 1)) = s1 at hj ⊢
  have h1 : s1.flight f = x := (flight_congr (hj .flights (by decide)) f).trans h
  have h2 (g : Nat) := s1.dropHolds_flight? h1 g
  have c2 : (s1.dropHolds f).ctxs = s.ctxs := (OnlyChanges.dropHolds s1 f .ctxs (by decide)).trans (hj .ctxs (by decide))
  generalize s1.dropHolds f = s2 at h2 c2 ⊢
  have h3 := OnlyChanges.endCounts (s2.updFlight f fun x => { x with
    phase := .ended, status := st, result := resultOf st res, catchword := catchwordOf x.word st cw, job := .none, waitsFor := [] }) x (s.enginesOf f) st
  refine ⟨_, rfl, (h3 .ctxs (by decide)).trans c2, fun g => (flight?_congr (h3 .flights (by decide)) g).trans ?_⟩
  split_ifs with hg
  · subst hg; exact State.updFlight_flight?_same ((h2 g).trans (if_pos rfl)) _
  · rw [State.updFlight_flight?_ne _ _ hg, h2, if_neg hg]
    exact flight?_congr (hj .flights (by decide)) g

theorem State.finish_ctx (s : State) {f : Nat} {x : Flight} (h : s.flight f = x) (st : BitVec 16) (res : BitVec 64)
    (cw : Option (BitVec 64)) (c : Nat) :
    (s.finish f st res cw).ctx c = if x.mirror = none ∧ c = x.ctx then (s.ctx x.ctx).ended x st res else s.ctx c := by
  obtain ⟨u, e, hc, hf⟩ := s.finish_eq h st res cw
  have hu (c : Nat) : u.ctx c = s.ctx c := ctx_congr hc c
  rw [e]
  cases hm : x.mirror with
  | some m => simp [hu]
  | none =>
    have := u.endCtx_ctx (by simpa using hf f) st res c
    have hx : (s.ctx x.ctx).ended (x.done st res cw) st res = (s.ctx x.ctx).ended x st res := rfl
    rw [hu, hu, show (x.done st res cw).ctx = x.ctx from rfl, hx] at this
    simpa using this

theorem State.finish_flight? (s : State) {f : Nat} {x : Flight} (h : s.flight f = x) (st : BitVec 16) (res : BitVec 64)
    (cw : Option (BitVec 64)) (g : Nat) :
    (s.finish f st res cw).flight? g =
      if g = f then some (if x.mirror = none then (x.done st res cw).stopped (s.ctx x.ctx).state st else x.done st res cw) else s.flight? g := by
  obtain ⟨u, e, hc, hf⟩ := s.finish_eq h st res cw
  rw [e]
  cases hm : x.mirror with
  | some m => simpa using hf g
  | none =>
    have := u.endCtx_flight? (by simpa using hf f) st res g
    rw [ctx_congr hc] at this
    simp only [Option.isSome_none, Bool.false_eq_true, if_false, if_true, this]
    split_ifs with hg
    · rfl
    · rw [hf, if_neg hg]

theorem Ctx.latched_form (c : Ctx) (x : Flight) (st : BitVec 16) (res : BitVec 64) :
    ∃ rs, c.latched x st res = { c with x := (c.latched x st res).x, rings := rs } := by
  unfold Ctx.latched; split_ifs <;> exact ⟨_, rfl⟩

/-- What an ending leaves of a context: a fault stops an ACTIVE one, and only its registers, rings and FAULT fields change. -/
theorem Ctx.ended_form (c : Ctx) (x : Flight) (st : BitVec 16) (res : BitVec 64) :
    ∃ s' rs fs ft fr fm, c.ended x st res =
      { c with state := s', x := (c.latched x st res).x, rings := rs, faultStatus := fs, faultTag := ft, faultRing := fr, faultMore := fm } := by
  obtain ⟨rs, hl⟩ := c.latched_form x st res
  rw [Ctx.ended_eq]
  split
  · split
    · obtain ⟨rs', hr⟩ := foldl_updRing_eq Ring.unfetch (c.latched x st res).rings (c.latched x st res)
      unfold Ctx.faultStop Ctx.unfetchAll
      rw [hr, hl]
      exact ⟨_, _, _, _, _, _, rfl⟩
    · exact ⟨_, _, _, _, _, _, by rw [hl]⟩
    · exact ⟨_, _, _, _, _, _, hl⟩
  · exact ⟨_, _, _, _, _, _, hl⟩

theorem Ctx.latched_reg (c : Ctx) (x : Flight) (st : BitVec 16) (res : BitVec 64) (n : Nat) :
    (c.latched x st res).reg n = if stClass st ≤ 1 ∧ n = wSelD x.word ∧ n < 16 then res else c.reg n := by
  unfold Ctx.latched
  by_cases h : stClass st ≤ 1 ∧ wSelD x.word < 16
  · rw [if_pos h, Ctx.updRing_reg, Ctx.setReg_reg]
    exact if_congr ⟨fun e => ⟨h.1, e, e ▸ h.2⟩, fun e => e.2.1⟩ rfl rfl
  · rw [if_neg h, Ctx.updRing_reg, if_neg]
    rintro ⟨hs, rfl, hn⟩
    exact h ⟨hs, hn⟩

theorem Ctx.ended_reg (c : Ctx) (x : Flight) (st : BitVec 16) (res : BitVec 64) (n : Nat) :
    (c.ended x st res).reg n = if stClass st ≤ 1 ∧ n = wSelD x.word ∧ n < 16 then res else c.reg n := by
  obtain ⟨_, _, _, _, _, _, e⟩ := c.ended_form x st res
  rw [e, ← Ctx.latched_reg]; rfl

/-- An ending writes the destination of its result, and no other register of any context. -/
theorem finish_completed (s : State) {f : Nat} {x : Flight} (h : s.flight? f = some x) (st : BitVec 16) (res : BitVec 64)
    (cw : Option (BitVec 64)) : Completed s (s.finish f st res cw) f x st res := by
  refine ⟨⟨_, by rw [s.finish_flight? (State.flight_of_flight? h), if_pos rfl], ?_⟩, fun c n => ?_⟩
  · split_ifs
    · unfold Flight.stopped; split_ifs
      · cases (s.ctx x.ctx).state <;> exact ⟨rfl, rfl, rfl⟩
      · exact ⟨rfl, rfl, rfl⟩
    · exact ⟨rfl, rfl, rfl⟩
  · rw [s.finish_ctx (State.flight_of_flight? h)]
    by_cases hc : x.mirror = none ∧ c = x.ctx
    · obtain ⟨hm, rfl⟩ := hc
      simp [hm, Ctx.ended_reg]
    · rw [if_neg hc, if_neg (fun k => hc ⟨k.1, k.2.2.1⟩)]

theorem Ctx.latched_latch (c : Ctx) (x : Flight) (st : BitVec 16) (res : BitVec 64) :
    ((c.latched x st res).ring x.ring).latch = latchAfter (c.ring x.ring).latch st := by
  unfold Ctx.latched; split_ifs <;> simp

/-- A fault of an ACTIVE context stops it, with nothing left fetched. -/
theorem Ctx.ended_active (c : Ctx) (x : Flight) (st : BitVec 16) (res : BitVec 64) (h : stClass st = 3) (ha : c.state = .active) :
    c.ended x st res = { (c.latched x st res).faultStop x.ring st (wTag x.word) with state := .stopped } := by
  rw [Ctx.ended_eq, if_pos h, ha]
theorem Ctx.ended_stopped (c : Ctx) (x : Flight) (st : BitVec 16) (res : BitVec 64) (h : stClass st = 3) (ha : c.state = .stopped) :
    c.ended x st res = { c.latched x st res with faultMore := min ((c.latched x st res).faultMore + 1) 255 } := by
  rw [Ctx.ended_eq, if_pos h, ha]
theorem Ctx.ended_quiet (c : Ctx) (x : Flight) (st : BitVec 16) (res : BitVec 64) (h : stClass st = 3 → c.state ≠ .active ∧ c.state ≠ .stopped) :
    c.ended x st res = c.latched x st res := by
  rw [Ctx.ended_eq]
  split
  · obtain ⟨ha, hs⟩ := h ‹_›
    split
    · exact absurd ‹_› ha
    · exact absurd ‹_› hs
    · rfl
  · rfl

theorem Ctx.faultStop_latch (c : Ctx) (r : Nat) (st tag : BitVec 16) (n : Nat) : ((c.faultStop r st tag).ring n).latch = (c.ring n).latch :=
  foldl_updRing_keeps Ring.unfetch (·.latch) (fun r => r.unfetch_latch) c.rings c n
theorem Ctx.faultStop_fetched (c : Ctx) (r : Nat) (st tag : BitVec 16) (n : Nat) : ((c.faultStop r st tag).ring n).fetched = [] :=
  foldl_updRing_sets Ring.unfetch (fun r => r.fetched = []) (fun r => r.unfetch_fetched) rfl c n

theorem Ctx.ended_latch (c : Ctx) (x : Flight) (st : BitVec 16) (res : BitVec 64) :
    ((c.ended x st res).ring x.ring).latch = latchAfter (c.ring x.ring).latch st := by
  rw [Ctx.ended_eq, ← c.latched_latch x st res]
  split
  · split
    · exact Ctx.faultStop_latch (c.latched x st res) x.ring st (wTag x.word) x.ring
    · rfl
    · rfl
  · rfl

theorem Ctx.ended_state_of_not_fault (c : Ctx) (x : Flight) (st : BitVec 16) (res : BitVec 64) (h : stClass st ≠ 3) :
    (c.ended x st res).state = c.state := by
  rw [c.ended_quiet x st res fun k => absurd k h, Ctx.latched_state]

/-- An ending as its context takes it. -/
theorem finish_ctxEnds (s : State) {f : Nat} {x : Flight} (h : s.flight? f = some x) (st : BitVec 16) (res : BitVec 64)
    (cw : Option (BitVec 64)) : CtxEnds s (s.finish f st res cw) f x st := by
  intro hm
  have hd : (s.finish f st res cw).ctx x.ctx = (s.ctx x.ctx).ended x st res := (s.finish_ctx (State.flight_of_flight? h) st res cw x.ctx).trans (if_pos ⟨hm, rfl⟩)
  have hf : (s.finish f st res cw).flight f = (x.done st res cw).stopped (s.ctx x.ctx).state st := by
    refine State.flight_of_flight? ((s.finish_flight? (State.flight_of_flight? h) st res cw f).trans ?_)
    rw [if_pos rfl, if_pos hm]
  rw [hd, hf]
  generalize s.ctx x.ctx = c
  obtain ⟨rs, hl⟩ := c.latched_form x st res
  refine ⟨c.ended_latch x st res, fun h3 ha => ?_, fun h3 hs => ?_, c.ended_state_of_not_fault x st res⟩
  · rw [c.ended_active x st res h3 ha]
    refine ⟨rfl, rfl, rfl, rfl, fun n => Ctx.faultStop_fetched (c.latched x st res) x.ring st (wTag x.word) n, ?_⟩
    simp [Flight.stopped, h3, ha]
  · rw [c.ended_stopped x st res h3 hs, hl]
    refine ⟨hs, rfl, rfl, rfl, rfl, ?_⟩
    simp [Flight.stopped, h3, hs, Flight.done]

end Sys2Proof.Machine
end

section
-- One proof after another: so many at once would not fit beside the model in memory.
set_option Elab.async false
/-! The idle step, FENCE and WAIT. -/
namespace Sys2Proof.Machine
open Sys2Proof

/-! ## One idle cycle -/

/-- A stall cycle leaves an instruction in its phase. -/
@[simp] theorem Flight.stallCycle_phase (l : List Cause) (x : Flight) : (x.stallCycle l).phase = x.phase := by
  unfold Flight.stallCycle
  split
  · rfl
  · split_ifs <;> rfl

/-- A change of every flight keeps what it keeps of each. -/
theorem flight?_map {α : Type} (s t : State) (g : Flight → Flight) (a : Flight → α) (h : t.flights = s.flights.map fun p => (p.1, g p.2))
    (ha : ∀ x, a (g x) = a x) (f : Nat) : (t.flight? f).map a = (s.flight? f).map a := by
  simp only [State.flight?, h, List.find?_map, Option.map_map]
  exact congrArg₂ Option.map (funext fun p => ha p.2) rfl

theorem State.idle_stopped (s : State) (h : s.stopped = true) : s.idle = s := if_pos h

/-- A cycle that passes changes the time, network time, the stall cycles and the running sum of the Spine gauge. -/
theorem OnlyChanges.idle (s : State) : OnlyChanges [.now, .ptp, .flights, .net] s s.idle := by
  unfold State.idle
  refine .ite (fun _ => .refl _ s) fun _ p hp => ?_
  cases p <;> first | rfl | exact absurd hp (by decide)

theorem State.idle_now (s : State) (h : s.stopped = false) : s.idle.now = s.now + 1 := by simp [State.idle, h]
theorem State.idle_net (s : State) (h : s.stopped = false) : s.idle.net = { s.net with spineUse := s.net.spineUse + s.searchUsed } := by
  simp [State.idle, h]
theorem State.idle_flights (s : State) (h : s.stopped = false) :
    s.idle.flights = s.flights.map fun (p : Nat × Flight) => (p.1, p.2.stallCycle (s.stallCauses p.2)) := by simp [State.idle, h]

/-- Settles O2: an idle step is `State.idle`. -/
theorem idleStepLetsTimePass : Obligations.IdleStepLetsTimePass := by
  intro s hp
  refine ⟨s.idle, by rw [step, hp], s.idle_stopped, fun h => ⟨s.idle_now h, .idle s, by rw [s.idle_net h], fun f => ?_⟩⟩
  exact flight?_map s s.idle (fun x => x.stallCycle (s.stallCauses x)) (·.phase) (s.idle_flights h) (fun x => x.stallCycle_phase _) f

/-! ## FENCE and WAIT -/

theorem exec_fence {s : State} {f : Nat} {x : Flight} (h : Acts s f 0x01 x) :
    exec (.fence f) s = .next ((if x.waitsFor.any fun g => (s.flight? g).isSome then s else s.finish f stOk 0 none).framed s) := by
  rw [show exec (.fence f) s = execFence f s from rfl, execFence, onFlight_acts h]

/-- What a WAIT that may watch its value does, by the value. -/
theorem State.endWait_eq {s : State} {x : Flight} {v : Nat} (hv : s.waitValue x = some v) (f : Nat) :
    s.endWait f x = if x.b.toNat ≤ v ∧ (s.ctx x.ctx).resident then s.finish f stOk (BitVec.ofNat 64 v) none else s := by
  rw [State.endWait, hv]

theorem exec_wait {s : State} {f : Nat} {x : Flight} (h : Acts s f 0x02 x) (hc : s.waitCheck x = stOk) :
    exec (.wait f) s = .next ((s.endWait f x).framed s) := by
  rw [show exec (.wait f) s = execWait f s from rfl, execWait, onFlight_acts h, if_pos hc]

theorem exec_waitSatisfied {s : State} {f : Nat} {x : Flight} (h : Acts s f 0x02 x) (hc : s.waitCheck x = stOk) :
    exec (.waitSatisfied f) s = .next ((s.endWait f x).framed s) := by
  rw [show exec (.waitSatisfied f) s = execWaitSatisfied f s from rfl, execWaitSatisfied, onFlight_acts h, if_pos hc]

theorem exec_waitTimeout {s : State} {f : Nat} {x : Flight} (h : Acts s f 0x02 x) (hl : fld x.c.toNat 0 32 ≠ 0)
    (ht : x.since + fld x.c.toNat 0 32 * 1050 ≤ s.now) (hm : s.waitMet x = false) :
    exec (.waitTimeout f) s = .next ((s.fail f stTimeout).framed s) := by
  rw [show exec (.waitTimeout f) s = execWaitTimeout f s from rfl, execWaitTimeout, onFlight_acts h, if_pos ⟨hl, ht, hm⟩]

/-- Settles O14: each clause is one branch of the command, and the ending is `State.finish`. -/
theorem fenceAndWaitEnd : Obligations.FenceAndWaitEnd := by
  refine fun s f x => ⟨fun h => ⟨fun hn => ?_, fun g hg hs => ?_⟩, fun h v hc hv => ⟨fun hb hr => ?_, fun hb => ?_⟩⟩
  · refine ⟨_, exec_fence h, ?_⟩
    rw [if_neg (by simpa using hn)]
    exact finish_completed s h.here stOk 0 none
  · rw [exec_fence h, if_pos (List.any_eq_true.mpr ⟨g, hg, Option.isSome_iff_ne_none.mpr hs⟩)]
    rfl
  · have e : s.endWait f x = s.finish f stOk (BitVec.ofNat 64 v) none := (State.endWait_eq hv f).trans (if_pos ⟨hb, hr⟩)
    have done := finish_completed s h.here stOk (BitVec.ofNat 64 v) none
    exact ⟨⟨_, exec_wait h hc, e ▸ done⟩, ⟨_, exec_waitSatisfied h hc, e ▸ done⟩⟩
  · have e : s.endWait f x = s := (State.endWait_eq hv f).trans (if_neg fun k => absurd k.1 (by omega))
    have hm : s.waitMet x = false := by rw [State.waitMet, hv]; simpa using hb
    refine ⟨by rw [exec_wait h hc, e]; rfl, by rw [exec_waitSatisfied h hc, e]; rfl, fun hl ht => ?_⟩
    exact ⟨_, exec_waitTimeout h hl ht hm, finish_completed s h.here stTimeout 0 none, finish_ctxEnds s h.here stTimeout 0 none⟩

end Sys2Proof.Machine
end

section
-- One proof after another: so many at once would not fit beside the model in memory.
set_option Elab.async false
/-! Counters of a function: what an event adds and what follows from it (13 R398, R421, R422); and the doorbells (02 R41, R42). -/
namespace Sys2Proof.Machine
open Sys2Proof

/-! ## Function counters -/

/-- Writing a record changes no function. -/
theorem OnlyChanges.putRecord_err (s : State) (r : ErrRec) : OnlyChanges [.err, .fw, .out] s (s.putRecord r).1 := by
  unfold State.putRecord
  dsimp only
  generalize (if r.cls = 3 then 1024 else 1008) = limit
  split
  · exact (OnlyChanges.setErr s _).mono
  · exact (OnlyChanges.aerMark _ r).seq ((OnlyChanges.copyRecord _ _).seq (OnlyChanges.setErr s _).mono)

theorem fn_congr {s t : State} (h : t.fns = s.fns) (f : Nat) : t.fn f = s.fn f := by simp [State.fn, h]

theorem State.updFn_fn_eq (s : State) (f g : Nat) (h : Fn → Fn) : (s.updFn f h).fn g = if g = f then h (s.fn f) else s.fn g := by
  split_ifs with e
  · subst e; simp
  · exact s.updFn_fn_ne h e

/-- Sending a message changes no counter. -/
theorem State.sendMsix_cnt (s : State) (f i g : Nat) : ((s.sendMsix f i).1.fn g).cnt = (s.fn g).cnt := by
  unfold State.sendMsix
  dsimp only
  split_ifs
  · rfl
  · rw [State.updFn_fn_eq]; split_ifs with e <;> simp [e]
  · rfl

/-- Adding to a counter changes no other counter of a function. -/
theorem State.addCount_cnt_ne (s : State) (fn : Option Nat) (j n : Nat) {g i : Nat} (h : ¬ (fn = some g ∧ j = i)) :
    ((s.addCount fn j n).1.fn g).cnt.get i 0 = (s.fn g).cnt.get i 0 := by
  cases fn with
  | none => rfl
  | some f =>
    simp only [State.addCount]
    rw [State.updFn_fn_eq]
    by_cases e : g = f
    · subst e
      rw [if_pos rfl]
      exact Tbl.get_set_ne _ _ _ fun k => h ⟨rfl, k.symm⟩
    · rw [if_neg e]

/-- The sum of a counter that saturates. -/
theorem State.addCount_cnt_same (s : State) (f i n : Nat) :
    ((s.addCount (some f) i n).1.fn f).cnt.get i 0 = min ((s.fn f).cnt.get i 0 + n) cntMax := by
  simp [State.addCount]

/-- Of the function counters only those of interrupts (25, 26) and of faults (29) follow from other events. -/
theorem emitEv_cnt (k : Nat) (e : Ev) (s : State) {g i : Nat} (hi : i ≠ 25 ∧ i ≠ 26 ∧ i ≠ 29) (he : ∀ n, e ≠ .count (some g) i n) :
    ((emitEv k e s).fn g).cnt.get i 0 = (s.fn g).cnt.get i 0 := by
  obtain ⟨h25, h26, h29⟩ := hi
  have other (f : Nat) {j : Nat} (n : Nat) (h : i ≠ j) : ∀ m, Ev.count (some f) j n ≠ .count (some g) i m := by
    rintro m ⟨⟩; exact h rfl
  induction k generalizing e s with
  | zero => cases e <;> rfl
  | succ k ih =>
    have count (f : Nat) {j : Nat} (n : Nat) (h : i ≠ j) (s : State) := ih (.count (some f) j n) s (other f n h)
    have record (r : ErrRec) (s : State) := ih (.record r) s (fun n h => nomatch h)
    have irq (f i share : Nat) (u : Bool) (s : State) := ih (.irq f i share u) s (fun n h => nomatch h)
    cases e with
    | count fn j n =>
      have h := s.addCount_cnt_ne fn j n (g := g) (i := i) fun k => he n (by rw [k.1, k.2])
      unfold emitEv
      dsimp only
      split_ifs
      · rw [record, h]
      · rw [irq, record, h]
      · exact h
    | record r =>
      have h : ((s.putRecord r).1.fn g) = s.fn g := fn_congr (OnlyChanges.putRecord_err s r .fns (by decide)) g
      unfold emitEv
      dsimp only
      split
      · cases r.fn with
        | none => dsimp only; rw [h]
        | some f =>
          dsimp only
          split_ifs
          · rw [irq, count _ _ h29, h]
          · rw [irq, h]
      · rw [ih (.count none 10 1) _ (fun n k => nomatch k), h]
    | irq f j share u =>
      unfold emitEv
      dsimp only
      split_ifs
      · exact count f 1 h26 s
      · rw [count f 1 h25, State.sendMsix_cnt]; rfl
      · rw [State.sendMsix_cnt]; rfl
      · rfl

/-- Adding to a counter that no other event touches. -/
theorem State.countFn_cnt (s : State) (f i n : Nat) (hn : n ≠ 0) (hi : i ≠ 25 ∧ i ≠ 26 ∧ i ≠ 29) :
    ((s.countFn f i n).fn f).cnt.get i 0 = min ((s.fn f).cnt.get i 0 + n) cntMax := by
  have record (r : ErrRec) (s : State) := emitEv_cnt 7 (.record r) s (g := f) hi fun n h => nomatch h
  have irq (j share : Nat) (u : Bool) (s : State) := emitEv_cnt 7 (.irq f j share u) s (g := f) hi fun n h => nomatch h
  rw [State.countFn, if_neg hn, ← s.addCount_cnt_same f i n]
  unfold emitEv
  dsimp only
  split_ifs
  · exact record _ _
  · exact (irq _ _ _ _).trans (record _ _)
  · rfl

/-! ## What a look at a context's wants, and its settling, change -/

theorem State.noteWant_ctx (s : State) (c : Nat) : ∃ w v, (s.noteWant c).ctx c = { s.ctx c with wanting := w, vtime := v } := by
  unfold State.noteWant
  dsimp only
  split_ifs
  · exact ⟨_, _, s.updCtx_ctx c _⟩
  · exact ⟨_, _, s.updCtx_ctx c _⟩
  · exact ⟨_, _, rfl⟩

theorem State.noteWant_ctx_ne (s : State) {c d : Nat} (h : d ≠ c) : (s.noteWant c).ctx d = s.ctx d := by
  unfold State.noteWant
  dsimp only
  split_ifs
  · exact s.updCtx_ctx_ne _ h
  · exact s.updCtx_ctx_ne _ h
  · rfl

/-- An ACTIVE context that has nothing to fetch and nothing in flight becomes IDLE; nothing else of any context changes. -/
theorem State.settle_ctx (s : State) (c d : Nat) : (s.settle c).ctx d =
    if d = c then { s.ctx c with state := if (s.ctx c).state = .active ∧ (s.ctx c).ringWork = false ∧ s.inFlight c = false then .idle else (s.ctx c).state }
    else s.ctx d := by
  unfold State.settle
  dsimp only
  by_cases h : (s.ctx c).state = .active ∧ (s.ctx c).ringWork = false ∧ s.inFlight c = false
  · rw [if_pos (by simpa [and_assoc] using h), State.ctxTo_ctx, if_pos h]
  · rw [if_neg (by simpa [and_assoc] using h), if_neg h]
    split_ifs with e
    · rw [e]
    · rfl

/-- A key that does not read as the default is listed. -/
theorem Tbl.mem_of_get_ne {α : Type} (t : Tbl α) (k : Nat) (d : α) (h : Tbl.get t k d ≠ d) : (k, Tbl.get t k d) ∈ t := by
  induction t with
  | nil => exact absurd rfl h
  | cons p r ih =>
    obtain ⟨k', v⟩ := p
    by_cases e : k' = k
    · subst e; simp [Tbl.get_cons]
    · rw [Tbl.get_cons, if_neg e] at h ⊢
      exact List.mem_cons_of_mem _ (ih h)

/-- A ring in use is listed. -/
theorem Ctx.ring_mem {x : Ctx} {n : Nat} (h : (x.ring n).enable = true) : (n, x.ring n) ∈ x.rings :=
  Tbl.mem_of_get_ne x.rings n {} fun e => by rw [Ctx.ring, e] at h; exact Bool.noConfusion h

/-- A ring in use with entries to fetch is work. -/
theorem Ctx.ringWork_of_fetch {x : Ctx} {n : Nat} (h : (x.ring n).enable = true) (hf : (x.ring n).fetch ≠ (x.ring n).tail) : x.ringWork = true :=
  List.any_eq_true.mpr ⟨_, Ctx.ring_mem h, by simp [h, hf]⟩

/-! ## Doorbells -/

@[simp] theorem sub16_self (a : Nat) : sub16 a a = 0 := by unfold sub16; omega

/-- R42's checks of a tail doorbell. -/
theorem State.tailOk_iff (s : State) (fn c ring index rsv : Nat) : s.tailOk fn c ring index rsv = true ↔
    ¬ ((s.ctx c).state = .disabled ∨ (s.ctx c).state = .orphaned ∨ (s.ctx c).state = .resetting) ∧ (s.ctx c).function = fn ∧ rsv = 0 ∧ c < 1024 ∧
      ring < 8 ∧ ((s.ctx c).ring ring).enable = true ∧ sub16 index ((s.ctx c).ring ring).tail < ((s.ctx c).ring ring).depth := by
  simp [State.tailOk, Ctx.deaf, and_assoc]

/-- R42's checks of a head doorbell. -/
theorem State.headOk_iff (s : State) (fn c ring index rsv : Nat) : s.headOk fn c ring index rsv = true ↔
    ¬ ((s.ctx c).state = .disabled ∨ (s.ctx c).state = .orphaned ∨ (s.ctx c).state = .resetting) ∧ (s.ctx c).function = fn ∧ rsv = 0 ∧ c < 1024 ∧
      ring = 0 ∧ sub16 index (s.ctx c).chead ≤ sub16 (s.ctx c).ctail (s.ctx c).chead := by
  simp only [State.headOk, Ctx.deaf, Bool.and_eq_true, Bool.not_eq_true', Bool.or_eq_false_iff, beq_eq_false_iff_ne, beq_iff_eq, decide_eq_true_eq, not_or]
  tauto

/-- A ring after a tail doorbell. -/
def Ring.rung (r : Ring) (index : Nat) : Ring := { r with tail := index, buf := [], left := r.left + Int.ofNat (sub16 index r.tail) }

/-- A doorbell that repeats the tail changes only the buffer of the ring. -/
theorem Ring.rung_tail (r : Ring) : r.rung r.tail = { r with buf := [] } := by simp [Ring.rung]

theorem inFlight_congr {s t : State} (h : t.flights = s.flights) (c : Nat) : t.inFlight c = s.inFlight c := by simp [State.inFlight, h]

/-- The state with the tail set and the buffer emptied; an IDLE context with an entry to fetch is ACTIVE in it. -/
def State.ringBell (s : State) (c ring index : Nat) : State :=
  let s := s.updCtx c fun x => x.updRing ring (·.rung index)
  let x := s.ctx c
  if x.state == .idle && (x.ring ring).fetch != index then s.ctxTo c .active else s

theorem State.tailBell_eq (s : State) {fn c ring index rsv : Nat} (h : s.tailOk fn c ring index rsv = true) :
    s.tailBell fn c ring index rsv = ((s.ringBell c ring index).settle c).noteWant c := if_pos h

theorem State.ringBell_ctx (s : State) (c ring index d : Nat) : (s.ringBell c ring index).ctx d = if d = c then
      { (s.ctx c).updRing ring (·.rung index) with
        state := if (s.ctx c).state = .idle ∧ ((s.ctx c).ring ring).fetch ≠ index then .active else (s.ctx c).state }
    else s.ctx d := by
  unfold State.ringBell
  simp only [State.updCtx_ctx, Ctx.updRing_ring_same, Ctx.updRing_state, Bool.and_eq_true, beq_iff_eq, bne_iff_ne, Ring.rung]
  split_ifs with ha hd hd <;> simp only [State.ctxTo_ctx, State.updCtx_ctx_eq, if_true, hd, if_false]
  rfl

theorem State.ringBell_flights (s : State) (c ring index : Nat) : (s.ringBell c ring index).flights = s.flights := by
  unfold State.ringBell
  dsimp only
  split_ifs
  · exact State.ctxTo_flights _ _ _
  · rfl

/-- A context after an accepted tail doorbell. -/
theorem State.tailBell_ctx (s : State) {fn c ring index rsv : Nat} (h : s.tailOk fn c ring index rsv = true) :
    (∀ d, d ≠ c → (s.tailBell fn c ring index rsv).ctx d = s.ctx d) ∧
    ∃ st w v, (s.tailBell fn c ring index rsv).ctx c = { (s.ctx c).updRing ring (·.rung index) with state := st, wanting := w, vtime := v } ∧
      st = if (s.ctx c).state = .idle ∧ ((s.ctx c).ring ring).fetch ≠ index then .active
        else if (s.ctx c).state = .active ∧ ((s.ctx c).updRing ring (·.rung index)).ringWork = false ∧ s.inFlight c = false then .idle else (s.ctx c).state := by
  rw [s.tailBell_eq h]
  obtain ⟨-, -, -, -, -, he, -⟩ := (s.tailOk_iff fn c ring index rsv).mp h
  refine ⟨fun d hd => ?_, ?_⟩
  · rw [State.noteWant_ctx_ne _ hd, State.settle_ctx, if_neg hd, State.ringBell_ctx, if_neg hd]
  · obtain ⟨w, v, e⟩ := ((s.ringBell c ring index).settle c).noteWant_ctx c
    rw [e, State.settle_ctx, if_pos rfl, State.ringBell_ctx, if_pos rfl, inFlight_congr (s.ringBell_flights c ring index)]
    refine ⟨_, w, v, rfl, ?_⟩
    set x := (s.ctx c).updRing ring (·.rung index) with hx
    by_cases hi : (s.ctx c).state = .idle ∧ ((s.ctx c).ring ring).fetch ≠ index
    · have work : x.ringWork = true := Ctx.ringWork_of_fetch (n := ring) (by simpa [hx, Ring.rung] using he) (by simpa [hx, Ring.rung] using hi.2)
      simp only [if_pos hi]
      rw [if_neg]
      rintro ⟨-, hw, -⟩
      exact absurd (work.symm.trans hw) (by decide)
    · simp only [if_neg hi]
      rfl

/-- A context after an accepted head doorbell. -/
theorem State.headBell_ctx (s : State) {fn c ring index rsv : Nat} (h : s.headOk fn c ring index rsv = true) :
    (∀ d, d ≠ c → (s.headBell fn c ring index rsv).ctx d = s.ctx d) ∧
    ∃ w v, (s.headBell fn c ring index rsv).ctx c = { s.ctx c with chead := index, cused := sub16 (s.ctx c).ctail index, wanting := w, vtime := v } := by
  rw [State.headBell, if_pos h]
  refine ⟨fun d hd => ?_, ?_⟩
  · rw [State.noteWant_ctx_ne _ hd, State.updCtx_ctx_ne _ _ hd]
  · obtain ⟨w, v, e⟩ := State.noteWant_ctx (s.updCtx c fun x => { x with chead := index, cused := sub16 x.ctail index }) c
    rw [State.updCtx_ctx] at e
    exact ⟨w, v, e⟩

/-- An ignored doorbell is counted, and no context changes. -/
theorem State.ignored_bell (s : State) (fn : Nat) : (s.countFn fn 0 1).ctxs = s.ctxs ∧
    ((s.countFn fn 0 1).fn fn).cnt.get 0 0 = min ((s.fn fn).cnt.get 0 0 + 1) 0xFFFFFFFFFFFFFFFF :=
  ⟨OnlyChanges.countFn s fn 0 1 .ctxs (by decide), s.countFn_cnt fn 0 1 (by decide) (by decide)⟩

theorem exec_tailDoorbell {s : State} (h : s.stopped = false) (fn c ring index rsv : Nat) :
    exec (.commandRingTailDoorbell fn c ring index rsv 8) s = .next ((s.tailBell fn c ring index rsv).framed s) := by
  rw [show exec (.commandRingTailDoorbell fn c ring index rsv 8) s = execCommandRingTailDoorbell fn c ring index rsv 8 s from rfl,
    execCommandRingTailDoorbell, act_running h, if_pos rfl]

theorem exec_headDoorbell {s : State} (h : s.stopped = false) (fn c ring index rsv : Nat) :
    exec (.completionHeadDoorbell fn c ring index rsv 8) s = .next ((s.headBell fn c ring index rsv).framed s) := by
  rw [show exec (.completionHeadDoorbell fn c ring index rsv 8) s = execCompletionHeadDoorbell fn c ring index rsv 8 s from rfl,
    execCompletionHeadDoorbell, act_running h, if_pos rfl]

/-- Settles O17: an accepted doorbell by what `tailBell` and `headBell` make of its context, an ignored one by the counter. -/
theorem doorbells : Obligations.Doorbells := by
  intro s fn c ring index rsv bytes h
  dsimp only
  rintro rfl
  refine ⟨fun ok => ?_, fun no => ?_, fun ok => ?_, fun no => ?_⟩
  · obtain ⟨others, st, w, v, e, hst⟩ := s.tailBell_ctx ((s.tailOk_iff ..).mpr ok)
    refine ⟨_, exec_tailDoorbell h fn c ring index rsv, ?_⟩
    have hr : ((s.tailBell fn c ring index rsv).ctx c).ring ring = ((s.ctx c).ring ring).rung index := by
      rw [e]; exact (s.ctx c).updRing_ring_same ring (·.rung index)
    have hn (n : Nat) (h : n ≠ ring) : ((s.tailBell fn c ring index rsv).ctx c).ring n = (s.ctx c).ring n := by
      rw [e]; exact (s.ctx c).updRing_ring_ne (·.rung index) h
    simp only [State.framed_ctx, hr]
    refine ⟨rfl, rfl, rfl, others, hn, fun hi => by rw [hi, Ring.rung_tail], ?_⟩
    have hw : ((s.tailBell fn c ring index rsv).ctx c).ringWork = ((s.ctx c).updRing ring (·.rung index)).ringWork := by rw [e]; rfl
    simp only [hw]
    exact (congrArg Ctx.state e).trans hst
  · have e : s.tailBell fn c ring index rsv = s.countFn fn 0 1 := if_neg fun k => no ((s.tailOk_iff ..).mp k)
    exact ⟨_, exec_tailDoorbell h fn c ring index rsv, e ▸ s.ignored_bell fn⟩
  · obtain ⟨others, w, v, e⟩ := s.headBell_ctx ((s.headOk_iff ..).mpr ok)
    refine ⟨_, exec_headDoorbell h fn c ring index rsv, ?_⟩
    simp only [State.framed_ctx, e]
    exact ⟨trivial, others, trivial⟩
  · have e : s.headBell fn c ring index rsv = s.countFn fn 0 1 := if_neg fun k => no ((s.headOk_iff ..).mp k)
    exact ⟨_, exec_headDoorbell h fn c ring index rsv, e ▸ s.ignored_bell fn⟩

end Sys2Proof.Machine
end

section
-- One proof after another: so many at once would not fit beside the model in memory.
set_option Elab.async false
/-! Fetch and dispatch (02 R39, R44, R48). -/
namespace Sys2Proof.Machine
open Sys2Proof

/-! ## Fetch -/

@[simp] theorem State.emitOut_ctx (s : State) (o : Out) (c : Nat) : (s.emitOut o).ctx c = s.ctx c := rfl

theorem exec_instructionFetch {s : State} (h : s.stopped = false) (c ring : Nat) :
    exec (.instructionFetch c ring) s = .next ((s.instructionFetch c ring).framed s) := by
  rw [show exec (.instructionFetch c ring) s = execInstructionFetch c ring s from rfl, execInstructionFetch, act_running h]

/-- What a ring that may fetch does: it takes what its buffer holds, else it reads. -/
theorem State.instructionFetch_eq (s : State) (c ring : Nat) (ha : (s.ctx c).state = .active) (hr : (s.ctx c).resident = true)
    (he : ((s.ctx c).ring ring).enable = true) (hn : min ((s.ctx c).ring ring).toFetch (16 - ((s.ctx c).ring ring).fetched.length) ≠ 0)
    (hz : ((s.ctx c).ring ring).reading = 0) (hd : s.dev.engineDown.get 0 false = false) :
    s.instructionFetch c ring =
      let r := (s.ctx c).ring ring
      let n := min r.toFetch (16 - r.fetched.length)
      let k := r.runLen true n r.fetch
      let m := min (r.runLen false n r.fetch) (r.depth - r.fetch % r.depth)
      if k ≠ 0 then s.fetchBuf c ring k
      else if r.loc = 1 then s.fetchT0 c ring m
      else (s.updCtx c fun x => x.updRing ring fun r => { r with reading := m }).emitOut (.upRead (s.ctx c).function (r.entryAddr r.fetch) (32 * m)) := by
  unfold State.instructionFetch
  simp [ha, hr, he, hz, hd, hn]

/-- Taking from the buffer appends to what is fetched. -/
theorem State.fetchBuf_fetched (s : State) (c ring k : Nat) :
    ∃ rest, (((s.fetchBuf c ring k).ctx c).ring ring).fetched = ((s.ctx c).ring ring).fetched ++ rest := by
  induction k generalizing s with
  | zero => exact ⟨[], (List.append_nil _).symm⟩
  | succ k ih =>
    unfold State.fetchBuf
    dsimp only
    split
    · next e _ =>
      obtain ⟨rest, h⟩ := ih (s.updCtx c fun x => x.updRing ring fun r => r.take e)
      refine ⟨e :: rest, ?_⟩
      rw [h, State.updCtx_ctx, Ctx.updRing_ring_same]
      simp [Ring.take]
    · exact ⟨[], (List.append_nil _).symm⟩

/-- The first entry taken is the one that the buffer holds at FETCH. -/
theorem State.fetchBuf_first (s : State) (c ring k : Nat) {e : Fetched} (h : ((s.ctx c).ring ring).buffered ((s.ctx c).ring ring).fetch = some e) :
    ∃ rest, (((s.fetchBuf c ring (k + 1)).ctx c).ring ring).fetched = ((s.ctx c).ring ring).fetched ++ e :: rest := by
  obtain ⟨rest, hr⟩ := (s.updCtx c fun x => x.updRing ring fun r => r.take e).fetchBuf_fetched c ring k
  refine ⟨rest, ?_⟩
  unfold State.fetchBuf
  dsimp only
  rw [h]
  dsimp only
  rw [hr, State.updCtx_ctx, Ctx.updRing_ring_same]
  simp [Ring.take]

/-- The run of entries at FETCH that the buffer holds, or does not hold, is not empty where the first one is of that kind. -/
theorem Ring.runLen_pos {r : Ring} {held : Bool} {n i : Nat} (hn : n ≠ 0) : r.runLen held n i ≠ 0 ↔ (r.buffered i).isSome = held := by
  obtain ⟨n, rfl⟩ := Nat.exists_eq_succ_of_ne_zero hn
  unfold Ring.runLen
  split_ifs with h
  · simpa using h
  · simpa using h

theorem Ring.runLen_none {r : Ring} {n i : Nat} (h : r.buffered i = none) : r.runLen true n i = 0 := by
  cases n with
  | zero => rfl
  | succ n => exact if_neg (by simp [h])

theorem State.rangeBad_none (s : State) (a n : Nat) (h : s.dev.pchDown = []) : s.rangeBad a n = false := by simp [State.rangeBad, h]

/-- With every pseudo-channel working, entries are taken in order as they stand in T0. -/
theorem State.fetchT0_ring (s : State) (c ring m : Nat) (hp : s.dev.pchDown = []) (hf : ((s.ctx c).ring ring).fetch < 65536) :
    let r := (s.ctx c).ring ring
    let q := ((s.fetchT0 c ring m).ctx c).ring ring
    q.fetch = (r.fetch + m) % 65536 ∧ q.fetched = r.fetched ++ (List.range m).map fun i =>
      { index := (r.fetch + i) % 65536, granule := granOf (s.t0Read (r.base * 4096 + 32 * ((r.fetch + i) % 65536 % r.depth)) 32) } := by
  dsimp only
  induction m generalizing s with
  | zero => exact ⟨(Nat.mod_eq_of_lt hf).symm, (List.append_nil _).symm⟩
  | succ m ih =>
    unfold State.fetchT0
    dsimp only
    rw [s.rangeBad_none _ _ hp, if_neg Bool.false_ne_true]
    set r := (s.ctx c).ring ring with hr
    set e : Fetched := { index := r.fetch, granule := granOf (s.t0Read (r.entryAddr r.fetch) 32) } with he
    set u := s.updCtx c fun x => x.updRing ring fun r => r.take e with hu
    have hq : (u.ctx c).ring ring = r.take e := by rw [hu, State.updCtx_ctx, Ctx.updRing_ring_same]
    have hb : (r.take e).base = r.base ∧ (r.take e).depth = r.depth ∧ (r.take e).fetch = (r.fetch + 1) % 65536 ∧ (r.take e).fetched = r.fetched ++ [e] :=
      ⟨rfl, rfl, rfl, rfl⟩
    obtain ⟨hbase, hdepth, hfetch, hfetched⟩ := hb
    obtain ⟨h1, h2⟩ := ih u hp (by rw [hq, hfetch]; exact Nat.mod_lt _ (by decide))
    rw [hq, hfetch] at h1
    rw [hq, hfetch, hbase, hdepth, hfetched] at h2
    refine ⟨by rw [h1]; omega, ?_⟩
    have hi (i : Nat) : ((r.fetch + 1) % 65536 + i) % 65536 = (r.fetch + (i + 1)) % 65536 := by omega
    rw [h2, List.range_succ_eq_map, List.map_cons, List.map_map, List.append_assoc]
    simp only [hi, Nat.add_zero, Nat.mod_eq_of_lt hf]
    rfl

/-! ## Dispatch -/

/-- The record of a dispatched instruction (02 R48). -/
def State.dispatched (s : State) (c ring : Nat) (e : Fetched) : Flight :=
  let x := s.ctx c
  let w := granWord e.granule 0
  let a := operand x (wSelA w) (granWord e.granule 1)
  { ctx := c, ring := ring, index := e.index, word := w, a := a, b := operand x (wSelB w) (granWord e.granule 2)
    c := if wOpcode w = 0x07 then x.reg (wSelD w) else operand x (wSelC w) (granWord e.granule 3)
    credit := wantsEntry x.conf w, since := s.now, progress := s.now
    waitsFor := if wOpcode w = 0x01 then s.fenceNames c ring (a.getLsbD 0) else [] }

/-- The state with the oldest fetched entry in flight. -/
def State.launched (s : State) (c ring : Nat) (e : Fetched) (rest : List Fetched) : State :=
  { s.updCtx c fun x => x.updRing ring fun r => { r with fetched := rest } with nextFlight := s.nextFlight + 1 }.setFlight s.nextFlight (s.dispatched c ring e)

theorem exec_instructionDispatch {s : State} (h : s.stopped = false) {c ring : Nat} {e : Fetched} {rest : List Fetched}
    (hf : ((s.ctx c).ring ring).fetched = e :: rest) (hm : s.mayDispatch c ring (granWord e.granule 0) = true) :
    exec (.instructionDispatch c ring) s = .next ((
      let st := s.dispatchCheck (s.ctx c) ((s.ctx c).ring ring) (granWord e.granule 0) (granWord e.granule 1) (granWord e.granule 2) (granWord e.granule 3)
      if st = stOk then s.launched c ring e rest else (s.launched c ring e rest).fail s.nextFlight st).framed s) := by
  rw [show exec (.instructionDispatch c ring) s = execInstructionDispatch c ring s from rfl, execInstructionDispatch, act_running h,
    State.instructionDispatch]
  dsimp only
  rw [hf]
  dsimp only
  rw [if_pos hm]
  rfl

theorem State.launched_flight? (s : State) (c ring : Nat) (e : Fetched) (rest : List Fetched) :
    (s.launched c ring e rest).flight? s.nextFlight = some (s.dispatched c ring e) := State.setFlight_flight?_same _ _ _

theorem State.launched_ctx (s : State) (c ring : Nat) (e : Fetched) (rest : List Fetched) :
    (s.launched c ring e rest).ctx c = (s.ctx c).updRing ring fun r => { r with fetched := rest } := by
  change (s.updCtx c fun x => x.updRing ring fun r => { r with fetched := rest }).ctx c = _
  rw [State.updCtx_ctx]

/-- What an instruction is, an ending does not change. -/
theorem Flight.stopped_done_fields (x : Flight) (c : CtxState) (st : BitVec 16) (res : BitVec 64) (cw : Option (BitVec 64)) :
    ∃ p m, (x.done st res cw).stopped c st = { x.done st res cw with stop := p, more := m } := by
  unfold Flight.stopped
  split_ifs
  · cases c <;> exact ⟨_, _, rfl⟩
  · exact ⟨_, _, rfl⟩

/-- How an ending is taken depends on the state before it only by the context's state, its FAULT fields and the latch of the ring. -/
theorem CtxEnds.congr {s u t : State} {f : Nat} {x y : Flight} {st : BitVec 16} (h : CtxEnds u t f x st) (hx : x.mirror = none)
    (hy : y.ctx = x.ctx ∧ y.ring = x.ring ∧ y.word = x.word) (hf : t.flight f = y) (hc : ∃ rs, u.ctx x.ctx = { s.ctx x.ctx with rings := rs })
    (hl : ((u.ctx x.ctx).ring x.ring).latch = ((s.ctx x.ctx).ring x.ring).latch) : CtxEnds s t f y st := by
  intro _
  obtain ⟨latch, active, stopped, other⟩ := h hx
  obtain ⟨hctx, hring, hword⟩ := hy
  obtain ⟨rs, hc⟩ := hc
  rw [hl] at latch
  rw [hc] at active stopped other
  rw [hctx, hring, hword, hf]
  refine ⟨latch, fun h3 ha => ?_, fun h3 hs => ?_, other⟩
  · exact hf ▸ active h3 ha
  · obtain ⟨h1, h2, h4, h5, h6, -⟩ := stopped h3 hs
    exact ⟨h1, h2, h4, h5, h6, rfl⟩

/-- An instruction that fails its check ends at once, as its context takes it. -/
theorem launched_fails (s : State) (c ring : Nat) (e : Fetched) (rest : List Fetched) (st : BitVec 16) :
    ∃ p m, ((s.launched c ring e rest).fail s.nextFlight st).flight? s.nextFlight = some { (s.dispatched c ring e).done st 0 none with stop := p, more := m } ∧
      CtxEnds s ((s.launched c ring e rest).fail s.nextFlight st) s.nextFlight { (s.dispatched c ring e).done st 0 none with stop := p, more := m } st := by
  have hl := s.launched_flight? c ring e rest
  have hc := s.launched_ctx c ring e rest
  obtain ⟨p, m, hy⟩ := Flight.stopped_done_fields (s.dispatched c ring e) ((s.launched c ring e rest).ctx c).state st 0 none
  have hf : ((s.launched c ring e rest).fail s.nextFlight st).flight? s.nextFlight = some _ :=
    ((s.launched c ring e rest).finish_flight? (State.flight_of_flight? hl) st 0 none s.nextFlight).trans ((if_pos rfl).trans (congrArg some ((if_pos rfl).trans hy)))
  refine ⟨p, m, hf, (finish_ctxEnds _ hl st 0 none).congr rfl ⟨rfl, rfl, rfl⟩ (State.flight_of_flight? hf) ⟨_, hc⟩ ?_⟩
  change (((s.launched c ring e rest).ctx c).ring ring).latch = ((s.ctx c).ring ring).latch
  rw [hc, Ctx.updRing_ring_same]

/-- Fewer than 8 bytes ring no doorbell. -/
theorem exec_shortDoorbell {s : State} (h : s.stopped = false) {bytes : Nat} (hb : bytes ≠ 8) (fn c ring index rsv : Nat) :
    exec (.commandRingTailDoorbell fn c ring index rsv bytes) s = .next s ∧ exec (.completionHeadDoorbell fn c ring index rsv bytes) s = .next s := by
  constructor
  · rw [show exec (.commandRingTailDoorbell fn c ring index rsv bytes) s = execCommandRingTailDoorbell fn c ring index rsv bytes s from rfl,
      execCommandRingTailDoorbell, act_running h, if_neg hb, State.framed_self]
  · rw [show exec (.completionHeadDoorbell fn c ring index rsv bytes) s = execCompletionHeadDoorbell fn c ring index rsv bytes s from rfl,
      execCompletionHeadDoorbell, act_running h, if_neg hb, State.framed_self]

/-- Settles O18: the three ways of a fetch, the two of a dispatch, and the short doorbell. -/
theorem fetchAndDispatch : Obligations.FetchAndDispatch := by
  intro s c ring h
  refine ⟨fun ha hr he hn hz hd => ⟨fun e hb => ?_, fun hb => ⟨fun hl => ?_, fun hl hf hp => ?_⟩⟩, fun e rest hf => ?_,
    fun fn index rsv bytes hb => exec_shortDoorbell h hb fn c ring index rsv⟩
  · have hk := (Ring.runLen_pos (r := (s.ctx c).ring ring) (held := true) hn).mpr (by rw [hb]; rfl)
    obtain ⟨k, hk'⟩ := Nat.exists_eq_succ_of_ne_zero hk
    obtain ⟨rest, hrest⟩ := s.fetchBuf_first c ring k hb
    refine ⟨_, rest, exec_instructionFetch h c ring, ?_⟩
    rw [s.instructionFetch_eq c ring ha hr he hn hz hd]
    dsimp only
    rw [if_pos hk, hk', State.framed_ctx, hrest]
  · refine ⟨_, exec_instructionFetch h c ring, ?_⟩
    rw [s.instructionFetch_eq c ring ha hr he hn hz hd]
    dsimp only
    rw [Ring.runLen_none hb, if_neg (not_not_intro rfl), if_neg hl, State.framed_ctx, State.framed_out, State.emitOut_ctx, State.updCtx_ctx,
      Ctx.updRing_ring_same]
    exact ⟨rfl, rfl, rfl⟩
  · refine ⟨_, exec_instructionFetch h c ring, ?_⟩
    rw [s.instructionFetch_eq c ring ha hr he hn hz hd]
    dsimp only
    rw [Ring.runLen_none hb, if_neg (not_not_intro rfl), if_pos hl, State.framed_ctx]
    exact s.fetchT0_ring c ring _ hp hf
  · intro w st hm
    have run := exec_instructionDispatch h hf hm
    by_cases hst : st = stOk
    · refine ⟨_, s.dispatched c ring e, run.trans (congrArg _ (congrArg (State.framed · s) (if_pos hst))), ?_⟩
      simp only [State.framed_nextFlight, State.framed_flight?, State.framed_ctx, s.launched_flight?, s.launched_ctx, Ctx.updRing_ring_same]
      exact ⟨rfl, trivial, rfl, rfl, rfl, rfl, rfl, rfl, fun _ => ⟨rfl, trivial⟩, fun k => absurd hst k⟩
    · obtain ⟨p, m, hy, hends⟩ := launched_fails s c ring e rest st
      refine ⟨_, { (s.dispatched c ring e).done st 0 none with stop := p, more := m },
        run.trans (congrArg _ (congrArg (State.framed · s) (if_neg hst))), ?_⟩
      simp only [State.framed_nextFlight, State.framed_flight?]
      refine ⟨?_, hy, rfl, rfl, rfl, rfl, rfl, rfl, fun k => absurd k hst, fun _ => ⟨rfl, rfl, hends⟩⟩
      exact OnlyChanges.fail (s.launched c ring e rest) s.nextFlight st .nextFlight (by decide)

end Sys2Proof.Machine
end

section
-- One proof after another: so many at once would not fit beside the model in memory.
set_option Elab.async false
/-! What the operations of the state leave unchanged: credits, allocation, endings, sending on a queue pair and responses. -/
namespace Sys2Proof.Machine
open Sys2Proof

/-! ## One part replaced -/

/-- Two steps that change only the same parts, the last one first. -/
theorem OnlyChanges.trans' {l : List Part} {s t u : State} (k : OnlyChanges l t u) (h : OnlyChanges l s t) : OnlyChanges l s u := h.trans k

theorem OnlyChanges.setFlights (s : State) (t : Tbl Flight) : OnlyChanges [.flights] s { s with flights := t } := by
  intro p hp; cases p <;> first | rfl | exact absurd hp (by decide)
theorem OnlyChanges.setPs (s : State) (p : Ps) : OnlyChanges [.ps] s { s with ps := p } := by
  intro p hp; cases p <;> first | rfl | exact absurd hp (by decide)
theorem OnlyChanges.setTier (s : State) (x : Tier) : OnlyChanges [.tier] s { s with tier := x } := by
  intro p hp; cases p <;> first | rfl | exact absurd hp (by decide)
theorem OnlyChanges.setSpine (s : State) (x : Spine) : OnlyChanges [.spine] s { s with spine := x } := by
  intro p hp; cases p <;> first | rfl | exact absurd hp (by decide)
theorem OnlyChanges.setAwl (s : State) (x : Awl) : OnlyChanges [.awl] s { s with awl := x } := by
  intro p hp; cases p <;> first | rfl | exact absurd hp (by decide)
theorem OnlyChanges.setPress (s : State) (x : Press) : OnlyChanges [.press] s { s with press := x } := by
  intro p hp; cases p <;> first | rfl | exact absurd hp (by decide)
theorem OnlyChanges.setFq (s : State) (x : Fq) : OnlyChanges [.fq] s { s with fq := x } := by
  intro p hp; cases p <;> first | rfl | exact absurd hp (by decide)
theorem OnlyChanges.setNet (s : State) (x : Net) : OnlyChanges [.net] s { s with net := x } := by
  intro p hp; cases p <;> first | rfl | exact absurd hp (by decide)
theorem OnlyChanges.setEg (s : State) (x : Eg) : OnlyChanges [.eg] s { s with eg := x } := by
  intro p hp; cases p <;> first | rfl | exact absurd hp (by decide)
theorem OnlyChanges.setSec (s : State) (x : Sec) : OnlyChanges [.sec] s { s with sec := x } := by
  intro p hp; cases p <;> first | rfl | exact absurd hp (by decide)
theorem OnlyChanges.setDev (s : State) (x : Dev) : OnlyChanges [.dev] s { s with dev := x } := by
  intro p hp; cases p <;> first | rfl | exact absurd hp (by decide)
theorem OnlyChanges.setPwr (s : State) (x : Pwr) : OnlyChanges [.pwr] s { s with pwr := x } := by
  intro p hp; cases p <;> first | rfl | exact absurd hp (by decide)
theorem OnlyChanges.setVms (s : State) (x : Tbl Vm) : OnlyChanges [.vms] s { s with vms := x } := by
  intro p hp; cases p <;> first | rfl | exact absurd hp (by decide)

/-- What one of several takings leaves, when it is there, each of them leaves. -/
theorem OnlyChanges.of_map {l : List Part} {s : State} {α β : Type} {o : Option α} {f : α → β × State} {r : β × State} (e : o.map f = some r)
    (h : ∀ a, OnlyChanges l s (f a).2) : OnlyChanges l s r.2 := by
  cases o with
  | none => cases e
  | some a => cases e; exact h a

/-! ## Records, allocation, credits -/

theorem OnlyChanges.saturates (s : State) (fn i : Nat) : OnlyChanges evParts s (s.saturates fn i) :=
  .ite (fun _ => .report s _) fun _ => (OnlyChanges.irq _ fn _ 16 true).seq (.report s _)
theorem OnlyChanges.reportCorrected (s : State) (r : ErrRec) : OnlyChanges evParts s (s.reportCorrected r) :=
  .ite (fun _ => .countDev s 8 1) fun _ => (OnlyChanges.report _ _).seq ((OnlyChanges.setErr _ _).seq (OnlyChanges.countDev s 8 1))

theorem OnlyChanges.takePool {s : State} {n : Nat} {press : Bool} {r : Nat × State} (h : s.takePool n press = some r) :
    OnlyChanges [.free, .ps] s r.2 := by
  unfold State.takePool at h
  simp -zeta only at h
  extract_lets at h
  obtain ⟨-, h⟩ := Option.ite_none_right_eq_some.mp h
  split at h
  · rw [← Option.some.inj h]
    exact (OnlyChanges.setPs _ _).seq (OnlyChanges.draw s).mono
  · cases h
theorem OnlyChanges.takeSeqSheet {s : State} {r : Nat × State} (h : s.takeSeqSheet = some r) : OnlyChanges [.free, .ps] s r.2 := by
  unfold State.takeSeqSheet at h
  exact .of_map h fun a => (OnlyChanges.setPs _ _).seq (OnlyChanges.draw s).mono
theorem OnlyChanges.takeSum {s : State} {n : Nat} {r : Nat × State} (h : s.takeSum n = some r) : OnlyChanges [.free, .ps] s r.2 := by
  unfold State.takeSum at h
  exact .of_map h fun a => (OnlyChanges.setPs _ _).seq (OnlyChanges.draw s).mono
theorem OnlyChanges.takeAux {s : State} {r : Nat × State} (h : s.takeAux = some r) : OnlyChanges [.free, .ps] s r.2 := by
  unfold State.takeAux at h
  exact .of_map h fun a => (OnlyChanges.setPs _ _).seq (OnlyChanges.draw s).mono

/-- A list of sheets taken so far, none taken or some of them. -/
theorem OnlyChanges.moreSeqSheets {s : State} {o : Option (List Nat × State)} (h : ∀ r, o = some r → OnlyChanges [.free, .ps] s r.2)
    {r : List Nat × State} (e : State.moreSeqSheets o = some r) : OnlyChanges [.free, .ps] s r.2 := by
  cases o with
  | none => cases e
  | some p =>
    unfold State.moreSeqSheets at e
    cases hq : p.2.takeSeqSheet with
    | none => simp [hq] at e
    | some q =>
      obtain rfl : (p.1 ++ [q.1], q.2) = r := by simpa [hq] using e
      exact (h p rfl).trans (OnlyChanges.takeSeqSheet hq)
theorem OnlyChanges.takeSeqSheets {s : State} {n : Nat} {r : List Nat × State} (h : State.takeSeqSheets n s = some r) :
    OnlyChanges [.free, .ps] s r.2 := by
  have step : ∀ (l : List Nat) (o : Option (List Nat × State)), (∀ r, o = some r → OnlyChanges [.free, .ps] s r.2) →
      ∀ r, l.foldl (fun o _ => State.moreSeqSheets o) o = some r → OnlyChanges [.free, .ps] s r.2 := by
    intro l
    induction l with
    | nil => exact fun o ho => ho
    | cons a l ih => exact fun o ho => ih _ fun r e => OnlyChanges.moreSeqSheets ho e
  exact step _ _ (fun r e => by cases e; exact .refl _ s) r h

theorem OnlyChanges.grab (s : State) (f i : Nat) : OnlyChanges [.flights, .pools] s (s.grab f i).1 := by
  unfold State.grab
  dsimp only
  split_ifs
  · exact .refl _ s
  · exact (OnlyChanges.setFlight _ f _).seq (OnlyChanges.takeCredits s i 1).mono
  · exact (OnlyChanges.setFlight s f _).mono
theorem OnlyChanges.ungrab (s : State) (f i : Nat) : OnlyChanges [.flights, .pools] s (s.ungrab f i) :=
  .ite (fun _ => (OnlyChanges.setFlight _ f _).seq (OnlyChanges.freeCredits s i 1).mono) fun _ => .refl _ s

/-! ## Flights -/

theorem OnlyChanges.begin (s : State) (f : Nat) : OnlyChanges [.flights] s (s.begin f) := .updFlight s f _
theorem OnlyChanges.setJob (s : State) (f : Nat) (j : Job) : OnlyChanges [.flights] s (s.setJob f j) := .updFlight s f _
theorem OnlyChanges.stall (s : State) (f : Nat) (c : Option Cause) : OnlyChanges [.flights] s (s.stall f c) := .updFlight s f _
theorem OnlyChanges.waitOn (s : State) (f : Nat) (j : Job) (c : Option Cause) : OnlyChanges [.flights] s (s.waitOn f j c) := .updFlight s f _

/-- What a write of a completion ring or a seal ring changes. -/
abbrev ringParts : List Part := .t0 :: evParts
theorem OnlyChanges.ringWrite (s : State) (c loc base depth i : Nat) (b : Bytes) : OnlyChanges ringParts s (s.ringWrite c loc base depth i b) :=
  .ite (fun _ => (OnlyChanges.t0Write s _ b).mono) fun _ => (OnlyChanges.upWrite s c _ b).mono

/-! ## Queue pairs -/

theorem OnlyChanges.enqueue (s : State) (q v : Nat) (fs : List Frame) : OnlyChanges [.eg] s (s.enqueue q v fs) := .setEg s _
theorem OnlyChanges.sendMessage (s : State) (q : Nat) (write : Bool) (svc va rkey : Nat) (data : Bytes) (flight : Nat) (counted dirKeys : Bool) :
    OnlyChanges [.net, .eg] s (s.sendMessage q write svc va rkey data flight counted dirKeys) :=
  (OnlyChanges.updQp _ q _).seq (OnlyChanges.enqueue s q _ _).mono
theorem OnlyChanges.sendBypass (s : State) (p : Nat) (b : Bypass) : OnlyChanges [.eg] s (s.sendBypass p b) := .setEg s _
theorem OnlyChanges.dropFrames (s : State) (gone : Frame → Bool) : OnlyChanges [.eg] s (s.dropFrames gone) := .setEg s _
theorem OnlyChanges.unqueue (s : State) (q : Nat) : OnlyChanges [.eg] s (s.unqueue q) := (OnlyChanges.setEg _ _).seq (OnlyChanges.dropFrames s _)

/-- What ending the outstanding work of a queue pair changes. -/
abbrev qpParts : List Part := .eg :: finishParts
theorem OnlyChanges.flushQp (s : State) (q : Nat) (st : BitVec 16) : OnlyChanges qpParts s (s.flushQp q st) := by
  unfold State.flushQp
  extract_lets x fl keys lost requests s1 s2 _ s3 _ s4 s5 s6
  have h1 : OnlyChanges qpParts s s1 := (OnlyChanges.unqueue s q).mono
  have h3 : OnlyChanges qpParts s s3 := (OnlyChanges.setNet s2 _).seq ((OnlyChanges.updQp s1 q _).seq h1)
  have h4 : OnlyChanges qpParts s s4 := (OnlyChanges.setNet { s3 with flights := s4.flights } _).seq ((OnlyChanges.setFlights s3 _).seq h3)
  have h6 : OnlyChanges qpParts s s6 := (OnlyChanges.countDev s5 6 lost).seq ((OnlyChanges.countFn s4 _ 8 requests).seq h4)
  exact h6.trans (.foldl _ (fun s f => .ite (fun _ => (OnlyChanges.fail s f st).mono) fun _ => .refl _ s) fl s6)
theorem OnlyChanges.qpReset (s : State) (q : Nat) : OnlyChanges qpParts s (s.qpReset q) :=
  .ite (fun _ => .refl _ s) fun _ => (OnlyChanges.flushQp _ q stAborted).trans' ((OnlyChanges.trace _ 1 _).seq (OnlyChanges.updQp s q _).mono)

/-- What a response changes. -/
abbrev respondParts : List Part := [.net, .eg, .free] ++ evParts
theorem OnlyChanges.sendResponse (s : State) (q typ reqSeq extent : Nat) (tag st : BitVec 16) (res : BitVec 64) (cw : Option (BitVec 64))
    (stalls : List (Cause × Nat)) (data : Bytes) : OnlyChanges respondParts s (s.sendResponse q typ reqSeq extent tag st res cw stalls data) :=
  .ite (fun _ => (OnlyChanges.sendMessage _ q _ _ _ _ _ _ _ _).seq ((OnlyChanges.updQp _ q _).seq (OnlyChanges.draw s).mono))
    fun _ => (OnlyChanges.countFn s _ 8 1).mono
theorem OnlyChanges.respond (s : State) (q typ reqSeq extent : Nat) (tag st : BitVec 16) (res : BitVec 64) (cw : Option (BitVec 64))
    (stalls : List (Cause × Nat)) (data : Bytes) : OnlyChanges respondParts s (s.respond q typ reqSeq extent tag st res cw stalls data) :=
  (OnlyChanges.sendResponse _ q typ reqSeq extent tag st res cw stalls data).trans' (.ite (fun _ => (OnlyChanges.updQp s q _).mono) fun _ => .refl _ s)

end Sys2Proof.Machine
end

section
-- One proof after another: so many at once would not fit beside the model in memory.
set_option Elab.async false
/-! What the operations over pages, blocks, sequence tables, moves, gatherings and weight windows leave unchanged. -/
namespace Sys2Proof.Machine
open Sys2Proof

/-! ## Home runs, copies and moves -/

theorem OnlyChanges.freeHome (s : State) (tier loc n : Nat) : OnlyChanges [.tier, .out] s (s.freeHome tier loc n) :=
  .ite (fun _ => (OnlyChanges.updPort _ _ _).seq (OnlyChanges.setTier s _).mono) fun _ =>
    .ite (fun _ => (OnlyChanges.emitOut _ _).seq ((OnlyChanges.updPort _ _ _).seq (OnlyChanges.setTier s _).mono)) fun _ =>
      .ite (fun _ => (OnlyChanges.setTier s _).mono) fun _ => .refl _ s
theorem OnlyChanges.dropCopy (s : State) (p : Nat) : OnlyChanges [.ps] s (s.dropCopy p) :=
  .ite (fun _ => (OnlyChanges.retire _ _).seq (OnlyChanges.updPage s p _)) fun _ => .refl _ s
theorem OnlyChanges.retireHome (s : State) (p : Nat) : OnlyChanges [.ps] s (s.retireHome p) :=
  .ite (fun _ => (OnlyChanges.retire _ _).seq (OnlyChanges.updAux s _ _)) fun _ => .refl _ s
theorem OnlyChanges.moveCredit (s : State) (m : Move) : OnlyChanges [.pools, .tier] s (s.moveCredit m).1 := by
  unfold State.moveCredit
  dsimp only
  split_ifs
  · exact .refl _ s
  · exact (OnlyChanges.updMove _ m.page _).seq (OnlyChanges.takeCredits s _ 1).mono
  · exact .refl _ s
theorem OnlyChanges.askCredit (s : State) (p : Nat) : OnlyChanges [.pools, .tier] s (s.askCredit p) := by
  unfold State.askCredit
  split
  · exact .ite (fun _ => .refl _ s) fun _ => .moveCredit s _
  · exact .refl _ s
theorem OnlyChanges.toPrefetch (s : State) (m : Move) (pos gath : Nat) : OnlyChanges [.pools, .tier] s (s.toPrefetch m pos gath) :=
  (OnlyChanges.askCredit _ m.page).seq ((OnlyChanges.updMove _ m.page _).seq
    (.ite (fun _ => .refl _ s) fun _ => (OnlyChanges.freeCredits s _ 1).mono))
theorem OnlyChanges.askMove (s : State) (kind : MoveKind) (p ctx pos gath : Nat) : OnlyChanges [.pools, .tier] s (s.askMove kind p ctx pos gath) := by
  unfold State.askMove
  split
  · exact .ite (fun _ => .ite (fun _ => (OnlyChanges.updMove s p _).mono) fun _ => .refl _ s) fun _ =>
      .ite (fun _ => .toPrefetch s _ pos gath) fun _ => .ite (fun _ => (OnlyChanges.updMove s p _).mono) fun _ =>
        .ite (fun _ => (OnlyChanges.updMove s p _).mono) fun _ => .refl _ s
  · exact (OnlyChanges.askCredit _ p).seq (OnlyChanges.setTier s _).mono

/-! ## Classes, reference counts and blocks -/

/-- What a change of class or of references of pages changes: the pages, and the moves that follow. -/
abbrev pageParts : List Part := [.pools, .tier, .ps]
theorem OnlyChanges.dropCold (s : State) (p : Nat) : OnlyChanges [.ps] s (s.dropCold p) := .ite (fun _ => .dropCopy s p) fun _ => .refl _ s
theorem OnlyChanges.classMoves (s : State) (p old ctx : Nat) : OnlyChanges pageParts s (s.classMoves p old ctx) :=
  (OnlyChanges.dropCold _ p).seq (.ite (fun _ => .ite (fun _ => (OnlyChanges.askMove s _ p ctx 0 0).mono) fun _ =>
    .ite (fun _ => (OnlyChanges.askMove s _ p ctx 0 0).mono) fun _ => .ite (fun _ => (OnlyChanges.retireHome s p).mono) fun _ => .refl _ s)
      fun _ => .refl _ s)
theorem OnlyChanges.reclassPage (s : State) (es : List Entry) (ctx p : Nat) : OnlyChanges pageParts s (s.reclassPage es ctx p) := by
  refine .ite (fun _ => .refl _ s) fun _ => (OnlyChanges.classMoves _ p _ ctx).seq ?_
  have h := (OnlyChanges.updPage s p fun g => { g with cls := effClass es g.cls, hint := effHint es }).mono (m := pageParts)
  exact .ite (fun _ => h) fun _ => (OnlyChanges.updAux _ _ _).seq h
theorem OnlyChanges.reclass (s : State) (base n ctx : Nat) : OnlyChanges pageParts s (s.reclass base n ctx) :=
  .foldl (fun (s' : State) i => s'.reclassPage (s.holders base) ctx (base + i)) (fun s' _ => OnlyChanges.reclassPage s' _ ctx _) _ s

/-- An instruction whose tables can be read changes what its work does; else it ends. -/
theorem OnlyChanges.readable {l : List Part} {s : State} {f : Nat} {a : List Nat} {k : State → State} (h : OnlyChanges l s (k s))
    (hl : finishParts ⊆ l := by decide) : OnlyChanges l s (s.readable f a k) := by
  unfold State.readable
  split
  · exact h
  · exact ((OnlyChanges.fail _ f stPoisoned).seq (OnlyChanges.badGranule s 8 _ _ _ stPoisoned _).mono).mono hl

theorem OnlyChanges.dropRefs (s : State) (ps : List Nat) : OnlyChanges [.ps] s (s.dropRefs ps).2 := by
  induction ps generalizing s with
  | nil => exact .refl _ s
  | cons p r ih =>
    unfold State.dropRefs
    split
    · exact ih s
    · exact (ih _).trans' (OnlyChanges.updPage s p _)
theorem OnlyChanges.dropBlocks (s : State) (bases : List Nat) (n ctx : Nat) (sheets : List Nat) :
    OnlyChanges pageParts s (s.dropBlocks bases n ctx sheets) := by
  have h := (OnlyChanges.dropRefs s (blockPages bases n)).mono (m := pageParts)
  exact OnlyChanges.trans (.ite (fun _ => h) fun _ => (OnlyChanges.retire _ _).seq h)
    (.foldl (fun (s : State) b => s.reclass b n ctx) (fun s b => OnlyChanges.reclass s b n ctx) bases _)

/-! ## Allocation -/

theorem OnlyChanges.takeRun {s : State} {n : Nat} {r : Nat × State} (h : s.takeRun n = some r) : OnlyChanges [.free, .ps] s r.2 :=
  OnlyChanges.takePool (Option.ite_none_right_eq_some.mp h).2
theorem OnlyChanges.openPage {s t : State} {p cls format units : Nat} {o : Origin} (h : s.openPage p cls format units o = .ok t) :
    OnlyChanges [.free, .ps] s t := by
  unfold State.openPage at h
  split at h
  · cases h
  · next hr =>
    split at h
    · cases h
    · next hm =>
      rw [← Except.ok.inj h]
      exact (OnlyChanges.updPage _ p _).seq ((OnlyChanges.updSum _ _ _).seq ((OnlyChanges.takeSum hm).trans' (OnlyChanges.takeRun hr)))
theorem OnlyChanges.openPages {s t : State} {base cls format units l n : Nat} {o : Origin}
    (h : s.openPages base cls format units o l n = .ok t) : OnlyChanges [.free, .ps] s t := by
  induction n generalizing s l with
  | zero => exact Except.ok.inj h ▸ .refl _ s
  | succ n ih =>
    unfold State.openPages at h
    split at h
    · cases h
    · next hp => exact (OnlyChanges.openPage hp).trans (ih h)
theorem OnlyChanges.allocBlock {s : State} {q : Seq} {qid cls : Nat} {r : Nat × State} (h : s.allocBlock q qid cls = .ok r) :
    OnlyChanges [.free, .ps] s r.2 := by
  unfold State.allocBlock at h
  dsimp only at h
  split at h
  · cases h
  · split at h
    · next hp =>
      cases h
      exact (OnlyChanges.openPages hp).trans' (OnlyChanges.draw s).mono
    · cases h
theorem OnlyChanges.allocBlocks (s : State) (q : Seq) (qid cls n : Nat) : OnlyChanges [.free, .ps] s (s.allocBlocks q qid cls n).2.1 := by
  induction n generalizing s with
  | zero => exact .refl _ s
  | succ n ih =>
    unfold State.allocBlocks
    split
    · exact .refl _ s
    · next hb => exact (ih _).trans' (OnlyChanges.allocBlock hb)
theorem OnlyChanges.seatBlock (s : State) (qid base layers block prev : Nat) : OnlyChanges [.ps] s (s.seatBlock qid base layers block prev) :=
  .foldl (α := Nat) (fun (t : State) l => t.updPage (base + l) _) (fun t _ => OnlyChanges.updPage t _ _) _ s
theorem OnlyChanges.seatBlocks (s : State) (qid : Nat) (fenced : Bool) (layers cls : Nat) (bs : List Nat) (es : List Entry) :
    OnlyChanges [.ps] s (s.seatBlocks qid fenced layers cls bs es).2 := by
  induction bs generalizing s es with
  | nil => exact .refl _ s
  | cons b r ih => exact (ih _ _).trans' (OnlyChanges.seatBlock s qid b layers _ _)
theorem OnlyChanges.edit {s : State} {qid lo : Nat} {es : List Entry} {r : List Nat × State} (h : s.edit qid lo es = some r) :
    OnlyChanges [.free, .ps] s r.2 := by
  unfold State.edit at h
  dsimp only at h
  split at h
  · cases h
  · next hs =>
    rw [← Option.some.inj h]
    exact (OnlyChanges.updSeq _ qid _).seq (OnlyChanges.takeSeqSheets hs)

/-! ## Streams, stamps, credits of entries sent -/

theorem OnlyChanges.updStream (s : State) (q : Nat) (f : Stream → Stream) : OnlyChanges [.awl] s (s.updStream q f) := .setAwl s _
theorem OnlyChanges.dropStream (s : State) (q : Nat) : OnlyChanges [.awl, .ps] s (s.dropStream q) :=
  .ite (fun _ => .refl _ s) fun _ => .ite (fun _ => (OnlyChanges.setAwl s _).mono) fun _ =>
    (OnlyChanges.retire _ _).seq ((OnlyChanges.setAwl _ _).seq (OnlyChanges.setAwl s _).mono)
theorem OnlyChanges.stampPage (s : State) (p g : Nat) : OnlyChanges [.ps] s (s.stampPage p g) := .updPage s p _
theorem OnlyChanges.stampSeq (s : State) (q g : Nat) : OnlyChanges [.ps] s (s.stampSeq q g) := .updSeq s q _
theorem OnlyChanges.useCredit (s : State) (f i : Nat) : OnlyChanges [.flights, .pools] s (s.useCredit f i).2 := by
  unfold State.useCredit
  extract_lets x want
  split_ifs
  · exact (OnlyChanges.updFlight s f _).mono
  · exact (OnlyChanges.updFlight _ f _).seq (OnlyChanges.takeCredits s i 1).mono
  · exact (OnlyChanges.updFlight s f _).mono
theorem OnlyChanges.sendSeals (s : State) (f : Nat) (ps : List Nat) : OnlyChanges [.flights, .pools, .press] s (s.sendSeals f ps).2 := by
  induction ps generalizing s with
  | nil => exact .refl _ s
  | cons p r ih =>
    have hc := OnlyChanges.useCredit s f 316
    unfold State.sendSeals
    split
    · next e =>
      rw [e] at hc
      exact (ih _).trans' ((OnlyChanges.setPress _ _).seq hc.mono)
    · next e =>
      rw [e] at hc
      exact hc.mono
theorem OnlyChanges.sendTokens (s : State) (f : Nat) (ts : List Token) : OnlyChanges [.flights, .pools, .awl] s (s.sendTokens f ts).2 := by
  induction ts generalizing s with
  | nil => exact .refl _ s
  | cons t r ih =>
    have hc := OnlyChanges.useCredit s f (317 + t.seq % 16)
    unfold State.sendTokens
    dsimp only
    split
    · next e =>
      rw [e] at hc
      exact (ih _).trans' ((OnlyChanges.setAwl _ _).seq hc.mono)
    · next e =>
      rw [e] at hc
      exact hc.mono

/-- What an instruction that sends pages to the seal queue and tokens to the Awl changes. -/
abbrev sendParts : List Part := [.press, .awl] ++ finishParts
theorem OnlyChanges.sendRest (s : State) (f : Nat) (pages : List Nat) (tokens : List Token) (st : BitVec 16) (res : BitVec 64) :
    OnlyChanges sendParts s (s.sendRest f pages tokens st res) := by
  have h := (OnlyChanges.sendSeals _ f pages).seq ((OnlyChanges.sendTokens s f tokens).mono (m := sendParts))
  exact .ite (fun _ => (OnlyChanges.finish _ f st res none).seq h) fun _ => (OnlyChanges.setJob _ f _).seq h
theorem OnlyChanges.poisonPage (s : State) (p : Nat) : OnlyChanges [.ps, .tier] s (s.poisonPage p) := by
  have h := (OnlyChanges.updPage s p fun g => { g with poison := true }).mono (m := [.ps, .tier])
  unfold State.poisonPage
  dsimp only
  split
  · exact .ite (fun _ => h) fun _ => (OnlyChanges.updMove _ p _).seq h
  · exact h

/-! ## Prefetch holds, weight windows, gatherings -/

theorem OnlyChanges.prefetchOne (s : State) (gi : Nat) (n : Nat × Nat) : OnlyChanges [.pools, .tier] s (s.prefetchOne gi n) :=
  .ite (fun _ => .askMove s _ _ _ _ _) fun _ => .refl _ s

/-- What the end of a prefetch hold changes: the pages, and the count of the copies that nothing has read. -/
abbrev holdParts : List Part := .ps :: evParts
theorem OnlyChanges.endPrefetchHold (s : State) (p : Nat) : OnlyChanges holdParts s (s.endPrefetchHold p) := by
  refine .ite (fun _ => (OnlyChanges.dropCold _ p).seq ?_) fun _ => .refl _ s
  have h := (OnlyChanges.updAux s (s.page p).aux fun a => { a with hold := false, holdPos := 0, holdGath := 0, holdRead := false }).mono (m := holdParts)
  exact .ite (fun _ => h) fun _ => (OnlyChanges.countFn _ _ 10 1).seq h
theorem OnlyChanges.markRead (s : State) (p : Nat) : OnlyChanges [.ps] s (s.markRead p) := .ite (fun _ => .updAux s _ _) fun _ => .refl _ s
theorem OnlyChanges.countUnread (s : State) (gi lin : Nat) : OnlyChanges holdParts s (s.countUnread gi lin) := by
  refine OnlyChanges.foldl (α := Nat × Page) _ (fun s' p => ?_) s.ps.pages s
  exact .ite (fun _ => (OnlyChanges.markRead _ p.1).seq (OnlyChanges.countFn s' _ 10 1).mono) fun _ => .refl _ s'
theorem OnlyChanges.endPrefetchHolds (s : State) (gi : Nat) (every : Bool) : OnlyChanges holdParts s (s.endPrefetchHolds gi every) := by
  refine OnlyChanges.foldl (α := Nat × Page) _ (fun s' p => ?_) s.ps.pages s
  exact .ite (fun _ => .endPrefetchHold s' p.1) fun _ => .refl _ s'

/-- What the weight windows of gatherings change. -/
abbrev windowParts : List Part := [.free, .ps, .gaths, .fq]
theorem OnlyChanges.takeClear (s : State) (gi i : Nat) : OnlyChanges windowParts s (s.takeClear gi i) := by
  unfold State.takeClear
  extract_lets r n u _ u'
  split
  · exact .refl _ s
  · split
    · next e =>
      have hu : OnlyChanges windowParts s u' := (OnlyChanges.setPs u _).seq (OnlyChanges.updGath s gi _).mono
      exact (OnlyChanges.updWrec _ i _).seq ((OnlyChanges.takePool e).seq hu)
    · exact .refl _ s
theorem OnlyChanges.dropClear (s : State) (i : Nat) : OnlyChanges [.ps, .fq] s (s.dropClear i) := by
  unfold State.dropClear
  dsimp only
  split
  · exact (OnlyChanges.retire _ _).seq (OnlyChanges.updWrec s i _).mono
  · exact .refl _ s
theorem OnlyChanges.dropLayerCopies (s : State) (r : WRec) : OnlyChanges [.ps] s (s.dropLayerCopies r) :=
  .foldl (α := Nat) _ (fun s' _ => .ite (fun _ => .dropCopy s' _) fun _ => .refl _ s') _ s
theorem OnlyChanges.sweepWindows (s : State) : OnlyChanges [.ps, .fq] s s.sweepWindows := by
  refine OnlyChanges.foldl (α := Nat × WRec) _ (fun s' r => .ite (fun _ => .refl _ s') fun _ => ?_) s.fq.wrecs s
  have h : OnlyChanges [.ps, .fq] s' (if !(s'.windowed r.2.model r.2.layer) && (r.2.inWin || r.2.clear.isSome) then
      (s'.dropClear r.1).dropLayerCopies r.2 else s') :=
    .ite (fun _ => (OnlyChanges.dropLayerCopies _ r.2).seq (OnlyChanges.dropClear s' r.1)) fun _ => .refl _ s'
  exact .ite (fun _ => h) fun _ => (OnlyChanges.updWrec _ r.1 _).seq h
/-- What the opening of a weight window changes. -/
abbrev openParts : List Part := [.pools, .tier] ++ windowParts
theorem OnlyChanges.openWindow (s : State) (gi : Nat) : OnlyChanges openParts s (s.openWindow gi) := by
  refine .ite (fun _ => .refl _ s) fun _ => .foldl (α := Nat) _ (fun s' m => .ite (fun _ => .refl _ s') fun _ => ?_) _ s
  split
  · exact .refl _ s'
  · next i r _ =>
    have h := (OnlyChanges.takeClear s' gi i).mono (m := openParts)
    exact .ite (fun _ => h.trans (.foldl (α := Nat) _ (fun u k => (OnlyChanges.prefetchOne u gi _).mono) _ _)) fun _ => h

/-- What the Kettle changes at a position. -/
abbrev kettleParts : List Part := [.free, .ps, .pools, .tier, .gaths, .fq] ++ evParts
theorem OnlyChanges.kettle (s : State) (gi : Nat) : OnlyChanges kettleParts s (s.kettle gi) := by
  unfold State.kettle
  extract_lets s1 s2 s3
  have h2 : OnlyChanges kettleParts s s2 := (OnlyChanges.updGath s1 gi _).seq (OnlyChanges.endPrefetchHolds s gi false).mono
  have h3 : OnlyChanges kettleParts s s3 := h2.trans (.foldl _ (fun u n => (OnlyChanges.prefetchOne u gi n).mono) _ s2)
  exact (OnlyChanges.sweepWindows _).seq ((OnlyChanges.openWindow s3 gi).seq h3)
theorem OnlyChanges.attendDone (s : State) (gi stepAt layer : Nat) : OnlyChanges kettleParts s (s.attendDone gi stepAt layer) :=
  .ite (fun _ => (OnlyChanges.kettle _ gi).trans' (OnlyChanges.updGath s gi _).mono) fun _ => .refl _ s
theorem OnlyChanges.endHold (s : State) (gi : Nat) : OnlyChanges (.gaths :: pageParts) s (s.endHold gi) :=
  .trans (OnlyChanges.updGath s gi _).mono
    (.foldl (α := SnapMember) _ (fun u m => .ite (fun _ => .refl _ u) fun _ => (OnlyChanges.dropBlocks u m.own _ _ []).mono) _ _)
theorem OnlyChanges.passBoundary (s : State) (gi : Nat) : OnlyChanges [.gaths, .flights] s (s.passBoundary gi) :=
  (OnlyChanges.setFlights _ _).seq (OnlyChanges.updGath s gi _).mono

end Sys2Proof.Machine
end

section
-- One proof after another: so many at once would not fit beside the model in memory.
set_option Elab.async false
/-! What doorbells, fetch and completion, the appends, the landings of moves and the stops of instructions leave unchanged. -/
namespace Sys2Proof.Machine
open Sys2Proof

/-! ## Doorbells and fetch -/

/-- What a doorbell and the ending of a fetch change of the contexts and the records. -/
abbrev bellParts : List Part := .ctxs :: evParts
theorem OnlyChanges.tailBell (s : State) (fn c ring index rsv : Nat) : OnlyChanges bellParts s (s.tailBell fn c ring index rsv) := by
  refine .ite (fun _ => ?_) fun _ => (OnlyChanges.countFn s fn 0 1).mono
  have h := (OnlyChanges.updCtx s c fun x => x.updRing ring fun r =>
    { r with tail := index, buf := [], left := r.left + Int.ofNat (sub16 index r.tail) }).mono (m := bellParts)
  exact (OnlyChanges.noteWant _ c).seq ((OnlyChanges.settle _ c).seq (.ite (fun _ => (OnlyChanges.ctxTo _ c .active).seq h) fun _ => h))
theorem OnlyChanges.headBell (s : State) (fn c ring index rsv : Nat) : OnlyChanges bellParts s (s.headBell fn c ring index rsv) :=
  .ite (fun _ => (OnlyChanges.noteWant _ c).seq (OnlyChanges.updCtx s c _).mono) fun _ => (OnlyChanges.countFn s fn 0 1).mono

theorem OnlyChanges.setNextFlight (s : State) (f : Nat) : OnlyChanges [.nextFlight] s { s with nextFlight := f } := by
  intro p hp; cases p <;> first | rfl | exact absurd hp (by decide)

/-- What a fetch changes, one that fails among them. -/
abbrev fetchParts : List Part := [.ctxs, .flights, .nextFlight] ++ evParts
theorem OnlyChanges.fetchStop (s : State) (c ring index : Nat) (st : BitVec 16) : OnlyChanges fetchParts s (s.fetchStop c ring index st) :=
  .ite (fun _ => (OnlyChanges.setFlight _ _ _).seq ((OnlyChanges.ctxTo _ c .stopped).seq ((OnlyChanges.updCtx _ c _).seq
    (OnlyChanges.setNextFlight s _).mono))) fun _ => .refl _ s
theorem OnlyChanges.fetchT0 (s : State) (c ring n : Nat) : OnlyChanges fetchParts s (s.fetchT0 c ring n) := by
  induction n generalizing s with
  | zero => exact .refl _ s
  | succ n ih =>
    unfold State.fetchT0
    refine .ite (fun _ => .ite (fun _ => ?_) fun _ => .refl _ s) fun _ => (ih _).trans' (OnlyChanges.updCtx s c _).mono
    exact (OnlyChanges.fetchStop _ c ring _ stPoisoned).trans' (OnlyChanges.badGranule s 8 _ _ _ stPoisoned 0).mono
theorem OnlyChanges.fetchBuf (s : State) (c ring n : Nat) : OnlyChanges [.ctxs] s (s.fetchBuf c ring n) := by
  induction n generalizing s with
  | zero => exact .refl _ s
  | succ n ih =>
    unfold State.fetchBuf
    dsimp only
    split
    · exact (ih _).trans' (OnlyChanges.updCtx s c _)
    · exact .refl _ s
theorem OnlyChanges.instructionFetch (s : State) (c ring : Nat) : OnlyChanges fetchParts s (s.instructionFetch c ring) :=
  .ite (fun _ => .ite (fun _ => (OnlyChanges.fetchBuf s c ring _).mono) fun _ => .ite (fun _ => .fetchT0 s c ring _) fun _ =>
    (OnlyChanges.emitOut _ _).seq (OnlyChanges.updCtx s c _).mono) fun _ => .refl _ s
theorem OnlyChanges.fetchData (s : State) (c ring : Nat) (data : Bytes) (n : Nat) : OnlyChanges [.ctxs] s (s.fetchData c ring data n) := by
  induction n generalizing s data with
  | zero => exact .refl _ s
  | succ n ih => exact (ih _ _).trans' (OnlyChanges.updCtx s c _)
theorem OnlyChanges.upFault (s : State) (c addr result : Nat) (st : BitVec 16) : OnlyChanges evParts s (s.upFault c addr result st) :=
  (OnlyChanges.report _ _).trans' (OnlyChanges.upAer s _ result).mono
theorem OnlyChanges.fetchCompletion (s : State) (c ring result : Nat) (data : Bytes) :
    OnlyChanges fetchParts s (s.fetchCompletion c ring result data) := by
  unfold State.fetchCompletion
  dsimp only
  split
  · next rest _ =>
    have h := (OnlyChanges.updCtx s c fun x => x.updRing ring fun r => { r with stray := rest }).mono (m := fetchParts)
    exact .ite (fun _ => h) fun _ => (OnlyChanges.upFault _ c _ result 0).seq h
  · have h := (OnlyChanges.updCtx s c fun x => x.updRing ring fun r => { r with reading := 0 }).mono (m := fetchParts)
    exact .ite (fun _ => .refl _ s) fun _ => .ite (fun _ => (OnlyChanges.fetchData _ c ring data _).seq h) fun _ =>
      (OnlyChanges.fetchStop _ c ring _ _).trans' ((OnlyChanges.upFault _ c _ result _).seq h)

/-! ## Completion -/

theorem OnlyChanges.writeSeal (s : State) (x : Flight) (entry : Bytes) : OnlyChanges (.sec :: ringParts) s (s.writeSeal x entry) :=
  (OnlyChanges.setSec _ _).seq (OnlyChanges.ringWrite s x.ctx _ _ _ _ _).mono
/-- What the write of a completion entry changes. -/
abbrev entryParts : List Part := [.ctxs, .sec] ++ ringParts
theorem OnlyChanges.writeEntry (s : State) (x : Flight) : OnlyChanges entryParts s (s.writeEntry x) :=
  (OnlyChanges.updCtx _ x.ctx _).seq ((OnlyChanges.ringWrite _ x.ctx _ _ _ _ _).seq
    (.ite (fun _ => (OnlyChanges.writeSeal s x _).mono) fun _ => .refl _ s))
/-- What the retirement of an ended instruction changes. -/
abbrev completeParts : List Part := [.flights, .net, .eg] ++ entryParts ++ kettleParts
theorem OnlyChanges.instructionComplete (s : State) (f : Nat) : OnlyChanges completeParts s (s.instructionComplete f) := by
  unfold State.instructionComplete
  split
  · exact .refl _ s
  · next x _ =>
    refine .ite (fun _ => .refl _ s) fun _ => .ite (fun _ => (OnlyChanges.dropFlight s f).mono) fun _ => ?_
    generalize hu : (if wOpcode x.word = 0x30 ∧ stClass x.status ≤ 1 then
      s.attendDone (gField x.a) x.stepAt (fld x.a.toNat 0 8) else s) = u
    have h : OnlyChanges completeParts s u := hu ▸ .ite (fun _ => (OnlyChanges.attendDone s _ _ _).mono) fun _ => .refl _ s
    dsimp only
    split
    · exact (OnlyChanges.respond _ _ _ _ _ _ _ _ _ _ _).seq ((OnlyChanges.dropFlight u f).seq h)
    · refine .ite (fun _ => h) fun _ => (OnlyChanges.noteWant _ x.ctx).seq ((OnlyChanges.settle _ x.ctx).seq ?_)
      have hw : OnlyChanges completeParts s ((if x.writesEntry then u.writeEntry x else u).dropFlight f) :=
        (OnlyChanges.dropFlight _ f).seq (.ite (fun _ => (OnlyChanges.writeEntry u x).seq h) fun _ => h)
      exact .ite (fun _ => (OnlyChanges.irq _ _ _ _ true).seq hw) fun _ =>
        .ite (fun _ => (OnlyChanges.irq _ _ _ _ false).seq hw) fun _ => hw

/-! ## Appends -/

theorem OnlyChanges.newStream {s t : State} {q : Nat} {x : Stream} (h : s.newStream q x = some t) : OnlyChanges [.free, .ps, .awl] s t := by
  unfold State.newStream at h
  split_ifs at h
  · exact Option.some.inj h ▸ .refl _ s
  · exact Option.some.inj h ▸ (OnlyChanges.updStream s q _).mono
  · split at h
    · cases h
    · next hr =>
      rw [← Option.some.inj h]
      exact (OnlyChanges.updStream _ q _).seq ((OnlyChanges.setAwl _ _).seq (OnlyChanges.takeRun hr).mono)
theorem OnlyChanges.newSeq {s t : State} {q : Nat} {x : Seq} {y : Stream} (h : s.newSeq q x y = some t) :
    OnlyChanges [.free, .ps, .awl] s t := by
  exact (OnlyChanges.newStream h).trans' (OnlyChanges.updSeq s q _).mono
theorem OnlyChanges.appendTarget {s t : State} {c q : Nat} {x : Seq} (h : s.appendTarget c q x = some t) : OnlyChanges [.free, .ps, .awl] s t := by
  unfold State.appendTarget at h
  split_ifs at h
  · exact Option.some.inj h ▸ .refl _ s
  · exact OnlyChanges.newSeq h

theorem OnlyChanges.setGaths (s : State) (g : Tbl Gath) : OnlyChanges [.gaths] s { s with gaths := g } := by
  intro p hp; cases p <;> first | rfl | exact absurd hp (by decide)
theorem OnlyChanges.fence (s : State) (q b : Nat) : OnlyChanges [.ps, .gaths] s (s.fence q b) :=
  (OnlyChanges.setGaths _ _).seq (OnlyChanges.updSeq s q _).mono
/-- What the fence of a sequence that the Awl cannot scan changes. -/
abbrev screenParts : List Part := [.ps, .gaths, .awl] ++ evParts
theorem OnlyChanges.fenceClosed (s : State) (q b case : Nat) : OnlyChanges screenParts s (s.fenceClosed q b case) :=
  .ite (fun _ => (OnlyChanges.fence s q b).mono) fun _ =>
    (OnlyChanges.report _ _).seq ((OnlyChanges.updStream _ q _).seq (OnlyChanges.fence s q b).mono)
theorem OnlyChanges.screen (s : State) (q pos block : Nat) (ids : List Nat) : OnlyChanges screenParts s (s.screen q pos block ids).2 := by
  unfold State.screen
  split
  · exact .refl _ s
  split
  · exact (OnlyChanges.updStream _ q _).seq (OnlyChanges.fenceClosed s q block 1)
  · exact .refl _ s
theorem OnlyChanges.writeTokens (s : State) (p t n ptok gi : Nat) (b : Bytes) : OnlyChanges [.t0, .ps] s (s.writeTokens p t n ptok gi b) :=
  .ite (fun _ => (OnlyChanges.stampPage s p gi).mono) fun _ =>
    (OnlyChanges.stampPage _ p gi).seq ((OnlyChanges.updPage _ p _).seq (OnlyChanges.t0Write s _ b).mono)
theorem OnlyChanges.writeIds (s : State) (p t : Nat) (ids : List Nat) : OnlyChanges [.ps] s (s.writeIds p t ids) :=
  .ite (fun _ => .refl _ s) fun _ => .updSum s _ _
theorem OnlyChanges.closeFull (s : State) (payload : Nat) (ps : List Nat) : OnlyChanges [.ps] s (s.closeFull payload ps).2 := by
  induction ps generalizing s with
  | nil => exact .refl _ s
  | cons p r ih =>
    unfold State.closeFull
    dsimp only
    split
    · exact (ih _).trans' (OnlyChanges.updPage s p _)
    · exact ih s
theorem OnlyChanges.growWait (s : State) (f layers : Nat) (before held : List Nat) (k : Short) :
    OnlyChanges finishParts s (s.growWait f layers before held k) :=
  .ite (fun _ => .ite (fun _ => .refl _ s) fun _ => (OnlyChanges.setJob s f _).mono) fun _ =>
    (OnlyChanges.fail _ f stNoSpace).seq (OnlyChanges.updFlight s f _).mono
theorem OnlyChanges.writeBlock (s : State) (x : Seq) (gi : Nat) (e : Entry) (b pos k : Nat) (data : Bytes) (n : Nat) :
    OnlyChanges [.t0, .ps] s (s.writeBlock x gi e b pos k data n) := by
  induction n with
  | zero => exact .refl _ s
  | succ n ih => exact (OnlyChanges.writeTokens _ _ _ _ _ _ _).trans' ih
/-- What the write of tokens at the end of a table changes. -/
abbrev writeParts : List Part := .t0 :: screenParts
theorem OnlyChanges.writeSeq (s : State) (q : Nat) (x : Seq) (es : List Entry) (gi pos k : Nat) (data : Bytes) (ids : List Nat) :
    OnlyChanges writeParts s (s.writeSeq q x es gi pos k data ids).2.2 := by
  unfold State.writeSeq
  extract_lets bs s1 s2 s3 s4
  have h1 : OnlyChanges writeParts s s1 := .foldl _ (fun u b => (OnlyChanges.writeBlock u x gi _ b pos k data _).mono) bs s
  have h2 : OnlyChanges writeParts s s2 := h1.trans (.foldl _ (fun u b => (OnlyChanges.writeIds u _ _ _).mono) bs s1)
  have h4 : OnlyChanges writeParts s s4 := (OnlyChanges.stampSeq _ q gi).seq ((OnlyChanges.updSeq s2 q _).seq h2)
  exact (OnlyChanges.screen _ q pos _ ids).seq ((OnlyChanges.closeFull s4 x.payload _).seq h4)
/-- What an APPEND in SEQ mode changes before it sends what follows. -/
abbrev appendParts : List Part := .free :: writeParts
theorem OnlyChanges.appendSeq {s : State} {c q gi cls k : Nat} {blocks : List Nat} {data : Bytes} {ids : List Nat} {r : List Nat × List Token × State}
    (h : s.appendSeq c q gi cls k blocks data ids = .ok r) : OnlyChanges appendParts s r.2.2 := by
  unfold State.appendSeq at h
  dsimp only at h
  split at h
  · cases h
  · next u hu =>
    have h0 := (OnlyChanges.appendTarget hu).mono (m := appendParts)
    split at h
    · rw [← Except.ok.inj h]
      exact (OnlyChanges.writeSeq u q _ _ gi _ k data ids).seq h0
    · split at h
      · cases h
      · next he =>
        rw [← Except.ok.inj h]
        have h1 := (OnlyChanges.edit he).seq ((OnlyChanges.seatBlocks u q _ _ cls blocks _).seq h0)
        exact (OnlyChanges.writeSeq _ q _ _ gi _ k data ids).seq (.ite (fun _ => h1) fun _ => (OnlyChanges.retire _ _).seq h1)
/-- What the application of an APPEND in SEQ mode changes. -/
abbrev applyParts : List Part := [.t0, .gaths] ++ sendParts
theorem OnlyChanges.applySeq (s : State) (f : Nat) (x : Flight) : OnlyChanges applyParts s (s.applySeq f x) := by
  unfold State.applySeq
  extract_lets c q gi k y addr n taddr pos cls need had
  refine .ite (fun _ => (OnlyChanges.fail s f stRange).mono) fun _ => OnlyChanges.readable (.ite (fun _ => ?_) fun _ => ?_)
  · exact (OnlyChanges.fail _ f stPoisoned).seq (OnlyChanges.badGranule s 8 addr _ _ stPoisoned _).mono
  · have ha := (OnlyChanges.allocBlocks s y q cls (need - had.length)).mono (m := applyParts)
    split
    · next e =>
      rw [e] at ha
      exact (OnlyChanges.growWait _ f y.layers had _ _).seq (.ite (fun _ => .refl _ s) fun _ => ha)
    · next e =>
      rw [e] at ha
      split
      · exact (OnlyChanges.growWait _ f y.layers had _ _).seq (.ite (fun _ => .refl _ s) fun _ => ha)
      · next hs =>
        exact (OnlyChanges.sendRest _ f _ _ _ _).seq ((OnlyChanges.updFlight _ f _).seq
          ((OnlyChanges.retireTaken _ _).seq ((OnlyChanges.appendSeq hs).seq ha)))
theorem OnlyChanges.applyBoundaries (s : State) (gi : Nat) : OnlyChanges applyParts s (s.applyBoundaries gi) :=
  .foldl (α := Nat × Flight) _ (fun u p => .ite (fun _ => .applySeq u p.1 _) fun _ => .refl _ u) s.flights s

/-! ## The end of a sequence and of a gathering -/

/-- What the deletion of a sequence changes. -/
abbrev releaseParts : List Part := .awl :: pageParts
theorem OnlyChanges.releaseWhole (s : State) (q : Nat) : OnlyChanges releaseParts s (s.releaseWhole q) :=
  (OnlyChanges.dropBlocks _ _ _ _ _).seq ((OnlyChanges.dropStream _ q).seq (OnlyChanges.updSeq s q _).mono)
theorem OnlyChanges.passCopies (s : State) (gi : Nat) : OnlyChanges [.gaths, .ps, .fq] s (s.passCopies gi) := by
  refine OnlyChanges.foldl (α := Nat × WRec) _ (fun u r => .ite (fun _ => ?_) fun _ => .refl _ u) s.fq.wrecs s
  split
  · exact (OnlyChanges.updWrec _ r.1 _).seq ((OnlyChanges.setPs _ _).seq (OnlyChanges.updGath u _ _).mono)
  · exact .refl _ u
/-- What the end of a gathering changes. -/
abbrev dissolveParts : List Part := .tier :: applyParts
theorem OnlyChanges.dissolve (s : State) (gi : Nat) : OnlyChanges dissolveParts s (s.dissolve gi) := by
  unfold State.dissolve
  extract_lets s1 s2 g s3 s4 retired _ s5 s6
  have h1 : OnlyChanges dissolveParts s s1 := (OnlyChanges.applyBoundaries _ gi).seq (OnlyChanges.passBoundary s gi).mono
  have h2 : OnlyChanges dissolveParts s s2 := (OnlyChanges.endPrefetchHolds _ gi true).seq ((OnlyChanges.endHold s1 gi).seq h1)
  have h3 : OnlyChanges dissolveParts s s3 := (OnlyChanges.updGath s2 gi _).seq h2
  have h4 : OnlyChanges dissolveParts s s4 :=
    .ite (fun _ => (OnlyChanges.sweepWindows _).seq ((OnlyChanges.passCopies s3 gi).seq h3)) fun _ => h3
  have h6 : OnlyChanges dissolveParts s s6 := (OnlyChanges.updGath s5 gi _).seq ((OnlyChanges.setPs s4 _).seq h4)
  exact h6.trans (.foldl (α := Nat × Flight) _ (fun u p => .ite (fun _ => (OnlyChanges.fail u p.1 stNotFound).mono) fun _ => .refl _ u) _ s6)

/-! ## Moves that end -/

theorem OnlyChanges.freePool (s : State) (runs : List Nat) : OnlyChanges [.ps] s (s.freePool runs) := .setPs s _
theorem OnlyChanges.demoteEnded (s : State) (p : Nat) (ok : Bool) : OnlyChanges [.flights] s (s.demoteEnded p ok) := .setFlights s _
theorem OnlyChanges.resumeReaders (s : State) (p : Nat) : OnlyChanges [.flights] s (s.resumeReaders p) := .setFlights s _
theorem OnlyChanges.failReaders (s : State) (p tier : Nat) (st : BitVec 16) : OnlyChanges finishParts s (s.failReaders p tier st) :=
  .foldl (α := Nat × Flight) _ (fun u x => .ite (fun _ => (OnlyChanges.fail _ x.1 _).trans' (OnlyChanges.updFlight u x.1 _).mono)
    fun _ => .refl _ u) s.flights s
theorem OnlyChanges.endMove (s : State) (m : Move) : OnlyChanges pageParts s (s.endMove m) := by
  unfold State.endMove
  extract_lets n s1 s2 s3 s4
  have h1 : OnlyChanges pageParts s s1 := .ite (fun _ => (OnlyChanges.freeCredits s _ n).mono) fun _ => .refl _ s
  have h2 : OnlyChanges pageParts s s2 := .ite (fun _ => h1) fun _ => (OnlyChanges.freeCredits s1 _ 1).seq h1
  have h3 : OnlyChanges pageParts s s3 := by
    unfold s3
    split
    · exact (OnlyChanges.dropWalker s2 _).seq h2
    · exact h2
  exact (OnlyChanges.setTier s4 _).seq ((OnlyChanges.updPage s3 m.page _).seq h3)

/-- What a landing, a failed move and what follows of them change. -/
abbrev moveParts : List Part := [.t0, .tier, .gaths] ++ finishParts
theorem OnlyChanges.failInward (s : State) (m : Move) (cause : Nat) : OnlyChanges moveParts s (s.failInward m cause) := by
  unfold State.failInward
  extract_lets p s1 s2 s3 s4 r r1 r2
  have h1 : OnlyChanges moveParts s s1 := (OnlyChanges.endMove s m).mono
  have h2 : OnlyChanges moveParts s s2 := .ite (fun _ => (OnlyChanges.countDev s1 13 1).seq h1) fun _ => (OnlyChanges.countDev s1 12 1).seq h1
  have h3 : OnlyChanges moveParts s s3 := .ite (fun _ => (OnlyChanges.freePool s2 _).seq h2) fun _ => h2
  have h4 : OnlyChanges moveParts s s4 := .ite (fun _ => (OnlyChanges.updGath s3 m.gath _).seq h3) fun _ => h3
  have hp := (OnlyChanges.poisonPage s4 p).seq h4
  refine .ite (fun _ => ?_) fun _ => .ite (fun _ => ?_) fun _ => .ite (fun _ => ?_) fun _ => ?_ <;> refine (OnlyChanges.failReaders _ p m.tier _).seq ?_
  · exact (OnlyChanges.report s4 _).seq h4
  · exact (OnlyChanges.report _ _).seq hp
  · exact (OnlyChanges.badGranule _ _ _ _ _ _ _).seq hp
  · exact (OnlyChanges.report _ _).seq hp
theorem OnlyChanges.lostMove (s : State) (m : Move) : OnlyChanges moveParts s (s.lostMove m) := by
  unfold State.lostMove
  extract_lets p tier r s1 s2 s3 s4
  have h1 : OnlyChanges moveParts s s1 := (OnlyChanges.endMove s m).mono
  have h2 : OnlyChanges moveParts s s2 := .ite (fun _ => (OnlyChanges.freePool s1 _).seq h1) fun _ => h1
  have h3 : OnlyChanges moveParts s s3 := .ite (fun _ => (OnlyChanges.freeHome s2 _ _ _).seq h2) fun _ => h2
  have h4 : OnlyChanges moveParts s s4 := (OnlyChanges.badGranule s3 _ _ _ _ _ _).seq h3
  exact .ite (fun _ => (OnlyChanges.failReaders s4 p tier stPoisoned).seq h4) fun _ => (OnlyChanges.demoteEnded s4 p false).seq h4
theorem OnlyChanges.sampleLat (s : State) (m : Move) : OnlyChanges [.tier] s (s.sampleLat m) :=
  .ite (fun _ => .setTier s _) fun _ => .updPort s _ _
theorem OnlyChanges.land (s : State) (m : Move) (b : Bytes) : OnlyChanges moveParts s (s.land m b) := by
  unfold State.land
  extract_lets p s1 s2 s3 s4 g kettle s5 s6 s7 s8 s9 s10 s11
  have h4 : OnlyChanges moveParts s s4 := (OnlyChanges.updPage s3 p _).seq ((OnlyChanges.endMove s2 m).seq
    ((OnlyChanges.t0Write s1 _ b).seq (OnlyChanges.sampleLat s m).mono))
  have h5 : OnlyChanges moveParts s s5 := (OnlyChanges.updAux s4 _ _).seq h4
  have h6 : OnlyChanges moveParts s s6 := .ite (fun _ => (OnlyChanges.countFn s5 _ 11 1).seq h5) fun _ => h5
  have h7 : OnlyChanges moveParts s s7 :=
    .ite (fun _ => .ite (fun _ => (OnlyChanges.endPrefetchHold s6 p).seq h6) fun _ => h6) fun _ => h4
  have h8 : OnlyChanges moveParts s s8 := .ite (fun _ => (OnlyChanges.retireHome s7 p).seq h7) fun _ => h7
  have h9 : OnlyChanges moveParts s s9 := .ite (fun _ => h8) fun _ => (OnlyChanges.dropCold s8 p).seq h8
  have h10 : OnlyChanges moveParts s s10 := .ite (fun _ => (OnlyChanges.dropCopy s9 p).seq h9) fun _ => h9
  have h11 : OnlyChanges moveParts s s11 := (OnlyChanges.resumeReaders s10 p).seq h10
  exact .ite (fun _ => (OnlyChanges.kettle s11 m.gath).seq h11) fun _ => h11
theorem OnlyChanges.tierRead (s : State) (m : Move) (data : Bytes) : OnlyChanges evParts s (s.tierRead m data).1 := by
  unfold State.tierRead
  dsimp only
  split
  · split
    · exact .foldl (α := Nat) _ (fun u i => .reportCorrected u _) _ s
    · exact .refl _ s
  · exact .refl _ s
theorem OnlyChanges.runRead (s : State) (m : Move) (data : Bytes) : OnlyChanges moveParts s (s.runRead m data) := by
  have ht := (OnlyChanges.tierRead s m data).mono (m := moveParts)
  refine .ite (fun _ => .lostMove s m) fun _ => ?_
  split
  · next e =>
    rw [e] at ht
    exact (OnlyChanges.failInward _ m 1).trans' ht
  · next e =>
    rw [e] at ht
    split
    · exact (OnlyChanges.land _ m _).trans' ht
    · exact (OnlyChanges.failInward _ m 2).trans' ht
theorem OnlyChanges.swapCompletion (s : State) (page result : Nat) (data : Bytes) :
    OnlyChanges moveParts s (s.swapCompletion page result data) := by
  unfold State.swapCompletion
  split
  · exact .refl _ s
  · exact .ite (fun _ => .refl _ s) fun _ => .ite (fun _ => .ite (fun _ => .runRead s _ data) fun _ => .refl _ s) fun _ =>
      (OnlyChanges.failInward _ _ _).trans' (OnlyChanges.upAer s 0 result).mono

/-! ## Instructions that stop -/

theorem OnlyChanges.updOvf (s : State) (i : Nat) (f : RowSlot → RowSlot) : OnlyChanges [.spine] s (s.updOvf i f) := .setSpine s _
theorem OnlyChanges.publishUndone (s : State) (ri : Nat) : OnlyChanges [.spine] s (s.publishUndone ri) :=
  .ite (fun _ => .updRegion s ri _) fun _ => .updRegion s ri _
/-- What the recovery of a region changes. -/
abbrev recoverParts : List Part := .spine :: pageParts
theorem OnlyChanges.retractDone (s : State) (ri c : Nat) : OnlyChanges recoverParts s (s.retractDone ri c) :=
  (OnlyChanges.dropBlocks _ _ _ c []).seq (OnlyChanges.updRegion s ri _).mono
theorem OnlyChanges.dropOps (s : State) (f : Nat) : OnlyChanges [.spine, .flights, .pools] s (s.dropOps f) :=
  OnlyChanges.trans (OnlyChanges.setSpine s _).mono (.foldl (α := Nat) _ (fun u _ => (OnlyChanges.ungrab u _ 9).mono) _ _)
/-- After the queued operations have left, a PUBLISH that is undone restores slots and its region's record. -/
theorem OnlyChanges.publishRestore_slots (s : State) (f ri : Nat) : OnlyChanges [.spine] (s.dropOps f) (s.publishRestore f ri) := by
  refine (OnlyChanges.updRegion _ ri _).seq (.foldl _ (fun u e => ?_) _ _)
  dsimp only
  split
  · exact .ite (fun _ => .updRow u _ _) fun _ => .updOvf u _ _
  · exact .refl _ u
theorem OnlyChanges.publishRestore (s : State) (f ri : Nat) : OnlyChanges [.spine, .flights, .pools] s (s.publishRestore f ri) :=
  (OnlyChanges.publishRestore_slots s f ri).seq (OnlyChanges.dropOps s f)
theorem OnlyChanges.recoverEnd (s : State) (ri : Nat) : OnlyChanges recoverParts s (s.recoverEnd ri) := by
  unfold State.recoverEnd
  dsimp only
  split
  · exact .refl _ s
  · exact .ite (fun _ => .refl _ s) fun _ => .ite (fun _ => .retractDone s ri _) fun _ =>
      .ite (fun _ => (OnlyChanges.publishUndone s ri).mono) fun _ => (OnlyChanges.updRegion s ri _).mono
theorem OnlyChanges.recoverMore (s : State) : OnlyChanges [.spine] s s.recoverMore := .setSpine s _
theorem OnlyChanges.recover (s : State) (ri l : Nat) : OnlyChanges recoverParts s (s.recover ri l) :=
  (OnlyChanges.recoverMore _).seq ((OnlyChanges.recoverEnd _ ri).trans' (OnlyChanges.updRegion s ri _).mono)
/-- What the stop of an instruction changes. -/
abbrev stopParts : List Part := [.spine, .tier] ++ finishParts
theorem OnlyChanges.publishStop (s : State) (f ri stage : Nat) (st : BitVec 16) : OnlyChanges stopParts s (s.publishStop f ri stage st) :=
  .ite (fun _ => (OnlyChanges.recover _ ri 2).seq ((OnlyChanges.fail _ f st).seq (OnlyChanges.dropOps s _).mono)) fun _ =>
    (OnlyChanges.recover _ ri 1).seq ((OnlyChanges.fail _ f st).seq (OnlyChanges.publishRestore s _ ri).mono)
theorem OnlyChanges.retractStop (s : State) (f ri : Nat) (st : BitVec 16) : OnlyChanges stopParts s (s.retractStop f ri st) :=
  (OnlyChanges.fail _ f st).seq ((OnlyChanges.updRegion _ ri _).seq (OnlyChanges.dropOps s _).mono)
theorem OnlyChanges.stopFlight (s : State) (f : Nat) (st : BitVec 16) : OnlyChanges stopParts s (s.stopFlight f st) := by
  unfold State.stopFlight
  split
  · exact .publishStop s f _ _ st
  · exact .retractStop s f _ st
  · exact (OnlyChanges.fail s f st).mono

end Sys2Proof.Machine
end

section
-- One proof after another: so many at once would not fit beside the model in memory.
set_option Elab.async false
/-! What contexts, their resets, functions and interrupts leave unchanged, and with it every command of the families control and context. -/
namespace Sys2Proof.Machine
open Sys2Proof

/-! ## Contexts -/

theorem OnlyChanges.drbg (s : State) (words : Nat) : OnlyChanges [.sec] s (s.drbg words).2 := .setSec s _
theorem OnlyChanges.newKey (s : State) (c : Nat) : OnlyChanges [.sec] s (s.newKey c) := (OnlyChanges.setSec _ _).seq (OnlyChanges.drbg s 4)
/-- What the enable of a context changes. -/
abbrev enableParts : List Part := [.ctxs, .awl, .sec, .fw]
theorem OnlyChanges.enableCtx (s : State) (c : Nat) : OnlyChanges enableParts s (s.enableCtx c) := by
  unfold State.enableCtx
  extract_lets x _ s1 s2
  have h1 : OnlyChanges enableParts s s1 := by
    unfold s1
    split
    · exact (OnlyChanges.setAwl s _).mono
    · exact .refl _ s
  have h2 : OnlyChanges enableParts s s2 := .ite (fun _ => (OnlyChanges.newKey s1 c).seq h1) fun _ => h1
  exact .ite (fun _ => .refl _ s) fun _ => .ite (fun _ => (OnlyChanges.updCtx s c _).mono) fun _ => (OnlyChanges.ctxTo s2 c .idle).seq h2
theorem OnlyChanges.resume (s : State) (c : Nat) : OnlyChanges [.ctxs, .fw] s (s.resume c) :=
  .ite (fun _ => (OnlyChanges.noteWant _ c).seq ((OnlyChanges.ctxTo _ c _).trans' (OnlyChanges.updCtx s c _).mono)) fun _ => .refl _ s
theorem OnlyChanges.grantQuires (s : State) (n : Nat) (l : List (Nat × Flight)) (taken : List Nat) :
    OnlyChanges [.flights, .fq] s (s.grantQuires n l taken) := by
  induction n generalizing l taken with
  | zero => exact .refl _ s
  | succ n ih =>
    unfold State.grantQuires
    split
    · exact .refl _ s
    · exact .ite (fun _ => (OnlyChanges.begin _ _).seq (OnlyChanges.setFq s _).mono) fun _ => ih _ _
theorem OnlyChanges.wakeFor (s : State) (granted : Nat) : OnlyChanges [.fw, .pwr] s (s.wakeFor granted) :=
  .ite (fun _ => .refl _ s) fun _ => .ite (fun _ => (OnlyChanges.trace _ 3 _).seq (OnlyChanges.setPwr s _).mono) fun _ =>
    (OnlyChanges.setPwr s _).mono
theorem OnlyChanges.dropFetched (s : State) (c : Nat) : OnlyChanges bellParts s (s.dropFetched c) :=
  (OnlyChanges.countFn _ _ 20 _).seq (OnlyChanges.updCtx s c _).mono
theorem OnlyChanges.orphan (s : State) (c : Nat) : OnlyChanges finishParts s (s.orphan c) := by
  unfold State.orphan
  extract_lets s1 s2
  have h : OnlyChanges finishParts s s2 :=
    (OnlyChanges.updCtx s1 c _).seq ((OnlyChanges.ctxTo _ c .orphaned).seq (OnlyChanges.dropFetched s c).mono)
  exact h.trans (.foldl (α := Nat × Flight) _ (fun u p => .ite (fun _ => .fail u p.1 stOrphaned) fun _ => .refl _ u) _ _)
theorem OnlyChanges.coolSeq (s : State) (q c : Nat) : OnlyChanges pageParts s (s.coolSeq q c) :=
  .trans (OnlyChanges.updSeq s q _).mono (.foldl (α := Entry) _ (fun u e => .reclass u e.base _ c) _ _)

/-! ## Context reset -/

theorem OnlyChanges.resetFlight (s : State) (f : Nat) : OnlyChanges stopParts s (s.resetFlight f) := by
  have h : OnlyChanges stopParts s (if (s.flight f).phase = .ended then s else s.stopFlight f stAborted) :=
    .ite (fun _ => .refl _ s) fun _ => .stopFlight s f stAborted
  exact .ite (fun _ => (OnlyChanges.dropFlight _ f).seq h) fun _ => h
theorem OnlyChanges.dropTokens (s : State) (q : Nat) : OnlyChanges [.awl, .pools] s (s.dropTokens q) :=
  (OnlyChanges.freeCredits _ _ _).seq (OnlyChanges.setAwl s _).mono
theorem OnlyChanges.retractOwn (s : State) (c : Nat) : OnlyChanges recoverParts s (s.retractOwn c) :=
  .foldl (α := Nat × Region) _ (fun u r => (OnlyChanges.recover _ r.1 0).trans' (OnlyChanges.updRegion u r.1 _).mono) _ s
theorem OnlyChanges.eraseKey (s : State) (c : Nat) : OnlyChanges [.sec] s (s.eraseKey c) := .setSec s _
theorem OnlyChanges.revokeRegs (s : State) (c : Nat) : OnlyChanges [.net] s (s.revokeRegs c) := .setNet s _
/-- Steps 2 to 5 of a context reset: everything that the context holds is stopped and released. -/
def State.resetSteps (s : State) (c : Nat) : State :=
  let s := s.dropFetched c
  let s := (s.flights.filter fun p => p.2.ctx == c).foldl (fun s p => s.resetFlight p.1) s
  let s := (s.net.qps.filter fun q => q.2.owner == c && q.2.state != .reset).foldl (fun s q => s.qpReset q.1) s
  let s := s.revokeRegs c
  let s := (s.gaths.filter fun g => g.2.live && g.2.owner == c).foldl (fun s g => s.dissolve g.1) s
  let s := (s.ps.seqs.filter fun q => q.2.state != 0 && q.2.owner == c).foldl (fun s q => (s.dropTokens q.1).releaseWhole q.1) s
  s.retractOwn c
/-- A context whose registers, latches and landing flags a reset has cleared. -/
def Ctx.wiped (x : Ctx) : Ctx :=
  { x.rings.foldl (fun y p => y.updRing p.1 fun r => { r with latch := 0 }) x with x := [], vtime := 0, wanting := false, landing := [], orphanAt := none }
/-- A context reset marks the context, runs its steps, erases the key and clears the context. -/
theorem State.resetRun_eq (s : State) (c : Nat) :
    s.resetRun c = (((s.updCtx c fun x => { x with resetAt := some s.now }).resetSteps c).eraseKey c).updCtx c Ctx.wiped := rfl

/-- What the steps of a context reset change: all but the keys. -/
abbrev resetStepParts : List Part := [.eg, .spine, .tier] ++ applyParts
theorem OnlyChanges.resetSteps (s : State) (c : Nat) : OnlyChanges resetStepParts s (s.resetSteps c) := by
  unfold State.resetSteps
  extract_lets s2 s3 s4 s5 s6 s7
  have h2 : OnlyChanges resetStepParts s s2 := (OnlyChanges.dropFetched s c).mono
  have h3 : OnlyChanges resetStepParts s s3 := h2.trans (.foldl (α := Nat × Flight) _ (fun u p => (OnlyChanges.resetFlight u p.1).mono) _ s2)
  have h4 : OnlyChanges resetStepParts s s4 := h3.trans (.foldl (α := Nat × Qp) _ (fun u q => (OnlyChanges.qpReset u q.1).mono) _ s3)
  have h5 : OnlyChanges resetStepParts s s5 := (OnlyChanges.revokeRegs s4 c).seq h4
  have h6 : OnlyChanges resetStepParts s s6 := h5.trans (.foldl (α := Nat × Gath) _ (fun u g => (OnlyChanges.dissolve u g.1).mono) _ s5)
  have h7 : OnlyChanges resetStepParts s s7 := h6.trans (.foldl (α := Nat × Seq) _
    (fun u q => (OnlyChanges.releaseWhole _ q.1).seq (OnlyChanges.dropTokens u q.1).mono) _ s6)
  exact (OnlyChanges.retractOwn s7 c).seq h7
/-- What a context reset changes. -/
abbrev resetParts : List Part := .sec :: resetStepParts
theorem OnlyChanges.resetRun (s : State) (c : Nat) : OnlyChanges resetParts s (s.resetRun c) :=
  s.resetRun_eq c ▸ (OnlyChanges.updCtx _ c _).seq ((OnlyChanges.eraseKey _ c).seq
    ((OnlyChanges.resetSteps _ c).seq (OnlyChanges.updCtx s c _).mono))
theorem OnlyChanges.startReset (s : State) (c : Nat) : OnlyChanges resetParts s (s.startReset c) := by
  have h : OnlyChanges resetParts s ((s.ctxTo c .resetting).trace 2 [1, c]) := (OnlyChanges.trace _ 2 _).seq (OnlyChanges.ctxTo s c .resetting).mono
  exact .ite (fun _ => .refl _ s) fun _ => .ite (fun _ => h.trans (.resetRun _ c)) fun _ => h

/-! ## Functions -/

theorem OnlyChanges.addSignal (s : State) (fn i inc : Nat) : OnlyChanges evParts s (s.addSignal fn i inc).1 := by
  unfold State.addSignal
  extract_lets old new hit s1
  have h : OnlyChanges evParts s s1 := (OnlyChanges.updFn s fn _).mono
  exact .ite (fun _ => (OnlyChanges.saturates s1 fn i).seq h) fun _ => h
theorem OnlyChanges.redirect (s : State) (c ring index off : Nat) : OnlyChanges [.ctxs] s (s.redirect c ring index off) := .updCtx s c _
theorem OnlyChanges.withdrawExts (s : State) (f : Nat) : OnlyChanges [.net] s (s.withdrawExts f) := .setNet s _
theorem OnlyChanges.eraseSlots (s : State) (f : Nat) : OnlyChanges [.sec] s (s.eraseSlots f) := .setSec s _
theorem OnlyChanges.flrOne (s : State) (f : Nat) : OnlyChanges resetParts s (s.flrOne f) := by
  unfold State.flrOne
  refine .ite (fun _ => .refl _ s) fun _ => ?_
  extract_lets s1 s2 s3 s4 n5 s5 s6 n7 s7
  have h1 : OnlyChanges resetParts s s1 := (OnlyChanges.trace s 2 _).mono
  have h2 : OnlyChanges resetParts s s2 := h1.trans (.foldl _ OnlyChanges.startReset _ s1)
  have h3 : OnlyChanges resetParts s s3 := h2.trans (.foldl (α := Nat × CoCtx) _ (fun u p => (OnlyChanges.eraseKey u p.1).mono) _ s2)
  have h4 : OnlyChanges resetParts s s4 := h3.trans (.foldl (α := Nat × Qp) _ (fun u q => (OnlyChanges.qpReset u q.1).mono) _ s3)
  have h5 : OnlyChanges resetParts s s5 := (OnlyChanges.setNet s4 _).seq h4
  have h6 : OnlyChanges resetParts s s6 :=
    (OnlyChanges.updFn _ f _).seq ((OnlyChanges.eraseSlots _ f).seq ((OnlyChanges.withdrawExts s5 f).seq h5))
  have h7 : OnlyChanges resetParts s s7 := (OnlyChanges.setNet s6 _).seq h6
  exact (OnlyChanges.trace _ 2 _).seq ((OnlyChanges.setErr s7 _).seq h7)
/-- What a function-level reset changes. -/
abbrev flrParts : List Part := .dev :: resetParts
theorem OnlyChanges.vfConfig (s : State) (enable : Bool) (num : Nat) : OnlyChanges flrParts s (s.vfConfig enable num) :=
  (OnlyChanges.setDev _ _).seq (((OnlyChanges.foldl _ OnlyChanges.flrOne _ s).mono (m := flrParts)).trans
    (.foldl (α := Nat) _ (fun u n => .ite (fun _ => .refl _ u) fun _ => (OnlyChanges.updFn u n _).mono) _ _))
theorem OnlyChanges.flr (s : State) (f : Nat) : OnlyChanges flrParts s (s.flr f) :=
  .ite (fun _ => (OnlyChanges.flrOne _ 0).seq (OnlyChanges.vfConfig s false 0)) fun _ => (OnlyChanges.flrOne s f).mono
theorem OnlyChanges.onConfig {l : List Part} {s : State} {link : Nat} {k : State → State} (h : OnlyChanges l s (k s)) (hl : [.out] ⊆ l := by decide) :
    OnlyChanges l s (s.onConfig link k) := .ite (fun _ => h) fun _ => (OnlyChanges.emitOut s _).mono hl
theorem OnlyChanges.fnVec (s : State) (f v : Nat) : OnlyChanges [.fns] s (s.fnVec f v) := .ite (fun _ => .updFn s f _) fun _ => .updFn s f _
theorem OnlyChanges.message (s : State) (f i : Nat) : OnlyChanges evParts s (s.message f i) := by
  have h := (OnlyChanges.sendMsix s f i).mono (m := evParts)
  exact .ite (fun _ => (OnlyChanges.countFn _ f 25 1).seq h) fun _ => h
theorem OnlyChanges.release (s : State) (f i : Nat) : OnlyChanges evParts s (s.release f i) :=
  .ite (fun _ => (OnlyChanges.message _ f i).seq (OnlyChanges.updFn s f _).mono) fun _ => .refl _ s
theorem OnlyChanges.cntCmd (s : State) (v : Nat) : OnlyChanges [.fns, .err] s (s.cntCmd v) :=
  .ite (fun _ => (OnlyChanges.setErr s _).mono) fun _ => (OnlyChanges.updFn s _ _).mono
theorem OnlyChanges.sigClear (s : State) (f : Nat) (v : BitVec 64) : OnlyChanges [.fns] s (s.sigClear f v) := .updFn s f _
theorem OnlyChanges.errHead (s : State) (v : Nat) : OnlyChanges [.err] s (s.errHead v) := .ite (fun _ => .setErr s _) fun _ => .refl _ s

end Sys2Proof.Machine
end

section
-- One proof after another: so many at once would not fit beside the model in memory.
set_option Elab.async false
/-! O8: every command of the families control and context leaves what its row of `Instr.touches` does not name. -/
namespace Sys2Proof.Machine
open Sys2Proof

/-! ## Doorbells, fetch, dispatch, completion -/

theorem OnlyChanges.execCommandRingTailDoorbell {s t : State} {fn c ring index rsv n : Nat}
    (e : execCommandRingTailDoorbell fn c ring index rsv n s = .next t) : OnlyChanges bellParts s t :=
  .act e (.ite (fun _ => .tailBell s fn c ring index rsv) fun _ => .refl _ s)
theorem OnlyChanges.execCompletionHeadDoorbell {s t : State} {fn c ring index rsv n : Nat}
    (e : execCompletionHeadDoorbell fn c ring index rsv n s = .next t) : OnlyChanges bellParts s t :=
  .act e (.ite (fun _ => .headBell s fn c ring index rsv) fun _ => .refl _ s)
theorem OnlyChanges.execInstructionFetch {s t : State} {c ring : Nat} (e : execInstructionFetch c ring s = .next t) : OnlyChanges fetchParts s t :=
  .act e (.instructionFetch s c ring)

/-- What an instruction of a ring changes when it ends: the row of every control instruction. -/
abbrev instrParts : List Part := [.free, .ctxs, .flights, .pools, .fns, .vms, .ps, .fq, .net, .err, .fw, .pwr, .out]
theorem OnlyChanges.ends (s : State) (f : Nat) (st : BitVec 16) (res : BitVec 64) (cw : Option (BitVec 64)) :
    OnlyChanges instrParts s (s.finish f st res cw) := (OnlyChanges.finish s f st res cw).mono
theorem OnlyChanges.fails (s : State) (f : Nat) (st : BitVec 16) : OnlyChanges instrParts s (s.fail f st) := .ends s f st 0 none

/-- What a dispatch changes, one whose check fails among them. -/
abbrev dispatchParts : List Part := [.free, .ctxs, .flights, .nextFlight, .pools, .fns, .vms, .ps, .fq, .net, .err, .fw, .pwr, .out]
theorem OnlyChanges.instructionDispatch (s : State) (c ring : Nat) : OnlyChanges dispatchParts s (s.instructionDispatch c ring) := by
  unfold State.instructionDispatch
  dsimp only
  split
  · exact .refl _ s
  · next rest _ =>
    refine .ite (fun _ => ?_) fun _ => .refl _ s
    have h (x : Flight) : OnlyChanges dispatchParts s
        (({ s.updCtx c fun x => x.updRing ring fun r => { r with fetched := rest } with nextFlight := s.nextFlight + 1 }).setFlight s.nextFlight x) :=
      (OnlyChanges.setFlight _ _ x).seq ((OnlyChanges.setNextFlight _ _).seq (OnlyChanges.updCtx s c _).mono)
    exact .ite (fun _ => h _) fun _ => (OnlyChanges.fail _ _ _).seq (h _)
theorem OnlyChanges.execInstructionDispatch {s t : State} {c ring : Nat} (e : execInstructionDispatch c ring s = .next t) :
    OnlyChanges dispatchParts s t := .act e (.instructionDispatch s c ring)
theorem OnlyChanges.execInstructionComplete {s t : State} {f : Nat} (e : execInstructionComplete f s = .next t) :
    OnlyChanges [.free, .t0, .ctxs, .flights, .pools, .fns, .vms, .ps, .tier, .gaths, .fq, .net, .eg, .sec, .err, .fw, .out] s t :=
  .act e (OnlyChanges.instructionComplete s f).mono
theorem OnlyChanges.execUpstreamReadCompletion {s t : State} {swap : Bool} {c ring page result : Nat} {data : List (BitVec 8)}
    (e : execUpstreamReadCompletion swap c ring page result data s = .next t) :
    OnlyChanges [.free, .t0, .ctxs, .flights, .nextFlight, .pools, .fns, .vms, .ps, .tier, .gaths, .fq, .net, .err, .fw, .pwr, .out] s t :=
  .act e
    (.ite (fun _ => (OnlyChanges.swapCompletion s page result data).mono) fun _ => (OnlyChanges.fetchCompletion s c ring result data).mono)

/-! ## Control instructions and landing waits -/

theorem OnlyChanges.execNop {s t : State} {f : Nat} (e : execNop f s = .next t) : OnlyChanges instrParts s t :=
  .onFlight e (fun _ => .ends s f stOk 0 none)
theorem OnlyChanges.execFence {s t : State} {f : Nat} (e : execFence f s = .next t) : OnlyChanges instrParts s t :=
  .onFlight e (fun _ => .ite (fun _ => .refl _ s) fun _ => .ends s f stOk 0 none)
theorem OnlyChanges.endWait (s : State) (f : Nat) (x : Flight) : OnlyChanges instrParts s (s.endWait f x) := by
  unfold State.endWait
  split
  · exact .ite (fun _ => .ends s f _ _ _) fun _ => .refl _ s
  · exact .refl _ s
theorem OnlyChanges.execWait {s t : State} {f : Nat} (e : execWait f s = .next t) : OnlyChanges instrParts s t :=
  .onFlight e (fun x => .ite (fun _ => .endWait s f x) fun _ => .fails s f _)
theorem OnlyChanges.execWaitSatisfied {s t : State} {f : Nat} (e : execWaitSatisfied f s = .next t) : OnlyChanges instrParts s t :=
  .onFlight e (fun x => .ite (fun _ => .endWait s f x) fun _ => .refl _ s)
theorem OnlyChanges.execWaitTimeout {s t : State} {f : Nat} (e : execWaitTimeout f s = .next t) : OnlyChanges instrParts s t :=
  .onFlight e (fun _ => .ite (fun _ => .fails s f stTimeout) fun _ => .refl _ s)
theorem OnlyChanges.execSignal {s t : State} {f : Nat} (e : execSignal f s = .next t) : OnlyChanges instrParts s t :=
  .onFlight e (fun _ => .ite (fun _ => .refl _ s) fun _ =>
    (OnlyChanges.noteWants _).seq ((OnlyChanges.finish _ f stOk _ none).seq (OnlyChanges.addSignal s _ _ _).mono))
theorem OnlyChanges.execSet {s t : State} {f : Nat} (e : execSet f s = .next t) : OnlyChanges instrParts s t :=
  .onFlight e (fun _ => .ends s f stOk _ none)
theorem OnlyChanges.execAddx {s t : State} {f : Nat} (e : execAddx f s = .next t) : OnlyChanges instrParts s t :=
  .onFlight e (fun _ => .ends s f stOk _ none)
theorem OnlyChanges.execBranch {s t : State} {f : Nat} (e : execBranch f s = .next t) : OnlyChanges instrParts s t := by
  refine .onFlight e (fun x => .ite (fun _ => .refl _ s) fun _ => ?_)
  extract_lets taken u v
  have hu : OnlyChanges instrParts s u := .ite (fun _ => (OnlyChanges.updCtx s x.ctx _).mono) fun _ => .refl _ s
  have hv : OnlyChanges instrParts s v := (OnlyChanges.ends u f stOk _ none).trans' hu
  exact .ite (fun _ => (OnlyChanges.redirect v _ _ _ _).seq hv) fun _ => hv
theorem OnlyChanges.execLoop {s t : State} {f : Nat} (e : execLoop f s = .next t) : OnlyChanges instrParts s t :=
  .onFlight e (fun _ => .ite (fun _ => .ends s f stOk _ none) fun _ => (OnlyChanges.redirect _ _ _ _ _).seq (.ends s f stOk _ none))
theorem OnlyChanges.execAwaitLanding {s t : State} {f : Nat} (e : execAwaitLanding f s = .next t) : OnlyChanges [.ctxs, .flights] s t := by
  refine .act e ?_
  dsimp only
  split
  · exact .ite (fun _ => (OnlyChanges.updFlight _ f _).seq (OnlyChanges.updCtx s _ _).mono) fun _ => .refl _ s
  · exact .refl _ s
theorem OnlyChanges.execAwaitTimeout {s t : State} {f : Nat} (e : execAwaitTimeout f s = .next t) : OnlyChanges instrParts s t := by
  refine .act e ?_
  dsimp only
  split
  · exact .ite (fun _ => .fails s f stTimeout) fun _ => .refl _ s
  · exact .refl _ s

/-- What a control command leaves, its row of `Instr.touches` says. -/
theorem OnlyChanges.control {i : Instr} {s t : State} (hi : i.family = .control) (e : exec i s = .next t) : OnlyChanges i.touches s t := by
  cases i
  case commandRingTailDoorbell => exact .execCommandRingTailDoorbell e
  case completionHeadDoorbell => exact .execCompletionHeadDoorbell e
  case instructionFetch => exact .execInstructionFetch e
  case instructionDispatch => exact .execInstructionDispatch e
  case instructionComplete => exact .execInstructionComplete e
  case upstreamReadCompletion => exact .execUpstreamReadCompletion e
  case nop => exact .execNop e
  case fence => exact .execFence e
  case wait => exact .execWait e
  case waitSatisfied => exact .execWaitSatisfied e
  case waitTimeout => exact .execWaitTimeout e
  case signal => exact .execSignal e
  case set => exact .execSet e
  case addx => exact .execAddx e
  case branch => exact .execBranch e
  case loop => exact .execLoop e
  case awaitLanding => exact .execAwaitLanding e
  case awaitTimeout => exact .execAwaitTimeout e
  all_goals cases hi

/-! ## Contexts, the scheduler and host loss -/

theorem OnlyChanges.execContextEnable {s t : State} {c : Nat} (e : execContextEnable c s = .next t) : OnlyChanges enableParts s t :=
  .act e (.enableCtx s c)
theorem OnlyChanges.execResume {s t : State} {bar fn c : Nat} (e : execResume bar fn c s = .next t) : OnlyChanges [.ctxs, .fw] s t :=
  .act e (.ite (fun _ => .resume s c) fun _ => .refl _ s)
theorem OnlyChanges.execSlotGrant {s t : State} (e : execSlotGrant s = .next t) : OnlyChanges [.ctxs] s t := by
  refine .act e ?_
  split
  · exact .updCtx s _ _
  · exact .refl _ s
theorem OnlyChanges.execContextSwapOut {s t : State} {slot : Nat} (e : execContextSwapOut slot s = .next t) : OnlyChanges [.ctxs] s t := by
  refine .act e ?_
  split
  · split
    · exact .ite (fun _ => (OnlyChanges.noteWant _ _).seq (OnlyChanges.updCtx s _ _)) fun _ => .refl _ s
    · exact .refl _ s
  · exact .refl _ s
theorem OnlyChanges.execSchedulerTick {s t : State} (e : execSchedulerTick s = .next t) : OnlyChanges [.ctxs] s t :=
  .act e (.foldl (α := Nat) (fun (u : State) c => u.updCtx c fun x => { x with vtime := x.vtime + max 1 (4096 / max x.share 1) })
    (fun u c => .updCtx u c _) s.residents s)
theorem OnlyChanges.execCreditGrant {s t : State} {pool : Nat} (e : execCreditGrant pool s = .next t) :
    OnlyChanges [.flights, .pools, .tier] s t := by
  refine .act e ?_
  split
  · exact (OnlyChanges.updFlight _ _ _).seq (OnlyChanges.takeCredits s pool 1).mono
  · refine .ite (fun _ => ?_) fun _ => .refl _ s
    split
    · exact (OnlyChanges.moveCredit s _).mono
    · exact .refl _ s
theorem OnlyChanges.execQuireGrant {s t : State} (e : execQuireGrant s = .next t) : OnlyChanges [.flights, .fq, .fw, .pwr] s t := by
  refine .act e (.ite (fun _ => .refl _ s) fun _ => ?_)
  exact (OnlyChanges.wakeFor _ _).seq (OnlyChanges.grantQuires s _ _ []).mono
theorem OnlyChanges.execHeartbeat {s t : State} {fn n : Nat} (e : execHeartbeat fn n s = .next t) : OnlyChanges [.fns] s t :=
  .act e (.ite (fun _ => .updFn s fn _) fun _ => .refl _ s)
theorem OnlyChanges.execHeartbeatTimeout {s t : State} {fn : Nat} (e : execHeartbeatTimeout fn s = .next t) : OnlyChanges instrParts s t := by
  refine .act e (.ite (fun _ => .refl _ s) fun _ => ?_)
  extract_lets cs s1 s2
  have h2 : OnlyChanges instrParts s s2 :=
    .trans (OnlyChanges.updFn s fn _).mono (.foldl _ (fun u c => (OnlyChanges.orphan u c).mono) cs s1)
  exact (OnlyChanges.countFn _ fn 27 1).seq ((OnlyChanges.report s2 _).seq h2)
theorem OnlyChanges.execOrphanHoldExpired {s t : State} {c : Nat} (e : execOrphanHoldExpired c s = .next t) :
    OnlyChanges [.ctxs, .pools, .fns, .vms, .ps, .tier, .err, .fw, .out] s t := by
  refine .act e ?_
  dsimp only
  split
  · refine .ite (fun _ => (OnlyChanges.report _ _).seq ?_) fun _ => .refl _ s
    exact .trans (OnlyChanges.updCtx s c _).mono (.foldl (α := Nat × Seq) _ (fun u p => (OnlyChanges.coolSeq u p.1 c).mono) _ _)
  · exact .refl _ s

/-- What the expiry of a lease changes. -/
abbrev leaseParts : List Part := [.free, .ctxs, .flights, .pools, .fns, .vms, .ps, .tier, .spine, .fq, .net, .err, .fw, .pwr, .out]
theorem OnlyChanges.execLeaseExpired {s t : State} {f kind : Nat} (e : execLeaseExpired f kind s = .next t) : OnlyChanges leaseParts s t := by
  refine .act e ?_
  dsimp only
  split
  · exact .refl _ s
  · exact .ite (fun _ => .refl _ s) fun _ =>
      (OnlyChanges.stopFlight _ f stAborted).seq ((OnlyChanges.countFn _ _ 28 1).seq (OnlyChanges.report s _).mono)

/-! ## Resets, functions, interrupts and counters -/

/-- What a context reset changes: the row of its two commands. -/
abbrev resetRow : List Part :=
  [.free, .t0, .ctxs, .flights, .pools, .fns, .vms, .ps, .tier, .gaths, .spine, .awl, .press, .fq, .net, .eg, .sec, .err, .fw, .pwr, .out]
theorem OnlyChanges.execContextReset {s t : State} {c : Nat} (e : execContextReset c s = .next t) : OnlyChanges resetRow s t :=
  .act e (OnlyChanges.startReset s c).mono
theorem OnlyChanges.execContextResetFinished {s t : State} {c : Nat} (e : execContextResetFinished c s = .next t) : OnlyChanges resetRow s t := by
  refine .act e (.ite (fun _ => .refl _ s) fun _ => ?_)
  extract_lets s1 s2 s3 _ s4 s5
  have h1 : OnlyChanges resetRow s s1 := (OnlyChanges.retractOwn s c).mono
  have h2 : OnlyChanges resetRow s s2 := h1.trans (.foldl (α := Nat × Flight) _ (fun u p => (OnlyChanges.dropFlight u p.1).mono) _ s1)
  have h4 : OnlyChanges resetRow s s4 := (OnlyChanges.setAwl s3 _).seq ((OnlyChanges.updCtx s2 c _).seq h2)
  have h5 : OnlyChanges resetRow s s5 := (OnlyChanges.trace _ 2 _).seq ((OnlyChanges.ctxTo s4 c .disabled).seq h4)
  refine .ite (fun _ => h1) fun _ => ?_
  split
  · exact (OnlyChanges.resetRun s5 _).seq h5
  · exact h5
/-- What a function-level reset changes: the row of its two commands. -/
abbrev flrRow : List Part :=
  [.free, .t0, .dev, .ctxs, .flights, .pools, .fns, .vms, .ps, .tier, .gaths, .spine, .awl, .press, .fq, .net, .eg, .sec, .err, .fw, .pwr, .out]
theorem OnlyChanges.execVfConfigWrite {s t : State} {enable : Bool} {num : Nat} (e : execVfConfigWrite enable num s = .next t) :
    OnlyChanges flrRow s t := .act e (.onConfig (OnlyChanges.vfConfig s enable num).mono)
theorem OnlyChanges.execFunctionLevelReset {s t : State} {fn : Nat} (e : execFunctionLevelReset fn s = .next t) : OnlyChanges flrRow s t :=
  .act e (.onConfig (OnlyChanges.flr s fn).mono)
theorem OnlyChanges.execFnVecWrite {s t : State} {fn : Nat} {v : BitVec 64} (e : execFnVecWrite fn v s = .next t) : OnlyChanges [.fns] s t :=
  .act e (.ite (fun _ => .fnVec s fn _) fun _ => .refl _ s)
theorem OnlyChanges.execMsixHoldoffExpiry {s t : State} {vm : Nat} (e : execMsixHoldoffExpiry vm s = .next t) : OnlyChanges evParts s t := by
  refine .act e ?_
  dsimp only
  split
  · exact .ite (fun _ => .refl _ s) fun _ => (OnlyChanges.message _ _ _).trans' (OnlyChanges.setVms s _).mono
  · exact .refl _ s
theorem OnlyChanges.execMsixUnmask {s t : State} {fn entry : Nat} (e : execMsixUnmask fn entry s = .next t) : OnlyChanges evParts s t :=
  .act e (.ite (fun _ => (OnlyChanges.release _ fn entry).trans' (OnlyChanges.updFn s fn _).mono) fun _ => .refl _ s)
theorem OnlyChanges.execCntCmd {s t : State} {v : BitVec 64} (e : execCntCmd v s = .next t) : OnlyChanges [.fns, .err] s t :=
  .act e (.cntCmd s _)
theorem OnlyChanges.execSigClear {s t : State} {fn : Nat} {v : BitVec 64} (e : execSigClear fn v s = .next t) : OnlyChanges [.fns] s t :=
  .act e (.sigClear s fn v)
theorem OnlyChanges.execErrHeadWrite {s t : State} {v : BitVec 64} (e : execErrHeadWrite v s = .next t) : OnlyChanges [.err] s t :=
  .act e (.errHead s _)

/-- What a command of the family context leaves, its row of `Instr.touches` says. -/
theorem OnlyChanges.context {i : Instr} {s t : State} (hi : i.family = .context) (e : exec i s = .next t) : OnlyChanges i.touches s t := by
  cases i
  case contextEnable => exact .execContextEnable e
  case contextReset => exact .execContextReset e
  case contextResetFinished => exact .execContextResetFinished e
  case resume => exact .execResume e
  case slotGrant => exact .execSlotGrant e
  case contextSwapOut => exact .execContextSwapOut e
  case schedulerTick => exact .execSchedulerTick e
  case creditGrant => exact .execCreditGrant e
  case quireGrant => exact .execQuireGrant e
  case heartbeat => exact .execHeartbeat e
  case heartbeatTimeout => exact .execHeartbeatTimeout e
  case orphanHoldExpired => exact .execOrphanHoldExpired e
  case leaseExpired => exact .execLeaseExpired e
  case fnVecWrite => exact .execFnVecWrite e
  case vfConfigWrite => exact .execVfConfigWrite e
  case functionLevelReset => exact .execFunctionLevelReset e
  case msixHoldoffExpiry => exact .execMsixHoldoffExpiry e
  case msixUnmask => exact .execMsixUnmask e
  case cntCmd => exact .execCntCmd e
  case sigClear => exact .execSigClear e
  case errHeadWrite => exact .execErrHeadWrite e
  all_goals cases hi

/-- Settles O8: each command's own lemma on what its meaning changes, and T0 reads as before where it is not among that. -/
theorem frameControlAndContexts : Obligations.FrameControlAndContexts := by
  intro i s t hi e
  have h : OnlyChanges i.touches s t := by
    rcases List.mem_cons.mp hi with hc | hc
    · exact .control hc e
    · exact .context (List.mem_singleton.mp hc) e
  exact ⟨h, fun h0 => h.sameT0 h0⟩

end Sys2Proof.Machine
end

section
-- One proof after another: so many at once would not fit beside the model in memory.
set_option Elab.async false
/-! What the steps of a context reset keep of any context: its state, its slot, its completion ring's counters, and, once it has no
instruction of its own in flight, its registers. -/
namespace Sys2Proof.Machine
open Sys2Proof

/-! ## What is kept -/

/-- Context `c` has no instruction of its rings in flight. -/
def NoOwn (c : Nat) (s : State) : Prop := ∀ f y, s.flight? f = some y → y.ctx = c → y.mirror.isSome = true

/-- From `x` to `y` a context stays in its state, unless it was ACTIVE, and keeps its slot, its reset and the counters of its completion ring. -/
structure Ctx.Kept (x y : Ctx) : Prop where
  state : x.state ≠ .active → y.state = x.state
  resident : y.resident = x.resident
  ctail : y.ctail = x.ctail
  chead : y.chead = x.chead
  resetAt : y.resetAt = x.resetAt

/-- From `s` to `t` context `c` is kept, and while none of its instructions is in flight none comes and no register of it changes. -/
structure Stays (c : Nat) (s t : State) : Prop where
  ctx : (s.ctx c).Kept (t.ctx c)
  own : NoOwn c s → NoOwn c t
  reg : NoOwn c s → ∀ n, (t.ctx c).reg n = (s.ctx c).reg n

/-- The same, and no instruction leaves flight. -/
structure Keeps (c : Nat) (s t : State) : Prop extends Stays c s t where
  listed : ∀ f, (s.flight? f).isSome → (t.flight? f).isSome

theorem Ctx.Kept.refl (x : Ctx) : x.Kept x := ⟨fun _ => rfl, rfl, rfl, rfl, rfl⟩
theorem Ctx.Kept.trans {x y z : Ctx} (h : x.Kept y) (k : y.Kept z) : x.Kept z :=
  ⟨fun e => (k.state (h.state e ▸ e)).trans (h.state e), k.resident.trans h.resident, k.ctail.trans h.ctail, k.chead.trans h.chead,
    k.resetAt.trans h.resetAt⟩

theorem Stays.refl (c : Nat) (s : State) : Stays c s s := ⟨.refl _, id, fun _ _ => rfl⟩
theorem Stays.trans {c : Nat} {s t u : State} (h : Stays c s t) (k : Stays c t u) : Stays c s u :=
  ⟨h.ctx.trans k.ctx, fun o => k.own (h.own o), fun o n => (k.reg (h.own o) n).trans (h.reg o n)⟩
theorem Stays.foldl {α : Type} {c : Nat} (f : State → α → State) (h : ∀ s a, Stays c s (f s a)) (l : List α) (s : State) : Stays c s (l.foldl f s) := by
  induction l generalizing s with
  | nil => exact .refl c s
  | cons a l ih => exact (h s a).trans (ih _)

theorem Stays.ite {c : Nat} {s t u : State} {p : Prop} [Decidable p] (h : p → Stays c s t) (k : ¬p → Stays c s u) : Stays c s (if p then t else u) := by
  split_ifs with hp
  · exact h hp
  · exact k hp

theorem Keeps.refl (c : Nat) (s : State) : Keeps c s s := ⟨.refl c s, fun _ => id⟩
theorem Keeps.trans {c : Nat} {s t u : State} (h : Keeps c s t) (k : Keeps c t u) : Keeps c s u :=
  ⟨h.toStays.trans k.toStays, fun f l => k.listed f (h.listed f l)⟩
/-- A step that needs an instruction in flight, after one that leaves it there. -/
theorem Keeps.after {c : Nat} {s t u : State} {f : Nat} (k : (t.flight? f).isSome → Keeps c t u) (hl : (s.flight? f).isSome) (h : Keeps c s t) :
    Keeps c s u := h.trans (k (h.listed f hl))
theorem Keeps.ite {c : Nat} {s t u : State} {p : Prop} [Decidable p] (h : p → Keeps c s t) (k : ¬p → Keeps c s u) : Keeps c s (if p then t else u) := by
  split_ifs with hp
  · exact h hp
  · exact k hp
theorem Keeps.foldl {α : Type} {c : Nat} (f : State → α → State) (h : ∀ s a, Keeps c s (f s a)) (l : List α) (s : State) : Keeps c s (l.foldl f s) := by
  induction l generalizing s with
  | nil => exact .refl c s
  | cons a l ih => exact (h s a).trans (ih _)
/-- Over instructions in flight, each of which each step leaves in flight. -/
theorem Keeps.foldl_flights {c : Nat} (f : State → Nat × Flight → State) (h : ∀ s p, (s.flight? p.1).isSome → Keeps c s (f s p))
    (l : List (Nat × Flight)) (s : State) (hl : ∀ p ∈ l, (s.flight? p.1).isSome) : Keeps c s (l.foldl f s) := by
  induction l generalizing s with
  | nil => exact .refl c s
  | cons a l ih =>
    have ha := h s a (hl a List.mem_cons_self)
    exact ha.trans (ih _ fun p hp => ha.listed _ (hl p (List.mem_cons_of_mem _ hp)))

/-- An instruction's context, and whether it is a mirrored request. -/
def Flight.place (x : Flight) : Nat × Bool := (x.ctx, x.mirror.isSome)

/-- The flights stay, each in its place. -/
theorem Keeps.of_places {c : Nat} {s t : State} (hc : (s.ctx c).Kept (t.ctx c)) (hr : NoOwn c s → ∀ n, (t.ctx c).reg n = (s.ctx c).reg n)
    (hf : ∀ f, (t.flight? f).map Flight.place = (s.flight? f).map Flight.place) : Keeps c s t := by
  refine ⟨⟨hc, fun o f y hy hyc => ?_, hr⟩, fun f l => ?_⟩
  · obtain ⟨x, hx, hp⟩ := Option.map_eq_some_iff.mp ((hf f).symm.trans (congrArg _ hy))
    obtain ⟨h1, h2⟩ := Prod.mk.inj hp
    exact h2 ▸ o f x hx (h1.trans hyc)
  · have e := congrArg Option.isSome (hf f)
    simp only [Option.isSome_map] at e
    exact e.trans l
theorem Keeps.only {l : List Part} {c : Nat} {s t : State} (h : OnlyChanges l s t) (hc : .ctxs ∉ l := by decide) (hf : .flights ∉ l := by decide) :
    Keeps c s t :=
  have e := ctx_congr (h .ctxs hc) c
  .of_places (e ▸ .refl _) (fun _ _ => e ▸ rfl) fun f => congrArg _ (flight?_congr (h .flights hf) f)
theorem Keeps.setFlight {c : Nat} {s : State} {f : Nat} {y : Flight} (hl : (s.flight? f).isSome) (hy : y.place = (s.flight f).place) :
    Keeps c s (s.setFlight f y) := by
  obtain ⟨x, hx⟩ := Option.isSome_iff_exists.mp hl
  refine .of_places (.refl _) (fun _ _ => rfl) fun j => ?_
  by_cases hj : j = f
  · subst hj; rw [State.setFlight_flight?_same, hx, Option.map_some, Option.map_some, hy, State.flight_of_flight? hx]
  · rw [State.setFlight_flight?_ne s y hj]
theorem Keeps.updFlight {c : Nat} {s : State} {f : Nat} {g : Flight → Flight} (hl : (s.flight? f).isSome)
    (hg : ∀ x, (g x).place = x.place := by intro x; rfl) : Keeps c s (s.updFlight f g) := .setFlight hl (hg _)
theorem Keeps.setFlights {c : Nat} (s : State) (g : Flight → Flight) (hg : ∀ x, (g x).place = x.place) :
    Keeps c s { s with flights := s.flights.map fun p => (p.1, g p.2) } :=
  .of_places (.refl _) (fun _ _ => rfl) (flight?_map s _ g Flight.place rfl hg)
theorem Keeps.updCtx {c : Nat} (s : State) (d : Nat) (g : Ctx → Ctx) (hk : (s.ctx d).Kept (g (s.ctx d))) (hr : ∀ n, (g (s.ctx d)).reg n = (s.ctx d).reg n) :
    Keeps c s (s.updCtx d g) := by
  have e := s.updCtx_ctx_eq d c g
  split_ifs at e with hd
  · subst hd; exact .of_places (e ▸ hk) (fun _ n => e ▸ hr n) fun _ => rfl
  · exact .of_places (e ▸ .refl _) (fun _ _ => e ▸ rfl) fun _ => rfl

/-! ## Endings -/

theorem Ctx.ended_state (x : Ctx) (y : Flight) (st : BitVec 16) (res : BitVec 64) (h : x.state ≠ .active) : (x.ended y st res).state = x.state := by
  by_cases hs : stClass st = 3 ∧ x.state = .stopped
  · rw [x.ended_stopped y st res hs.1 hs.2]; exact x.latched_state y st res
  · rw [x.ended_quiet y st res fun h3 => ⟨h, fun k => hs ⟨h3, k⟩⟩, Ctx.latched_state]
theorem Ctx.ended_kept (x : Ctx) (y : Flight) (st : BitVec 16) (res : BitVec 64) : x.Kept (x.ended y st res) := by
  obtain ⟨_, _, _, _, _, _, e⟩ := x.ended_form y st res
  refine ⟨x.ended_state y st res, ?_, ?_, ?_, ?_⟩ <;> rw [e]
theorem Flight.stopped_of_not_fault (x : Flight) (k : CtxState) {st : BitVec 16} (h : stClass st ≠ 3) : x.stopped k st = x := if_neg h
theorem Flight.done_place (x : Flight) (k : CtxState) (st : BitVec 16) (res : BitVec 64) (cw : Option (BitVec 64)) :
    ((if x.mirror = none then (x.done st res cw).stopped k st else x.done st res cw)).place = x.place := by
  unfold Flight.stopped
  split_ifs <;> first | rfl | (cases k <;> rfl)

theorem Keeps.finish {c : Nat} {s : State} {f : Nat} (hl : (s.flight? f).isSome) (st : BitVec 16) (res : BitVec 64) (cw : Option (BitVec 64)) :
    Keeps c s (s.finish f st res cw) := by
  obtain ⟨x, hx⟩ := Option.isSome_iff_exists.mp hl
  have e := s.finish_ctx (State.flight_of_flight? hx) st res cw c
  refine .of_places ?_ (fun o n => ?_) fun g => ?_
  · rw [e]
    split_ifs with h
    · exact h.2 ▸ Ctx.ended_kept _ x st res
    · exact .refl _
  · rw [e, if_neg]
    rintro ⟨hm, rfl⟩
    simpa [hm] using o f x hx rfl
  · rw [s.finish_flight? (State.flight_of_flight? hx)]
    split_ifs with hg hm
    · subst hg; rw [hx, Option.map_some, Option.map_some, ← x.done_place (s.ctx x.ctx).state st res cw, if_pos hm]
    · subst hg; rw [hx, Option.map_some, Option.map_some, ← x.done_place (s.ctx x.ctx).state st res cw, if_neg hm]
    · rfl
theorem Keeps.fail {c : Nat} {s : State} {f : Nat} (hl : (s.flight? f).isSome) (st : BitVec 16) : Keeps c s (s.fail f st) := .finish hl st 0 none

/-- An instruction that holds work or credits is listed. -/
theorem listed_of_job {s : State} {f : Nat} (h : (s.flight f).job ≠ .none) : (s.flight? f).isSome := by
  cases e : s.flight? f with
  | none => exact absurd (by simp [State.flight, e]) h
  | some x => rfl
theorem listed_of_holds {s : State} {f i : Nat} (h : (s.flight f).holds.contains i = true) : (s.flight? f).isSome := by
  cases e : s.flight? f with
  | none => simp [State.flight, e] at h
  | some x => rfl

/-! ## Appends that a step boundary applies -/

theorem Keeps.useCredit {c : Nat} {s : State} {f : Nat} (hl : (s.flight? f).isSome) (i : Nat) : Keeps c s (s.useCredit f i).2 := by
  unfold State.useCredit
  extract_lets x want
  split_ifs
  · dsimp only
    exact .updFlight hl
  · dsimp only
    exact .after (fun l => .updFlight l) hl (.only (OnlyChanges.takeCredits s i 1))
  · dsimp only
    exact .updFlight hl
theorem Keeps.sendSeals {c : Nat} {s : State} {f : Nat} (hl : (s.flight? f).isSome) (ps : List Nat) : Keeps c s (s.sendSeals f ps).2 := by
  induction ps generalizing s with
  | nil => exact .refl c s
  | cons p r ih =>
    have hc := Keeps.useCredit (c := c) hl 316
    unfold State.sendSeals
    split
    · next e =>
      rw [e] at hc
      exact (hc.trans (.only (OnlyChanges.setPress _ _))).trans (ih (hc.listed f hl))
    · next e =>
      rw [e] at hc
      exact hc
theorem Keeps.sendTokens {c : Nat} {s : State} {f : Nat} (hl : (s.flight? f).isSome) (ts : List Token) : Keeps c s (s.sendTokens f ts).2 := by
  induction ts generalizing s with
  | nil => exact .refl c s
  | cons t r ih =>
    have hc := Keeps.useCredit (c := c) hl (317 + t.seq % 16)
    unfold State.sendTokens
    dsimp only
    split
    · next e =>
      rw [e] at hc
      exact (hc.trans (.only (OnlyChanges.setAwl _ _))).trans (ih (hc.listed f hl))
    · next e =>
      rw [e] at hc
      exact hc
theorem Keeps.sendRest {c : Nat} {s : State} {f : Nat} (hl : (s.flight? f).isSome) (pages : List Nat) (tokens : List Token) (st : BitVec 16)
    (res : BitVec 64) : Keeps c s (s.sendRest f pages tokens st res) := by
  have ht := Keeps.sendTokens (c := c) hl tokens
  have h := ht.trans (.sendSeals (ht.listed f hl) pages)
  exact .ite (fun _ => h.trans (.finish (h.listed f hl) st res none)) fun _ => h.trans (.updFlight (h.listed f hl))
theorem Keeps.readable {c : Nat} {s : State} {f : Nat} (hl : (s.flight? f).isSome) {a : List Nat} {k : State → State} (h : Keeps c s (k s)) :
    Keeps c s (s.readable f a k) := by
  unfold State.readable
  split
  · exact h
  · exact .after (fun l => .fail l stPoisoned) hl (.only (OnlyChanges.badGranule s 8 _ _ _ stPoisoned _))
theorem Keeps.growWait {c : Nat} {s : State} {f : Nat} (hl : (s.flight? f).isSome) (layers : Nat) (before held : List Nat) (k : Short) :
    Keeps c s (s.growWait f layers before held k) := by
  exact .ite (fun _ => .ite (fun _ => .refl c s) fun _ => .updFlight hl) fun _ => .after (fun l => .fail l stNoSpace) hl (.updFlight hl)
theorem Keeps.applySeq {c : Nat} {s : State} {f : Nat} (hl : (s.flight? f).isSome) (x : Flight) : Keeps c s (s.applySeq f x) := by
  unfold State.applySeq
  extract_lets d q gi k y addr n taddr pos cls need had
  refine .ite (fun _ => .fail hl stRange) fun _ => .readable hl (.ite (fun _ => ?_) fun _ => ?_)
  · exact .after (fun l => .fail l stPoisoned) hl (.only (OnlyChanges.badGranule s 8 addr _ _ stPoisoned _))
  · have ha := Keeps.only (c := c) (OnlyChanges.allocBlocks s y q cls (need - had.length))
    have grow {t : State} (h : Keeps c s t) (l : List Nat) (k : Short) : Keeps c s (t.growWait f y.layers had (had ++ l) k) :=
      h.trans (.growWait (h.listed f hl) _ _ _ _)
    split
    · next e =>
      rw [e] at ha
      exact grow (.ite (fun _ => .refl c s) fun _ => ha) _ _
    · next e =>
      rw [e] at ha
      split
      · exact grow (.ite (fun _ => .refl c s) fun _ => ha) _ _
      · next hs =>
        exact .after (fun l => .sendRest l _ _ _ _) hl (.after (fun l => .updFlight l) hl
          ((ha.trans (.only (OnlyChanges.appendSeq hs))).trans (.only (OnlyChanges.retireTaken _ _))))
theorem Keeps.applyBoundaries {c : Nat} (s : State) (gi : Nat) : Keeps c s (s.applyBoundaries gi) := by
  refine .foldl (α := Nat × Flight) _ (fun u p => .ite (fun h => .applySeq (listed_of_job fun e => ?_) _) fun _ => .refl c u) s.flights s
  simp [e] at h

/-! ## Gatherings, queue pairs, instructions -/

/-- What a step boundary does to a waiting APPEND. -/
def Flight.passed (gi : Nat) (x : Flight) : Flight :=
  match x.job with | .boundary gs => { x with job := .boundary (gs.filter (· != gi)) } | _ => x
theorem Keeps.passBoundary {c : Nat} (s : State) (gi : Nat) : Keeps c s (s.passBoundary gi) := by
  have e : (s.passBoundary gi).flights = s.flights.map fun p => (p.1, p.2.passed gi) := by
    refine List.map_congr_left fun p _ => ?_
    obtain ⟨f, x⟩ := p
    unfold Flight.passed
    dsimp only
    cases x.job <;> rfl
  refine .of_places (.refl _) (fun _ _ => rfl) (flight?_map s _ (Flight.passed gi) Flight.place e fun x => ?_)
  unfold Flight.passed
  split <;> rfl

theorem listed_of_mem {s : State} {p : Nat × Flight} (h : p ∈ s.flights) : (s.flight? p.1).isSome := by
  have : (s.flights.find? fun q => q.1 == p.1).isSome := List.find?_isSome.mpr ⟨p, h, by simp⟩
  simpa [State.flight?] using this

theorem Keeps.dissolve {c : Nat} (s : State) (gi : Nat) : Keeps c s (s.dissolve gi) := by
  unfold State.dissolve
  extract_lets s1 s2 g s3 s4 retired _ s5 s6
  have h1 : Keeps c s s1 := (Keeps.passBoundary s gi).trans (.applyBoundaries _ gi)
  have h2 : Keeps c s1 s2 := (Keeps.only (OnlyChanges.endHold s1 gi)).trans (.only (OnlyChanges.endPrefetchHolds _ gi true))
  have h4 : Keeps c s3 s4 :=
    .ite (fun _ => (Keeps.only (OnlyChanges.passCopies s3 gi)).trans (.only (OnlyChanges.sweepWindows _))) fun _ => .refl c s3
  have h6 : Keeps c s s6 := (((h1.trans h2).trans (.only (OnlyChanges.updGath s2 gi _))).trans h4).trans
    ((Keeps.only (OnlyChanges.setPs s4 _)).trans (.only (OnlyChanges.updGath s5 gi _)))
  exact h6.trans (.foldl_flights _ (fun u p hp => .ite (fun _ => .fail hp stNotFound) fun _ => .refl c u) s6.flights s6 fun p hp => listed_of_mem hp)

/-- A mirrored request of a queue pair whose work has ended: its response is to be discarded. -/
def Flight.deadened (q : Nat) (x : Flight) : Flight :=
  match x.mirror with | some (r, n) => if r = q then { x with mirror := some (q + 65536, n) } else x | none => x
theorem Flight.deadened_place (q : Nat) (x : Flight) : (x.deadened q).place = x.place := by
  unfold Flight.deadened Flight.place
  split
  · split_ifs <;> simp [*]
  · rfl
theorem Keeps.flushQp {c : Nat} (s : State) (q : Nat) (st : BitVec 16) : Keeps c s (s.flushQp q st) := by
  unfold State.flushQp
  extract_lets x fl keys lost requests s1 s2 _ s3 _ s4 s5 s6
  have h3 : Keeps c s s3 := .only (l := [.eg, .net]) ((OnlyChanges.setNet s2 _).seq ((OnlyChanges.updQp s1 q _).seq (OnlyChanges.unqueue s q).mono))
  have e4 : s4.flights = s3.flights.map fun p => (p.1, p.2.deadened q) := by
    refine List.map_congr_left fun p _ => ?_
    obtain ⟨f, x⟩ := p
    unfold Flight.deadened
    dsimp only
    cases x.mirror with
    | none => rfl
    | some m => dsimp only; split_ifs <;> rfl
  have h4 : Keeps c s3 s4 := .of_places (.refl _) (fun _ _ => rfl) (flight?_map s3 s4 (Flight.deadened q) Flight.place e4 (Flight.deadened_place q))
  have h6 : Keeps c s4 s6 := (Keeps.only (OnlyChanges.countFn s4 _ 8 requests)).trans (.only (OnlyChanges.countDev s5 6 lost))
  refine ((h3.trans h4).trans h6).trans (.foldl _ (fun u f => .ite (fun h => .fail ?_ st) fun _ => .refl c u) fl s6)
  exact (Bool.and_eq_true_iff.mp h).1
theorem Keeps.qpReset {c : Nat} (s : State) (q : Nat) : Keeps c s (s.qpReset q) :=
  .ite (fun _ => .refl c s) fun _ => ((Keeps.only (OnlyChanges.updQp s q _)).trans (.only (OnlyChanges.trace _ 1 _))).trans (.flushQp _ q stAborted)

theorem Keeps.ungrab {c : Nat} (s : State) (f i : Nat) : Keeps c s (s.ungrab f i) :=
  .ite (fun h => (Keeps.only (OnlyChanges.freeCredits s i 1)).trans
    (.setFlight (s := s.freeCredits i 1) (listed_of_holds h) rfl)) fun _ => .refl c s
theorem Keeps.dropOps {c : Nat} (s : State) (f : Nat) : Keeps c s (s.dropOps f) :=
  (Keeps.only (OnlyChanges.setSpine s _)).trans (.foldl (α := Nat) _ (fun u _ => .ungrab u _ 9) _ _)
theorem Keeps.publishStop {c : Nat} {s : State} {f : Nat} (hl : (s.flight? f).isSome) (ri stage : Nat) (st : BitVec 16) :
    Keeps c s (s.publishStop f ri stage st) := by
  have h1 := Keeps.dropOps (c := c) s (f + 1)
  have h2 := h1.trans (.only (OnlyChanges.publishRestore_slots s (f + 1) ri))
  exact .ite (fun _ => (h1.trans (.fail (h1.listed f hl) st)).trans (.only (OnlyChanges.recover _ ri 2))) fun _ =>
    (h2.trans (.fail (h2.listed f hl) st)).trans (.only (OnlyChanges.recover _ ri 1))
theorem Keeps.stopFlight {c : Nat} {s : State} {f : Nat} (hl : (s.flight? f).isSome) (st : BitVec 16) : Keeps c s (s.stopFlight f st) := by
  unfold State.stopFlight
  split
  · exact .publishStop hl _ _ st
  · next ri _ _ =>
    have h := (Keeps.dropOps (c := c) s (f + 1)).trans (.only (OnlyChanges.updRegion _ ri fun r => { r with retracting := false }))
    exact h.trans (.fail (h.listed f hl) st)
  · exact .fail hl st

/-! ## The steps of a reset -/

theorem Stays.dropFlight {c : Nat} (s : State) (f : Nat) : Stays c s (s.dropFlight f) := by
  refine ⟨.refl _, fun o j y hy => ?_, fun _ _ => rfl⟩
  by_cases h : j = f
  · subst h; simp at hy
  · rw [State.dropFlight_flight?_ne s h] at hy; exact o j y hy

/-- A number that no instruction has: what the stop of it lists is at once taken out of flight again. -/
theorem Stays.resetFlight_unlisted {c : Nat} {s : State} {f : Nat} (h : s.flight? f = none) : Stays c s (s.resetFlight f) := by
  have hx : s.flight f = {} := by simp [State.flight, h]
  have ef := s.finish_flight? hx stAborted 0 none
  have ec := s.finish_ctx hx stAborted 0 none c
  have e : s.resetFlight f = (s.finish f stAborted 0 none).dropFlight f := by
    have hs : s.stopFlight f stAborted = s.finish f stAborted 0 none := by rw [State.stopFlight, hx]; rfl
    have hu : (if (s.flight f).phase = .ended then s else s.stopFlight f stAborted) = s.finish f stAborted 0 none := by
      rw [hx, if_neg (show ({} : Flight).phase ≠ .ended by decide), hs]
    have hf : (s.finish f stAborted 0 none).flight f = ({} : Flight).done stAborted 0 none :=
      State.flight_of_flight? ((ef f).trans (by rw [if_pos rfl, if_pos rfl, Flight.stopped_of_not_fault _ _ (by decide)]))
    simp only [State.resetFlight, hu, hf]
    rfl
  rw [e]
  refine ⟨?_, fun o j y hy => ?_, fun _ n => ?_⟩
  · rw [State.dropFlight_ctx, ec]
    split_ifs with h0
    · exact h0.2 ▸ Ctx.ended_kept _ _ _ _
    · exact .refl _
  · by_cases hj : j = f
    · subst hj; simp at hy
    · rw [State.dropFlight_flight?_ne _ hj, ef, if_neg hj] at hy; exact o j y hy
  · rw [State.dropFlight_ctx, ec]
    split_ifs with h0
    · rw [Ctx.ended_reg, if_neg fun h => absurd h.1 (by decide), h0.2]
    · rfl
theorem Stays.resetFlight {c : Nat} (s : State) (f : Nat) : Stays c s (s.resetFlight f) := by
  cases h : s.flight? f with
  | none => exact .resetFlight_unlisted h
  | some x =>
    have hk : Keeps c s (if (s.flight f).phase = .ended then s else s.stopFlight f stAborted) :=
      .ite (fun _ => .refl c s) fun _ => .stopFlight (by simp [h]) stAborted
    exact .ite (fun _ => hk.toStays.trans (.dropFlight _ f)) fun _ => hk.toStays
theorem Keeps.dropFetched {c : Nat} (s : State) (d : Nat) : Keeps c s (s.dropFetched d) := by
  obtain ⟨rs, e⟩ := foldl_updRing_eq (fun r => { r.cancel with fetched := [] }) (s.ctx d).rings (s.ctx d)
  refine (Keeps.updCtx s d _ ?_ fun n => ?_).trans (.only (OnlyChanges.countFn _ _ 20 _))
  · rw [e]; exact ⟨fun _ => rfl, rfl, rfl, rfl, rfl⟩
  · rw [e]; rfl
theorem Stays.resetSteps {c : Nat} (s : State) (d : Nat) : Stays c s (s.resetSteps d) := by
  unfold State.resetSteps
  extract_lets s2 s3 s4 s5 s6 s7
  have h3 : Stays c s2 s3 := .foldl (α := Nat × Flight) _ (fun u p => .resetFlight u p.1) _ s2
  have h4 : Keeps c s3 s4 := .foldl (α := Nat × Qp) _ (fun u q => .qpReset u q.1) _ s3
  have h6 : Keeps c s5 s6 := .foldl (α := Nat × Gath) _ (fun u g => .dissolve u g.1) _ s5
  have h7 : Keeps c s6 s7 := .only (l := [.awl, .pools, .tier, .ps]) (.foldl (α := Nat × Seq) _
    (fun u q => (OnlyChanges.releaseWhole _ q.1).trans' (OnlyChanges.dropTokens u q.1).mono |>.mono) _ s6)
  have h8 : Keeps c s3 (s7.retractOwn d) := (((h4.trans (.only (OnlyChanges.revokeRegs s4 d))).trans h6).trans h7).trans (.only (OnlyChanges.retractOwn s7 d))
  exact ((Keeps.dropFetched s d).toStays.trans h3).trans h8.toStays

end Sys2Proof.Machine
end

section
-- One proof after another: so many at once would not fit beside the model in memory.
set_option Elab.async false
/-! O38: the enable, the resume and the reset of a context. -/
namespace Sys2Proof.Machine
open Sys2Proof

/-! ## Enable -/

theorem newKey_ctx (s : State) (c d : Nat) : (s.newKey c).ctx d = s.ctx d := ctx_congr (OnlyChanges.newKey s c .ctxs (by decide)) d
theorem newKey_key (s : State) (c : Nat) :
    ((s.newKey c).sec.ctxs.get c {}).keyValid = true ∧
      ((s.newKey c).sec.ctxs.get c {}).keygen = ((s.sec.ctxs.get c {}).keygen + 1) % 65536 := by
  unfold State.newKey
  generalize hd : s.drbg 4 = p
  obtain ⟨v, u⟩ := p
  have hu : u.sec.ctxs = s.sec.ctxs := congrArg (fun p : Nat × State => p.2.sec.ctxs) hd.symm
  dsimp only
  rw [Tbl.get_set_same, hu]
  exact ⟨rfl, rfl⟩

/-- The state in which an enabled context has its policy slot. -/
def State.withPolicy (s : State) (c : Nat) : State :=
  match (s.ctx c).policy, s.freePolicy with
  | true, some i => { s with awl := { s.awl with policy := s.awl.policy.put i (c + 1) } }
  | _, _ => s
theorem OnlyChanges.withPolicy (s : State) (c : Nat) : OnlyChanges [.awl] s (s.withPolicy c) := by
  unfold State.withPolicy
  split
  · exact .setAwl s _
  · exact .refl _ s
theorem enableCtx_ok {s : State} {c : Nat} (hc : c < 1024) (hd : (s.ctx c).state = .disabled) (h : s.enableOk c = true) :
    s.enableCtx c = ((if (s.ctx c).conf then (s.withPolicy c).newKey c else s.withPolicy c).ctxTo c .idle) := by
  unfold State.enableCtx
  rw [if_neg (by simp [hd, hc]), if_neg (by simp [h])]
  rfl
theorem enableCtx_bad {s : State} {c : Nat} (hc : c < 1024) (hd : (s.ctx c).state = .disabled) (h : s.enableOk c = false) :
    s.enableCtx c = s.updCtx c fun x => { x with cfgErr := true } := by
  unfold State.enableCtx
  rw [if_neg (by simp [hd, hc]), if_pos (by simp [h])]

theorem exec_contextEnable {s : State} (h : s.stopped = false) (c : Nat) : exec (.contextEnable c) s = .next ((s.enableCtx c).framed s) := by
  rw [show exec (.contextEnable c) s = execContextEnable c s from rfl, execContextEnable, act_running h]

theorem enable_good {s : State} {c : Nat} (hc : c < 1024) (hd : (s.ctx c).state = .disabled) (h : s.enableOk c = true) :
    ((s.enableCtx c).ctx c).state = .idle ∧ (∀ d, d ≠ c → (s.enableCtx c).ctx d = s.ctx d) ∧
      ((s.ctx c).conf = true → ((s.enableCtx c).sec.ctxs.get c {}).keyValid = true ∧
        ((s.enableCtx c).sec.ctxs.get c {}).keygen = ((s.sec.ctxs.get c {}).keygen + 1) % 65536) := by
  rw [enableCtx_ok hc hd h]
  generalize hu : (if (s.ctx c).conf then (s.withPolicy c).newKey c else s.withPolicy c) = u
  have hp := OnlyChanges.withPolicy s c
  have hx (d : Nat) : u.ctx d = s.ctx d := by
    rw [← hu]
    split
    · rw [newKey_ctx, ctx_congr (hp .ctxs (by decide))]
    · rw [ctx_congr (hp .ctxs (by decide))]
  refine ⟨by rw [State.ctxTo_ctx, if_pos rfl], fun d hdc => by rw [State.ctxTo_ctx, if_neg hdc, hx], fun hconf => ?_⟩
  have hs : (u.ctxTo c .idle).sec = u.sec := OnlyChanges.ctxTo u c .idle .sec (by decide)
  rw [hs, ← hu, if_pos hconf, ← (show (s.withPolicy c).sec = s.sec from hp .sec (by decide))]
  exact newKey_key _ c

/-! ## Resume -/

theorem exec_resume {s : State} (h : s.stopped = false) {bar fn c : Nat} (hb : bar = 0 ∨ (s.ctx c).function = fn) :
    exec (.resume bar fn c) s = .next ((s.resume c).framed s) := by
  rw [show exec (.resume bar fn c) s = execResume bar fn c s from rfl, execResume, act_running h]
  simp only [if_pos hb]

theorem State.noteWant_state (s : State) (c d : Nat) : ((s.noteWant c).ctx d).state = (s.ctx d).state ∧ ((s.noteWant c).ctx d).faultMore = (s.ctx d).faultMore := by
  by_cases h : d = c
  · subst h
    obtain ⟨w, v, e⟩ := s.noteWant_ctx d
    rw [e]
    exact ⟨rfl, rfl⟩
  · rw [s.noteWant_ctx_ne h]
    exact ⟨rfl, rfl⟩

theorem resume_stopped {s : State} {c : Nat} (h : (s.ctx c).state = .stopped) :
    ((s.resume c).ctx c).faultMore = 0 ∧ (∀ d, d ≠ c → (s.resume c).ctx d = s.ctx d) ∧ ((s.resume c).ctx c).state =
      (if (s.ctx c).rings.any (fun r => r.2.enable && r.2.fetch != r.2.tail) || s.inFlight c then .active else .idle) := by
  unfold State.resume
  rw [if_pos h]
  extract_lets u work
  have hu (d : Nat) : u.ctx d = if d = c then { s.ctx c with faultMore := 0 } else s.ctx d := s.updCtx_ctx_eq c d _
  have hw : work = ((s.ctx c).rings.any (fun r => r.2.enable && r.2.fetch != r.2.tail) || s.inFlight c) := rfl
  have ht := (u.ctxTo c (if work then .active else .idle)).noteWant_state c c
  refine ⟨ht.2.trans ?_, fun d hd => ?_, ht.1.trans ?_⟩
  · rw [State.ctxTo_ctx, if_pos rfl, hu, if_pos rfl]
  · rw [State.noteWant_ctx_ne _ hd, State.ctxTo_ctx, if_neg hd, hu, if_neg hd]
  · rw [State.ctxTo_ctx, if_pos rfl, hw]

/-! ## Reset -/

@[simp] theorem Ctx.wiped_state (x : Ctx) : x.wiped.state = x.state := by
  obtain ⟨rs, e⟩ := foldl_updRing_eq (fun r => { r with latch := 0 }) x.rings x
  unfold Ctx.wiped; rw [e]
theorem Ctx.wiped_form (x : Ctx) : ∃ rs, x.wiped = { x with rings := rs, x := [], vtime := 0, wanting := false, landing := [], orphanAt := none } := by
  obtain ⟨rs, e⟩ := foldl_updRing_eq (fun r => { r with latch := 0 }) x.rings x
  exact ⟨rs, by unfold Ctx.wiped; rw [e]⟩
theorem Ctx.wiped_reg (x : Ctx) (n : Nat) : x.wiped.reg n = 0 := rfl

theorem resetRun_ctx (s : State) (c : Nat) : (s.resetRun c).ctx c =
    (((s.updCtx c fun x => { x with resetAt := some s.now }).resetSteps c).ctx c).wiped := by
  rw [State.resetRun_eq, State.updCtx_ctx]
  exact congrArg Ctx.wiped (ctx_congr (OnlyChanges.eraseKey _ c .ctxs (by decide)) c)
theorem State.resetRun_key (s : State) (c : Nat) :
    ((s.resetRun c).sec.ctxs.get c {}).keyValid = false ∧ ((s.resetRun c).sec.ctxs.get c {}).keygen = (s.sec.ctxs.get c {}).keygen := by
  rw [State.resetRun_eq, State.updCtx_sec]
  have h : ((s.updCtx c fun x => { x with resetAt := some s.now }).resetSteps c).sec = s.sec := OnlyChanges.resetSteps _ c .sec (by decide)
  unfold State.eraseKey
  rw [h, Tbl.get_set_same]
  exact ⟨rfl, rfl⟩
/-- A reset that runs on a context in RESETTING leaves it there, marked, and cleared. -/
theorem resetRun_marks {s : State} {c : Nat} (h : (s.ctx c).state = .resetting) :
    ((s.resetRun c).ctx c).state = .resetting ∧ ((s.resetRun c).ctx c).resetAt = some s.now ∧
      (∀ n, ((s.resetRun c).ctx c).reg n = 0) ∧ ((s.resetRun c).ctx c).vtime = 0 := by
  have hk := (Stays.resetSteps (c := c) (s.updCtx c fun x => { x with resetAt := some s.now }) c).ctx
  rw [State.updCtx_ctx] at hk
  rw [resetRun_ctx]
  generalize ((s.updCtx c fun x => { x with resetAt := some s.now }).resetSteps c).ctx c = x at hk ⊢
  obtain ⟨rs, e⟩ := x.wiped_form
  refine ⟨?_, ?_, x.wiped_reg, ?_⟩
  · rw [x.wiped_state, hk.state (by simp [h]), h]
  · rw [e, hk.resetAt]
  · rw [e]

/-- Moving a context whose reset has not begun to another state starts no reset. -/
theorem resetsRunning_ctxTo {s : State} {c : Nat} {st : CtxState} (hr : s.resetsRunning = 0) (hn : (s.ctx c).resetAt = none) (q : Nat) (d : List Nat) :
    ((s.ctxTo c st).trace q d).resetsRunning = 0 := by
  have none_of (t : Tbl Ctx) (h : ∀ p ∈ t, p.2.resetAt = none) : (t.filter fun p => p.2.resetAt.isSome).length = 0 := by
    rw [List.length_eq_zero_iff, List.filter_eq_nil_iff]
    exact fun p hp => by simp [h p hp]
  have hs : ∀ p ∈ s.ctxs, p.2.resetAt = none := fun p hp => by
    have := List.filter_eq_nil_iff.mp (List.length_eq_zero_iff.mp hr) p hp
    simpa using this
  unfold State.resetsRunning
  rw [show ((s.ctxTo c st).trace q d).ctxs = (s.ctxTo c st).ctxs from OnlyChanges.trace _ q d .ctxs (by decide)]
  unfold State.ctxTo
  dsimp only
  split
  · exact none_of _ hs
  · rw [show ((s.updCtx c fun x => { x with state := st }).trace 0 _).ctxs = (s.updCtx c fun x => { x with state := st }).ctxs from
      OnlyChanges.trace _ 0 _ .ctxs (by decide), State.updCtx_ctxs]
    refine none_of _ fun p hp => ?_
    unfold Tbl.set at hp
    split_ifs at hp
    · exact hs p (List.mem_of_mem_filter hp)
    · rcases Tbl.mem_put _ _ _ _ hp with rfl | hp
      · exact hn
      · exact hs p hp

theorem exec_contextReset {s : State} (h : s.stopped = false) (c : Nat) : exec (.contextReset c) s = .next ((s.startReset c).framed s) := by
  rw [show exec (.contextReset c) s = execContextReset c s from rfl, execContextReset, act_running h]

theorem startReset_marks {s : State} {c : Nat} (hd : (s.ctx c).state ≠ .disabled) (hr : (s.ctx c).state ≠ .resetting) (hn : (s.ctx c).resetAt = none) :
    ((s.startReset c).ctx c).state = .resetting ∧ (s.resetsRunning = 0 → ((s.startReset c).ctx c).resetAt = some s.now) ∧
      (((s.startReset c).ctx c).resetAt.isSome = true → (∀ n, ((s.startReset c).ctx c).reg n = 0) ∧ ((s.startReset c).ctx c).vtime = 0 ∧
        ((s.startReset c).sec.ctxs.get c {}).keyValid = false ∧ ((s.startReset c).sec.ctxs.get c {}).keygen = (s.sec.ctxs.get c {}).keygen) := by
  unfold State.startReset
  rw [if_neg (by simp [hd, hr])]
  extract_lets u
  have hu : u.ctx c = { s.ctx c with state := .resetting } := by
    rw [show u.ctx c = (s.ctxTo c .resetting).ctx c from State.trace_ctx _ _ _ c, State.ctxTo_ctx, if_pos rfl]
  have hnow : u.now = s.now := ((OnlyChanges.trace _ 2 _).seq (OnlyChanges.ctxTo s c .resetting)) .now (by decide)
  have hsec : u.sec = s.sec := ((OnlyChanges.trace _ 2 _).seq (OnlyChanges.ctxTo s c .resetting)) .sec (by decide)
  have hlt : s.resetsRunning = 0 → u.resetsRunning = 0 := fun h0 => resetsRunning_ctxTo h0 hn 2 [1, c]
  have hkey := u.resetRun_key c
  rw [hsec] at hkey
  clear_value u
  split_ifs with h16
  · obtain ⟨h1, h2, h3, h4⟩ := resetRun_marks (s := u) (c := c) (by rw [hu])
    exact ⟨h1, fun _ => hnow ▸ h2, fun _ => ⟨h3, h4, hkey⟩⟩
  · refine ⟨by rw [hu], fun h0 => ?_, fun h0 => ?_⟩
    · exact absurd (hlt h0) (by omega)
    · rw [hu] at h0; simp [hn] at h0

/-! ## The end of a reset -/

/-- What a finished reset leaves of a context. -/
structure Gone (c : Nat) (s : State) : Prop where
  state : (s.ctx c).state = .disabled
  resident : (s.ctx c).resident = false
  ctail : (s.ctx c).ctail = 0
  chead : (s.ctx c).chead = 0
  reg : ∀ n, (s.ctx c).reg n = 0
  own : NoOwn c s

theorem Gone.stays {c : Nat} {s t : State} (h : Gone c s) (k : Stays c s t) : Gone c t :=
  ⟨(k.ctx.state (by simp [h.state])).trans h.state, k.ctx.resident.trans h.resident, k.ctx.ctail.trans h.ctail, k.ctx.chead.trans h.chead,
    fun n => (k.reg h.own n).trans (h.reg n), k.own h.own⟩
/-- The reset of any context that runs next, which marks and clears that context, leaves it so. -/
theorem Gone.resetRun {c : Nat} {s : State} (h : Gone c s) (d : Nat) : Gone c (s.resetRun d) := by
  have h1 : Gone c (s.updCtx d fun x => { x with resetAt := some s.now }) := by
    have e := s.updCtx_ctx_eq d c fun x => { x with resetAt := some s.now }
    split_ifs at e with hd
    · subst hd
      exact ⟨by rw [e]; exact h.state, by rw [e]; exact h.resident, by rw [e]; exact h.ctail, by rw [e]; exact h.chead,
        fun n => by rw [e]; exact h.reg n, h.own⟩
    · exact ⟨e ▸ h.state, e ▸ h.resident, e ▸ h.ctail, e ▸ h.chead, e ▸ h.reg, h.own⟩
  have h2 := (h1.stays (.resetSteps _ d)).stays (Keeps.only (OnlyChanges.eraseKey _ d)).toStays
  rw [State.resetRun_eq]
  generalize ((s.updCtx d fun x => { x with resetAt := some s.now }).resetSteps d).eraseKey d = u at h2 ⊢
  have e := u.updCtx_ctx_eq d c Ctx.wiped
  split_ifs at e with hd
  · subst hd
    obtain ⟨rs, ew⟩ := (u.ctx c).wiped_form
    rw [ew] at e
    exact ⟨by rw [e]; exact h2.state, by rw [e]; exact h2.resident, by rw [e]; exact h2.ctail, by rw [e]; exact h2.chead,
      fun n => by rw [e]; rfl, h2.own⟩
  · exact ⟨e ▸ h2.state, e ▸ h2.resident, e ▸ h2.ctail, e ▸ h2.chead, e ▸ h2.reg, h2.own⟩

theorem foldl_dropFlight_flight? (l : List (Nat × Flight)) (s : State) (f : Nat) :
    (l.foldl (fun (s : State) p => s.dropFlight p.1) s).flight? f = if ∃ p ∈ l, p.1 = f then none else s.flight? f := by
  induction l generalizing s with
  | nil => simp
  | cons p l ih =>
    rw [List.foldl_cons, ih]
    by_cases hp : p.1 = f
    · subst hp; simp
    · rw [State.dropFlight_flight?_ne s (Ne.symm hp)]
      simp only [List.mem_cons, exists_eq_or_imp, hp, false_or]
/-- With every instruction of the rings of a context out of flight, none of it is left. -/
theorem noOwn_drop (s : State) (c : Nat) :
    NoOwn c ((s.flights.filter fun p => p.2.ctx == c && p.2.mirror.isNone).foldl (fun (s : State) p => s.dropFlight p.1) s) := by
  intro f y hy hc
  rw [foldl_dropFlight_flight?] at hy
  split_ifs at hy with hl
  by_contra hm
  obtain ⟨p, hp, rfl⟩ := Option.map_eq_some_iff.mp hy
  have hf : p.1 = f := by simpa using List.find?_some hp
  exact hl ⟨p, List.mem_filter.mpr ⟨List.mem_of_find?_eq_some hp, by simpa [hc] using hm⟩, hf⟩

theorem Ctx.cleared_form (x : Ctx) : ∃ rs, x.cleared =
    { x with
      rings := rs, ctail := 0, chead := 0, cused := 0, cphase := true, resident := false, slot := 0, slotSince := 0, faultStatus := 0, faultTag := 0
      faultRing := 0, faultMore := 0, x := [], landing := [], vtime := 0, wanting := false, orphanAt := none, resetAt := none } := by
  obtain ⟨rs, e⟩ := foldl_updRing_eq
    (fun r => { r.cancel with fetch := 0, tail := 0, left := 0, latch := 0, buf := [], fetched := [] }) x.rings x
  exact ⟨rs, by unfold Ctx.cleared; rw [e]⟩

/-- The state in which a finished reset has cleared and disabled a context. -/
def State.resetEnd (s : State) (c : Nat) : State :=
  let u := ((s.flights.filter fun p => p.2.ctx == c && p.2.mirror.isNone).foldl (fun (s : State) p => s.dropFlight p.1) s).updCtx c Ctx.cleared
  (({ u with awl := { u.awl with policy := u.awl.policy.filter fun p => p.2 != c + 1 } }).ctxTo c .disabled).trace 2 [1, c]
theorem gone_resetEnd (s : State) (c : Nat) : Gone c (s.resetEnd c) := by
  unfold State.resetEnd
  extract_lets u
  generalize hw : ({ u with awl := { u.awl with policy := u.awl.policy.filter fun p => p.2 != c + 1 } } : State) = w
  have hwc : w.ctx c = u.ctx c := hw ▸ rfl
  have hwf (f : Nat) : w.flight? f = u.flight? f := hw ▸ rfl
  have hu : u.ctx c = Ctx.cleared _ := State.updCtx_ctx _ c _
  obtain ⟨rs, ec⟩ := Ctx.cleared_form (((s.flights.filter fun p => p.2.ctx == c && p.2.mirror.isNone).foldl
    (fun (s : State) p => s.dropFlight p.1) s).ctx c)
  have e : ((w.ctxTo c .disabled).trace 2 [1, c]).ctx c = { u.ctx c with state := .disabled } := by
    rw [State.trace_ctx, State.ctxTo_ctx, if_pos rfl, hwc]
  rw [hu, ec] at e
  refine ⟨by rw [e], by rw [e], by rw [e], by rw [e], fun n => by rw [e]; rfl, fun f y hy => ?_⟩
  rw [State.trace_flight?, State.ctxTo_flight?, hwf] at hy
  exact noOwn_drop s c f y hy

/-- The reset that waits runs next, where one waits. -/
def State.resetNext (s : State) : State :=
  match (s.ctxs.filter fun p => p.2.state == .resetting && p.2.resetAt.isNone).map (·.1) with
  | c :: _ => s.resetRun c
  | [] => s
theorem Gone.resetNext {c : Nat} {s : State} (h : Gone c s) : Gone c s.resetNext := by
  unfold State.resetNext
  split
  · exact h.resetRun _
  · exact h

theorem exec_contextResetFinished {s : State} {c : Nat} (h : s.stopped = false) (hr : (s.ctx c).state = .resetting)
    (ha : (s.ctx c).resetAt.isSome = true) (hd : (s.retractOwn c).resetDone c = true) :
    exec (.contextResetFinished c) s = .next ((((s.retractOwn c).resetEnd c).resetNext).framed s) := by
  have hn : ¬((s.ctx c).state ≠ .resetting ∨ (s.ctx c).resetAt = none) := by
    rintro (k | k)
    · exact k hr
    · simp [k] at ha
  rw [show exec (.contextResetFinished c) s = execContextResetFinished c s from rfl, execContextResetFinished, act_running h]
  simp only [if_neg hn, hd, Bool.not_true, Bool.false_eq_true, if_false]
  rfl

/-- Settles O38: each command's equation, and what its effect leaves of the context. -/
theorem enableResumeReset : Obligations.EnableResumeReset := by
  intro s c bar fn hs x k
  refine ⟨fun hc hd => ⟨fun ho => ?_, fun ho => ?_⟩, fun hb => ⟨fun hst => ?_, fun hst => ?_⟩, fun hd hr hn => ?_, fun hr ha hdone => ?_⟩
  · exact ⟨_, exec_contextEnable hs c, enable_good hc hd ho⟩
  · refine ⟨_, exec_contextEnable hs c, ?_, ?_⟩
    · rw [State.framed_ctx, enableCtx_bad hc hd ho, State.updCtx_ctx]
    · rw [enableCtx_bad hc hd ho]
      exact (OnlyChanges.updCtx s c _).framed
  · exact ⟨_, exec_resume hs hb, resume_stopped hst⟩
  · rw [exec_resume hs hb, State.resume, if_neg hst, State.framed_self]
  · exact ⟨_, exec_contextReset hs c, startReset_marks hd hr hn⟩
  · have hg := (gone_resetEnd (s.retractOwn c) c).resetNext
    exact ⟨_, exec_contextResetFinished hs hr ha hdone, hg.state, hg.resident, hg.ctail, hg.chead, hg.reg, fun f y hy => hg.own f y hy⟩

end Sys2Proof.Machine
end

section
-- One proof after another: so many at once would not fit beside the model in memory.
set_option Elab.async false
/-! The lengths of completion entries and seal entries, what is sent stays sent, what a write of a ring leaves, and the positions of gatherings. -/
namespace Sys2Proof.Machine
open Sys2Proof

/-! ## Lengths -/

@[simp] theorem leBytes_length (n v : Nat) : (leBytes n v).length = n := by
  induction n generalizing v with
  | zero => rfl
  | succ n ih => rw [leBytes, List.length_cons, ih]
@[simp] theorem beBytes_length (n v : Nat) : (beBytes n v).length = n := by rw [beBytes, List.length_reverse, leBytes_length]
@[simp] theorem xorBytes_length (a b : Bytes) : (xorBytes a b).length = min a.length b.length := List.length_zipWith
@[simp] theorem shiftRows_length (s : Bytes) : (shiftRows s).length = 16 := rfl

/-- Bytes that make `k` whole pieces are cut into `k` pieces, each of `n`. -/
theorem chunks_whole {α : Type} {n k : Nat} (hn : 0 < n) {l : List α} (h : l.length = n * k) :
    (chunks n k l).length = k ∧ (∀ p ∈ chunks n k l, p.length = n) ∧ ∀ p ∈ chunks n k l, ∀ a ∈ p, a ∈ l := by
  induction k generalizing l with
  | zero => exact ⟨rfl, nofun, nofun⟩
  | succ k ih =>
    have hm : n * (k + 1) = n * k + n := Nat.mul_succ n k
    have hl : l.isEmpty = false := by
      cases l with
      | nil => rw [List.length_nil] at h; omega
      | cons a r => rfl
    obtain ⟨h1, h2, h3⟩ := ih (l := l.drop n) (by rw [List.length_drop]; omega)
    have e : chunks n (k + 1) l = l.take n :: chunks n k (l.drop n) := by rw [chunks, hl]; rfl
    rw [e]
    refine ⟨by rw [List.length_cons, h1], fun p hp => ?_, fun p hp a ha => ?_⟩
    · rcases List.mem_cons.mp hp with rfl | hp
      · rw [List.length_take]; omega
      · exact h2 p hp
    · rcases List.mem_cons.mp hp with rfl | hp
      · exact List.mem_of_mem_take ha
      · exact List.mem_of_mem_drop (h3 p hp a ha)

/-- The expanded key stays a list of words of 4 bytes. -/
theorem aesExpand_words (n i : Nat) (rc : Byte) (w : List Bytes) (hl : 8 ≤ w.length) (hw : ∀ p ∈ w, p.length = 4) :
    (aesExpand n i rc w).length = w.length + n ∧ ∀ p ∈ aesExpand n i rc w, p.length = 4 := by
  induction n generalizing i rc w with
  | zero => exact ⟨rfl, hw⟩
  | succ n ih =>
    have word {j : Nat} (hj : j < 8) : (w.getD j []).length = 4 := by
      rw [List.getD_eq_getElem w [] (by omega)]
      exact hw _ (List.getElem_mem _)
    have h0 := word (j := 0) (by omega)
    unfold aesExpand
    extract_lets t t'
    have ht : t'.length = 4 := by
      unfold t'
      split_ifs
      · have hm : ((t.drop 1 ++ t.take 1).map aesSub).length = 4 := by
          rw [List.length_map, List.length_append, List.length_drop, List.length_take, h0]
          rfl
        split
        · next e => rw [e] at hm; exact hm
        · next e => rw [e] at hm; cases hm
      · rw [List.length_map, h0]
      · exact h0
    have hx : (xorBytes (w.getD 7 []) t').length = 4 := by rw [xorBytes_length, word (by omega), ht]; rfl
    obtain ⟨h1, h2⟩ := ih (i + 1) (if i % 8 = 0 then xtime rc else rc) (xorBytes (w.getD 7 []) t' :: w) (by rw [List.length_cons]; omega)
      fun p hp => (List.mem_cons.mp hp).elim (fun e => e ▸ hx) (hw p)
    exact ⟨by rw [h1, List.length_cons]; omega, h2⟩

/-- The last round key of a 32-byte key has 16 bytes. -/
theorem aesKeys_last {key : Bytes} (h : key.length = 32) : ((aesKeys key).getD 14 []).length = 16 := by
  obtain ⟨k1, k2, -⟩ := chunks_whole (n := 4) (k := 8) (by omega) (l := key) h
  obtain ⟨w1, w2⟩ := aesExpand_words 52 8 1 (chunks 4 8 key).reverse (by rw [List.length_reverse, k1])
    fun p hp => k2 p (List.mem_reverse.mp hp)
  obtain ⟨c1, c2, c3⟩ := chunks_whole (n := 4) (k := 15) (by omega) (l := (aesExpand 52 8 1 (chunks 4 8 key).reverse).reverse)
    (by rw [List.length_reverse, w1, List.length_reverse, k1])
  unfold aesKeys
  dsimp only
  rw [List.getD_eq_getElem _ [] (by rw [List.length_map, c1]; omega), List.getElem_map, List.length_flatten]
  have hm := List.getElem_mem (l := chunks 4 15 (aesExpand 52 8 1 (chunks 4 8 key).reverse).reverse) (n := 14) (by rw [c1]; omega)
  have hs := List.map_congr_left fun p hp => w2 p (List.mem_reverse.mp (c3 _ hm p hp))
  rw [hs, List.map_const', c2 _ hm]
  rfl

theorem aesEnc_length {ks : List Bytes} (h : (ks.getD 14 []).length = 16) (b : Bytes) : (aesEnc ks b).length = 16 := by
  unfold aesEnc
  dsimp only
  rw [xorBytes_length, shiftRows_length, h, Nat.min_self]
theorem gcmStream_length {ks : List Bytes} (h : (ks.getD 14 []).length = 16) (iv : Bytes) (n i : Nat) : (gcmStream ks iv n i).length = 16 * n := by
  induction n generalizing i with
  | zero => rfl
  | succ n ih => rw [gcmStream, List.length_append, aesEnc_length h, ih]; omega
theorem gcmCrypt_length {key : Bytes} (h : key.length = 32) (iv m : Bytes) : (gcmCrypt key iv m).length = m.length := by
  rw [gcmCrypt, xorBytes_length, gcmStream_length (aesKeys_last h), cdiv]
  omega
theorem gcmTag_length {key : Bytes} (h : key.length = 32) (iv aad c : Bytes) : (gcmTag key iv aad c).length = 16 := by
  unfold gcmTag
  dsimp only
  rw [xorBytes_length, beBytes_length, aesEnc_length (aesKeys_last h), Nat.min_self]

theorem State.entryOf_length (s : State) (x : Flight) : (s.entryOf x).length = 32 := by
  unfold State.entryOf completionBytes
  simp only [List.length_append, leBytes_length]
theorem State.sealEntry_length (s : State) (x : Flight) (e : Bytes) : (s.sealEntry x e).length = 32 := by
  have hk : (s.sealKey x.ctx).length = 32 := leBytes_length 32 _
  unfold State.sealEntry
  dsimp only
  rw [List.length_append, List.length_drop, gcmCrypt_length hk, gcmTag_length hk]
  simp only [List.length_append, leBytes_length]
  omega

/-! ## What is sent stays sent -/

/-- What had left the device has left it. -/
def StaysSent (s t : State) : Prop := s.out ⊆ t.out

theorem StaysSent.refl (s : State) : StaysSent s s := List.Subset.refl _
theorem StaysSent.trans {s t u : State} (h : StaysSent s t) (k : StaysSent t u) : StaysSent s u := List.Subset.trans h k
theorem StaysSent.only {l : List Part} {s t : State} (h : OnlyChanges l s t) (ho : .out ∉ l := by decide) : StaysSent s t :=
  fun _ => (h .out ho ▸ ·)
theorem StaysSent.ite {s t u : State} {p : Prop} [Decidable p] (h : p → StaysSent s t) (k : ¬p → StaysSent s u) : StaysSent s (if p then t else u) := by
  split_ifs with hp
  · exact h hp
  · exact k hp
theorem StaysSent.emitOut (s : State) (o : Out) : StaysSent s (s.emitOut o) := List.subset_cons_self _ _
theorem StaysSent.sendMsix (s : State) (f i : Nat) : StaysSent s (s.sendMsix f i).1 := by
  unfold State.sendMsix
  dsimp only
  split_ifs
  · exact .refl s
  · exact .only (OnlyChanges.updFn s f _)
  · exact .emitOut s _
theorem StaysSent.aerMark (s : State) (r : ErrRec) : StaysSent s (s.aerMark r) :=
  .ite (fun _ => (StaysSent.only (OnlyChanges.setErr s _)).trans (.emitOut _ _)) fun _ =>
    .ite (fun _ => (StaysSent.only (OnlyChanges.setErr s _)).trans (.emitOut _ _)) fun _ => .refl s
theorem StaysSent.putRecord (s : State) (r : ErrRec) : StaysSent s (s.putRecord r).1 := by
  unfold State.putRecord
  dsimp only
  generalize (if r.cls = 3 then 1024 else 1008) = limit
  split
  · exact .only (OnlyChanges.setErr s _)
  · exact ((StaysSent.only (OnlyChanges.setErr s _)).trans (.only (OnlyChanges.copyRecord _ _))).trans (.aerMark _ r)
theorem StaysSent.emitEv (k : Nat) (e : Ev) (s : State) : StaysSent s (emitEv k e s) := by
  induction k generalizing e s with
  | zero => cases e <;> exact .refl s
  | succ k ih =>
    cases e with
    | count fn i n =>
      have h := StaysSent.only (OnlyChanges.addCount s fn i n)
      unfold Machine.emitEv
      dsimp only
      split_ifs
      · exact h.trans (ih _ _)
      · exact (h.trans (ih _ _)).trans (ih _ _)
      · exact h
    | record r =>
      have h := StaysSent.putRecord s r
      unfold Machine.emitEv
      dsimp only
      split
      · split
        · exact StaysSent.trans (.ite (fun _ => h.trans (ih _ _)) fun _ => h) (ih _ _)
        · exact h
      · exact h.trans (ih _ _)
    | irq f i share urgent =>
      unfold Machine.emitEv
      dsimp only
      have hv (v : Tbl Vm) : StaysSent s { s with vms := v } := .refl s
      split_ifs
      · exact ih _ _
      · exact ((hv _).trans (.sendMsix _ f i)).trans (ih _ _)
      · exact (hv _).trans (.sendMsix _ f i)
      · exact hv _
theorem StaysSent.irq (s : State) (f i share : Nat) (urgent : Bool) : StaysSent s (s.irq f i share urgent) := .emitEv _ _ s
theorem StaysSent.upWrite (s : State) (c addr : Nat) (b : Bytes) : StaysSent s (s.upWrite c addr b) :=
  .ite (fun _ => .ite (fun _ => .refl s) fun _ => .emitEv _ _ s) fun _ => .emitOut s _

/-! ## Writes of T0 and of rings -/

theorem SameT0.of_eq {s t : State} (h : t.t0 = s.t0) : SameT0 s t := fun _ => h ▸ rfl

/-- With every pseudo-channel working, a write of T0 writes every byte. -/
theorem t0Write_t0 {s : State} (h : s.dev.pchDown = []) (a : Nat) (b : Bytes) : (s.t0Write a b).t0 = memWrite s.t0 a b := by
  induction b generalizing s a with
  | nil => rfl
  | cons v r ih =>
    have e : s.t0Write1 a v = { s with t0 := memWrite1 s.t0 a v } := if_neg (by simp [State.sheetBad, h])
    rw [State.t0Write, e, ih (s := { s with t0 := memWrite1 s.t0 a v }) h, memWrite]

section ringWrite
variable (s : State) (c : Nat) {loc : Nat} (base depth i : Nat) (b : Bytes)

theorem ringWrite_up (hl : loc ≠ 1) : s.ringWrite c loc base depth i b = s.upWrite c (base * 4096 + 32 * (i % depth)) b := if_neg hl
theorem ringWrite_t0 : s.ringWrite c 1 base depth i b = s.t0Write (base * 4096 + 32 * (i % depth)) b := rfl
/-- The bytes stand in T0 where the ring's entry lies. -/
theorem ringWrite_reads (hl : loc = 1) (hp : s.dev.pchDown = []) {j : Nat} (hj : j < b.length) :
    memRead (s.ringWrite c loc base depth i b).t0 (base * 4096 + 32 * (i % depth) + j) = b.getD j 0 := by
  subst hl
  rw [ringWrite_t0, t0Write_t0 hp, memRead_write_in _ _ _ _ hj, List.getD_eq_getElem b 0 hj]
theorem ringWrite_out (hl : loc = 1) : SameT0But (base * 4096 + 32 * (i % depth)) b.length s (s.ringWrite c loc base depth i b) := by
  subst hl
  exact t0Write_out s _ b
theorem ringWrite_same (hl : loc ≠ 1) : (s.ringWrite c loc base depth i b).t0 = s.t0 := by
  rw [ringWrite_up s c base depth i b hl]
  exact OnlyChanges.upWrite s c _ b .t0 (by decide)
theorem ringWrite_sent (hl : loc ≠ 1) (ho : (s.ctx c).state ≠ .orphaned) :
    .upWrite (s.ctx c).function (base * 4096 + 32 * (i % depth)) b ∈ (s.ringWrite c loc base depth i b).out := by
  rw [ringWrite_up s c base depth i b hl, show s.upWrite c _ b = s.emitOut _ from if_neg (by simpa using ho)]
  exact List.mem_cons_self
theorem StaysSent.ringWrite : StaysSent s (s.ringWrite c loc base depth i b) :=
  .ite (fun _ => .only (OnlyChanges.t0Write s _ b)) fun _ => .upWrite s c _ b
end ringWrite

/-! ## Positions of gatherings -/

/-- Every gathering keeps its step and its layer. -/
def SamePositions (s t : State) : Prop := ∀ g, (t.gath g).step = (s.gath g).step ∧ (t.gath g).layer = (s.gath g).layer

theorem gath_congr {s t : State} (h : t.gaths = s.gaths) (g : Nat) : t.gath g = s.gath g := by simp [State.gath, h]

theorem SamePositions.refl (s : State) : SamePositions s s := fun _ => ⟨rfl, rfl⟩
theorem SamePositions.trans {s t u : State} (h : SamePositions s t) (k : SamePositions t u) : SamePositions s u :=
  fun g => ⟨(k g).1.trans (h g).1, (k g).2.trans (h g).2⟩
theorem SamePositions.only {l : List Part} {s t : State} (h : OnlyChanges l s t) (hg : .gaths ∉ l := by decide) : SamePositions s t :=
  fun g => gath_congr (h .gaths hg) g ▸ ⟨rfl, rfl⟩
theorem SamePositions.foldl {α : Type} (f : State → α → State) (h : ∀ s a, SamePositions s (f s a)) (l : List α) (s : State) :
    SamePositions s (l.foldl f s) := by
  induction l generalizing s with
  | nil => exact .refl s
  | cons a l ih => exact (h s a).trans (ih _)
theorem SamePositions.ite {s t u : State} {p : Prop} [Decidable p] (h : p → SamePositions s t) (k : ¬p → SamePositions s u) :
    SamePositions s (if p then t else u) := by
  split_ifs with hp
  · exact h hp
  · exact k hp
theorem SamePositions.updGath (s : State) (gi : Nat) (h : Gath → Gath) (hs : ∀ g, (h g).step = g.step := by intro g; rfl)
    (hl : ∀ g, (h g).layer = g.layer := by intro g; rfl) : SamePositions s (s.updGath gi h) := by
  intro g
  by_cases hg : g = gi
  · subst hg; rw [State.updGath_gath]; exact ⟨hs _, hl _⟩
  · rw [show (s.updGath gi h).gath g = s.gath g from Tbl.get_set_ne _ _ _ hg]; exact ⟨rfl, rfl⟩

theorem SamePositions.takeClear (s : State) (gi i : Nat) : SamePositions s (s.takeClear gi i) := by
  unfold State.takeClear
  extract_lets r n u _ u'
  split
  · exact .refl s
  · split
    · next e =>
      have hu : SamePositions s u' := (SamePositions.updGath s gi _).trans (.only (OnlyChanges.setPs u _))
      exact (hu.trans (.only (OnlyChanges.takePool e))).trans (.only (OnlyChanges.updWrec _ i _))
    · exact .refl s
theorem SamePositions.openWindow (s : State) (gi : Nat) : SamePositions s (s.openWindow gi) := by
  refine .ite (fun _ => .refl s) fun _ => .foldl (α := Nat) _ (fun s' m => .ite (fun _ => .refl s') fun _ => ?_) _ s
  split
  · exact .refl s'
  · next i r _ =>
    have h := SamePositions.takeClear s' gi i
    exact .ite (fun _ => h.trans (.foldl (α := Nat) _ (fun u k => .only (OnlyChanges.prefetchOne u gi _)) _ _)) fun _ => h
theorem SamePositions.kettle (s : State) (gi : Nat) : SamePositions s (s.kettle gi) := by
  unfold State.kettle
  extract_lets s1 s2 s3
  have h2 : SamePositions s s2 := (SamePositions.only (OnlyChanges.endPrefetchHolds s gi false)).trans (.updGath s1 gi _)
  have h3 : SamePositions s s3 := h2.trans (.foldl _ (fun u n => .only (OnlyChanges.prefetchOne u gi n)) _ s2)
  exact (h3.trans (.openWindow s3 gi)).trans (.only (OnlyChanges.sweepWindows _))

theorem State.attendDone_step (s : State) (gi stepAt layer : Nat) : ((s.attendDone gi stepAt layer).gath gi).step = (s.gath gi).step := by
  unfold State.attendDone
  extract_lets g
  split_ifs
  · rw [(SamePositions.kettle _ gi gi).1, State.updGath_gath]
  · rfl
/-- A completed ATTEND of the gathering's step that is not behind its position moves it on, where a next layer is. -/
theorem State.attendDone_layer {s : State} {gi stepAt layer : Nat} (hl : (s.gath gi).live = true) (hs : (s.gath gi).step = stepAt)
    (hb : (s.gath gi).layer ≤ layer) (hn : layer + 1 < (s.gath gi).grec.layers) : ((s.attendDone gi stepAt layer).gath gi).layer = layer + 1 := by
  have hlin : (s.gath gi).linear < stepAt * (s.gath gi).grec.layers + layer + 1 := by
    rw [Gath.linear, hs]
    omega
  rw [show s.attendDone gi stepAt layer = _ from if_pos ⟨hl, hn, hlin, hs⟩, (SamePositions.kettle _ gi gi).2, State.updGath_gath]

end Sys2Proof.Machine
end

section
-- One proof after another: so many at once would not fit beside the model in memory.
set_option Elab.async false
/-! O19: the completion of an ended instruction. -/
namespace Sys2Proof.Machine
open Sys2Proof

/-! ## The steps of a completion -/

/-- The state in which a completed ATTEND has moved its gathering's position on. -/
def State.attended (s : State) (x : Flight) : State :=
  if wOpcode x.word = 0x30 ∧ stClass x.status ≤ 1 then s.attendDone (gField x.a) x.stepAt (fld x.a.toNat 0 8) else s
/-- The state in which a mirrored request has left flight with its response. -/
def State.answered (s : State) (f : Nat) (x : Flight) (q n : Nat) : State :=
  (s.dropFlight f).respond q (mirrorType x.word) n (if x.word = putWord then x.c.toNat else 0) (wTag x.word) x.status x.result x.catchword x.stalls
    (if wOpcode x.word = 0x10 ∧ stClass x.status ≤ 1 then x.tenant else [])
/-- The interrupt of an ending: at once for a stop or a fault that came after it, else where COMPLETE and INTERRUPT ask for it. -/
def State.announced (s : State) (x : Flight) : State :=
  let c := s.ctx x.ctx
  if x.stop || x.more then s.irq c.function c.vector c.share true
  else if x.credit && wInterrupt x.word then s.irq c.function c.vector c.share false else s
/-- The state in which an instruction of a ring has left flight and its context has been looked at. -/
def State.released (s : State) (f : Nat) (x : Flight) : State := (((s.dropFlight f).announced x).settle x.ctx).noteWant x.ctx

section complete
variable {s : State} {f : Nat} {x : Flight} (hf : s.flight? f = some x) (he : x.phase = .ended) (ho : s.outstanding f = false)
include hf he ho

theorem instructionComplete_mirrored {q n : Nat} (hm : x.mirror = some (q, n)) : s.instructionComplete f = (s.attended x).answered f x q n := by
  unfold State.instructionComplete
  rw [hf]
  dsimp only
  rw [if_neg (by simp [he, ho]), if_neg (by simp [hm]), hm]
  rfl
theorem instructionComplete_waits (hm : x.mirror = none) (hr : (s.ctx x.ctx).state ≠ .resetting)
    (hw : (((s.attended x).ctx x.ctx).conf && x.writesEntry && (s.attended x).sealTaken x.ctx f) = true) : s.instructionComplete f = s.attended x := by
  unfold State.instructionComplete
  rw [hf]
  dsimp only
  rw [if_neg (by simp [he, ho]), if_neg (by simp [hr]), hm]
  exact if_pos hw
theorem instructionComplete_released (hm : x.mirror = none) (hr : (s.ctx x.ctx).state ≠ .resetting)
    (hw : (((s.attended x).ctx x.ctx).conf && x.writesEntry && (s.attended x).sealTaken x.ctx f) = false) :
    s.instructionComplete f = (if x.writesEntry then (s.attended x).writeEntry x else s.attended x).released f x := by
  unfold State.instructionComplete
  rw [hf]
  dsimp only
  rw [if_neg (by simp [he, ho]), if_neg (by simp [hr]), hm]
  exact if_neg (Bool.eq_false_iff.mp hw)
end complete

theorem exec_instructionComplete {s : State} (h : s.stopped = false) (f : Nat) :
    exec (.instructionComplete f) s = .next ((s.instructionComplete f).framed s) := by
  rw [show exec (.instructionComplete f) s = execInstructionComplete f s from rfl, execInstructionComplete, act_running h]

/-! ## What they change -/

theorem OnlyChanges.attended (s : State) (x : Flight) : OnlyChanges kettleParts s (s.attended x) :=
  .ite (fun _ => .attendDone s _ _ _) fun _ => .refl _ s
theorem OnlyChanges.answered (s : State) (f : Nat) (x : Flight) (q n : Nat) : OnlyChanges (.flights :: respondParts) s (s.answered f x q n) :=
  (OnlyChanges.respond _ q _ n _ _ _ _ _ _ _).mono.trans' (OnlyChanges.dropFlight s f).mono
theorem OnlyChanges.announced (s : State) (x : Flight) : OnlyChanges evParts s (s.announced x) :=
  .ite (fun _ => .irq s _ _ _ true) fun _ => .ite (fun _ => .irq s _ _ _ false) fun _ => .refl _ s
theorem OnlyChanges.released (s : State) (f : Nat) (x : Flight) : OnlyChanges (.flights :: bellParts) s (s.released f x) :=
  (OnlyChanges.noteWant _ x.ctx).seq ((OnlyChanges.settle _ x.ctx).seq ((OnlyChanges.announced _ x).seq (OnlyChanges.dropFlight s f).mono))

theorem answered_flight? (s : State) (f : Nat) (x : Flight) (q n : Nat) : (s.answered f x q n).flight? f = none :=
  (flight?_congr (OnlyChanges.respond (s.dropFlight f) q _ n _ _ _ _ _ _ _ .flights (by decide)) f).trans (s.dropFlight_flight?_same f)
theorem released_flight? (s : State) (f : Nat) (x : Flight) : (s.released f x).flight? f = none := by
  have h : OnlyChanges bellParts (s.dropFlight f) (s.released f x) :=
    (OnlyChanges.noteWant _ x.ctx).seq ((OnlyChanges.settle _ x.ctx).seq (OnlyChanges.announced _ x).mono)
  exact (flight?_congr (h .flights (by decide)) f).trans (s.dropFlight_flight?_same f)
theorem released_ctx (s : State) (f : Nat) (x : Flight) :
    ((s.released f x).ctx x.ctx).ctail = (s.ctx x.ctx).ctail ∧ ((s.released f x).ctx x.ctx).cphase = (s.ctx x.ctx).cphase := by
  have h : ((s.dropFlight f).announced x).ctx x.ctx = s.ctx x.ctx := ctx_congr (OnlyChanges.announced (s.dropFlight f) x .ctxs (by decide)) x.ctx
  obtain ⟨w, v, e⟩ := (((s.dropFlight f).announced x).settle x.ctx).noteWant_ctx x.ctx
  rw [show (s.released f x).ctx x.ctx = _ from e, State.settle_ctx, if_pos rfl, h]
  exact ⟨rfl, rfl⟩
theorem StaysSent.released (s : State) (f : Nat) (x : Flight) : StaysSent s (s.released f x) := by
  have ha : StaysSent (s.dropFlight f) ((s.dropFlight f).announced x) := .ite (fun _ => .irq _ _ _ _ true) fun _ => .ite (fun _ => .irq _ _ _ _ false) fun _ => .refl _
  exact (((StaysSent.only (OnlyChanges.dropFlight s f)).trans ha).trans (.only (OnlyChanges.settle _ x.ctx))).trans (.only (OnlyChanges.noteWant _ x.ctx))

/-- Of the gatherings a completion changes what the completed ATTEND does. -/
theorem instructionComplete_gaths {s : State} {f : Nat} {x : Flight} (hf : s.flight? f = some x) (he : x.phase = .ended) (ho : s.outstanding f = false)
    (hr : x.mirror.isSome = true ∨ (s.ctx x.ctx).state ≠ .resetting) : (s.instructionComplete f).gaths = (s.attended x).gaths := by
  cases hm : x.mirror with
  | some p =>
    obtain ⟨q, n⟩ := p
    rw [instructionComplete_mirrored hf he ho hm]
    exact OnlyChanges.answered _ f x q n .gaths (by decide)
  | none =>
    have hr := hr.resolve_left (by simp [hm])
    cases hw : ((s.attended x).ctx x.ctx).conf && x.writesEntry && (s.attended x).sealTaken x.ctx f with
    | true => rw [instructionComplete_waits hf he ho hm hr hw]
    | false =>
      rw [instructionComplete_released hf he ho hm hr hw]
      have hb : OnlyChanges entryParts (s.attended x) (if x.writesEntry then (s.attended x).writeEntry x else s.attended x) :=
        .ite (fun _ => .writeEntry _ x) fun _ => .refl _ _
      exact (OnlyChanges.released _ f x .gaths (by decide)).trans (hb .gaths (by decide))

/-! ## The entry and its seal entry -/

/-- The state in which the seal entry of a confidential context has been written. -/
def State.withSeal (s : State) (x : Flight) : State := if (s.ctx x.ctx).conf then s.writeSeal x (s.entryOf x) else s
/-- Address of the completion ring's entry at CTAIL. -/
def Ctx.entryAddr (c : Ctx) : Nat := c.cbase * 4096 + 32 * (c.ctail % c.cdepth)
/-- Address of the seal ring's entry at CTAIL. -/
def State.sealAddr (s : State) (c : Nat) : Nat := (s.sec.ctxs.get c {}).sealBase * 4096 + 32 * ((s.ctx c).ctail % (s.ctx c).cdepth)

theorem OnlyChanges.withSeal (s : State) (x : Flight) : OnlyChanges (.sec :: ringParts) s (s.withSeal x) :=
  .ite (fun _ => .writeSeal s x _) fun _ => .refl _ s

section entry
variable (s : State) (x : Flight)

theorem withSeal_ctx : (s.withSeal x).ctx x.ctx = s.ctx x.ctx := ctx_congr (OnlyChanges.withSeal s x .ctxs (by decide)) _
theorem withSeal_dev : (s.withSeal x).dev = s.dev := OnlyChanges.withSeal s x .dev (by decide)
theorem writeEntry_ctx : (s.writeEntry x).ctx x.ctx = (s.ctx x.ctx).advance := by
  have h := OnlyChanges.ringWrite (s.withSeal x) x.ctx (s.ctx x.ctx).cloc (s.ctx x.ctx).cbase (s.ctx x.ctx).cdepth (s.ctx x.ctx).ctail (s.entryOf x)
  exact (State.updCtx_ctx _ _ _).trans (congrArg Ctx.advance ((ctx_congr (h .ctxs (by decide)) _).trans (withSeal_ctx s x)))
theorem writeEntry_reads (hl : (s.ctx x.ctx).cloc = 1) (hp : s.dev.pchDown = []) {i : Nat} (hi : i < 32) :
    memRead (s.writeEntry x).t0 ((s.ctx x.ctx).entryAddr + i) = (s.entryOf x).getD i 0 :=
  ringWrite_reads (s.withSeal x) x.ctx _ _ _ (s.entryOf x) hl (withSeal_dev s x ▸ hp) (s.entryOf_length x ▸ hi)
theorem writeEntry_out (hl : (s.ctx x.ctx).cloc = 1) : SameT0But (s.ctx x.ctx).entryAddr 32 (s.withSeal x) (s.writeEntry x) :=
  s.entryOf_length x ▸ ringWrite_out (s.withSeal x) x.ctx _ _ _ (s.entryOf x) hl
theorem writeEntry_same (hl : (s.ctx x.ctx).cloc ≠ 1) : (s.writeEntry x).t0 = (s.withSeal x).t0 :=
  ringWrite_same (s.withSeal x) x.ctx _ _ _ (s.entryOf x) hl
theorem writeEntry_sent (hl : (s.ctx x.ctx).cloc ≠ 1) (ho : (s.ctx x.ctx).state ≠ .orphaned) :
    .upWrite (s.ctx x.ctx).function (s.ctx x.ctx).entryAddr (s.entryOf x) ∈ (s.writeEntry x).out := by
  have h := ringWrite_sent (s.withSeal x) x.ctx (s.ctx x.ctx).cbase (s.ctx x.ctx).cdepth (s.ctx x.ctx).ctail (s.entryOf x) hl
  rw [withSeal_ctx] at h
  exact h ho
theorem StaysSent.writeEntry : StaysSent (s.withSeal x) (s.writeEntry x) := .ringWrite (s.withSeal x) x.ctx _ _ _ _
theorem writeEntry_sec : (s.writeEntry x).sec = (s.withSeal x).sec :=
  OnlyChanges.ringWrite (s.withSeal x) x.ctx _ _ _ _ _ .sec (by decide)

variable {s x} (hc : (s.ctx x.ctx).conf = true)
include hc

theorem withSeal_oseq : ((s.withSeal x).sec.ctxs.get x.ctx {}).oseq = s.sealNo x + 1 := by
  rw [State.withSeal, if_pos hc, State.writeSeal]
  dsimp only
  rw [Tbl.get_set_same]
theorem withSeal_reads (hl : (s.sec.ctxs.get x.ctx {}).sealLoc = 1) (hp : s.dev.pchDown = []) {i : Nat} (hi : i < 32) :
    memRead (s.withSeal x).t0 (s.sealAddr x.ctx + i) = (s.sealEntry x (s.entryOf x)).getD i 0 := by
  rw [State.withSeal, if_pos hc]
  exact ringWrite_reads s x.ctx _ _ _ (s.sealEntry x (s.entryOf x)) hl hp (s.sealEntry_length x _ ▸ hi)
theorem withSeal_sent (hl : (s.sec.ctxs.get x.ctx {}).sealLoc ≠ 1) (ho : (s.ctx x.ctx).state ≠ .orphaned) :
    .upWrite (s.ctx x.ctx).function (s.sealAddr x.ctx) (s.sealEntry x (s.entryOf x)) ∈ (s.withSeal x).out := by
  rw [State.withSeal, if_pos hc]
  exact ringWrite_sent s x.ctx _ _ _ (s.sealEntry x (s.entryOf x)) hl ho
/-- The entry leaves a seal entry that it does not overlap. -/
theorem writeEntry_seal_reads (hl : (s.sec.ctxs.get x.ctx {}).sealLoc = 1) (hp : s.dev.pchDown = [])
    (hd : (s.ctx x.ctx).cloc = 1 → s.sealAddr x.ctx + 32 ≤ (s.ctx x.ctx).entryAddr ∨ (s.ctx x.ctx).entryAddr + 32 ≤ s.sealAddr x.ctx) {i : Nat} (hi : i < 32) :
    memRead (s.writeEntry x).t0 (s.sealAddr x.ctx + i) = (s.sealEntry x (s.entryOf x)).getD i 0 := by
  rw [← withSeal_reads hc hl hp hi]
  by_cases h : (s.ctx x.ctx).cloc = 1
  · exact writeEntry_out s x h _ (by have := hd h; omega)
  · rw [writeEntry_same s x h]
end entry

theorem attended_step (s : State) (x : Flight) : ((s.attended x).gath (gField x.a)).step = (s.gath (gField x.a)).step := by
  unfold State.attended
  split_ifs
  · exact s.attendDone_step _ _ _
  · rfl

/-- What stands where, and what has left, once the instruction is released after its entry. -/
theorem released_entry (s : State) (f : Nat) (x : Flight) :
    let t := (s.writeEntry x).released f x
    let c := s.ctx x.ctx
    let k := s.sec.ctxs.get x.ctx {}
    let e := s.entryOf x
    (t.ctx x.ctx).ctail = (c.ctail + 1) % 65536 ∧
    (t.ctx x.ctx).cphase = (if (c.ctail + 1) % 65536 % c.cdepth = 0 then !c.cphase else c.cphase) ∧
    (c.cloc = 1 → s.dev.pchDown = [] → ∀ i < 32, memRead t.t0 (c.entryAddr + i) = e.getD i 0) ∧
    (c.conf = false → c.cloc = 1 → SameT0But c.entryAddr 32 s t) ∧
    (c.conf = false → c.cloc ≠ 1 → SameT0 s t) ∧
    (c.cloc ≠ 1 → c.state ≠ .orphaned → .upWrite c.function c.entryAddr e ∈ t.out) ∧
    (c.conf = true → (t.sec.ctxs.get x.ctx {}).oseq = s.sealNo x + 1 ∧
      (k.sealLoc = 1 → s.dev.pchDown = [] → (c.cloc = 1 → s.sealAddr x.ctx + 32 ≤ c.entryAddr ∨ c.entryAddr + 32 ≤ s.sealAddr x.ctx) →
        ∀ i < 32, memRead t.t0 (s.sealAddr x.ctx + i) = (s.sealEntry x e).getD i 0) ∧
      (k.sealLoc ≠ 1 → c.state ≠ .orphaned → .upWrite c.function (s.sealAddr x.ctx) (s.sealEntry x e) ∈ t.out)) := by
  intro t c k e
  obtain ⟨htail, hphase⟩ := released_ctx (s.writeEntry x) f x
  rw [writeEntry_ctx] at htail hphase
  have ht : t.t0 = (s.writeEntry x).t0 := OnlyChanges.released _ f x .t0 (by decide)
  have hsec : t.sec = (s.withSeal x).sec := (OnlyChanges.released _ f x .sec (by decide)).trans (writeEntry_sec s x)
  have hout : StaysSent (s.writeEntry x) t := .released _ f x
  have bare (hc : c.conf = false) : s.withSeal x = s := if_neg (by rw [show (s.ctx x.ctx).conf = false from hc]; decide)
  refine ⟨htail, hphase, fun hl hp i hi => ?_, fun hc hl => ?_, fun hc hl => ?_, fun hl ho => hout (writeEntry_sent s x hl ho), fun hc => ⟨?_, ?_, ?_⟩⟩
  · rw [ht]
    exact writeEntry_reads s x hl hp hi
  · have h := writeEntry_out s x hl
    rw [bare hc] at h
    exact fun a ha => (congrArg (memRead · a) ht).trans (h a ha)
  · exact .of_eq (ht.trans ((writeEntry_same s x hl).trans (by rw [bare hc])))
  · rw [hsec]
    exact withSeal_oseq hc
  · intro hl hp hd i hi
    rw [ht]
    exact writeEntry_seal_reads hc hl hp hd hi
  · exact fun hl ho => hout (StaysSent.writeEntry s x (withSeal_sent hc hl ho))

/-- Settles O19: the state after a completion is the attended one, with the entry written where one is due and the instruction released. -/
theorem completeWritesItsEntry : Obligations.CompleteWritesItsEntry := by
  intro s f x hs hf he ho attends gi u c k addr saddr e z
  have hu : OnlyChanges kettleParts s u := .attended s x
  have hux : u.ctx x.ctx = c := ctx_congr (hu .ctxs (by decide)) _
  have huk : u.sec.ctxs.get x.ctx {} = k := by rw [show u.sec = s.sec from hu .sec (by decide)]
  have hud : u.dev = s.dev := hu .dev (by decide)
  have hx := exec_instructionComplete hs f
  refine ⟨fun hr => ⟨_, hx, ?_, fun ha hl hg hb hn => ?_, fun ha => ?_⟩, fun hm => ?_, fun hm hr => ⟨fun hc hw ht => ?_, fun hn => ?_⟩⟩
  · rw [State.framed_gath, gath_congr (instructionComplete_gaths hf he ho hr)]
    exact attended_step s x
  · rw [State.framed_gath, gath_congr (instructionComplete_gaths hf he ho hr), State.attended, if_pos ha]
    exact State.attendDone_layer hl hg hb hn
  · exact (instructionComplete_gaths hf he ho hr).trans (congrArg State.gaths (if_neg ha))
  · obtain ⟨⟨q, n⟩, hm⟩ := Option.isSome_iff_exists.mp hm
    rw [instructionComplete_mirrored hf he ho hm] at hx
    have h := OnlyChanges.answered u f x q n
    exact ⟨_, hx, answered_flight? u f x q n, h .ctxs (by decide), .of_eq (h .t0 (by decide))⟩
  · have hwait : ((u.ctx x.ctx).conf && x.writesEntry && u.sealTaken x.ctx f) = true := by rw [hux, hc, hw, ht]; rfl
    rw [hx, instructionComplete_waits hf he ho hm hr hwait]
    rfl
  · have hgo : ((u.ctx x.ctx).conf && x.writesEntry && u.sealTaken x.ctx f) = false := by
      rw [hux]
      rcases hn with h | h | h <;> simp [h]
    rw [instructionComplete_released hf he ho hm hr hgo, show s.attended x = u from rfl] at hx
    refine ⟨_, hx, released_flight? _ f x, fun hw => ?_, fun hw => ?_⟩
    · have h := released_entry u f x
      rw [if_pos hw]
      clear_value u c k
      subst hux huk
      rw [← hud]
      exact h
    · rw [if_neg (by simp [hw])]
      have h := OnlyChanges.released u f x
      exact ⟨(released_ctx u f x).1.trans (by rw [hux]), .of_eq (h .t0 (by decide))⟩

end Sys2Proof.Machine
end

section
-- One proof after another: so many at once would not fit beside the model in memory.
set_option Elab.async false
/-! NOP, SET, ADDX and SIGNAL; what an ending is after changes that leave its instruction and every context; signal counters. -/
namespace Sys2Proof.Machine
open Sys2Proof

/-! ## Endings after other changes -/

/-- An ending in a state with the registers of `s`, in which the instruction is still `x` but for the work it holds. -/
theorem finish_completed_of {s u : State} {f : Nat} {x y : Flight} (hc : ∀ c n, (u.ctx c).reg n = (s.ctx c).reg n) (hf : u.flight? f = some y)
    (hy : y.mirror = x.mirror ∧ y.ctx = x.ctx ∧ y.word = x.word) (st : BitVec 16) (res : BitVec 64) (cw : Option (BitVec 64)) :
    Completed s (u.finish f st res cw) f x st res := by
  obtain ⟨ends, regs⟩ := finish_completed u hf st res cw
  obtain ⟨hm, hx, hw⟩ := hy
  refine ⟨ends, fun c n => ?_⟩
  rw [regs, hm, hx, hw, hc]

/-- An ending after changes of parts that hold neither contexts nor instructions. -/
theorem finish_completed_after {l : List Part} {s u : State} {f : Nat} {x : Flight} (h : OnlyChanges l s u) (hf : s.flight? f = some x)
    (st : BitVec 16) (res : BitVec 64) (cw : Option (BitVec 64)) (hc : .ctxs ∉ l := by decide) (hl : .flights ∉ l := by decide) :
    Completed s (u.finish f st res cw) f x st res :=
  finish_completed_of (fun c _ => by rw [ctx_congr (h .ctxs hc)]) ((flight?_congr (h .flights hl) f).trans hf) ⟨rfl, rfl, rfl⟩ st res cw

/-! ## NOP, SET, ADDX -/

theorem exec_nop {s : State} {f : Nat} {x : Flight} (h : Acts s f 0x00 x) : exec (.nop f) s = .next ((s.finish f stOk 0 none).framed s) := by
  rw [show exec (.nop f) s = execNop f s from rfl, execNop, onFlight_acts h]
theorem exec_set {s : State} {f : Nat} {x : Flight} (h : Acts s f 0x04 x) : exec (.set f) s = .next ((s.finish f stOk x.a none).framed s) := by
  rw [show exec (.set f) s = execSet f s from rfl, execSet, onFlight_acts h]
theorem exec_addx {s : State} {f : Nat} {x : Flight} (h : Acts s f 0x05 x) :
    exec (.addx f) s = .next ((s.finish f stOk (x.a + x.b) none).framed s) := by
  rw [show exec (.addx f) s = execAddx f s from rfl, execAddx, onFlight_acts h]

/-- Settles O13: each of the three is one ending. -/
theorem nopSetAddx : Obligations.NopSetAddx := fun s _ x =>
  ⟨fun h => ⟨_, exec_nop h, finish_completed s h.here stOk 0 none⟩, fun h => ⟨_, exec_set h, finish_completed s h.here stOk x.a none⟩,
    fun h => ⟨_, exec_addx h, finish_completed s h.here stOk (x.a + x.b) none⟩⟩

/-! ## Signal counters -/

/-- Every signal counter of every function stays. -/
def SameSignals (s t : State) : Prop := ∀ g, (t.fn g).sig = (s.fn g).sig

theorem SameSignals.refl (s : State) : SameSignals s s := fun _ => rfl
theorem SameSignals.trans {s t u : State} (h : SameSignals s t) (k : SameSignals t u) : SameSignals s u := fun g => (k g).trans (h g)
theorem SameSignals.only {l : List Part} {s t : State} (h : OnlyChanges l s t) (hf : .fns ∉ l := by decide) : SameSignals s t :=
  fun g => by rw [fn_congr (h .fns hf)]
theorem SameSignals.ite {s t u : State} {p : Prop} [Decidable p] (h : p → SameSignals s t) (k : ¬p → SameSignals s u) :
    SameSignals s (if p then t else u) := by
  split
  · exact h ‹_›
  · exact k ‹_›
theorem SameSignals.foldl {α : Type} (f : State → α → State) (h : ∀ s a, SameSignals s (f s a)) (l : List α) (s : State) :
    SameSignals s (l.foldl f s) := by
  induction l generalizing s with
  | nil => exact .refl s
  | cons a l ih => exact (h s a).trans (ih _)
theorem SameSignals.updFn (s : State) (f : Nat) (h : Fn → Fn) (hs : ∀ x, (h x).sig = x.sig) : SameSignals s (s.updFn f h) := fun g => by
  rw [State.updFn_fn_eq]
  split_ifs with e
  · rw [hs, e]
  · rfl

theorem SameSignals.addCount (s : State) (fn : Option Nat) (i n : Nat) : SameSignals s (s.addCount fn i n).1 := by
  cases fn with
  | none => exact .refl _
  | some f => exact .updFn s f _ fun _ => rfl
theorem SameSignals.sendMsix (s : State) (f i : Nat) : SameSignals s (s.sendMsix f i).1 := by
  unfold State.sendMsix
  dsimp only
  split_ifs
  · exact .refl s
  · exact .updFn s f _ fun _ => rfl
  · exact .refl s

/-- No event changes a signal counter. -/
theorem SameSignals.emitEv (k : Nat) (e : Ev) (s : State) : SameSignals s (emitEv k e s) := by
  induction k generalizing e s with
  | zero => cases e <;> exact .refl s
  | succ k ih =>
    cases e with
    | count fn i n =>
      have h := SameSignals.addCount s fn i n
      unfold Machine.emitEv
      dsimp only
      split_ifs
      · exact h.trans (ih _ _)
      · exact (h.trans (ih _ _)).trans (ih _ _)
      · exact h
    | record r =>
      have h := SameSignals.only (OnlyChanges.putRecord_err s r)
      unfold Machine.emitEv
      dsimp only
      split
      · split
        · split_ifs
          · exact (h.trans (ih _ _)).trans (ih _ _)
          · exact h.trans (ih _ _)
        · exact h
      · exact h.trans (ih _ _)
    | irq f i share urgent =>
      have h (v : Tbl Vm) : SameSignals s ({ s with vms := v }.sendMsix f i).1 := (SameSignals.only (OnlyChanges.setVms s v)).trans (.sendMsix _ f i)
      unfold Machine.emitEv
      dsimp only
      split_ifs
      · exact ih _ _
      · exact (h _).trans (ih _ _)
      · exact h _
      · exact .refl s

theorem SameSignals.countFn (s : State) (f i n : Nat) : SameSignals s (s.countFn f i n) := .ite (fun _ => .refl s) fun _ => .emitEv _ _ s
theorem SameSignals.countWaits (s : State) (f e : Nat) (c : Cause × Nat) : SameSignals s (s.countWaits f e c) :=
  .ite (fun _ => .countFn s f _ _) fun _ => (SameSignals.only (OnlyChanges.draw s)).trans (.countFn _ f _ _)
theorem SameSignals.countEnd (s : State) (fn : Nat) (st : BitVec 16) : SameSignals s (s.countEnd fn st) := by
  have step (c : Prop) [Decidable c] (i : Nat) (t : State) : SameSignals t (if c then t.countFn fn i 1 else t) :=
    .ite (fun _ => .countFn t fn i 1) fun _ => .refl t
  exact ((((SameSignals.countFn s fn 20 1).trans (step _ 21 _)).trans (step _ 22 _)).trans (step _ 23 _)).trans (step _ 24 _)
theorem SameSignals.saturates (s : State) (fn i : Nat) : SameSignals s (s.saturates fn i) :=
  (SameSignals.emitEv 8 _ s).trans (.ite (fun _ => .refl _) fun _ => .emitEv 8 _ _)

/-- The ending of an instruction changes no signal counter. -/
theorem SameSignals.finish (s : State) (f : Nat) (st : BitVec 16) (res : BitVec 64) (cw : Option (BitVec 64)) : SameSignals s (s.finish f st res cw) := by
  unfold State.finish
  extract_lets x e s1 s2 s3 s4 s5
  have h3 : SameSignals s s3 := .only ((OnlyChanges.updFlight s2 f _).seq ((OnlyChanges.dropHolds s1 f).seq ((OnlyChanges.dropJob s x.job _).mono
    (m := [.net, .ps, .pools, .fq, .pwr, .flights]))))
  have h4 : SameSignals s s4 := h3.trans (.ite (fun _ => .refl _) fun _ => .countEnd s3 _ st)
  have h5 : SameSignals s s5 := h4.trans (.foldl _ (fun u c => .countWaits u _ e c) _ s4)
  exact h5.trans (.ite (fun _ => .refl _) fun _ => .only (OnlyChanges.endCtx s5 f st res))

/-! ## SIGNAL -/

/-- The counter added to reads as the sum, saturating; no other of any function changes. -/
theorem State.addSignal_sig (s : State) (fn i inc g j : Nat) : ((s.addSignal fn i inc).1.fn g).sig.get j 0 =
    if g = fn ∧ j = i then (s.addSignal fn i inc).2 else (s.fn g).sig.get j 0 := by
  unfold State.addSignal
  extract_lets old new hit u
  have h : SameSignals u (if hit then u.saturates fn i else u) := .ite (fun _ => .saturates u fn i) fun _ => .refl u
  simp only [h g]
  rw [State.updFn_fn_eq]
  by_cases hg : g = fn
  · subst hg
    by_cases hj : j = i
    · simp [hj]
    · simp [hj, Tbl.get_set_ne _ _ _ hj]
  · simp [hg]

/-- SIGNAL once no earlier instruction of its ring is in flight. -/
theorem exec_signal {s : State} {f : Nat} {x : Flight} (h : Acts s f 0x03 x) : exec (.signal f) s = .next ((
    if (s.ringFlights x.ctx x.ring).any fun p => p.1 < f then s
    else ((s.addSignal (s.fnOf x.ctx) (fld x.a.toNat 0 6) x.b.toNat).1.finish f stOk
      (BitVec.ofNat 64 (s.addSignal (s.fnOf x.ctx) (fld x.a.toNat 0 6) x.b.toNat).2) none).noteWants).framed s) := by
  rw [show exec (.signal f) s = execSignal f s from rfl, execSignal, onFlight_acts h]

/-- A look at every context's wants changes no register. -/
theorem State.noteWant_reg (s : State) (c d n : Nat) : ((s.noteWant c).ctx d).reg n = (s.ctx d).reg n := by
  by_cases h : d = c
  · subst h
    obtain ⟨w, v, e⟩ := s.noteWant_ctx d
    rw [e]; rfl
  · rw [s.noteWant_ctx_ne h]
theorem State.noteWants_reg (s : State) (d n : Nat) : (s.noteWants.ctx d).reg n = (s.ctx d).reg n := by
  unfold State.noteWants
  generalize s.ctxs = l
  induction l generalizing s with
  | nil => rfl
  | cons p l ih => exact (ih _).trans (s.noteWant_reg p.1 d n)
theorem Completed.noteWants {s t : State} {f : Nat} {x : Flight} {st : BitVec 16} {v : BitVec 64} (h : Completed s t f x st v) :
    Completed s t.noteWants f x st v := by
  obtain ⟨⟨y, hy, hends⟩, regs⟩ := h
  exact ⟨⟨y, (flight?_congr (OnlyChanges.noteWants t .flights (by decide)) f).trans hy, hends⟩, fun c n => (t.noteWants_reg c n).trans (regs c n)⟩

/-- Settles O15: the counter is `State.addSignal`'s, and neither the ending nor the look at the contexts changes one. -/
theorem signalAdds : Obligations.SignalAdds := by
  intro s f x h fn i new
  refine ⟨fun hp => ?_, fun ⟨p, hp, hlt⟩ => ?_⟩
  · have hn : ((s.ringFlights x.ctx x.ring).any fun p => p.1 < f) = false := by simpa using hp
    have run := exec_signal h
    rw [hn, if_neg Bool.false_ne_true] at run
    have only : OnlyChanges evParts s (s.addSignal fn i x.b.toNat).1 := .addSignal s fn i _
    have sig (g j : Nat) : (((s.addSignal fn i x.b.toNat).1.finish f stOk (BitVec.ofNat 64 new) none).noteWants.fn g).sig.get j 0 =
        if g = fn ∧ j = i then new else (s.fn g).sig.get j 0 := by
      rw [fn_congr (OnlyChanges.noteWants _ .fns (by decide)), SameSignals.finish, State.addSignal_sig]
      rfl
    refine ⟨_, run, ?_, (finish_completed_after only h.here stOk (BitVec.ofNat 64 new) none).noteWants, fun g j hgj => ?_⟩
    · exact (sig fn i).trans (if_pos ⟨rfl, rfl⟩)
    · exact (sig g j).trans (if_neg (by tauto))
  · rw [exec_signal h, if_pos (List.any_eq_true.mpr ⟨p, hp, by simpa using hlt⟩)]
    rfl

end Sys2Proof.Machine
end

section
-- One proof after another: so many at once would not fit beside the model in memory.
set_option Elab.async false
/-! BRANCH and LOOP (03 R79, R80; 02 R52, R53). -/
namespace Sys2Proof.Machine
open Sys2Proof

/-! ## Rings after an ending and after a redirection -/

/-- An ending that is neither refusal nor fault leaves every ring. -/
theorem finish_ring (s : State) (f : Nat) {st : BitVec 16} (h : stClass st ≤ 1) (res : BitVec 64) (cw : Option (BitVec 64)) (c n : Nat) :
    ((s.finish f st res cw).ctx c).ring n = (s.ctx c).ring n := by
  rw [s.finish_ctx rfl]
  split_ifs with hc
  · obtain ⟨-, rfl⟩ := hc
    have hl (l : BitVec 16) : latchAfter l st = l := if_neg fun k => by omega
    rw [Ctx.ended_quiet _ _ _ _ fun k => by omega]
    simp only [Ctx.latched, hl]
    by_cases hn : n = (s.flight f).ring
    · subst hn
      rw [Ctx.updRing_ring_same]
      split_ifs <;> rfl
    · rw [Ctx.updRing_ring_ne _ _ hn]
      split_ifs <;> rfl
  · rfl

/-- Where a ring fetches after a taken branch of the instruction at an index (02 R52). -/
def branchTarget (index off : Nat) : Nat := ((Int.ofNat index + signed 16 off) % 65536).toNat

theorem branchTarget_eq (index off : Nat) : (branchTarget index off : Int) = (index + signed 16 off) % 65536 :=
  Int.toNat_of_nonneg (Int.emod_nonneg _ (by decide))

theorem State.redirect_ring (s : State) (c ring index off : Nat) :
    (((s.redirect c ring index off).ctx c).ring ring).fetch = branchTarget index off ∧ (((s.redirect c ring index off).ctx c).ring ring).fetched = [] ∧
      (((s.redirect c ring index off).ctx c).ring ring).latch = ((s.ctx c).ring ring).latch := by
  unfold State.redirect
  rw [State.updCtx_ctx, Ctx.updRing_ring_same]
  exact ⟨rfl, rfl, Ring.cancel_latch _⟩

theorem State.updRing_reg (s : State) (c ring : Nat) (g : Ring → Ring) (d n : Nat) :
    ((s.updCtx c fun x => x.updRing ring g).ctx d).reg n = (s.ctx d).reg n := by
  rw [State.updCtx_ctx_eq]
  split_ifs with h
  · rw [h]; rfl
  · rfl

theorem Completed.redirect {s t : State} {f : Nat} {x : Flight} {st : BitVec 16} {v : BitVec 64} (h : Completed s t f x st v) (c ring index off : Nat) :
    Completed s (t.redirect c ring index off) f x st v :=
  ⟨h.1, fun d n => (t.updRing_reg c ring _ d n).trans (h.2 d n)⟩

/-- The state after a branch's ending: redirected where it is taken. -/
def State.branched (s : State) (x : Flight) (taken : Bool) : State :=
  if taken then s.redirect x.ctx x.ring x.index (fld x.a.toNat 0 16) else s

theorem Completed.branched {s t : State} {f : Nat} {x : Flight} {st : BitVec 16} {v : BitVec 64} (h : Completed s t f x st v) (y : Flight) (taken : Bool) :
    Completed s (t.branched y taken) f x st v := by
  unfold State.branched
  split_ifs
  · exact h.redirect _ _ _ _
  · exact h

/-- A ring's fetch after a branch, of a ring that was `r` before. -/
theorem branched_goes {t : State} {x : Flight} {r : Ring} (h : (t.ctx x.ctx).ring x.ring = r) (taken : Bool) :
    (if taken = true then ((((t.branched x taken).ctx x.ctx).ring x.ring).fetch : Int) = (x.index + signed 16 (fld x.a.toNat 0 16)) % 65536 ∧
        (((t.branched x taken).ctx x.ctx).ring x.ring).fetched = []
      else (((t.branched x taken).ctx x.ctx).ring x.ring).fetch = r.fetch ∧ (((t.branched x taken).ctx x.ctx).ring x.ring).fetched = r.fetched) := by
  cases taken with
  | false => exact ⟨congrArg _ h, congrArg _ h⟩
  | true =>
    obtain ⟨hfetch, hnone, -⟩ := t.redirect_ring x.ctx x.ring x.index (fld x.a.toNat 0 16)
    exact ⟨(congrArg Int.ofNat hfetch).trans (branchTarget_eq _ _), hnone⟩

theorem branched_latch (t : State) (x : Flight) (taken : Bool) :
    (((t.branched x taken).ctx x.ctx).ring x.ring).latch = ((t.ctx x.ctx).ring x.ring).latch := by
  cases taken with
  | false => rfl
  | true => exact (t.redirect_ring x.ctx x.ring x.index (fld x.a.toNat 0 16)).2.2

/-! ## BRANCH -/

/-- The state with the refusal latch of a ring cleared (02 R53). -/
def State.unlatched (s : State) (x : Flight) : State := s.updCtx x.ctx fun c => c.updRing x.ring fun r => { r with latch := 0 }

/-- What BRANCH does, by its condition. -/
theorem exec_branch {s : State} {f : Nat} {x : Flight} (h : Acts s f 0x06 x) : exec (.branch f) s = .next ((
    let cond := fld x.a.toNat 16 4
    let latch := ((s.ctx x.ctx).ring x.ring).latch
    let tests := cond == 7 || cond == 8
    let taken := branchTaken cond x.b x.c latch
    if tests && (s.ringFlights x.ctx x.ring).any fun p => p.1 < f && p.2.phase != .ended then s
    else ((if tests then s.unlatched x else s).finish f stOk (BitVec.ofNat 64 (b2n taken + if tests then latch.toNat * 2 ^ 16 else 0)) none).branched x taken).framed s) := by
  rw [show exec (.branch f) s = execBranch f s from rfl, execBranch, onFlight_acts h]
  rfl

/-- A condition that does not test the latch. -/
theorem exec_branch_plain {s : State} {f : Nat} {x : Flight} (h : Acts s f 0x06 x) (hc : fld x.a.toNat 16 4 < 7) :
    let taken := branchTaken (fld x.a.toNat 16 4) x.b x.c ((s.ctx x.ctx).ring x.ring).latch
    exec (.branch f) s = .next (((s.finish f stOk (if taken then 1 else 0) none).branched x taken).framed s) := by
  have ht : (fld x.a.toNat 16 4 == 7 || fld x.a.toNat 16 4 == 8) = false := by
    rw [Bool.or_eq_false_iff, beq_eq_false_iff_ne, beq_eq_false_iff_ne]; omega
  intro taken
  rw [exec_branch h]
  simp only [ht, Bool.false_and, Bool.false_eq_true, if_false]
  refine congrArg (fun v => Host.Outcome.next (((s.finish f stOk v none).branched x taken).framed s)) ?_
  change BitVec.ofNat 64 (b2n taken + 0) = _
  cases taken <;> rfl

/-- A latch condition, once every earlier instruction of the ring has ended. -/
theorem exec_branch_latch {s : State} {f : Nat} {x : Flight} (h : Acts s f 0x06 x) (hc : fld x.a.toNat 16 4 = 7 ∨ fld x.a.toNat 16 4 = 8)
    (hp : ∀ p ∈ s.ringFlights x.ctx x.ring, p.1 < f → p.2.phase = .ended) :
    let latch := ((s.ctx x.ctx).ring x.ring).latch
    let taken := branchTaken (fld x.a.toNat 16 4) x.b x.c latch
    exec (.branch f) s = .next ((((s.unlatched x).finish f stOk (BitVec.ofNat 64 ((if taken then 1 else 0) + latch.toNat * 65536)) none).branched x taken).framed s) := by
  have ht : (fld x.a.toNat 16 4 == 7 || fld x.a.toNat 16 4 == 8) = true := by simpa using hc
  have hn : ((s.ringFlights x.ctx x.ring).any fun p => p.1 < f && p.2.phase != .ended) = false := by simpa using hp
  intro latch taken
  rw [exec_branch h]
  simp only [ht, hn, Bool.and_false, Bool.false_eq_true, if_false, if_true]
  rfl

theorem unlatched_completed {s : State} {f : Nat} {x : Flight} (h : s.flight? f = some x) (v : BitVec 64) :
    Completed s ((s.unlatched x).finish f stOk v none) f x stOk v :=
  finish_completed_of (s.updRing_reg x.ctx x.ring _) h ⟨rfl, rfl, rfl⟩ stOk v none

theorem unlatched_ring (s : State) (x : Flight) (f : Nat) (v : BitVec 64) :
    (((s.unlatched x).finish f stOk v none).ctx x.ctx).ring x.ring = { (s.ctx x.ctx).ring x.ring with latch := 0 } := by
  rw [finish_ring _ _ (by decide), State.unlatched, State.updCtx_ctx, Ctx.updRing_ring_same]

/-! ## LOOP -/

theorem exec_loop {s : State} {f : Nat} {x : Flight} (h : Acts s f 0x07 x) :
    exec (.loop f) s = .next (((s.finish f stOk (if x.c = 0 then 0 else x.c - 1) none).branched x (decide (x.c.toNat ≥ 2))).framed s) := by
  have hv : (if x.c = 0 then 0 else x.c - 1) = 0 ↔ ¬ x.c.toNat ≥ 2 := by
    split_ifs with h0
    · simp [h0]
    · constructor <;> intro k <;> bv_omega
  rw [show exec (.loop f) s = execLoop f s from rfl, execLoop, onFlight_acts h]
  unfold State.branched
  simp only [decide_eq_true_eq]
  by_cases h2 : x.c.toNat ≥ 2
  · rw [if_neg (fun k => hv.mp k h2), if_pos h2]
  · rw [if_pos (hv.mpr h2), if_neg h2]

/-- The instruction that a dispatch launches has the word and operand C of its granule, whether it passes its check or ends at once. -/
theorem dispatch_word {s : State} (h : s.stopped = false) {c ring : Nat} {e : Fetched} {rest : List Fetched}
    (hf : ((s.ctx c).ring ring).fetched = e :: rest) (hm : s.mayDispatch c ring (granWord e.granule 0) = true) :
    ∃ t y, exec (.instructionDispatch c ring) s = .next t ∧ t.flight? s.nextFlight = some y ∧ y.word = granWord e.granule 0 ∧
      y.c = (s.dispatched c ring e).c := by
  rw [exec_instructionDispatch h hf hm]
  dsimp only
  split_ifs
  · exact ⟨_, _, rfl, s.launched_flight? c ring e rest, rfl, rfl⟩
  · obtain ⟨p, m, hy, -⟩ := launched_fails s c ring e rest
      (s.dispatchCheck (s.ctx c) ((s.ctx c).ring ring) (granWord e.granule 0) (granWord e.granule 1) (granWord e.granule 2) (granWord e.granule 3))
    exact ⟨_, _, rfl, hy, rfl, rfl⟩

/-- Settles O16: the ending leaves the ring, and the redirection sets its fetch. -/
theorem branchAndLoop : Obligations.BranchAndLoop := by
  intro s f x r goes
  refine ⟨fun h => ⟨fun hc => ?_, fun hc hp => ?_⟩, fun h => ?_, fun c ring e rest hs hf => ?_⟩
  · exact ⟨_, exec_branch_plain h hc, (finish_completed s h.here stOk _ none).branched x _, branched_goes (finish_ring s f (by decide) _ none _ _) _⟩
  · have hr := unlatched_ring s x f (BitVec.ofNat 64 ((if branchTaken (fld x.a.toNat 16 4) x.b x.c r.latch then 1 else 0) + r.latch.toNat * 65536))
    exact ⟨_, exec_branch_latch h hc hp, (unlatched_completed h.here _).branched x _, branched_goes hr _, (branched_latch _ x _).trans (congrArg Ring.latch hr)⟩
  · exact ⟨_, exec_loop h, (finish_completed s h.here stOk _ none).branched x _, branched_goes (finish_ring s f (by decide) _ none _ _) _⟩
  · intro w hw hm
    obtain ⟨t, y, run, hy, hword, hc⟩ := dispatch_word hs hf hm
    exact ⟨t, y, run, hy, hword, hc.trans (if_pos hw)⟩

end Sys2Proof.Machine
end

section
-- One proof after another: so many at once would not fit beside the model in memory.
set_option Elab.async false
/-! STEP and GSET beside an APPEND that waits for space: a step boundary applies it too, and its ending writes its own register (03 R94, 04 R140). -/
namespace Sys2Proof.Machine
open Sys2Proof

/-- APPEND of two tokens to sequence 4 under gathering 5, in ring 1 of context 0, with X2 as destination: its step boundaries have passed, and it waits
for space. -/
def waitingAppend : Flight := { word := 0x0000000200000020, ring := 1, a := 0x40050000, b := 0x200000000, job := .growing [] 2 }
/-- That APPEND and instruction `x` of ring 0, in an awake machine: sequence 4 has an open block 8 with one token of eight in each of two layers, and
gatherings 5 and 6 of context 0 list it. -/
def besideAppend (x : Flight) : State :=
  let p (l : Nat) : Page := { state := .openP, length := 16, tokens := 1, sheets := 16, location := 16 * l, refcount := 1, origin := { layer := l } }
  let y : Seq := { state := 1, layers := 2, tpp := 8, ptok := 16, entries := [{ base := 8, filled := 1, isOpen := true }] }
  let g : Gath := { live := true, grec := { layers := 2 }, step := 7, members := [4] }
  let s : State := { State.reset with dev := { State.reset.dev with held := false }, flights := [(1, waitingAppend), (2, x)] }
  ((((s.updSeq 4 fun _ => y).updPage 8 fun _ => p 1).updPage 9 fun _ => p 2).updGath 5 fun _ => g).updGath 6 fun _ => g

/-- STEP of gathering 6 to step 8, and GSET that dissolves it; neither has a destination register. -/
def stepOn : Flight := { word := 0xFF00000033, a := 0x60000, b := 8 }
def dissolves : Flight := { word := 0xFF00000040, a := 0x62000 }

/-- Register `n` of context `c` after an outcome. -/
def regAfter (o : Host.Outcome State Fault Refusal) (c n : Nat) : Option (BitVec 64) := match o with | .next t => some ((t.ctx c).reg n) | _ => none

/-- No instruction of that machine waits for a step boundary: the APPEND's have passed. -/
theorem besideAppend_quiet {x : Flight} (h : x.job = .none) : ∀ p ∈ (besideAppend x).flights, ∀ gs, p.2.job ≠ .boundary gs := by
  intro p hp gs k
  rcases List.mem_cons.mp hp with rfl | hp
  · cases k
  · obtain rfl := List.mem_singleton.mp hp
    cases h.symm.trans k

/-- A step in which X2 of context 0, which read 0, reads 2 afterwards is the completion of no instruction without a destination. -/
theorem not_completed_of_regAfter {i : Instr} {s t : State} {f : Nat} {x : Flight} {st : BitVec 16} {v : BitVec 64} (run : exec i s = .next t)
    (hr : regAfter (exec i s) 0 2 = some 2) (h0 : (s.ctx 0).reg 2 = 0) (hd : wSelD x.word = 255) : ¬ Completed s t f x st v := by
  intro ⟨_, regs⟩
  rw [run] at hr
  have h2 : (t.ctx 0).reg 2 = 2 := Option.some.inj hr
  rw [regs, if_neg (by simp [hd]), h0] at h2
  exact absurd h2 (by decide)

set_option maxRecDepth 100000

theorem besideAppend_stepOn : Acts (besideAppend stepOn) 2 0x33 stepOn := ⟨by decide, by decide, by decide, by decide, by decide, by decide⟩
theorem besideAppend_dissolves : Acts (besideAppend dissolves) 2 0x40 dissolves := ⟨by decide, by decide, by decide, by decide, by decide, by decide⟩
/-- The boundary applies the APPEND, which ends with RESULT 2. -/
theorem regAfter_stepOn : regAfter (exec (.step 2) (besideAppend stepOn)) 0 2 = some 2 := by decide
theorem regAfter_dissolves : regAfter (exec (.gsetDissolve 2) (besideAppend dissolves)) 0 2 = some 2 := by decide

/-- Refutes O35: a STEP to a new step value is a step boundary, which applies an APPEND to a member that waits for space as well as one that waits
for the boundary; the APPEND then ends and writes its register, so that the STEP's own is not the only one to change. -/
theorem not_positionsOnlyMoveOn : ¬ Obligations.PositionsOnlyMoveOn := by
  intro h
  obtain ⟨step, -⟩ := h (besideAppend stepOn) 2 stepOn 0 0 0 0
  obtain ⟨t, run, -, -, -, quiet⟩ := (step besideAppend_stepOn rfl).1 (by decide)
  exact not_completed_of_regAfter run regAfter_stepOn (by decide) (by decide) (quiet (besideAppend_quiet rfl))

/-- Refutes O34: the dissolution of a gathering is a step boundary for every APPEND to a member of it; one under another gathering that waits for
space ends there and writes its register, though no APPEND waits for a step boundary. -/
theorem not_gatheringCommands : ¬ Obligations.GatheringCommands := by
  intro h
  obtain ⟨-, -, dissolve⟩ := h (besideAppend dissolves) 2 dissolves besideAppend_dissolves rfl
  obtain ⟨t, run, ⟨-, quiet⟩, -⟩ := (dissolve (by decide)).2 (by decide) (by decide)
  exact not_completed_of_regAfter run regAfter_dissolves (by decide) (by decide) (quiet (besideAppend_quiet rfl))

end Sys2Proof.Machine
end

section
-- One proof after another: so many at once would not fit beside the model in memory.
set_option Elab.async false
/-! LOADW over a record that stands outside the 4,096 of the weight table (09 R292, R294). -/
namespace Sys2Proof.Machine
open Sys2Proof

/-- LOADW of layer 3 of model 0, one page, page 8, with the key of slot 0. -/
def loadsLayer : Flight := { word := 0xFF00000032, a := 0x1030000, b := 8, c := 1 }
/-- An awake machine with that LOADW in flight, its page and its key, and a record of the layer listed at index 4,096, where `State.updWrec` changes the
superseded records instead. -/
def straying : State :=
  let s : State := { State.reset with dev := { State.reset.dev with held := false }, flights := [(1, loadsLayer)] }
  let s := s.updPage 8 fun _ => { state := .sealed, format := 0x10 }
  { s with ps := { s.ps with limit := 64 }, sec := { s.sec with slots := [(0, { state := .loaded, keygen := 5 })] }
           fq := { s.fq with wrecs := [(4096, { valid := true, layer := 3, page := 77 })] } }

/-- The page that the record of a layer names after an outcome. -/
def layerPageAfter (o : Host.Outcome State Fault Refusal) (model layer : Nat) : Option Nat :=
  match o with | .next t => (t.wrecOf model layer).map (·.2.page) | _ => none

set_option maxRecDepth 100000

theorem straying_acts : Acts straying 1 0x32 loadsLayer := ⟨by decide, by decide, by decide, by decide, by decide, by decide⟩
theorem layerPageAfter_straying : layerPageAfter (exec (.loadw 1) straying) 0 3 = some 77 := by decide

/-- Refutes O37, in its clause on LOADW: it holds of every state, and in one that lists the layer's present record at index 4,096 LOADW's own record
goes to the superseded ones, so that the layer keeps the record that it had, of page 77 and not of page 8. -/
theorem not_combineAndWeights : ¬ Obligations.CombineAndWeights := by
  intro h
  obtain ⟨-, loadw, -⟩ := h straying 1 loadsLayer
  obtain ⟨t, run, -, records⟩ := loadw straying_acts (by decide) (by decide) (by decide) (by decide) (by decide) (by decide) [(3, 4096)] (by decide) (by decide)
  obtain ⟨k, r, here, hpage, -⟩ := records 0 (by decide)
  have hp : layerPageAfter (.next t) 0 3 = some r.page := congrArg (Option.map fun q : Nat × WRec => q.2.page) here
  rw [← run, layerPageAfter_straying, hpage] at hp
  exact absurd hp (by decide)

end Sys2Proof.Machine
end

section
-- One proof after another: so many at once would not fit beside the model in memory.
set_option Elab.async false
/-! Tables read while every pseudo-channel works (04 R117), walkers that hold their slot, and the operations that leave every sequence. -/
namespace Sys2Proof.Machine
open Sys2Proof

/-! ## Tables, walkers, bits -/

theorem State.lostOf_none {s : State} (h : s.dev.pchDown = []) (l : List Nat) : s.lostOf l = none := by
  rw [State.lostOf, h]; rfl
theorem State.readable_ok {s : State} (h : s.dev.pchDown = []) (f : Nat) (l : List Nat) (k : State → State) : s.readable f l k = k s := by
  rw [State.readable, State.lostOf_none h]
theorem State.asWalker_held {s : State} {f : Nat} {x : Flight} (hf : s.flight? f = some x) (hw : x.walker.isSome = true) (k : State → State) :
    s.asWalker f k = k s := by
  rw [State.asWalker, State.flight_of_flight? hf, if_pos hw]
theorem State.awaitGate_off (s : State) (f off n : Nat) (k : State → State) : s.awaitGate f false off n k = k s := rfl
theorem getLsbD_eq_fld (v : BitVec 64) (i : Nat) : v.getLsbD i = decide (fld v.toNat i 1 = 1) := by
  rw [BitVec.getLsbD, Nat.testBit_eq_decide_div_mod_eq]; rfl

theorem seq_congr {s t : State} (h : t.ps.seqs = s.ps.seqs) (q : Nat) : t.seq q = s.seq q := by simp [State.seq, h]
theorem page_congr {s t : State} (h : t.ps.pages = s.ps.pages) (p : Nat) : t.page p = s.page p := by simp [State.page, h]
/-- Page `p` changes by `g` and no other does. -/
theorem State.updPage_page_eq {s : State} (h : s.dev.pchDown = []) (p q : Nat) (g : Page → Page) :
    (s.updPage p g).page q = if q = p then g (s.page p) else s.page q := by
  split_ifs with e
  · rw [e, s.updPage_page p g (s.granuleLost_none _ h)]
  · exact s.updPage_page_ne g e
theorem State.updSeq_seq_eq {s : State} (h : s.dev.pchDown = []) (p q : Nat) (g : Seq → Seq) :
    (s.updSeq p g).seq q = if q = p then g (s.seq p) else s.seq q := by
  split_ifs with e
  · rw [e, s.updSeq_seq p g (s.granuleLost_none _ h)]
  · exact s.updSeq_seq_ne g e

theorem Completed.framed {s t : State} {f : Nat} {x : Flight} {st : BitVec 16} {v : BitVec 64} (h : Completed s t f x st v) (u : State) :
    Completed s (t.framed u) f x st v := h

/-! ## Operations that leave every sequence -/

/-- Every sequence's table stays. -/
def SameSeqs (s t : State) : Prop := t.ps.seqs = s.ps.seqs

theorem SameSeqs.refl (s : State) : SameSeqs s s := rfl
theorem SameSeqs.trans {s t u : State} (h : SameSeqs s t) (k : SameSeqs t u) : SameSeqs s u := Eq.trans k h
theorem SameSeqs.only {l : List Part} {s t : State} (h : OnlyChanges l s t) (hp : .ps ∉ l := by decide) : SameSeqs s t := congrArg Ps.seqs (h .ps hp)
theorem SameSeqs.ite {s t u : State} {p : Prop} [Decidable p] (h : p → SameSeqs s t) (k : ¬p → SameSeqs s u) : SameSeqs s (if p then t else u) := by
  split
  · exact h ‹_›
  · exact k ‹_›
theorem SameSeqs.foldl {α : Type} (f : State → α → State) (h : ∀ s a, SameSeqs s (f s a)) (l : List α) (s : State) : SameSeqs s (l.foldl f s) := by
  induction l generalizing s with
  | nil => exact .refl s
  | cons a l ih => exact (h s a).trans (ih _)
theorem SameSeqs.seq {s t : State} (h : SameSeqs s t) (q : Nat) : t.seq q = s.seq q := seq_congr h q

theorem SameSeqs.framed {s t : State} (h : SameSeqs s t) (u : State) : SameSeqs s (t.framed u) := h
theorem SameSeqs.updPage (s : State) (p : Nat) (g : Page → Page) : SameSeqs s (s.updPage p g) := rfl
theorem SameSeqs.updAux (s : State) (p : Nat) (g : Aux → Aux) : SameSeqs s (s.updAux p g) := rfl
theorem SameSeqs.retire (s : State) (r : Retire) : SameSeqs s (s.retire r) := rfl
theorem SameSeqs.dropWalker (s : State) (i : Nat) : SameSeqs s (s.dropWalker i) := rfl
theorem SameSeqs.dropCopy (s : State) (p : Nat) : SameSeqs s (s.dropCopy p) := .ite (fun _ => rfl) fun _ => .refl s
theorem SameSeqs.retireHome (s : State) (p : Nat) : SameSeqs s (s.retireHome p) := .ite (fun _ => rfl) fun _ => .refl s
theorem SameSeqs.dropCold (s : State) (p : Nat) : SameSeqs s (s.dropCold p) := .ite (fun _ => .dropCopy s p) fun _ => .refl s
theorem SameSeqs.askMove (s : State) (k : MoveKind) (p c pos g : Nat) : SameSeqs s (s.askMove k p c pos g) := .only (OnlyChanges.askMove s k p c pos g)
theorem SameSeqs.classMoves (s : State) (p old c : Nat) : SameSeqs s (s.classMoves p old c) :=
  SameSeqs.trans (.ite (fun _ => .ite (fun _ => .askMove s _ p c 0 0) fun _ => .ite (fun _ => .askMove s _ p c 0 0) fun _ =>
    .ite (fun _ => .retireHome s p) fun _ => .refl s) fun _ => .refl s) (.dropCold _ p)
theorem SameSeqs.reclassPage (s : State) (es : List Entry) (c p : Nat) : SameSeqs s (s.reclassPage es c p) := by
  refine .ite (fun _ => .refl s) fun _ => SameSeqs.trans ?_ (.classMoves _ p _ c)
  have h := SameSeqs.updPage s p fun g => { g with cls := effClass es g.cls, hint := effHint es }
  exact .ite (fun _ => h) fun _ => h.trans (.updAux _ _ _)
/-- New classes and hints of a block's pages change no sequence's table. -/
theorem SameSeqs.reclass (s : State) (base n c : Nat) : SameSeqs s (s.reclass base n c) :=
  .foldl (fun (t : State) i => t.reclassPage (s.holders base) c (base + i)) (fun t _ => .reclassPage t _ c _) _ s
theorem SameSeqs.retireTaken (s : State) (ps : List Nat) : SameSeqs s (s.retireTaken ps) :=
  .ite (fun _ => .refl s) fun _ => SameSeqs.trans (.foldl _ (fun t i => .updPage t i _) ps s) (.retire _ _)
theorem SameSeqs.dropJob (s : State) (j : Job) (ok : Bool) : SameSeqs s (s.dropJob j ok) := by
  unfold State.dropJob
  split
  · next p =>
    have h : SameSeqs s (s.updExt p.ext fun e => { e with begun := e.begun - 1 }) := .only (OnlyChanges.updExt s _ _)
    exact SameSeqs.ite (fun _ => h) fun _ => h.trans (.retireTaken _ _)
  · exact .retireTaken s _
  · exact .refl s
theorem SameSeqs.dropHolds (s : State) (f : Nat) : SameSeqs s (s.dropHolds f) := by
  unfold State.dropHolds
  dsimp only
  have h : SameSeqs s ((s.flight f).holds.foldl (fun s i => s.freeCredits i 1) s) :=
    .foldl (fun (s : State) i => s.freeCredits i 1) (fun t i => .only (OnlyChanges.freeCredits t i 1)) _ s
  split
  · exact h.trans (.dropWalker _ _)
  · exact h
/-- An ending changes no sequence's table. -/
theorem SameSeqs.finish (s : State) (f : Nat) (st : BitVec 16) (res : BitVec 64) (cw : Option (BitVec 64)) : SameSeqs s (s.finish f st res cw) := by
  unfold State.finish
  extract_lets x e s1 s2 s3 s4 s5
  have h3 : SameSeqs s s3 := ((SameSeqs.dropJob s x.job _).trans (.dropHolds s1 f)).trans (.only (OnlyChanges.updFlight s2 f _))
  have h5 : SameSeqs s s5 := h3.trans (.only (OnlyChanges.endCounts s3 x e st))
  exact h5.trans (.ite (fun _ => .refl s5) fun _ => .only (OnlyChanges.endCtx s5 f st res))
theorem SameSeqs.fail (s : State) (f : Nat) (st : BitVec 16) : SameSeqs s (s.fail f st) := .finish s f st 0 none

/-- The state after an ending and within its frame, of which the sequences are those before it. -/
theorem finish_seq {s t : State} (h : SameSeqs s t) (u : State) (f : Nat) (st : BitVec 16) (res : BitVec 64) (q : Nat) :
    (((t.finish f st res none).framed u).seq q) = s.seq q := (h.trans (.finish t f st res none)).seq q

end Sys2Proof.Machine
end

section
-- One proof after another: so many at once would not fit beside the model in memory.
set_option Elab.async false
/-! SEAL, STAGE, HINT and DEMOTE (03 R96 to R98). -/
namespace Sys2Proof.Machine
open Sys2Proof

/-! ## SEAL -/

theorem sealOn_done {s : State} {f : Nat} {ps : List Nat} (hs : ∀ p ∈ ps, (s.page p).state ≠ .sealing)
    (hp : ∀ p ∈ ps, (s.page p).formed = true → (s.page p).poison = false) :
    s.sealOn f ps = s.finish f stOk (BitVec.ofNat 64 (ps.filter fun p => (s.page p).formed).length) none := by
  have hu : s.unsent ps = [] := List.filter_eq_nil_iff.mpr fun p hm => by simp [hs p hm]
  have hw : (ps.any fun p => (s.page p).state == .sealing) = false := by simpa using hs
  have hb : ((ps.filter fun p => (s.page p).formed).any fun p => (s.page p).poison) = false := by simpa using hp
  simp only [State.sealOn, hu, State.sendSeals, hw, hb, Bool.false_eq_true, if_false]

theorem exec_seal_more {s : State} {f : Nat} {x : Flight} (h : Acts s f 0x21 x) {ps : List Nat} (hj : x.job = .sealing ps) :
    exec (.seal f) s = .next ((s.sealOn f ps).framed s) := by
  rw [show exec (.seal f) s = execSeal f s from rfl, execSeal, onFlight_acts h, hj]

/-- The pages that a SEAL of the blocks below `n` waits for: those neither formed nor retiring. -/
def State.toSeal (s : State) (q n : Nat) : List Nat :=
  ((s.seq q).rangePages 0 n 0 (s.seq q).layers).filter fun p => !(s.page p).formed && (s.page p).state != .retiring

theorem exec_seal {s : State} {f : Nat} {x : Flight} (h : Acts s f 0x21 x) (hj : x.job = .none) (hd : s.dev.pchDown = [])
    (hc : s.seqCheck x.ctx (sSeq x.a) = stOk) (hn : sBlock x.a ≤ (s.seq (sSeq x.a)).entries.length) :
    let u := if x.b.getLsbD 0 then s.sealFinal (sSeq x.a) (sBlock x.a) else s
    exec (.seal f) s = .next ((u.sealOn f (u.toSeal (sSeq x.a) (sBlock x.a))).framed s) := by
  rw [show exec (.seal f) s = execSeal f s from rfl, execSeal, onFlight_acts h, hj]
  dsimp only
  rw [State.readable_ok hd, hc, if_neg (by simp), if_neg (by omega), State.readable_ok hd]
  rfl

theorem sealFinal_closed {s : State} {q n : Nat} (h : ((s.seq q).entries.getLastD {}).isOpen = false) :
    s.sealFinal q n = s.updSeq q fun y => { y with state := 2 } := by
  simp only [State.sealFinal, h, Bool.not_false, if_true]

/-- With FINAL, once nothing of the range seals. -/
theorem seal_final {s : State} {f : Nat} {x : Flight} (h : Acts s f 0x21 x) (hj : x.job = .none) (hd : s.dev.pchDown = [])
    (hc : s.seqCheck x.ctx (sSeq x.a) = stOk) (hn : sBlock x.a ≤ (s.seq (sSeq x.a)).entries.length) (hfin : fld x.b.toNat 0 1 = 1)
    (hopen : ((s.seq (sSeq x.a)).entries.getLastD {}).isOpen = false)
    (hp : ∀ p ∈ (s.seq (sSeq x.a)).rangePages 0 (sBlock x.a) 0 (s.seq (sSeq x.a)).layers, (s.page p).state ≠ .sealing) :
    ∃ t, exec (.seal f) s = .next t ∧ Completed s t f x stOk 0 ∧
      (t.seq (sSeq x.a)).state = 2 ∧ (t.seq (sSeq x.a)).entries = (s.seq (sSeq x.a)).entries := by
  have run := exec_seal h hj hd hc hn
  rw [getLsbD_eq_fld, hfin, if_pos (by simp), sealFinal_closed hopen] at run
  set u := s.updSeq (sSeq x.a) fun y => { y with state := 2 }
  change exec (.seal f) s = .next ((u.sealOn f (u.toSeal _ _)).framed s) at run
  have hq : u.seq (sSeq x.a) = { s.seq (sSeq x.a) with state := 2 } := (State.updSeq_seq_eq hd _ _ _).trans (if_pos rfl)
  have hl : u.toSeal (sSeq x.a) (sBlock x.a) =
      ((s.seq (sSeq x.a)).rangePages 0 (sBlock x.a) 0 (s.seq (sSeq x.a)).layers).filter fun p => !(s.page p).formed && (s.page p).state != .retiring := by
    rw [State.toSeal, hq]; rfl
  have none_formed : ((u.toSeal (sSeq x.a) (sBlock x.a)).filter fun p => (u.page p).formed) = [] := by
    rw [hl, List.filter_filter, List.filter_eq_nil_iff]
    intro p _
    change ¬((s.page p).formed && _) = true
    cases (s.page p).formed <;> simp
  rw [sealOn_done (s := u) (fun p hm => hp p (List.mem_of_mem_filter (hl ▸ hm)))
    (fun p hm hf => absurd (List.mem_filter.mpr ⟨hm, hf⟩) (none_formed ▸ List.not_mem_nil)), none_formed, List.length_nil] at run
  have hs := (finish_seq (.refl u) s f stOk 0#64 (sSeq x.a)).trans hq
  exact ⟨_, run, finish_completed_after (OnlyChanges.updSeq s _ _) h.here stOk 0 none, (congrArg Seq.state hs :), (congrArg Seq.entries hs :)⟩

/-! ## STAGE -/

/-- A field that a change of a page keeps. -/
theorem State.updPage_keeps {α : Type} (a : Page → α) (s : State) (p r : Nat) {g : Page → Page} (h : ∀ x, a (g x) = a x := by intro x; rfl) :
    a ((s.updPage p g).page r) = a (s.page r) := by
  by_cases hr : r = p
  · subst hr
    cases hl : s.granuleLost (s.descAddr r) with
    | true => rw [s.updPage_lost r g hl]
    | false => rw [s.updPage_page r g hl, h]
  · rw [s.updPage_page_ne g hr]

/-- A stamp leaves where a page lies and whether it is poisoned. -/
theorem State.stampBySeq_page (s : State) (q p r : Nat) :
    (((s.stampBySeq q p).page r).tier, ((s.stampBySeq q p).page r).poison) = ((s.page r).tier, (s.page r).poison) := by
  unfold State.stampBySeq
  dsimp only
  split_ifs
  · exact State.updPage_keeps (fun g => (g.tier, g.poison)) s p r
  · rfl
theorem OnlyChanges.stampBySeq (s : State) (q p : Nat) : OnlyChanges [.ps] s (s.stampBySeq q p) :=
  .ite (fun _ => (OnlyChanges.stampSeq _ q _).seq (OnlyChanges.stampPage s p _)) fun _ => .refl _ s

/-- The pages read through a sequence, stamped. -/
def State.stampAll (s : State) (q : Nat) (ps : List Nat) : State := ps.foldl (fun s p => s.stampBySeq q p) s

theorem OnlyChanges.stampAll (s : State) (q : Nat) (ps : List Nat) : OnlyChanges [.ps] s (s.stampAll q ps) :=
  .foldl (fun (s : State) p => s.stampBySeq q p) (fun s p => OnlyChanges.stampBySeq s q p) ps s
theorem State.stampAll_page (s : State) (q : Nat) (ps : List Nat) (r : Nat) :
    ((s.stampAll q ps).page r).tier = (s.page r).tier ∧ ((s.stampAll q ps).page r).poison = (s.page r).poison := by
  unfold State.stampAll
  induction ps generalizing s with
  | nil => exact ⟨rfl, rfl⟩
  | cons p ps ih =>
    obtain ⟨ht, hp⟩ := Prod.mk.inj (s.stampBySeq_page q p r)
    exact ⟨(ih _).1.trans ht, (ih _).2.trans hp⟩

/-- Pages with a move. -/
def State.movePages (s : State) : List Nat := s.tier.moves.map Move.page

theorem State.moveOf_isSome (s : State) (p : Nat) : (s.moveOf p).isSome = true ↔ p ∈ s.movePages := by
  simp [State.moveOf, State.movePages]
theorem movePages_congr {s t : State} (h : t.tier = s.tier) : t.movePages = s.movePages := by rw [State.movePages, h]; rfl
theorem State.updMove_movePages (s : State) (p : Nat) {g : Move → Move} (h : ∀ m, (g m).page = m.page := by intro m; rfl) : (s.updMove p g).movePages = s.movePages := by
  simp only [State.movePages, State.updMove, List.map_map]
  refine List.map_congr_left fun m _ => ?_
  simp only [Function.comp]
  split_ifs
  · exact h m
  · rfl
theorem State.askCredit_movePages (s : State) (p : Nat) : (s.askCredit p).movePages = s.movePages := by
  unfold State.askCredit
  split
  · next m _ =>
    split_ifs
    · rfl
    · unfold State.moveCredit
      dsimp only
      split_ifs
      · rfl
      · exact (State.updMove_movePages _ _).trans (movePages_congr (OnlyChanges.takeCredits s _ 1 .tier (by decide)))
      · rfl
  · rfl
/-- Asking for a move of a page adds one only where the page has none. -/
theorem State.askMove_movePages (s : State) (k : MoveKind) (p c pos g : Nat) :
    (s.askMove k p c pos g).movePages = if p ∈ s.movePages then s.movePages else s.movePages ++ [p] := by
  have here := s.moveOf_isSome p
  unfold State.askMove
  split
  · next m hm =>
    rw [if_pos (here.mp (by rw [hm]; rfl))]
    split_ifs
    · exact s.updMove_movePages p
    · rfl
    · unfold State.toPrefetch
      refine (State.askCredit_movePages _ _).trans ((State.updMove_movePages _ _).trans ?_)
      split_ifs
      · rfl
      · exact movePages_congr (OnlyChanges.freeCredits s _ 1 .tier (by decide))
    · exact s.updMove_movePages p
    · exact s.updMove_movePages p
    · rfl
  · next hm =>
    rw [if_neg fun h => by simpa [hm] using here.mpr h]
    refine (State.askCredit_movePages _ p).trans ?_
    simp [State.movePages]
theorem asked_movePages (k : MoveKind) (c : Nat) (ps : List Nat) (s : State) :
    (∀ p ∈ s.movePages, p ∈ (ps.foldl (fun s p => s.askMove k p c 0 0) s).movePages) ∧
      ∀ p ∈ ps, p ∈ (ps.foldl (fun s p => s.askMove k p c 0 0) s).movePages := by
  induction ps generalizing s with
  | nil => exact ⟨fun _ h => h, fun _ h => absurd h List.not_mem_nil⟩
  | cons a ps ih =>
    obtain ⟨kept, asked⟩ := ih (s.askMove k a c 0 0)
    have more (p : Nat) (h : p = a ∨ p ∈ s.movePages) : p ∈ (s.askMove k a c 0 0).movePages := by
      rw [s.askMove_movePages]
      split_ifs with ha
      · exact h.elim (fun e => e ▸ ha) id
      · exact List.mem_append.mpr (h.elim (fun e => Or.inr (e ▸ List.mem_singleton_self a)) Or.inl)
    refine ⟨fun p h => kept p (more p (.inr h)), fun p h => ?_⟩
    rcases List.mem_cons.mp h with e | h
    · exact kept p (more p (.inl e))
    · exact asked p h

theorem exec_stage_done {s : State} {f : Nat} {x : Flight} (h : Acts s f 0x22 x) {k : Nat} (hj : x.job = .pages [] k) :
    exec (.stage f) s = .next ((s.finish f stOk (BitVec.ofNat 64 k) none).framed s) := by
  rw [show exec (.stage f) s = execStage f s from rfl, execStage, onFlight_acts h, hj]

/-- The sealed pages of STAGE's range. -/
def State.staged (s : State) (x : Flight) : List Nat :=
  ((s.seq (sSeq x.a)).rangePages (sBlock x.a) (fld x.b.toNat 0 24) (fld x.b.toNat 24 8)
    (layerCount (s.seq (sSeq x.a)).layers (fld x.b.toNat 24 8) (fld x.b.toNat 32 8))).filter fun p => (s.page p).state == .sealed
/-- Those of some pages that are not in T0. -/
def State.awayOf (s : State) (ps : List Nat) : List Nat := ps.filter fun p => (s.page p).tier != 0

theorem State.stampAll_awayOf (s : State) (q : Nat) (ps l : List Nat) : (s.stampAll q l).awayOf ps = s.awayOf ps := by
  simp only [State.awayOf, (s.stampAll_page q l _).1]

theorem exec_stage {s : State} {f : Nat} {x : Flight} (h : Acts s f 0x22 x) (hj : x.job = .none) (hw : x.walker.isSome = true) (hd : s.dev.pchDown = [])
    (hc : s.seqCheck x.ctx (sSeq x.a) = stOk)
    (hr : (s.seq (sSeq x.a)).rangeOk (sBlock x.a) (fld x.b.toNat 0 24) (fld x.b.toNat 24 8) (fld x.b.toNat 32 8) = true) :
    let u := s.stampAll (sSeq x.a) (s.staged x)
    let away := u.awayOf (s.staged x)
    exec (.stage f) s = .next ((if away.any fun p => (u.page p).poison then u.fail f stPoisoned else if away.isEmpty then u.finish f stOk 0 none
      else u.awaitPages f .stage away.eraseDups (.pages away.eraseDups away.eraseDups.length)).framed s) := by
  rw [show exec (.stage f) s = execStage f s from rfl, execStage, onFlight_acts h, hj]
  dsimp only
  rw [State.readable_ok hd, hc, hr, if_neg (by simp), Bool.not_true, if_neg Bool.false_ne_true, State.readable_ok hd, State.asWalker_held h.here hw]
  rfl

/-! ## HINT -/

/-- A table with HINT's hint, and with SETCLASS its class, in entries `b` to `b + n - 1` (03 R97). -/
def hinted (x : Flight) (es : List Entry) : List Entry :=
  (List.range es.length).map fun i =>
    let e := es.getD i {}
    if sBlock x.a ≤ i ∧ i < sBlock x.a + fld x.b.toNat 0 24 then
      { e with hint := fld x.b.toNat 24 2, cls := if x.b.getLsbD 26 then fld x.b.toNat 27 2 else e.cls } else e
/-- The state after HINT's entries have been written and the pages of its blocks have their new classes. -/
def State.hintedState (s : State) (x : Flight) : State :=
  (((s.seq (sSeq x.a)).entries.drop (sBlock x.a)).take (fld x.b.toNat 0 24)).foldl (fun t e => t.reclass e.base (s.seq (sSeq x.a)).layers x.ctx)
    (s.updSeq (sSeq x.a) fun y => { y with entries := hinted x y.entries })

theorem exec_hint {s : State} {f : Nat} {x : Flight} (h : Acts s f 0x23 x) (hd : s.dev.pchDown = []) (hc : s.seqCheck x.ctx (sSeq x.a) = stOk)
    (hn : sBlock x.a + fld x.b.toNat 0 24 ≤ (s.seq (sSeq x.a)).entries.length) :
    exec (.hint f) s = .next (((s.hintedState x).finish f stOk 0 none).framed s) := by
  rw [show exec (.hint f) s = execHint f s from rfl, execHint, onFlight_acts h]
  dsimp only
  rw [State.readable_ok hd, hc, if_neg (by simp), if_neg (by omega), State.readable_ok hd]
  rfl

theorem hint_ends {s : State} {f : Nat} {x : Flight} (h : Acts s f 0x23 x) (hd : s.dev.pchDown = []) (hc : s.seqCheck x.ctx (sSeq x.a) = stOk)
    (hn : sBlock x.a + fld x.b.toNat 0 24 ≤ (s.seq (sSeq x.a)).entries.length) :
    ∃ t, exec (.hint f) s = .next t ∧ Completed s t f x stOk 0 ∧ (t.seq (sSeq x.a)).entries = hinted x (s.seq (sSeq x.a)).entries := by
  set u := s.updSeq (sSeq x.a) fun y => { y with entries := hinted x y.entries } with hu
  have only : OnlyChanges pageParts s (s.hintedState x) := (OnlyChanges.updSeq s _ _).mono.trans
    (.foldl (fun (t : State) (e : Entry) => t.reclass e.base (s.seq (sSeq x.a)).layers x.ctx) (fun t e => OnlyChanges.reclass t e.base _ x.ctx) _ u)
  have same : SameSeqs u (s.hintedState x) :=
    .foldl (fun (t : State) (e : Entry) => t.reclass e.base (s.seq (sSeq x.a)).layers x.ctx) (fun t e => SameSeqs.reclass t e.base _ x.ctx) _ u
  refine ⟨_, exec_hint h hd hc hn, finish_completed_after only h.here stOk 0 none, ?_⟩
  rw [finish_seq same, State.updSeq_seq_eq hd, if_pos rfl]

/-- HINT where the granule of the sequence's header cannot be read. -/
theorem hint_lost {s : State} {f : Nat} {x : Flight} (h : Acts s f 0x23 x) {a : Nat} (hl : s.lostOf [s.headAddr (sSeq x.a)] = some a) :
    ∃ t, exec (.hint f) s = .next t ∧ Completed s t f x stPoisoned 0 ∧ t.ps.seqs = s.ps.seqs := by
  have only := OnlyChanges.badGranule s 8 a (some (s.fnOf x.ctx)) (some x.ctx) stPoisoned (wTag x.word)
  have run : exec (.hint f) s =
      .next (((s.badGranule 8 a (some (s.fnOf x.ctx)) (some x.ctx) stPoisoned (wTag x.word)).finish f stPoisoned 0 none).framed s) := by
    rw [show exec (.hint f) s = execHint f s from rfl, execHint, onFlight_acts h]
    simp only [State.readable, hl]
    rw [State.flight_of_flight? h.here, State.fail]
  exact ⟨_, run, (finish_completed_after only h.here stPoisoned 0 none).framed s, ((SameSeqs.only only).trans (.finish _ f stPoisoned 0 none)).framed s⟩

/-! ## DEMOTE -/

theorem exec_demote_done {s : State} {f : Nat} {x : Flight} (h : Acts s f 0x24 x) {m k bad : Nat} (hj : x.job = .demote [] m k bad) :
    exec (.demote f) s =
      .next ((s.finish f stOk (BitVec.ofNat 64 (m % 2 ^ 32 + k % 65536 * 2 ^ 32 + bad % 65536 * 2 ^ 48)) none).framed s) := by
  rw [show exec (.demote f) s = execDemote f s from rfl, execDemote, onFlight_acts h, hj, ← demoteResult]

theorem demoteAll_skipped {s : State} {ps : List Nat} (h : ∀ p ∈ ps, s.demoteSkips p = true) (c tier : Nat) (w : List Nat) (m k : Nat) :
    s.demoteAll c tier (w, m, k) ps = ((w, m, k + ps.length), s) := by
  induction ps generalizing k with
  | nil => rfl
  | cons p ps ih =>
    rw [State.demoteAll, State.demoteOne]
    dsimp only
    rw [if_pos (h p List.mem_cons_self)]
    dsimp only
    rw [ih fun q hq => h q (List.mem_cons_of_mem p hq), List.length_cons, Nat.add_assoc, Nat.add_comm 1]

theorem exec_demote_skipped {s : State} {f : Nat} {x : Flight} (h : Acts s f 0x24 x) (hj : x.job = .none) (hw : x.walker.isSome = true)
    (hd : s.dev.pchDown = []) (hc : s.seqCheck x.ctx (sSeq x.a) = stOk)
    (hn : sBlock x.a + fld x.b.toNat 0 24 ≤ (s.seq (sSeq x.a)).entries.length) :
    let ps := ((s.seq (sSeq x.a)).rangePages (sBlock x.a) (fld x.b.toNat 0 24) 0 (s.seq (sSeq x.a)).layers).eraseDups
    (∀ p ∈ ps, (s.page p).scope = 0) → (∀ p ∈ ps, s.demoteSkips p = true) →
      exec (.demote f) s = .next ((s.finish f stOk (demoteResult 0 ps.length 0) none).framed s) := by
  intro ps hscope hskip
  have hall : (ps.any fun p => (s.page p).scope != 0 && !(s.ctx x.ctx).hasScope (s.page p).scope) = false := by
    rw [List.any_eq_false]
    intro p hp
    simp [hscope p hp]
  rw [show exec (.demote f) s = execDemote f s from rfl, execDemote, onFlight_acts h, hj]
  dsimp only
  rw [State.readable_ok hd, hc, if_neg (by simp), if_neg (by omega), State.readable_ok hd, hall, if_neg Bool.false_ne_true,
    State.asWalker_held h.here hw, demoteAll_skipped hskip, Nat.zero_add]

/-- Settles O30: each ending is reached after operations that leave contexts and instructions, the tables changing by HINT's and FINAL's own write only. -/
theorem sealStageHintDemote : Obligations.SealStageHintDemote := by
  intro s f x q y b n
  refine ⟨fun h => ⟨fun ps hj hs hp => ⟨_, exec_seal_more h hj, ?_⟩, fun hj hd hc hn hfin hopen hp => seal_final h hj hd hc hn hfin hopen hp⟩,
    fun h => ⟨fun k hj => ⟨_, exec_stage_done h hj, finish_completed s h.here stOk _ none⟩, ?_⟩,
    fun h hd hc hn => ?_, fun h a ha => hint_lost h ha, fun h => ⟨fun m k bad hj => ⟨_, exec_demote_done h hj, finish_completed s h.here stOk _ none⟩, ?_⟩⟩
  · rw [sealOn_done hs hp]
    exact finish_completed s h.here stOk _ none
  · intro hj hw hd hc hr ps
    have run := exec_stage h hj hw hd hc hr
    have only := OnlyChanges.stampAll s q (s.staged x)
    simp only [s.stampAll_awayOf] at run
    refine ⟨fun ht => ?_, fun ⟨p, hp, htp⟩ hgood => ?_⟩
    · have none_away : s.awayOf (s.staged x) = [] := List.filter_eq_nil_iff.mpr fun p hp => by simpa using ht p hp
      simp only [none_away] at run
      exact ⟨_, run, finish_completed_after only h.here stOk 0 none⟩
    · have away_of (p : Nat) : p ∈ s.awayOf (s.staged x) ↔ p ∈ s.staged x ∧ (s.page p).tier ≠ 0 := by simp [State.awayOf]
      have hok : ((s.awayOf (s.staged x)).any fun p => ((s.stampAll (sSeq x.a) (s.staged x)).page p).poison) = false := by
        rw [List.any_eq_false]
        intro r hr
        obtain ⟨hr, ht⟩ := (away_of r).mp hr
        simp [(s.stampAll_page (sSeq x.a) (s.staged x) r).2, hgood r hr ht]
      have hne : (s.awayOf (s.staged x)).isEmpty = false := by
        rw [List.isEmpty_eq_false_iff_exists_mem]
        exact ⟨p, (away_of p).mpr ⟨hp, htp⟩⟩
      simp only [hok, hne, Bool.false_eq_true, if_false] at run
      refine ⟨_, run, fun r hr ht => ?_⟩
      refine (State.moveOf_isSome _ r).mpr ?_
      exact (asked_movePages .stage _ _ (s.stampAll q (s.staged x))).2 r (List.mem_eraseDups.mpr ((away_of r).mpr ⟨hr, ht⟩))
  · obtain ⟨t, run, done, he⟩ := hint_ends h hd hc hn
    have hlen : (hinted x y.entries).length = y.entries.length := by simp [hinted]
    refine ⟨t, run, done, by rw [he]; exact hlen, fun i hi => ?_⟩
    rw [he, List.getD_eq_getElem _ _ (by rw [hlen]; exact hi)]
    simp only [hinted, List.getElem_map, List.getElem_range, getLsbD_eq_fld, decide_eq_true_eq]
    rfl
  · intro hj hw hd hc hn ps hscope hskip
    refine ⟨_, exec_demote_skipped h hj hw hd hc hn hscope hskip, ?_⟩
    have hres : demoteResult 0 ps.length 0 = BitVec.ofNat 64 (ps.length % 65536 * 2 ^ 32) := by simp [demoteResult]
    rw [hres]
    exact finish_completed s h.here stOk _ none

end Sys2Proof.Machine
end

section
-- One proof after another: so many at once would not fit beside the model in memory.
set_option Elab.async false
/-! Outputs that go to T0 (03 R99, R104), and DELIVER to the output buffer. -/
namespace Sys2Proof.Machine
open Sys2Proof

/-! ## Several writes of memory, and reads of parts -/

/-- The memory after writes one after another, each an address and its bytes. -/
def memWrites (m : List Host.Cell) (ws : List (Nat × Bytes)) : List Host.Cell := ws.foldl (fun m w => memWrite m w.1 w.2) m
/-- An address lies outside what a write covers. -/
def Outside (a : Nat) (w : Nat × Bytes) : Prop := a < w.1 ∨ w.1 + w.2.length ≤ a
/-- Two writes cover no common address. -/
def Apart (v w : Nat × Bytes) : Prop := v.1 + v.2.length ≤ w.1 ∨ w.1 + w.2.length ≤ v.1

theorem memRead_writes_out {ws : List (Nat × Bytes)} {a : Nat} (h : ∀ w ∈ ws, Outside a w) (m : List Host.Cell) :
    memRead (memWrites m ws) a = memRead m a := by
  induction ws generalizing m with
  | nil => rfl
  | cons v ws ih =>
    exact (ih (fun w hw => h w (List.mem_cons_of_mem v hw)) _).trans (memRead_write_out m v.1 a v.2 (h v List.mem_cons_self))

/-- Writes that lie apart all stand in the memory after them. -/
theorem memRead_writes_in {ws : List (Nat × Bytes)} (h : ws.Pairwise Apart) {w : Nat × Bytes} (hw : w ∈ ws) {j : Nat} (hj : j < w.2.length)
    (m : List Host.Cell) : memRead (memWrites m ws) (w.1 + j) = w.2[j] := by
  induction ws generalizing m with
  | nil => exact absurd hw List.not_mem_nil
  | cons v ws ih =>
    obtain ⟨apart, rest⟩ := List.pairwise_cons.mp h
    rcases List.mem_cons.mp hw with rfl | hw
    · change memRead (memWrites (memWrite m w.1 w.2) ws) _ = _
      refine (memRead_writes_out (fun u hu => ?_) _).trans (memRead_write_in m w.1 j w.2 hj)
      have := apart u hu
      unfold Apart at this
      unfold Outside
      omega
    · exact ih rest hw _

@[simp] theorem memReadN_length (m : List Host.Cell) (a n : Nat) : (memReadN m a n).length = n := by simp [memReadN]
theorem memReadN_getElem (m : List Host.Cell) (a n : Nat) {i : Nat} (h : i < (memReadN m a n).length) : (memReadN m a n)[i] = memRead m (a + i) := by
  simp [memReadN]
theorem memReadN_take (m : List Host.Cell) (a n k : Nat) : (memReadN m a n).take k = memReadN m a (min k n) := by
  rw [memReadN, ← List.map_take, List.take_range, memReadN]
theorem memReadN_drop (m : List Host.Cell) (a n k : Nat) : (memReadN m a n).drop k = memReadN m (a + k) (n - k) := by
  refine List.ext_getElem (by simp) fun i h h' => ?_
  rw [List.getElem_drop, memReadN_getElem, memReadN_getElem, Nat.add_assoc]

/-! ## Pieces of output placed in T0 -/

/-- The write that a destination in T0 takes of the data. -/
def Dest.write (data : Bytes) (d : Dest) : Nat × Bytes := (d.addr, (data.drop d.off).take d.len)

theorem placed_t0 {ds : List Dest} (hk : ∀ d ∈ ds, d.kind = 0) {s : State} (hd : s.dev.pchDown = []) (f : Nat) (data : Bytes) (svc : Nat) (counted : Bool) :
    OnlyChanges [.t0] s (ds.foldl (fun s d => s.place f data svc counted d) s) ∧
      (ds.foldl (fun s d => s.place f data svc counted d) s).t0 = memWrites s.t0 (ds.map (Dest.write data)) := by
  induction ds generalizing s with
  | nil => exact ⟨.refl _ s, rfl⟩
  | cons d ds ih =>
    have e : s.place f data svc counted d = s.t0Write d.addr ((data.drop d.off).take d.len) := if_pos (hk d List.mem_cons_self)
    have only := OnlyChanges.t0Write s d.addr ((data.drop d.off).take d.len)
    rw [List.foldl_cons, e]
    obtain ⟨o, m⟩ := ih (fun d hm => hk d (List.mem_cons_of_mem _ hm)) (s := s.t0Write d.addr _) ((congrArg Dev.pchDown (only .dev (by decide))).trans hd)
    exact ⟨only.trans o, m.trans (congrArg (memWrites · _) (t0Write_t0 hd _ _))⟩

/-- The output of an instruction of a context that is not confidential, all of it to T0. -/
theorem output_t0 {s : State} {f : Nat} {x : Flight} (hf : s.flight? f = some x) (hc : (s.ctx x.ctx).conf = false) (hd : s.dev.pchDown = [])
    {ds : List Dest} (hk : ∀ d ∈ ds, d.kind = 0) (data : Bytes) (svc : Nat) :
    ∃ t, s.output f data ds svc = some t ∧ OnlyChanges [.t0] s t ∧ t.t0 = memWrites s.t0 (ds.map (Dest.write data)) := by
  refine ⟨_, ?_, placed_t0 hk hd f data svc (x.mirror.isSome || wOpcode x.word == 0x30)⟩
  rw [State.output, State.flight_of_flight? hf]
  dsimp only
  rw [hc, Bool.false_and, if_neg Bool.false_ne_true]

/-! ## Ends that may wait for acknowledgements -/

theorem outstanding_congr {s t : State} (he : t.eg = s.eg) (hn : t.net = s.net) (f : Nat) : t.outstanding f = s.outstanding f := by
  rw [State.outstanding, he, hn]; rfl
theorem finishWrites_now {s : State} {f : Nat} (h : s.outstanding f = false) (st : BitVec 16) (res : BitVec 64) (cw : Option (BitVec 64)) :
    s.finishWrites f st res cw = s.finish f st res cw := by
  rw [State.finishWrites, h, if_neg Bool.false_ne_true]

/-! ## DELIVER -/

/-- The pages of a delivery in raw form, each with its slot. -/
def State.rawPieces (s : State) (ps : List Nat) (i : Nat) : List (Nat × Bytes) := (ps.zipIdx i).map fun p => (p.2, s.pageBytes p.1)

theorem deliverPieces_raw {s : State} (hd : s.dev.pchDown = []) {ps : List Nat} (hp : ∀ p ∈ ps, (s.page p).poison = false) (i : Nat) :
    s.deliverPieces 0 i ps = (s.rawPieces ps i, none) := by
  induction ps generalizing i with
  | nil => rfl
  | cons p ps ih =>
    have hb : s.deliverBytes 0 p = (0, s.pageBytes p) := by
      rw [State.deliverBytes, if_pos rfl, if_neg (by simp [State.pageBad, s.rangeBad_none _ _ hd])]
    rw [State.deliverPieces, if_neg (by simp [hp p List.mem_cons_self]), hb]
    dsimp only
    rw [ih fun q hq => hp q (List.mem_cons_of_mem p hq)]
    rfl

/-- Each piece of a delivery is its own part of the data. -/
theorem deliverDests_writes (qp rkey addr : Nat) (pieces : List (Nat × Bytes)) (pre : Bytes) :
    (deliverDests 0 qp rkey addr pre.length pieces).map (Dest.write (pre ++ pieces.flatMap (·.2))) = pieces.map fun p => (addr + 65536 * p.1, p.2) := by
  induction pieces generalizing pre with
  | nil => rfl
  | cons p pieces ih =>
    obtain ⟨i, b⟩ := p
    have := ih (pre ++ b)
    rw [List.length_append, List.append_assoc] at this
    simp only [deliverDests, List.map_cons, List.flatMap_cons, this, Dest.write, List.drop_left, List.take_left]
theorem deliverDests_kind (qp rkey addr : Nat) (pieces : List (Nat × Bytes)) (off : Nat) : ∀ d ∈ deliverDests 0 qp rkey addr off pieces, d.kind = 0 := by
  induction pieces generalizing off with
  | nil => exact fun d h => absurd h List.not_mem_nil
  | cons p pieces ih =>
    obtain ⟨i, b⟩ := p
    intro d h
    rcases List.mem_cons.mp h with rfl | h
    · rfl
    · exact ih _ d h

/-- The writes of a delivery: page `i` at the destination + 65,536 i. -/
def State.pageWrites (s : State) (ps : List Nat) (addr : Nat) : List (Nat × Bytes) := (s.rawPieces ps 0).map fun p => (addr + 65536 * p.1, p.2)

theorem State.pageBytes_length (s : State) (p : Nat) : (s.pageBytes p).length = (s.page p).length := memReadN_length _ _ _
theorem State.mem_pageWrites (s : State) (ps : List Nat) (addr : Nat) (w : Nat × Bytes) :
    w ∈ s.pageWrites ps addr ↔ ∃ i < ps.length, w = (addr + 65536 * i, s.pageBytes (ps.getD i 0)) := by
  simp only [State.pageWrites, State.rawPieces, List.map_map, List.mem_map, List.mem_zipIdx_iff_getElem?, Function.comp, Prod.exists]
  constructor
  · rintro ⟨p, i, hi, rfl⟩
    obtain ⟨h, rfl⟩ := List.getElem?_eq_some_iff.mp hi
    exact ⟨i, h, by rw [List.getD_eq_getElem _ _ h]⟩
  · rintro ⟨i, hi, rfl⟩
    exact ⟨_, i, List.getElem?_eq_getElem hi, by rw [List.getD_eq_getElem _ _ hi]⟩
/-- Pages of at most 65,536 bytes lie apart. -/
theorem State.pageWrites_apart (s : State) {ps : List Nat} (h : ∀ p ∈ ps, (s.page p).length ≤ 65536) (addr : Nat) : (s.pageWrites ps addr).Pairwise Apart := by
  rw [List.pairwise_iff_getElem]
  intro i j hi hj hij
  simp only [State.pageWrites, State.rawPieces, List.length_map, List.length_zipIdx, List.getElem_map, List.getElem_zipIdx] at hi hj ⊢
  have hl := h ps[i] (List.getElem_mem hi)
  refine .inl ?_
  dsimp only
  rw [s.pageBytes_length]
  omega

/-- DELIVER's record and what is kept of it, read from the input buffer. -/
def State.deliverWord (s : State) (x : Flight) : Nat := ofLe (s.t0Read ((s.ctx x.ctx).inAddr + fld x.c.toNat 0 32) 32)
/-- The pages of DELIVER's range. -/
def State.delivered (s : State) (x : Flight) : List Nat :=
  (s.seq (sSeq x.a)).rangePages (sBlock x.a) (fld x.b.toNat 0 24) (fld x.b.toNat 24 8)
    (layerCount (s.seq (sSeq x.a)).layers (fld x.b.toNat 24 8) (fld x.b.toNat 32 8))
/-- The delivery of a record in raw form to the output buffer. -/
def State.rawDelivery (s : State) (x : Flight) : Delivering :=
  { seq := sSeq x.a, pages := s.delivered x, form := 0, kind := 0, qp := fld (s.deliverWord x) 4 14, rkey := fld (s.deliverWord x) 32 32,
    addr := fld (s.deliverWord x) 64 64 }

theorem deliverOn_here {s : State} (hd : s.dev.pchDown = []) {v : Delivering} (ht : ∀ p ∈ v.pages, (s.page p).tier = 0) (f : Nat) :
    s.deliverOn f v = s.deliver f v := by
  have none_away : (v.pages.filter fun p => (s.page p).tier != 0) = [] := List.filter_eq_nil_iff.mpr fun p hp => by simp [ht p hp]
  rw [State.deliverOn, State.readable_ok hd]
  simp only [none_away]
  rfl

theorem exec_deliver {s : State} {f : Nat} {x : Flight} (h : Acts s f 0x25 x) (hj : x.job = .none) (hm : x.mirror = none) (hw : x.walker.isSome = true)
    (hd : s.dev.pchDown = []) (hc : s.seqCheck x.ctx (sSeq x.a) = stOk)
    (hr : (s.seq (sSeq x.a)).rangeOk (sBlock x.a) (fld x.b.toNat 0 24) (fld x.b.toNat 24 8) (fld x.b.toNat 32 8) = true)
    (h0 : fld (s.deliverWord x) 0 4 = 0) (h1 : fld (s.deliverWord x) 18 14 = 0) (h2 : fld (s.deliverWord x) 128 128 = 0)
    (ho : fld (s.deliverWord x) 64 64 + 65536 * (s.delivered x).length ≤ (s.ctx x.ctx).outLen) (ht : ∀ p ∈ s.delivered x, (s.page p).tier = 0) :
    exec (.deliver f) s = .next ((s.deliver f (s.rawDelivery x)).framed s) := by
  have hform : fld (s.deliverWord x) 0 2 = 0 := by simp only [fld] at h0 ⊢; omega
  have hkind : fld (s.deliverWord x) 2 2 = 0 := by simp only [fld] at h0 ⊢; omega
  rw [show exec (.deliver f) s = execDeliver f s from rfl, execDeliver, onFlight_acts h, hj]
  dsimp only
  rw [State.readable_ok hd, hc, hr, if_neg (by simp), Bool.not_true, if_neg Bool.false_ne_true, State.readable_ok hd, s.rangeBad_none _ _ hd,
    Bool.and_false, if_neg Bool.false_ne_true, hm, Option.isSome_none, if_neg Bool.false_ne_true]
  rw [show ofLe (s.t0Read ((s.ctx x.ctx).inAddr + fld x.c.toNat 0 32) 32) = s.deliverWord x from rfl, ← State.delivered]
  rw [hform, hkind, h1, h2, if_neg (by simp), if_neg (by omega), if_neg (by simp), if_neg (by simp), State.asWalker_held h.here hw]
  exact congrArg (fun u => Host.Outcome.next (State.framed u s)) (deliverOn_here (v := s.rawDelivery x) hd ht f)

/-- A delivery in raw form to the output buffer, of pages that can be read: it ends at once, and its writes are those of `State.pageWrites`. -/
theorem deliver_raw {s : State} {f : Nat} {x : Flight} (hf : s.flight? f = some x) (hc : (s.ctx x.ctx).conf = false) (hd : s.dev.pchDown = [])
    (ho : s.outstanding f = false) {v : Delivering} (hform : v.form = 0) (hkind : v.kind = 0) (hp : ∀ p ∈ v.pages, (s.page p).poison = false) :
    ∃ u, s.deliver f v = u.finish f stOk (BitVec.ofNat 64 v.pages.length) none ∧ OnlyChanges [.t0, .ps] s u ∧
      u.t0 = memWrites s.t0 (s.pageWrites v.pages ((s.ctx x.ctx).outAddr + v.addr)) := by
  obtain ⟨q, ps, form, kind, qp, rkey, addr⟩ := v
  subst hform hkind
  have stamps := OnlyChanges.stampAll s q ps
  have hctx : (s.stampAll q ps).ctx x.ctx = s.ctx x.ctx := ctx_congr (stamps .ctxs (by decide)) _
  obtain ⟨t, out, only, mem⟩ := output_t0 (s := s.stampAll q ps) ((flight?_congr (stamps .flights (by decide)) f).trans hf) (by rw [hctx, hc])
    ((congrArg Dev.pchDown (stamps .dev (by decide))).trans hd)
    (deliverDests_kind qp rkey ((s.ctx x.ctx).outAddr + addr) (s.rawPieces ps 0) 0) ((s.rawPieces ps 0).flatMap (·.2)) 1
  have cold : OnlyChanges [.ps] t (ps.foldl State.dropCold t) := .foldl State.dropCold OnlyChanges.dropCold ps t
  have all : OnlyChanges [.t0, .ps] s (ps.foldl State.dropCold t) := cold.seq (only.seq stamps.mono)
  refine ⟨ps.foldl State.dropCold t, ?_, all, ?_⟩
  · rw [State.deliver, State.flight_of_flight? hf, deliverPieces_raw hd hp]
    dsimp only
    rw [if_neg (by simp), if_pos rfl]
    change (match (s.stampAll q ps).output f _ _ 1 with | none => _ | some u => _) = _
    rw [out]
    exact finishWrites_now ((outstanding_congr (all .eg (by decide)) (all .net (by decide)) f).trans ho) _ _ _
  · rw [cold .t0 (by decide), mem, stamps .t0 (by decide)]
    exact congrArg (memWrites s.t0) (deliverDests_writes qp rkey _ (s.rawPieces ps 0) [])

theorem exec_deliver_writes {s : State} {f : Nat} {x : Flight} (h : Acts s f 0x25 x) {st : BitVec 16} {res : BitVec 64} {cw : Option (BitVec 64)}
    (hj : x.job = .writes st res cw) (ho : s.outstanding f = false) : exec (.deliver f) s = .next ((s.finish f st res cw).framed s) := by
  rw [show exec (.deliver f) s = execDeliver f s from rfl, execDeliver, onFlight_acts h, hj]
  dsimp only
  rw [ho, if_neg Bool.false_ne_true]

/-- Settles O31: the pieces of the pages are written apart from each other, and nothing else is. -/
theorem deliverWritesPages : Obligations.DeliverWritesPages := by
  intro s f x h
  refine ⟨fun st res cw hj ho => ⟨_, exec_deliver_writes h hj ho, finish_completed s h.here st res cw⟩, ?_⟩
  intro y d ps out len hj hm hw hconf hd hout hc hr h0 h1 h2 hlen hp
  obtain ⟨u, run, only, mem⟩ := deliver_raw h.here hconf hd hout (v := s.rawDelivery x) rfl rfl fun p hp' => (hp p hp').2.1
  have t0 : ((u.finish f stOk (BitVec.ofNat 64 ps.length) none).framed s).t0 = memWrites s.t0 (s.pageWrites ps ((s.ctx x.ctx).outAddr + fld d 64 64)) :=
    (OnlyChanges.finish u f stOk _ none .t0 (by decide)).trans mem
  refine ⟨_, (exec_deliver h hj hm hw hd hc hr h0 h1 h2 hlen fun p hp' => (hp p hp').1).trans (by rw [run]; rfl), (finish_completed_after only h.here stOk _ none).framed s,
    fun i hi j hj => ?_, fun a ha => ?_⟩
  · have hj' : j < (s.pageBytes (ps.getD i 0)).length := by rw [s.pageBytes_length]; exact hj
    rw [t0]
    refine (memRead_writes_in (s.pageWrites_apart (fun p hp' => (hp p hp').2.2) _) ((s.mem_pageWrites ps _ _).mpr ⟨i, hi, rfl⟩) hj' _).trans ?_
    exact memReadN_getElem _ _ _ _
  · rw [t0]
    refine memRead_writes_out (fun w hw => ?_) _
    obtain ⟨i, hi, rfl⟩ := (s.mem_pageWrites ps _ w).mp hw
    rw [Outside, s.pageBytes_length]
    exact ha i hi

end Sys2Proof.Machine
end

section
-- One proof after another: so many at once would not fit beside the model in memory.
set_option Elab.async false
/-! DIGEST (03 R107) and the freeing of retired objects (04 R138). -/
namespace Sys2Proof.Machine
open Sys2Proof

/-! ## DIGEST -/

/-- Bytes of DIGEST's parent hash and the reserved ones after it: only a chain that starts at a parent has them. -/
def digestHead (x : Flight) : Nat := if fld x.a.toNat 0 2 = 0 ∧ fld x.a.toNat 2 1 ≠ 1 then 32 else 0
/-- Length of DIGEST's input. -/
def digestLen (x : Flight) : Nat := if fld x.a.toNat 0 2 = 0 then digestHead x + 4 * fld x.a.toNat 8 8 * bCount x.b else bCount x.b
/-- What DIGEST writes, its input being at an address. -/
def State.digestOut (s : State) (x : Flight) (src : Nat) : Bytes :=
  if fld x.a.toNat 0 2 = 0 then
    digestChain (fld x.a.toNat 16 16) (if digestHead x = 0 then 0 else BitVec.ofNat 96 (ofLe (s.t0Read src 12)))
      (chunks (4 * fld x.a.toNat 8 8) (bCount x.b) (s.t0Read (src + digestHead x) (4 * fld x.a.toNat 8 8 * bCount x.b)))
  else sha384 (s.t0Read src (bCount x.b))

theorem digestHead_of_chain {x : Flight} (h : fld x.a.toNat 0 2 = 0) : digestHead x = if fld x.a.toNat 2 1 = 1 then 0 else 32 := by
  by_cases hp : fld x.a.toNat 2 1 = 1 <;> simp [digestHead, h, hp]
theorem digestHead_eq_32 {x : Flight} (h : digestHead x = 32) : fld x.a.toNat 0 2 = 0 := by
  by_contra hk
  simp [digestHead, hk] at h
theorem State.digestOut_eq (s : State) (x : Flight) (src : Nat) :
    let head := if fld x.a.toNat 2 1 = 1 then 0 else 32
    s.digestOut x src = if fld x.a.toNat 0 2 = 0
      then digestChain (fld x.a.toNat 16 16) (if head = 0 then 0 else BitVec.ofNat 96 (ofLe (s.t0Read src 12)))
        (chunks (4 * fld x.a.toNat 8 8) (bCount x.b) (s.t0Read (src + head) (4 * fld x.a.toNat 8 8 * bCount x.b)))
      else sha384 (s.t0Read src (bCount x.b)) := by
  intro head
  unfold State.digestOut
  by_cases hk : fld x.a.toNat 0 2 = 0
  · rw [if_pos hk, if_pos hk, digestHead_of_chain hk]
  · rw [if_neg hk, if_neg hk]

theorem idlePipes_ne_zero {s : State} (h : ∃ i < 8, s.dev.pressDown.get i false = false ∧ s.press.pipes.get i 0 = 0) : s.idlePipes ≠ 0 := by
  obtain ⟨i, hi, hd, hp⟩ := h
  have : i ∈ (List.range 8).filter fun p => !s.dev.pressDown.get p false && s.press.pipes.get p 0 == 0 := by simp [hi, hd, hp]
  exact Nat.pos_iff_ne_zero.mp (List.length_pos_of_mem this)

/-- DIGEST of a context that is not confidential, with a working pipeline between pages: one write, and its end. -/
theorem exec_digest {s : State} {f : Nat} {x : Flight} (h : Acts s f 0x38 x) (hc : (s.ctx x.ctx).conf = false) (ha : bAwait x.b = false)
    (hd : s.dev.pchDown = []) (hp : ∃ i < 8, s.dev.pressDown.get i false = false ∧ s.press.pipes.get i 0 = 0)
    (hz : digestHead x = 32 → ofLe (s.t0Read ((s.ctx x.ctx).inAddr + bOffset x.b + 12) 20) = 0) :
    let out := s.digestOut x ((s.ctx x.ctx).inAddr + bOffset x.b)
    ∃ u, exec (.digest f) s = .next ((u.finish f stOk (BitVec.ofNat 64 out.length) none).framed s) ∧ OnlyChanges [.t0] s u ∧
      u.t0 = memWrite s.t0 ((s.ctx x.ctx).outAddr + fld x.c.toNat 0 32) out := by
  set src := (s.ctx x.ctx).inAddr + bOffset x.b
  intro out
  obtain ⟨u, run, only, mem⟩ := output_t0 h.here hc hd (ds := [{ addr := (s.ctx x.ctx).outAddr + fld x.c.toNat 0 32, len := out.length }])
    (fun d hm => by rw [List.mem_singleton.mp hm]) out 1
  refine ⟨u, ?_, only, mem.trans ?_⟩
  · have head : (if (fld x.a.toNat 0 2 == 0 && !bit x.a.toNat 2) = true then 32 else 0) = digestHead x := by simp [digestHead, bit]
    have len : (if (fld x.a.toNat 0 2 == 0) = true then digestHead x + 4 * fld x.a.toNat 8 8 * bCount x.b else bCount x.b) = digestLen x := by
      simp [digestLen]
    have zero : ¬(digestHead x ≠ 0 ∧ ofLe (((s.t0Read src (digestLen x)).take 32).drop 12) ≠ 0) := by
      rintro ⟨h0, hne⟩
      have h1 : digestHead x = 32 ∧ 32 ≤ digestLen x := by
        unfold digestLen
        unfold digestHead at h0 ⊢
        split_ifs at h0 ⊢ <;> omega
      rw [State.t0Read, memReadN_take, memReadN_drop, Nat.min_eq_left h1.2] at hne
      exact hne (hz h1.1)
    have data : (if (fld x.a.toNat 0 2 == 0) = true then
        digestChain (fld x.a.toNat 16 16) (if digestHead x = 0 then 0 else BitVec.ofNat 96 (ofLe ((s.t0Read src (digestLen x)).take 12)))
          (chunks (4 * fld x.a.toNat 8 8) (bCount x.b) ((s.t0Read src (digestLen x)).drop (digestHead x)))
        else sha384 (s.t0Read src (digestLen x))) = out := by
      simp only [out, State.digestOut, beq_iff_eq]
      split_ifs with hk h0
      · simp [State.t0Read, digestLen, hk, h0]
      · have : digestHead x = 32 := by unfold digestHead at h0 ⊢; split_ifs at h0 ⊢ <;> omega
        simp only [State.t0Read, memReadN_drop, memReadN_take, digestLen, hk, if_true, Nat.add_sub_cancel_left]
        rw [Nat.min_eq_left (by omega)]
      · simp [digestLen, hk]
    rw [show exec (.digest f) s = execDigest f s from rfl, execDigest, onFlight_acts h]
    dsimp only
    rw [if_neg (idlePipes_ne_zero hp), ha, State.awaitGate_off, head, len, s.rangeBad_none _ _ hd, if_neg Bool.false_ne_true, if_neg zero, data, run]
  · simp [memWrites, Dest.write]

/-! ## Freeing -/

/-- Retirements that wait stay, and so does each page that is FREE. -/
def KeepsFree (s t : State) : Prop := t.ps.retired = s.ps.retired ∧ ∀ p, (s.page p).state = .free → (t.page p).state = .free

theorem KeepsFree.refl (s : State) : KeepsFree s s := ⟨rfl, fun _ => id⟩
theorem KeepsFree.trans {s t u : State} (h : KeepsFree s t) (k : KeepsFree t u) : KeepsFree s u := ⟨k.1.trans h.1, fun p hp => k.2 p (h.2 p hp)⟩
theorem KeepsFree.of_eq {s t : State} (hr : t.ps.retired = s.ps.retired) (hp : t.ps.pages = s.ps.pages) : KeepsFree s t :=
  ⟨hr, fun p h => by rw [page_congr hp]; exact h⟩
theorem KeepsFree.only {l : List Part} {s t : State} (h : OnlyChanges l s t) (hp : .ps ∉ l := by decide) : KeepsFree s t :=
  .of_eq (congrArg Ps.retired (h .ps hp)) (congrArg Ps.pages (h .ps hp))
theorem KeepsFree.foldl {α : Type} (f : State → α → State) (h : ∀ s a, KeepsFree s (f s a)) (l : List α) (s : State) : KeepsFree s (l.foldl f s) := by
  induction l generalizing s with
  | nil => exact .refl s
  | cons a l ih => exact (h s a).trans (ih _)
theorem KeepsFree.ite {s t u : State} {p : Prop} [Decidable p] (h : p → KeepsFree s t) (k : ¬p → KeepsFree s u) : KeepsFree s (if p then t else u) := by
  split
  · exact h ‹_›
  · exact k ‹_›

/-- A free page is as it was made: a later version and nothing else. -/
theorem KeepsFree.updPage_free (s : State) (p v : Nat) : KeepsFree s (s.updPage p fun _ => { version := v }) := by
  refine ⟨rfl, fun r hr => ?_⟩
  cases hl : s.granuleLost (s.descAddr p) with
  | true => rw [s.updPage_lost p _ hl]; exact hr
  | false =>
    by_cases e : r = p
    · rw [e, s.updPage_page p _ hl]
    · rw [s.updPage_page_ne _ e]; exact hr

/-- What a page gives back before its descriptor: its copies, its auxiliary record and its summary. -/
def State.freeHeld (s : State) (p : Nat) : State :=
  let g := s.page p
  let a := s.auxRec g.aux
  let s := if g.tier = 0 then s.freePool [g.location] else s.freeHome g.tier g.location g.sheets
  let s := if g.tier = 0 ∧ g.aux ≠ 0 then s.freeHome a.homeTier a.homeLoc g.sheets else s
  let s := if g.aux = 0 then s else { s with ps := { s.ps with auxRuns := s.ps.auxRuns.del g.aux, aux := s.ps.aux.del g.aux } }
  let s := if g.summary = 0 ∧ g.format = 0x10 then s else
    { s with ps := { s.ps with sumRuns := s.ps.sumRuns.del g.summary, sums := s.ps.sums.del g.summary } }
  { s with press := { s.press with hashWait := s.press.hashWait.filter (· != p) } }

theorem freePage_eq {s : State} (hd : s.dev.pchDown = []) (p : Nat) :
    s.freePage p = (s.freeHeld p).updPage p fun _ => { version := ((s.page p).version + 1) % 65536 } := by
  rw [State.freePage, State.lostOf_none hd, Option.isSome_none, if_neg Bool.false_ne_true]
  rfl

/-- The parts that the freeing of a page touches. -/
abbrev freeParts : List Part := [.ps, .press, .tier, .out]
theorem OnlyChanges.freeHeld (s : State) (p : Nat) : OnlyChanges freeParts s (s.freeHeld p) := by
  unfold State.freeHeld
  extract_lets g a s1 s2 p3 s3 p4 s4 w5
  have h1 : OnlyChanges freeParts s s1 := .ite (fun _ => (OnlyChanges.freePool s _).mono) fun _ => (OnlyChanges.freeHome s _ _ _).mono
  have h2 : OnlyChanges freeParts s s2 := .ite (fun _ => (OnlyChanges.freeHome s1 _ _ _).seq h1) fun _ => h1
  have h3 : OnlyChanges freeParts s s3 := .ite (fun _ => h2) fun _ => (OnlyChanges.setPs s2 _).seq h2
  have h4 : OnlyChanges freeParts s s4 := .ite (fun _ => h3) fun _ => (OnlyChanges.setPs s3 _).seq h3
  exact (OnlyChanges.setPress s4 _).seq h4
theorem KeepsFree.freePool (s : State) (l : List Nat) : KeepsFree s (s.freePool l) := .of_eq rfl rfl
theorem KeepsFree.freeHeld (s : State) (p : Nat) : KeepsFree s (s.freeHeld p) := by
  unfold State.freeHeld
  extract_lets g a s1 s2 p3 s3 p4 s4 w5
  have h1 : KeepsFree s s1 := .ite (fun _ => .freePool s _) fun _ => .only (OnlyChanges.freeHome s _ _ _)
  have h2 : KeepsFree s s2 := .ite (fun _ => h1.trans (.only (OnlyChanges.freeHome s1 _ _ _))) fun _ => h1
  have h3 : KeepsFree s s3 := .ite (fun _ => h2) fun _ => h2.trans (.of_eq rfl rfl)
  have h4 : KeepsFree s s4 := .ite (fun _ => h3) fun _ => h3.trans (.of_eq rfl rfl)
  exact h4.trans (.of_eq rfl rfl)

/-- Retired pages, freed: each is FREE afterwards. -/
theorem freePages {s : State} (hd : s.dev.pchDown = []) (ps : List Nat) :
    OnlyChanges freeParts s (ps.foldl State.freePage s) ∧ KeepsFree s (ps.foldl State.freePage s) ∧
      ∀ p ∈ ps, ((ps.foldl State.freePage s).page p).state = .free := by
  induction ps generalizing s with
  | nil => exact ⟨.refl _ s, .refl s, fun p h => absurd h List.not_mem_nil⟩
  | cons p ps ih =>
    have only : OnlyChanges freeParts s (s.freePage p) := by rw [freePage_eq hd]; exact (OnlyChanges.updPage _ p _).seq (OnlyChanges.freeHeld s p)
    have keeps : KeepsFree s (s.freePage p) := by rw [freePage_eq hd]; exact (KeepsFree.freeHeld s p).trans (.updPage_free _ p _)
    have here : ((s.freePage p).page p).state = .free := by
      rw [freePage_eq hd, State.updPage_page _ p _ (State.granuleLost_none _ _ ((congrArg Dev.pchDown (OnlyChanges.freeHeld s p .dev (by decide))).trans hd))]
    obtain ⟨o, k, hf⟩ := ih (s := s.freePage p) ((congrArg Dev.pchDown (only .dev (by decide))).trans hd)
    refine ⟨only.trans o, keeps.trans k, fun q hq => ?_⟩
    rcases List.mem_cons.mp hq with rfl | hq
    · exact k.2 q here
    · exact hf q hq

theorem KeepsFree.freeClear (s : State) (c : Nat × Nat) : KeepsFree s (s.freeClear c) := by
  unfold State.freeClear
  extract_lets n s1 s2 q3 s3 s4
  have h3 : KeepsFree s s3 := (KeepsFree.only (OnlyChanges.t0Write s _ _)).trans ((KeepsFree.freePool s1 _).trans (.of_eq rfl rfl))
  exact .ite (fun _ => h3.trans (.of_eq rfl rfl)) fun _ => h3
theorem takePool_keepsFree {s : State} {n : Nat} {press : Bool} {r : Nat × State} (h : s.takePool n press = some r) : KeepsFree s r.2 := by
  unfold State.takePool at h
  dsimp only at h
  generalize hu : s.draw.2 = u at h
  have k : KeepsFree s u := hu ▸ .only (OnlyChanges.draw s)
  replace h := (Option.ite_none_right_eq_some.mp h).2
  split at h
  · rw [← Option.some.inj h]; exact k.trans (.of_eq rfl rfl)
  · cases h
theorem KeepsFree.takeClear (s : State) (gi i : Nat) : KeepsFree s (s.takeClear gi i) := by
  unfold State.takeClear
  extract_lets r n u _ u'
  split
  · exact .refl s
  · split
    · next e =>
      have hu : KeepsFree s u' := .of_eq rfl rfl
      exact (hu.trans (takePool_keepsFree e)).trans (.only (OnlyChanges.updWrec _ i _))
    · exact .refl s
theorem KeepsFree.openWindow (s : State) (gi : Nat) : KeepsFree s (s.openWindow gi) := by
  refine .ite (fun _ => .refl s) fun _ => .foldl (α := Nat) _ (fun s' m => .ite (fun _ => .refl s') fun _ => ?_) _ s
  split
  · exact .refl s'
  · next i r _ =>
    have h := KeepsFree.takeClear s' gi i
    exact .ite (fun _ => h.trans (.foldl (α := Nat) _ (fun u k => .only (OnlyChanges.prefetchOne u gi _)) _ _)) fun _ => h

theorem Tbl.get_foldl_del {α : Type} (l : List Nat) (t : Tbl α) (k : Nat) (d : α) :
    Tbl.get (l.foldl Tbl.del t) k d = if k ∈ l then d else Tbl.get t k d := by
  induction l generalizing t with
  | nil => simp
  | cons a l ih =>
    rw [List.foldl_cons, ih]
    by_cases hl : k ∈ l
    · simp [hl]
    · by_cases ha : k = a
      · simp [ha]
      · simp [hl, ha, Tbl.get_del_ne]

/-- The objects of one retirement but its clear copies, freed. -/
def State.freePlain (s : State) (r : Retire) : State :=
  let s := (r.pages.foldl State.freePage s).freePool r.pool
  let s := { s with ps := { s.ps with seqRuns := r.seqSheets.foldl Tbl.del s.ps.seqRuns } }
  r.homes.foldl (fun s h => s.freeHome h.1 h.2.1 h.2.2) s

theorem freeRetired_eq (s : State) (r : Retire) :
    s.freeRetired r = if r.clear.isEmpty then s.freePlain r
      else (r.clear.foldl State.freeClear (s.freePlain r)).gaths.foldl (fun s g => s.openWindow g.1) (r.clear.foldl State.freeClear (s.freePlain r)) := by
  unfold State.freeRetired
  cases r.clear <;> rfl

theorem freePlain_frees {s : State} (hd : s.dev.pchDown = []) (r : Retire) :
    OnlyChanges freeParts s (s.freePlain r) ∧ KeepsFree s (s.freePlain r) ∧ (∀ p ∈ r.pages, ((s.freePlain r).page p).state = .free) ∧
      ∀ a ∈ r.pool, (s.freePlain r).ps.poolRuns.get a 0 = 0 := by
  obtain ⟨only, keeps, hp⟩ := freePages hd r.pages
  unfold State.freePlain
  extract_lets s1 q2 s2
  have homes : OnlyChanges [.tier, .out] s2 (r.homes.foldl (fun s h => s.freeHome h.1 h.2.1 h.2.2) s2) :=
    .foldl (α := Nat × Nat × Nat) _ (fun u h => OnlyChanges.freeHome u h.1 h.2.1 h.2.2) _ s2
  have h2 : OnlyChanges freeParts s s2 := (OnlyChanges.setPs s1 _).seq ((OnlyChanges.freePool _ _).seq only)
  have k2 : KeepsFree s s2 := keeps.trans (.of_eq rfl rfl)
  have hps := homes .ps (by decide)
  refine ⟨homes.seq h2, k2.trans (.only homes), fun p hm => ?_, fun a ha => ?_⟩
  · rw [page_congr (congrArg Ps.pages hps)]
    exact hp p hm
  · rw [congrArg Ps.poolRuns hps]
    exact (Tbl.get_foldl_del r.pool _ a 0).trans (if_pos ha)

theorem freeRetired_frees {s : State} (hd : s.dev.pchDown = []) (r : Retire) :
    KeepsFree s (s.freeRetired r) ∧ ∀ p ∈ r.pages, ((s.freeRetired r).page p).state = .free := by
  obtain ⟨-, keeps, hp, -⟩ := freePlain_frees hd r
  rw [freeRetired_eq]
  split_ifs
  · exact ⟨keeps, hp⟩
  · have clear : KeepsFree (s.freePlain r) (r.clear.foldl State.freeClear (s.freePlain r)) := .foldl State.freeClear KeepsFree.freeClear _ _
    have all := clear.trans (.foldl (α := Nat × Gath) (fun s g => s.openWindow g.1) (fun u g => .openWindow u g.1)
      (r.clear.foldl State.freeClear (s.freePlain r)).gaths _)
    exact ⟨keeps.trans all, fun p hm => all.2 p (hp p hm)⟩

theorem exec_retirementFree_due {s v : State} (h : s.stopped = false) {r : Retire} {rest : List Retire} (hr : s.ps.retired = r :: rest)
    (hlt : r.tag < s.oldest) (hv : v = { s with ps := { s.ps with retired := rest } }) : exec .retirementFree s = .next ((v.freeRetired r).framed s) := by
  rw [show exec .retirementFree s = execRetirementFree s from rfl, execRetirementFree, act_running h, hv]
  simp only [hr, if_pos hlt]
theorem exec_retirementFree_held {s : State} (h : s.stopped = false) {r : Retire} {rest : List Retire} (hr : s.ps.retired = r :: rest)
    (hle : s.oldest ≤ r.tag) : exec .retirementFree s = .next s := by
  rw [show exec .retirementFree s = execRetirementFree s from rfl, execRetirementFree, act_running h]
  simp only [hr, if_neg (Nat.not_lt.mpr hle), State.framed_self]

/-- The oldest retirement, PS_OLDEST being above its tag. -/
theorem retirement_freed {s : State} (h : s.stopped = false) {r : Retire} {rest : List Retire} (hr : s.ps.retired = r :: rest)
    (hlt : r.tag < s.oldest) (hd : s.dev.pchDown = []) :
    ∃ t, exec .retirementFree s = .next t ∧ t.ps.retired = rest ∧ (∀ p ∈ r.pages, (t.page p).state = .free) ∧
      (r.clear = [] → (∀ a ∈ r.pool, t.ps.poolRuns.get a 0 = 0) ∧ SameT0 s t) := by
  obtain ⟨v, hv⟩ : ∃ v : State, v = { s with ps := { s.ps with retired := rest } } := ⟨_, rfl⟩
  have hdv : v.dev.pchDown = [] := by rw [hv]; exact hd
  have hrv : v.ps.retired = rest := by rw [hv]
  have ht : v.t0 = s.t0 := by rw [hv]
  obtain ⟨keeps, free⟩ := freeRetired_frees hdv r
  obtain ⟨only, -, -, pool⟩ := freePlain_frees hdv r
  refine ⟨_, exec_retirementFree_due h hr hlt hv, keeps.1.trans hrv, free, fun hclear => ?_⟩
  have e : v.freeRetired r = v.freePlain r := by rw [freeRetired_eq, hclear]; rfl
  rw [e]
  exact ⟨pool, .of_eq ((only .t0 (by decide)).trans ht)⟩

/-- Settles O33: DIGEST is one write; a retirement's pages are freed one by one, and what frees clear copies after them makes no page anything but FREE. -/
theorem digestAndFreeing : Obligations.DigestAndFreeing := by
  intro s f x
  refine ⟨fun h hm hc ha hd hp => ?_, fun r rest hs hr => ⟨retirement_freed hs hr, exec_retirementFree_held hs hr⟩⟩
  intro n src dst tpb head hz out
  have hout : s.digestOut x src = out := s.digestOut_eq x src
  obtain ⟨u, run, only, mem⟩ := exec_digest h hc ha hd hp fun h32 =>
    hz (digestHead_eq_32 h32) ((digestHead_of_chain (digestHead_eq_32 h32)).symm.trans h32)
  rw [hout] at run mem
  have t0 : ((u.finish f stOk (BitVec.ofNat 64 out.length) none).framed s).t0 = memWrite s.t0 dst out :=
    (OnlyChanges.finish u f stOk _ none .t0 (by decide)).trans mem
  refine ⟨_, run, (finish_completed_after only h.here stOk _ none).framed s, fun i hi => ?_, fun a ha => ?_⟩
  · rw [t0, memRead_write_in _ _ _ _ hi, List.getD_eq_getElem _ _ hi]
  · rw [t0, memRead_write_out _ _ _ _ ha]

end Sys2Proof.Machine
end

section
-- One proof after another: so many at once would not fit beside the model in memory.
set_option Elab.async false
/-! ATTEND's computation and its output (03 R104, 08 R265). -/
namespace Sys2Proof.Machine
open Sys2Proof

/-! ## What an ATTEND does beside its output -/

theorem OnlyChanges.setPools (s : State) (x : Tbl Pool) : OnlyChanges [.pools] s { s with pools := x } := by
  intro p hp; cases p <;> first | rfl | exact absurd hp (by decide)
theorem OnlyChanges.dipPool (s : State) (i need : Nat) : OnlyChanges [.free, .pools] s (s.dipPool i need) :=
  (OnlyChanges.setPools _ _).seq (OnlyChanges.draw s).mono
theorem OnlyChanges.dipQuire (s : State) (m : BitVec 16) (bytes decoded partials : Nat) : OnlyChanges [.free, .pools] s (s.dipQuire m bytes decoded partials) :=
  (OnlyChanges.dipPool _ _ _).seq ((OnlyChanges.dipPool _ _ _).seq ((OnlyChanges.dipPool _ _ _).seq (OnlyChanges.draw s).mono))
theorem OnlyChanges.dipPages (s : State) (a : Attending) : OnlyChanges [.free, .pools] s (s.dipPages a) :=
  .foldl (α := Nat) _ (fun u _ => OnlyChanges.dipQuire u _ _ _ _) _ s

/-- The parts that an ATTEND's marks touch. -/
abbrev markParts : List Part := [.gaths, .ps] ++ evParts
theorem OnlyChanges.attendMarks (s : State) (gi layer stepAt : Nat) (a : Attending) : OnlyChanges markParts s (s.attendMarks gi layer stepAt a) := by
  unfold State.attendMarks
  extract_lets s1 s2 s3
  have h1 : OnlyChanges [.ps] s s1 := .foldl (α := Nat) _ (fun u p => (OnlyChanges.dropCold _ p).trans'
    (.ite (fun _ => (OnlyChanges.markRead _ p).trans' (OnlyChanges.stampPage u p gi)) fun _ => OnlyChanges.stampPage u p gi)) _ s
  have h2 : OnlyChanges markParts s s2 := (OnlyChanges.countUnread s1 gi _).seq h1.mono
  have h3 : OnlyChanges markParts s s3 := h2.trans
    (.foldl (α := AttMember) _ (fun u m => .ite (fun _ => .refl _ u) fun _ => (OnlyChanges.stampSeq u m.seq gi).mono) _ s2)
  exact (OnlyChanges.updGath s3 gi _).seq h3

/-- The expander's wait leaves whose the instruction is. -/
theorem expanderWait_keeps (s : State) {f : Nat} {x : Flight} (h : s.flight? f = some x) (a : Attending) :
    OnlyChanges [.free, .flights] s (s.expanderWait f a) ∧
      ∃ y, (s.expanderWait f a).flight? f = some y ∧ y.mirror = x.mirror ∧ y.ctx = x.ctx ∧ y.word = x.word := by
  refine ⟨(OnlyChanges.updFlight _ f _).seq ((OnlyChanges.draw _).seq (OnlyChanges.draw s).mono), _,
    State.updFlight_flight?_same (x := x) ?_ _, rfl, rfl, rfl⟩
  exact (flight?_congr ((OnlyChanges.draw s).trans (OnlyChanges.draw s.draw.2) .flights (by decide)) f).trans h

theorem freeBytes_length (s : State) (n : Nat) : (s.freeBytes n).1.length = n := by
  induction n generalizing s with
  | zero => rfl
  | succ n ih => rw [State.freeBytes, List.length_cons, ih]
theorem OnlyChanges.freeBytes (s : State) (n : Nat) : OnlyChanges [.free] s (s.freeBytes n).2 := by
  induction n generalizing s with
  | zero => exact .refl _ s
  | succ n ih => exact (ih s.draw.2).trans' (OnlyChanges.draw s)

/-- What an ATTEND puts out: its results, or as many free bytes. -/
theorem attendOut_spec (s : State) (r : Bytes × Bytes) (spoiled : Bool) :
    OnlyChanges [.free] s (s.attendOut r spoiled).2 ∧ (s.attendOut r spoiled).1.1.length = r.1.length ∧ (s.attendOut r spoiled).1.2.length = r.2.length ∧
      (spoiled = false → (s.attendOut r spoiled).1 = r) := by
  cases spoiled with
  | false => exact ⟨.refl _ s, rfl, rfl, fun _ => rfl⟩
  | true => exact ⟨(OnlyChanges.freeBytes _ _).trans' (OnlyChanges.freeBytes s _), freeBytes_length _ _, freeBytes_length _ _, fun h => absurd h (by decide)⟩

/-- The payloads that an ATTEND reads do not depend on the instructions. -/
theorem payloads_updFlight (s : State) (f : Nat) (g : Flight → Flight) (a : Attending) (l : List Nat) :
    (s.updFlight f g).payloads a l = s.payloads a l := by
  induction l with
  | nil => rfl
  | cons p l ih => simp only [State.payloads, ih]; rfl

/-! ## The output of an ATTEND -/

/-- The rows of the pages read, by page. -/
def rowsOf (g : GRec) (ps : List (Nat × Bytes)) : Tbl (List (List Nat)) :=
  (ps.map fun p => (p.1, tokenRows g g.tpp p.2)).foldl (fun t p => Tbl.put t p.1 p.2) []
/-- The output and the records of an ATTEND (08 R265). -/
def attendResults (a : Attending) (l : Layer) (ps : List (Nat × Bytes)) : Bytes × Bytes :=
  packResults a.grec l ((List.range (a.grec.members * a.grec.qheads)).map fun k =>
    attendHead a l (rowsOf a.grec ps) (k / max a.grec.qheads 1) (k % max a.grec.qheads 1))
/-- Where the output and the partial set of an ATTEND go in T0. -/
def setDests (base n m : Nat) : List Dest := [{ addr := base, len := n }, { addr := base + round32 n, off := n, len := m }]

theorem le_round32 (n : Nat) : n ≤ round32 n := by
  unfold round32 cdiv
  omega
theorem setDests_writes (base : Nat) (out set : Bytes) :
    (setDests base out.length set.length).map (Dest.write (out ++ set)) = [(base, out), (base + round32 out.length, set)] := by
  simp [setDests, Dest.write]
theorem setDests_apart (base : Nat) (out set : Bytes) : [(base, out), (base + round32 out.length, set)].Pairwise Apart := by
  have := le_round32 out.length
  simp only [List.pairwise_cons, List.mem_singleton, forall_eq, Apart]
  exact ⟨.inl (by omega), fun _ h => absurd h List.not_mem_nil, .nil⟩

section attend
variable {s : State} {f gi layer : Nat} {x : Flight} {a : Attending}

theorem attendOn_selected (hd : s.dev.pchDown = []) (hl : a.grec.latent = false) (hs : a.selected = true) :
    s.attendOn f gi layer a = s.attendPages f gi layer a (s.copyLayer a layer) := by
  have hb : s.copyBad a = none := by
    unfold State.copyBad
    split
    · rfl
    · next run ppl _ =>
      have hn : ((List.range ppl).find? fun _ => false) = none := by simp
      simp only [State.readStream, s.rangeBad_none _ _ hd, hn, Bool.false_eq_true, if_false]
  rw [State.attendOn, hl, Bool.false_and, if_neg Bool.false_ne_true]
  dsimp only
  rw [State.readable_ok hd, hb, if_pos hs]
theorem attendPages_here (ht : ∀ p ∈ a.pages, (s.page p).tier = 0) (l : Layer) :
    s.attendPages f gi layer a l = ((s.setJob f (.attend [] a)).stall f none).attendCompute f gi layer a l := by
  have none_away : (a.pages.filter fun p => (s.page p).tier != 0) = [] := List.filter_eq_nil_iff.mpr fun p hp => by simp [ht p hp]
  rw [State.attendPages]
  simp only [none_away]
  rfl

/-- The computation of an ATTEND of a context that is not confidential, its output in T0 only: it ends, and its writes are the output and the set. -/
theorem attendCompute_ends (hf : s.flight? f = some x) (hc : (s.ctx x.ctx).conf = false) (hd : s.dev.pchDown = [])
    (ho : s.outstanding f = false) (hdest : a.grec.odest = 0) {ps : List (Nat × Bytes)} (hp : s.payloads a a.pages = .ok ps) (l : Layer) :
    let o := (s.attendOut (attendResults a l ps) a.spoiled).1
    let base := (s.ctx x.ctx).outAddr + fld x.c.toNat 0 32
    ∃ (u : State) (y : Flight) (cw : Option (BitVec 64)), s.attendCompute f gi layer a l = u.finish f (if a.reduced then stBudget else stOk) a.result cw ∧ u.ctxs = s.ctxs ∧
      u.flight? f = some y ∧ (y.mirror = x.mirror ∧ y.ctx = x.ctx ∧ y.word = x.word) ∧
      u.t0 = memWrites s.t0 [(base, o.1), (base + round32 o.1.length, setHeader a.grec layer ++ o.2)] := by
  intro o base
  obtain ⟨drawn, -, -, -⟩ := attendOut_spec s (attendResults a l ps) a.spoiled
  set v := (s.attendOut (attendResults a l ps) a.spoiled).2 with hv
  set set := setHeader a.grec layer ++ o.2 with hset
  have hctx : v.ctx x.ctx = s.ctx x.ctx := ctx_congr (drawn .ctxs (by decide)) _
  obtain ⟨t, run, placed, mem⟩ := output_t0 (s := v) ((flight?_congr (drawn .flights (by decide)) f).trans hf) (by rw [hctx, hc])
    ((congrArg Dev.pchDown (drawn .dev (by decide))).trans hd) (ds := setDests base o.1.length set.length)
    (fun d hm => by simp only [setDests, List.mem_cons, List.not_mem_nil, or_false] at hm; rcases hm with rfl | rfl <;> rfl) (o.1 ++ set) 3
  have ht : t.flight? f = some x := (flight?_congr ((placed .flights (by decide)).trans (drawn .flights (by decide))) f).trans hf
  obtain ⟨waits, y, hy, same⟩ := expanderWait_keeps t ht a
  have dips := OnlyChanges.dipPages (t.expanderWait f a) a
  have marks := OnlyChanges.attendMarks ((t.expanderWait f a).dipPages a) gi layer x.stepAt a
  set u := ((t.expanderWait f a).dipPages a).attendMarks gi layer x.stepAt a with hu
  have rest : OnlyChanges (.free :: .flights :: .pools :: markParts) t u := marks.seq (dips.seq waits.mono)
  have all : OnlyChanges (.t0 :: .free :: .flights :: .pools :: markParts) s u := rest.seq (placed.seq drawn.mono)
  refine ⟨u, y, some (crc64 o.1), ?_, all .ctxs (by decide), ?_, same, ?_⟩
  · rw [State.attendCompute, hp, State.flight_of_flight? hf]
    dsimp only
    rw [← rowsOf, ← attendResults, hdest, hc]
    simp only [zero_ne_one, ne_eq, not_true_eq_false, Bool.false_eq_true, if_false]
    change (match v.output f (o.1 ++ set) (setDests base o.1.length set.length) 3 with | none => v | some t => _) = _
    rw [run]
    exact finishWrites_now ((outstanding_congr (all .eg (by decide)) (all .net (by decide)) f).trans ho) _ _ _
  · exact (flight?_congr ((marks .flights (by decide)).trans (dips .flights (by decide))) f).trans hy
  · rw [rest .t0 (by decide), mem, drawn .t0 (by decide), setDests_writes]

/-- The state in which an ATTEND computes: it waits for no page. -/
def State.computing (s : State) (f : Nat) (a : Attending) : State := (s.setJob f (.attend [] a)).stall f none

theorem State.computing_payloads (l : List Nat) : (s.computing f a).payloads a l = s.payloads a l := by
  rw [State.computing, State.setJob, State.stall, payloads_updFlight, payloads_updFlight]

theorem exec_attend_on (h : Acts s f 0x30 x) (hj : x.job = .attend [] a) (hu : s.unitDown a.grec.qmask = false) (hq : s.pwr.tripped = false)
    (hd : s.dev.pchDown = []) (hl : a.grec.latent = false) (hs : a.selected = true) (ht : ∀ p ∈ a.pages, (s.page p).tier = 0) :
    let layer := fld x.a.toNat 0 8
    exec (.attend f) s = .next (((s.computing f a).attendCompute f (gField x.a) layer a (s.copyLayer a layer)).framed s) := by
  rw [show exec (.attend f) s = execAttend f s from rfl, execAttend, onFlight_acts h, hj]
  dsimp only
  rw [hu, if_neg Bool.false_ne_true, hq, if_pos (by rfl), attendOn_selected hd hl hs, attendPages_here ht]
  rfl
theorem exec_attend_unit (h : Acts s f 0x30 x) {w : List Nat} (hj : x.job = .attend w a) (hu : s.unitDown a.grec.qmask = true) :
    exec (.attend f) s = .next ((s.finish f stUnavailable 0 none).framed s) := by
  rw [show exec (.attend f) s = execAttend f s from rfl, execAttend, onFlight_acts h, hj]
  dsimp only
  rw [hu, if_pos rfl, State.fail]
theorem exec_attend_writes (h : Acts s f 0x30 x) {st : BitVec 16} {res : BitVec 64} {cw : Option (BitVec 64)} (hj : x.job = .writes st res cw)
    (ho : s.outstanding f = false) : exec (.attend f) s = .next ((s.finish f st res cw).framed s) := by
  rw [show exec (.attend f) s = execAttend f s from rfl, execAttend, onFlight_acts h, hj]
  dsimp only
  rw [ho, if_neg Bool.false_ne_true]
theorem exec_attend_gath (h : Acts s f 0x30 x) (hj : x.job = .none) (hc : s.gathCheck x.ctx (gField x.a) (fld x.a.toNat 0 8) ≠ stOk) :
    exec (.attend f) s = .next ((s.finish f (s.gathCheck x.ctx (gField x.a) (fld x.a.toNat 0 8)) 0 none).framed s) := by
  rw [show exec (.attend f) s = execAttend f s from rfl, execAttend, onFlight_acts h, hj]
  dsimp only
  rw [if_pos hc, State.fail]
theorem exec_attend_check (h : Acts s f 0x30 x) (hj : x.job = .none) (hg : s.gathCheck x.ctx (gField x.a) (fld x.a.toNat 0 8) = stOk)
    (hc : s.attendCheck x (s.gath (gField x.a)) ≠ stOk) :
    exec (.attend f) s = .next ((s.finish f (s.attendCheck x (s.gath (gField x.a))) 0 none).framed s) := by
  rw [show exec (.attend f) s = execAttend f s from rfl, execAttend, onFlight_acts h, hj]
  dsimp only
  rw [if_neg (not_not.mpr hg), if_pos hc, State.fail]

/-- An ATTEND whose pages are selected, all in T0 and readable, its output in T0 only. -/
theorem attend_ends (h : Acts s f 0x30 x) (hj : x.job = .attend [] a) (hu : s.unitDown a.grec.qmask = false) (hq : s.pwr.tripped = false)
    (hl : a.grec.latent = false) (hs : a.selected = true) (hdest : a.grec.odest = 0) (hc : (s.ctx x.ctx).conf = false)
    (hd : s.dev.pchDown = []) (ho : s.outstanding f = false) (ht : ∀ p ∈ a.pages, (s.page p).tier = 0)
    {ps : List (Nat × Bytes)} (hp : s.payloads a a.pages = .ok ps) :
    let layer := fld x.a.toNat 0 8
    let r := attendResults a (s.copyLayer a layer) ps
    let base := (s.ctx x.ctx).outAddr + fld x.c.toNat 0 32
    ∃ (t : State) (o : Bytes × Bytes), exec (.attend f) s = .next t ∧ Completed s t f x (if a.reduced then stBudget else stOk) a.result ∧
      t.t0 = memWrites s.t0 [(base, o.1), (base + round32 r.1.length, setHeader a.grec layer ++ o.2)] ∧
      o.1.length = r.1.length ∧ o.2.length = r.2.length ∧ (a.spoiled = false → o = r) := by
  intro layer r base
  have hf : (s.computing f a).flight? f = some { x with phase := .begun, job := .attend [] a, progress := s.now, stallOn := none } :=
    State.updFlight_flight?_same (State.updFlight_flight?_same h.here _) _
  obtain ⟨u, y, cw, run, hctx, hy, ⟨ym, yc, yw⟩, mem⟩ := attendCompute_ends (gi := gField x.a) (layer := layer) hf hc hd ho hdest
    ((State.computing_payloads a.pages).trans hp) (s.copyLayer a layer)
  obtain ⟨-, len1, len2, same⟩ := attendOut_spec (s.computing f a) r a.spoiled
  refine ⟨_, _, (exec_attend_on h hj hu hq hd hl hs ht).trans (by rw [run]),
    (finish_completed_of (fun c _ => by rw [ctx_congr hctx]; rfl) hy ⟨ym, yc, yw⟩ _ _ cw).framed s, ?_, len1, len2, same⟩
  rw [← len1]
  exact (OnlyChanges.finish u f _ _ cw .t0 (by decide)).trans mem
end attend

/-- Settles O36: an ATTEND's two writes lie apart, and every other step of it leaves T0, the contexts and whose the instruction is. -/
theorem attendWritesItsOutput : Obligations.AttendWritesItsOutput := by
  intro s f x h gi layer
  refine ⟨fun st res cw hj ho => ⟨_, exec_attend_writes h hj ho, (finish_completed s h.here st res cw).framed s⟩,
    fun hj hc => ⟨_, exec_attend_gath h hj hc, (finish_completed s h.here _ 0 none).framed s⟩,
    fun hj hg hc => ⟨_, exec_attend_check h hj hg hc, (finish_completed s h.here _ 0 none).framed s⟩,
    fun w a hj hu => ⟨_, exec_attend_unit h hj hu, (finish_completed s h.here _ 0 none).framed s⟩, ?_⟩
  intro a ps hj hu hq hl hs hdest _ hc hd ho ht hp g l rows r set base
  obtain ⟨t, o, run, done, mem, len1, len2, same⟩ := attend_ends h hj hu hq hl hs hdest hc hd ho ht hp
  have hr : attendResults a l ps = r := rfl
  rw [hr] at mem len1 len2 same
  have apart := setDests_apart base o.1 (setHeader a.grec layer ++ o.2)
  rw [len1] at apart
  refine ⟨t, run, done, fun hsp i hi => ?_, fun hsp i hi => ?_, fun b hb => ?_⟩
  · rw [same hsp] at mem apart
    rw [mem, List.getD_eq_getElem _ _ hi]
    exact memRead_writes_in apart List.mem_cons_self hi _
  · rw [same hsp] at mem apart
    rw [mem, List.getD_eq_getElem _ _ hi]
    exact memRead_writes_in apart (List.mem_cons_of_mem _ (List.mem_singleton_self _)) hi _
  · rw [mem]
    have hset : (setHeader a.grec (fld x.a.toNat 0 8) ++ o.2).length = set.length := by
      rw [List.length_append, len2, ← List.length_append]
    have := le_round32 r.1.length
    refine memRead_writes_out (fun w hw => ?_) _
    simp only [List.mem_cons, List.not_mem_nil, or_false] at hw
    rcases hw with rfl | rfl <;> simp only [Outside, len1, hset] <;> omega

end Sys2Proof.Machine
end

section
-- One proof after another: so many at once would not fit beside the model in memory.
set_option Elab.async false
/-! PUBLISH's commit, the decision on a version that stands already, and RETRACT's end (03 R88, R90; 06 R206, R207). -/
namespace Sys2Proof.Machine
open Sys2Proof

/-! ## Regions and the directory slice -/

theorem region_congr {s t : State} (h : t.spine.regions = s.spine.regions) (i : Nat) : t.region i = s.region i := by simp [State.region, h]
theorem OnlyChanges.region {l : List Part} {s t : State} (h : OnlyChanges l s t) (i : Nat) (hl : .spine ∉ l := by decide) : t.region i = s.region i :=
  region_congr (congrArg Spine.regions (h .spine hl)) i
@[simp] theorem State.framed_region (t s : State) (i : Nat) : (t.framed s).region i = t.region i := rfl
@[simp] theorem State.updRegion_region_same (s : State) (i : Nat) (g : Region → Region) : (s.updRegion i g).region i = g (s.region i) :=
  Tbl.get_upd_same _ _ _ _

/-- The parts that the directory slice touches when a key is reported to it. -/
abbrev dirParts : List Part := [.spine, .pools, .net] ++ evParts
/-- A step of the directory slice: it leaves every region record. -/
def DirStep (s t : State) : Prop := OnlyChanges dirParts s t ∧ t.spine.regions = s.spine.regions

theorem DirStep.refl (s : State) : DirStep s s := ⟨.refl _ s, rfl⟩
theorem DirStep.trans {s t u : State} (h : DirStep s t) (k : DirStep t u) : DirStep s u := ⟨h.1.trans k.1, k.2.trans h.2⟩
theorem DirStep.foldl {α : Type} (f : State → α → State) (h : ∀ s a, DirStep s (f s a)) (l : List α) (s : State) : DirStep s (l.foldl f s) := by
  induction l generalizing s with
  | nil => exact .refl s
  | cons a l ih => exact (h s a).trans (ih _)
theorem DirStep.ite {s t u : State} {p : Prop} [Decidable p] (h : p → DirStep s t) (k : ¬p → DirStep s u) : DirStep s (if p then t else u) := by
  split
  · exact h ‹_›
  · exact k ‹_›
theorem DirStep.only {l : List Part} {s t : State} (h : OnlyChanges l s t) (hs : .spine ∉ l := by decide) (hl : l ⊆ dirParts := by decide) : DirStep s t :=
  ⟨h.mono hl, congrArg Spine.regions (h .spine hs)⟩
theorem DirStep.setSpine (s : State) {x : Spine} (h : x.regions = s.spine.regions) : DirStep s { s with spine := x } := ⟨(OnlyChanges.setSpine s x).mono, h⟩
theorem DirStep.setSerial (s : State) (n : Nat) : DirStep s { s with spine := { s.spine with serial := n } } := .setSpine s rfl
theorem DirStep.updRow (s : State) (p : Nat) (g : Row → Row) : DirStep s (s.updRow p g) := ⟨(OnlyChanges.updRow s p g).mono, rfl⟩
theorem DirStep.updOvf (s : State) (i : Nat) (g : RowSlot → RowSlot) : DirStep s (s.updOvf i g) := ⟨(OnlyChanges.updOvf s i g).mono, rfl⟩
theorem DirStep.writeEntryAt (s : State) (p : Nat) (us : List (BitVec 144)) (e : RowSlot) : DirStep s (s.writeEntryAt p us e) :=
  .foldl (α := Nat) _ (fun u _ => .updRow u _ _) _ s
theorem DirStep.clearPlace (s : State) (w p : Nat) : DirStep s (s.clearPlace w p) := by
  unfold State.clearPlace
  split
  · exact .foldl (α := Nat) _ (fun u _ => .updRow u _ _) _ s
  · exact .updOvf s _ _
/-- The directory's entries take two units, so that no region's place moves. -/
theorem DirStep.shiftRange (s : State) (free l : Nat) : DirStep s (s.shiftRange 2 free l) := by
  refine .foldl (α := Nat) (fun (s : State) p => s.shiftOne 2 p) (fun u p => ?_) _ s
  unfold State.shiftOne
  extract_lets rs u1 u2 r
  have h1 : DirStep u u1 := .foldl (α := Nat) _ (fun v _ => .updRow v _ _) _ u
  have h2 : DirStep u u2 := h1.trans (.foldl (α := Nat) _ (fun v _ => .updRow v _ _) _ u1)
  rwa [if_neg (by decide)]
theorem DirStep.dirAdd (s : State) (w : Nat) (key : BitVec 128) : DirStep s (s.dirAdd w key) := by
  unfold State.dirAdd
  extract_lets k us put
  have hput (u : State) (p : Nat) : DirStep u (put u p) := (DirStep.writeEntryAt u p us _).trans (.setSerial _ _)
  split
  · exact .updRow s _ _
  · split
    · exact hput s _
    · exact (DirStep.shiftRange s _ _).trans (hput _ _)
    · exact .only (OnlyChanges.countDev s 7 1)
theorem DirStep.dirDel (s : State) (w : Nat) (key : BitVec 128) : DirStep s (s.dirDel w key) := by
  unfold State.dirDel
  split
  · exact .refl s
  · exact .ite (fun _ => .clearPlace s 2 _) fun _ => .updRow s _ _
theorem DirStep.dirOp (s : State) (o : Bool × Nat × BitVec 128) : DirStep s (((s.takeCredits 9 1).dirOp o).freeCredits 9 1) :=
  ((DirStep.only (OnlyChanges.takeCredits s 9 1)).trans (.ite (fun _ => .dirAdd _ o.2.1 o.2.2) fun _ => .dirDel _ o.2.1 o.2.2)).trans
    (.only (OnlyChanges.freeCredits _ 9 1))
theorem DirStep.dirDrain (s : State) : DirStep s s.dirDrain := by
  unfold State.dirDrain
  split
  · exact .refl s
  · exact DirStep.trans (.setSpine s (x := { s.spine with dirWait := [] }) rfl) (.foldl (fun s o => ((s.takeCredits 9 1).dirOp o).freeCredits 9 1) DirStep.dirOp _ _)
theorem DirStep.dirPut (s : State) (add : Bool) (w : Nat) (key : BitVec 128) : DirStep s (s.dirPut add w key) :=
  (DirStep.setSpine s (x := { s.spine with dirWait := s.spine.dirWait ++ [(add, w, key)] }) rfl).trans (.dirDrain _)
theorem DirStep.dirReport (s : State) (add : Bool) (key : Nat) : DirStep s (s.dirReport add key) := by
  unfold State.dirReport
  exact .ite (fun _ => .refl s) fun _ => .ite (fun _ => .dirPut s add _ _) fun _ => .ite (fun _ => .only (OnlyChanges.setNet s _)) fun _ => .refl s

/-- The keys that a PUBLISH inserted are reported: its record lists none of them any more and is else as it was. -/
theorem reportFresh_spec (s : State) (ri : Nat) : OnlyChanges dirParts s (s.reportFresh ri) ∧ (s.reportFresh ri).region ri = { s.region ri with fresh := [] } := by
  unfold State.reportFresh
  extract_lets r
  have h : DirStep s (r.fresh.foldl (fun s b => s.dirReport true (prefixKey r.scope r.newHead.model r.newOwner (r.newHashes.getD b 0))) s) :=
    .foldl (α := Nat) _ (fun u b => .dirReport u true _) _ s
  exact ⟨(OnlyChanges.updRegion _ ri _).seq h.1, by rw [State.updRegion_region_same, region_congr h.2]⟩

/-! ## References added -/

theorem OnlyChanges.needAux {s t : State} {p : Nat} (h : s.needAux p = some t) : OnlyChanges [.free, .ps] s t := by
  unfold State.needAux at h
  split_ifs at h
  · exact Option.some.inj h ▸ .refl _ s
  · split at h
    · cases h
    · next i u e =>
      rw [← Option.some.inj h]
      exact (OnlyChanges.updAux _ i _).seq ((OnlyChanges.updPage u p _).seq (OnlyChanges.takeAux e))
theorem OnlyChanges.addRef {s t : State} {p : Nat} (h : s.addRef p = some t) : OnlyChanges [.free, .ps] s t := by
  unfold State.addRef at h
  extract_lets u at h
  have hu : OnlyChanges [.free, .ps] s u := (OnlyChanges.updPage s p _).mono
  split_ifs at h
  · exact hu.trans (OnlyChanges.needAux h)
  · exact Option.some.inj h ▸ hu
theorem OnlyChanges.addRefs {s t : State} {l : List Nat} (h : s.addRefs l = some t) : OnlyChanges [.free, .ps] s t := by
  induction l generalizing s with
  | nil => exact Option.some.inj h ▸ .refl _ s
  | cons p l ih =>
    unfold State.addRefs at h
    split at h
    · next u e => exact (OnlyChanges.addRef e).trans (ih h)
    · cases h

/-! ## The commit of a version -/

/-- Blocks of a version that its new one leaves as they are (06 R206). -/
def Region.kept (r : Region) : Nat := if r.committed then commonPrefix r.hashes r.newHashes else 0

/-- A region record after the commit of what `r` publishes. -/
def Region.Takes (c r : Region) : Prop := c.committed = true ∧ c.version = r.newVersion ∧ c.entries = r.newEntries ∧ c.hashes = r.newHashes
/-- The parts that the commit of a version touches. -/
abbrev commitParts : List Part := [.free, .ps, .tier, .flights] ++ dirParts
/-- The commit of a version: its record, and what is left to do for its PUBLISH. -/
theorem publishCommit_spec {s : State} {f : Nat} {x : Flight} (hf : s.flight? f = some x) (ri : Nat) :
    let r := s.region ri
    OnlyChanges commitParts s (s.publishCommit f ri) ∧ ((s.publishCommit f ri).region ri).Takes r ∧
      ∃ y, (s.publishCommit f ri).flight? f = some y ∧ (y.mirror = x.mirror ∧ y.ctx = x.ctx ∧ y.word = x.word) ∧
        y.job = .publish ri 1 ((span r.kept r.entries.length).map fun b => (2, b)) ∧ y.result = BitVec.ofNat 64 r.newEntries.length := by
  intro r
  obtain ⟨h1, hr1⟩ := reportFresh_spec s ri
  unfold State.publishCommit
  extract_lets s1 r1 q bases s2 s3 n nOld carried j s4 s5 s6
  have hr : r1 = { r with fresh := [] } := hr1
  have h2 : OnlyChanges [.free, .ps] s1 s2 := by
    unfold s2
    split
    · next e => exact OnlyChanges.addRefs e
    · exact .refl _ s1
  have h3 : OnlyChanges [.free, .ps] s1 s3 := h2.trans (.foldl (α := Nat) _ (fun u p => (OnlyChanges.updPage u p _).mono) _ s2)
  have h4 := OnlyChanges.updRegion s3 ri
  have h5 : OnlyChanges pageParts s4 s5 := .foldl (α := Nat) _ (fun u b => OnlyChanges.reclass u b _ _) bases s4
  have h6 : OnlyChanges pageParts s4 s6 := .ite (fun _ => h5.trans (OnlyChanges.dropBlocks s5 _ _ _ [])) fun _ => h5
  have h7 : OnlyChanges (.tier :: .free :: .ps :: dirParts) s s6 := h6.seq ((h4 _).seq (h3.seq h1.mono))
  have end_ := (OnlyChanges.updFlight _ f fun x => { x with result := BitVec.ofNat 64 n }).trans' (OnlyChanges.setJob s6 f (.publish ri 1 ((span j nOld).map fun b => (2, b))))
  have f6 : s6.flight? f = some x := (flight?_congr (h7 .flights (by decide)) f).trans hf
  have hj : j = r.kept := by simp only [j, hr, Region.kept]
  have hn : n = r.newEntries.length ∧ nOld = r.entries.length := by simp only [n, nOld, hr, and_self]
  refine ⟨end_.seq h7.mono, ?_, _, State.updFlight_flight?_same (State.updFlight_flight?_same f6 _) _, ⟨rfl, rfl, rfl⟩, by rw [← hj, ← hn.2], by rw [← hn.1]⟩
  rw [end_.region ri, h6.region ri, State.updRegion_region_same, (h3.region ri), show s1.region ri = r1 from rfl, hr]
  exact ⟨rfl, rfl, rfl, rfl⟩

/-- Once its operations are done a PUBLISH commits; it ends at once where it leaves nothing of the old version. -/
theorem publishOn_ends {s : State} {f ri : Nat} (h : s.opsLeft f = false) {y : Flight} (hy : (s.publishCommit f ri).flight f = y)
    (hj : y.job = .publish ri 1 []) : s.publishOn f ri 0 [] =
      ((s.publishCommit f ri).updRegion ri fun r => { r with publishing := false, oldPlaces := [] }).finish f stOk y.result none := by
  rw [State.publishOn]
  simp only [List.map_nil, State.queueOps, List.drop_nil, if_true, List.isEmpty_nil, Bool.not_true, Bool.false_or, h, Bool.false_eq_true, if_false, hy, hj]
theorem publishOn_goes_on {s : State} {f ri : Nat} (h : s.opsLeft f = false) {y : Flight} (hy : (s.publishCommit f ri).flight f = y)
    {b : Nat × Nat} {l : List (Nat × Nat)} (hj : y.job = .publish ri 1 (b :: l)) : s.publishOn f ri 0 [] = s.publishCommit f ri := by
  rw [State.publishOn]
  simp only [List.map_nil, State.queueOps, List.drop_nil, if_true, List.isEmpty_nil, Bool.not_true, Bool.false_or, h, Bool.false_eq_true, if_false, hy, hj]
theorem exec_publish_on {s : State} {f : Nat} {x : Flight} (h : Acts s f 0x14 x) {ri stage : Nat} {todo : List (Nat × Nat)}
    (hj : x.job = .publish ri stage todo) : exec (.publish f) s = .next ((s.publishOn f ri stage todo).framed s) := by
  rw [show exec (.publish f) s = execPublish f s from rfl, execPublish, onFlight_acts h, hj]

/-- A PUBLISH with its operations all done commits, and ends where it leaves no block of the old version. -/
theorem publish_commits {s : State} {f ri : Nat} {x : Flight} (h : Acts s f 0x14 x) (hj : x.job = .publish ri 0 []) (ho : s.opsLeft f = false) :
    ∃ t, exec (.publish f) s = .next t ∧ (t.region ri).Takes (s.region ri) ∧ ((s.region ri).entries.length ≤ (s.region ri).kept →
      Completed s t f x stOk (BitVec.ofNat 64 (s.region ri).newEntries.length) ∧ (t.region ri).publishing = false) := by
  obtain ⟨only, takes, y, hy, same, job, result⟩ := publishCommit_spec h.here ri
  set u := s.publishCommit f ri with hu
  have run := exec_publish_on h hj
  have hyf := State.flight_of_flight? hy
  by_cases hk : (s.region ri).entries.length ≤ (s.region ri).kept
  · have hspan : span (s.region ri).kept (s.region ri).entries.length = [] := by simp [span, Nat.sub_eq_zero_of_le hk]
    rw [hspan, List.map_nil] at job
    rw [publishOn_ends ho hyf job, result] at run
    set v := u.updRegion ri fun r => { r with publishing := false, oldPlaces := [] } with hv
    have upd : OnlyChanges [.spine] u v := OnlyChanges.updRegion u ri _
    have hc : v.ctxs = s.ctxs := (upd .ctxs (by decide)).trans (only .ctxs (by decide))
    have hvf : v.flight? f = some y := (flight?_congr (upd .flights (by decide)) f).trans hy
    have hr : ((v.finish f stOk (BitVec.ofNat 64 (s.region ri).newEntries.length) none).framed s).region ri =
        { u.region ri with publishing := false, oldPlaces := [] } := by
      rw [State.framed_region, (OnlyChanges.finish v f stOk _ none).region ri, hv, State.updRegion_region_same]
    have done := finish_completed_of (fun c n => congrArg (Ctx.reg · n) (ctx_congr hc c)) hvf same stOk
      (BitVec.ofNat 64 (s.region ri).newEntries.length) none
    exact ⟨_, run, by rw [hr]; exact takes, fun _ => ⟨done.framed s, by rw [hr]⟩⟩
  · obtain ⟨b, l, hspan⟩ : ∃ b l, span (s.region ri).kept (s.region ri).entries.length = b :: l :=
      List.exists_cons_of_length_pos (by simp [span]; omega)
    rw [hspan, List.map_cons] at job
    rw [publishOn_goes_on ho hyf job] at run
    exact ⟨_, run, takes, fun h => absurd h hk⟩

/-! ## The decision on a version that stands -/

/-- The chain hashes of the first `n` blocks of a table. -/
def State.chains (s : State) (q : Seq) (n : Nat) : List (BitVec 96) := (q.entries.take n).map fun e => (s.sum (s.page e.base).summary).chain

theorem publishStart_stands {s : State} {f : Nat} {x : Flight} {q : Seq} {n ri : Nat} {r : Region}
    (hr : s.findRegion (fld x.c.toNat 0 16) (fld x.b.toNat 0 32) x.ctx = some (ri, r)) (hc : r.committed = true) (ht : r.retracting = false)
    (hp : r.publishing = false) (hv : fld x.b.toNat 32 32 ≤ r.version) :
    s.publishStart f x q n =
      if fld x.b.toNat 32 32 < r.version then s.finish f stSuperseded (BitVec.ofNat 64 r.version) none
      else if r.hashes.getLastD 0 = (s.chains q n).getLastD 0 then s.finish f stOk (BitVec.ofNat 64 n) none
      else (s.conflict x.ctx r ((s.chains q n).getLastD 0) (wTag x.word)).finish f stConflict (BitVec.ofNat 64 r.version) none := by
  rw [State.publishStart, hr]
  dsimp only
  rw [ht, hp, hc, if_neg Bool.false_ne_true, if_neg Bool.false_ne_true, if_neg (by simp; omega)]
  rfl

/-- What PUBLISH reads before it decides: its table is in order, its blocks are formed, hashed and scanned and none of them fenced. -/
structure Ready (s : State) (x : Flight) : Prop where
  walks : x.walker.isSome = true
  up : s.dev.pchDown = []
  own : s.seqCheck x.ctx (sSeq x.a) = stOk
  some_ : 0 < sBlock x.a
  fits : sBlock x.a ≤ (s.seq (sSeq x.a)).entries.length
  formed : ∀ p ∈ (s.seq (sSeq x.a)).rangePages 0 (sBlock x.a) 0 (s.seq (sSeq x.a)).layers, (s.page p).state ≠ .openP ∧ (s.page p).formed = true
  hashed : ∀ p ∈ ((s.seq (sSeq x.a)).entries.take (sBlock x.a)).map (·.base), (s.page p).formed = true ∧ (s.sum (s.page p).summary).hashed = true
  scanned : s.awl.queues.get (sSeq x.a % 16) [] = []
  noAppend : ∀ p ∈ s.flights, ∀ a b c d, p.2.job ≠ .append a b c d
  unfenced : ∀ e ∈ (s.seq (sSeq x.a)).entries.take (sBlock x.a), e.fenced = false

theorem sumBad_none {s : State} (h : s.dev.pchDown = []) (p : Nat) : s.sumBad p = false := s.rangeBad_none _ _ h

theorem exec_publish_ready {s : State} {f : Nat} {x : Flight} (h : Acts s f 0x14 x) (hj : x.job = .none) (hr : Ready s x) :
    let u := s.publishStart f x (s.seq (sSeq x.a)) (sBlock x.a)
    (u.flight f).job = .none → exec (.publish f) s = .next (u.framed s) := by
  intro u hu
  obtain ⟨hw, hd, hc, hn, hl, hp, hh, ha, hf, he⟩ := hr
  have opened : s.rangeOpen (s.seq (sSeq x.a)) (sBlock x.a) = false := by
    rw [State.rangeOpen, List.any_eq_false]
    intro p hm
    simp [(hp p hm).1]
  have bad : (((s.seq (sSeq x.a)).entries.take (sBlock x.a)).map (·.base)).find? s.sumBad = none :=
    List.find?_eq_none.mpr fun p _ => by simp [sumBad_none hd]
  have never : (((s.seq (sSeq x.a)).entries.take (sBlock x.a)).map (·.base)).any s.neverHashed = false := by
    rw [List.any_eq_false]
    intro p hm
    simp [State.neverHashed, (hh p hm).2]
  have unformed : (((s.seq (sSeq x.a)).rangePages 0 (sBlock x.a) 0 (s.seq (sSeq x.a)).layers).any fun p => !(s.page p).formed) = false := by
    rw [List.any_eq_false]
    intro p hm
    simp [(hp p hm).2]
  have unhashed : ((((s.seq (sSeq x.a)).entries.take (sBlock x.a)).map (·.base)).any fun p => !(s.sum (s.page p).summary).hashed) = false := by
    rw [List.any_eq_false]
    intro p hm
    simp [(hh p hm).2]
  have fenced : (((s.seq (sSeq x.a)).entries.take (sBlock x.a)).any (·.fenced)) = false := by
    rw [List.any_eq_false]
    intro e hm
    simp [he e hm]
  rw [show exec (.publish f) s = execPublish f s from rfl, execPublish, onFlight_acts h, hj]
  dsimp only
  rw [State.readable_ok hd, hc, if_neg (by simp), if_neg (by omega), State.readable_ok hd, opened, if_neg Bool.false_ne_true, State.asWalker_held h.here hw, bad]
  dsimp only
  rw [never, if_neg Bool.false_ne_true, unformed, unhashed, ha, List.any_nil, Bool.or_self, Bool.or_self, Bool.false_or, if_neg, fenced,
    if_neg Bool.false_ne_true]
  · simp only [u, hu]
  · rw [Bool.not_eq_true, List.any_eq_false]
    intro p hm
    split
    · next e => exact absurd e (hf p hm _ _ _ _)
    · exact Bool.false_ne_true

/-- An ending leaves no work. -/
theorem finish_job {s : State} {f : Nat} {x : Flight} (h : s.flight? f = some x) (st : BitVec 16) (res : BitVec 64) (cw : Option (BitVec 64)) :
    ((s.finish f st res cw).flight f).job = .none := by
  rw [State.flight_of_flight? ((s.finish_flight? (State.flight_of_flight? h) st res cw f).trans (if_pos rfl))]
  split_ifs
  · unfold Flight.stopped
    split_ifs
    · split <;> rfl
    · rfl
  · rfl

theorem OnlyChanges.conflict (s : State) (c : Nat) (r : Region) (digest : BitVec 96) (tag : BitVec 16) : OnlyChanges evParts s (s.conflict c r digest tag) := by
  unfold State.conflict
  extract_lets old s1 a b s2 s3
  have h2 : OnlyChanges evParts s s2 := (OnlyChanges.report s _).trans (.countFn s1 a 4 1)
  have h3 : OnlyChanges evParts s s3 := .ite (fun _ => h2) fun _ => h2.trans (.countFn s2 b 4 1)
  exact h3.trans (.irq s3 b _ _ false)

/-! ## RETRACT -/

theorem exec_retract_done {s : State} {f ri : Nat} {x : Flight} (h : Acts s f 0x15 x) (hj : x.job = .retract ri []) (ho : s.opsLeft f = false) :
    let u := s.setJob f (.retract ri [])
    exec (.retract f) s =
      .next (((u.retractDone ri x.ctx).finish f stOk (BitVec.ofNat 64 (s.region ri).entries.length) none).framed s) := by
  intro u
  have hu : u.flight f = { x with phase := .begun, job := .retract ri [], progress := s.now } :=
    State.flight_of_flight? (State.updFlight_flight?_same h.here _)
  have ho' : u.opsLeft f = false := ho
  rw [show exec (.retract f) s = execRetract f s from rfl, execRetract, onFlight_acts h, hj]
  dsimp only
  rw [State.retractOn]
  simp only [List.map_nil, State.queueOps, List.drop_nil, List.isEmpty_nil, Bool.not_true, Bool.false_or]
  change Host.Outcome.next (State.framed (if u.opsLeft f = true then u else (u.retractDone ri (u.flight f).ctx).finish f stOk _ none) s) = _
  rw [ho', if_neg Bool.false_ne_true, hu]
  rfl
theorem exec_retract_missing {s : State} {f : Nat} {x : Flight} (h : Acts s f 0x15 x) (hj : x.job = .none)
    (hr : s.findRegion (fld x.b.toNat 0 16) (fld x.a.toNat 0 32) x.ctx = none) :
    exec (.retract f) s = .next ((s.finish f stNotFound 0 none).framed s) := by
  rw [show exec (.retract f) s = execRetract f s from rfl, execRetract, onFlight_acts h, hj]
  dsimp only
  rw [hr]
  rfl

/-- The record of a RETRACT that is done is free. -/
theorem retractDone_region (s : State) (ri c : Nat) : (s.retractDone ri c).region ri = {} :=
  ((OnlyChanges.dropBlocks _ _ _ c []).region ri).trans (s.updRegion_region_same ri _)

theorem retract_ends {s : State} {f ri : Nat} {x : Flight} (h : Acts s f 0x15 x) (hj : x.job = .retract ri []) (ho : s.opsLeft f = false) :
    ∃ t, exec (.retract f) s = .next t ∧ Completed s t f x stOk (BitVec.ofNat 64 (s.region ri).entries.length) ∧
      (t.region ri).used = false ∧ (t.region ri).committed = false := by
  set u := s.setJob f (.retract ri [])
  have done := OnlyChanges.retractDone u ri x.ctx
  have hf : (u.retractDone ri x.ctx).flight? f = some { x with phase := .begun, job := .retract ri [], progress := s.now } :=
    (flight?_congr (done .flights (by decide)) f).trans (State.updFlight_flight?_same h.here _)
  have hr (res : BitVec 64) : (((u.retractDone ri x.ctx).finish f stOk res none).framed s).region ri = {} :=
    by rw [State.framed_region, (OnlyChanges.finish _ f stOk res none).region ri, retractDone_region]
  have hc : (u.retractDone ri x.ctx).ctxs = s.ctxs := done .ctxs (by decide)
  have ends := finish_completed_of (x := x) (fun c n => congrArg (Ctx.reg · n) (ctx_congr hc c)) hf ⟨rfl, rfl, rfl⟩ stOk
    (BitVec.ofNat 64 (s.region ri).entries.length) none
  exact ⟨_, exec_retract_done h hj ho, ends.framed s, by rw [hr], by rw [hr]⟩

theorem chains_last {s : State} {q : Seq} {n : Nat} (hn : 0 < n) (hl : n ≤ q.entries.length) :
    (s.chains q n).getLastD 0 = (s.sum (s.page (((q.entries.take n).map (·.base)).getLastD 0)).summary).chain := by
  have hne : q.entries.take n ≠ [] := by
    intro h
    have := congrArg List.length h
    rw [List.length_take, List.length_nil] at this
    omega
  simp only [State.chains, List.getLastD_eq_getLast?, List.getLast?_map, List.getLast?_eq_some_getLast hne, Option.map_some, Option.getD_some]

/-- Settles O24: the commit writes the record, and every ending is reached after operations that leave the contexts. -/
theorem publishAndRetractEnd : Obligations.PublishAndRetractEnd := by
  intro s f ri x
  refine ⟨fun h => ⟨fun hj ho => ?_, fun hj hw hd => ?_⟩, fun h => ⟨retract_ends h, fun hj hr => ?_⟩⟩
  · obtain ⟨t, run, ⟨c, v, e, hh⟩, ends⟩ := publish_commits h hj ho
    exact ⟨t, run, c, v, e, hh, ends⟩
  · intro qi q n ver heads hc hn hl hp hh ha hf he r hr hcom hret hpub last
    have run := exec_publish_ready h hj ⟨hw, hd, hc, hn, hl, hp, hh, ha, hf, he⟩
    have start := publishStart_stands (s := s) (f := f) (q := q) (n := n) hr hcom hret hpub
    have hlast : (s.chains q n).getLastD 0 = last := chains_last hn hl
    refine ⟨fun hv => ?_, fun hv heq => ?_, fun hv hne => ?_⟩
    · have e := (start hv.le).trans (if_pos hv)
      exact ⟨_, run (by rw [e]; exact finish_job h.here _ _ none), by rw [e]; exact (finish_completed s h.here _ _ none).framed s⟩
    · have e := ((start hv.le).trans (if_neg hv.not_lt)).trans (if_pos (heq.trans hlast.symm))
      exact ⟨_, run (by rw [e]; exact finish_job h.here _ _ none), by rw [e]; exact (finish_completed s h.here _ _ none).framed s⟩
    · have e := ((start hv.le).trans (if_neg hv.not_lt)).trans (if_neg fun k => hne (k.trans hlast))
      have only := OnlyChanges.conflict s x.ctx r ((s.chains q n).getLastD 0) (wTag x.word)
      exact ⟨_, run (by rw [e]; exact finish_job ((flight?_congr (only .flights (by decide)) f).trans h.here) _ _ none),
        by rw [e]; exact (finish_completed_after only h.here _ _ none).framed s⟩
  · exact ⟨_, exec_retract_missing h hj hr, (finish_completed s h.here _ 0 none).framed s, finish_ctxEnds s h.here stNotFound 0 none⟩

end Sys2Proof.Machine
end

section
-- One proof after another: so many at once would not fit beside the model in memory.
set_option Elab.async false
/-! ATTACH, FORK and RELEASE: what a walker slot leaves of their allocations, what they leave of every other sequence (03 R84 to R87). -/
namespace Sys2Proof.Machine
open Sys2Proof

/-! ## An instruction with a walker slot -/

/-- The state with other walker slots and flights. -/
def State.walking (s : State) (w : Tbl Nat) (fl : Tbl Flight) : State := { s with ps := { s.ps with walkers := w }, flights := fl }

/-- With a slot free, a walker's work runs: only the slots and its own record differ. -/
theorem State.asWalker_runs {s : State} {f : Nat} {x : Flight} (hf : s.flight? f = some x) (hw : s.freeWalker.isSome = true) :
    ∃ (w : Tbl Nat) (fl : Tbl Flight) (y : Flight), (s.walking w fl).flight? f = some y ∧ (y.mirror = x.mirror ∧ y.ctx = x.ctx ∧ y.word = x.word) ∧
      ∀ k, s.asWalker f k = k (s.walking w fl) := by
  by_cases h : x.walker.isSome = true
  · exact ⟨s.ps.walkers, s.flights, x, hf, ⟨rfl, rfl, rfl⟩, fun k => State.asWalker_held hf h k⟩
  · obtain ⟨i, hi⟩ := Option.isSome_iff_exists.mp hw
    have ht : s.takeWalker = some (i, s.walking (s.ps.walkers.put i (s.ps.epoch + 1)) s.flights) := by rw [State.takeWalker, hi]; rfl
    refine ⟨_, _, _, State.updFlight_flight?_same (s := s.walking (s.ps.walkers.put i (s.ps.epoch + 1)) s.flights) hf
      (fun x => { x with walker := some i, phase := .begun }), ⟨rfl, rfl, rfl⟩, fun k => ?_⟩
    rw [State.asWalker, State.flight_of_flight? hf, if_neg h, ht]
    rfl

section
variable (s : State) (w : Tbl Nat) (fl : Tbl Flight)

theorem State.walking_takePool (n : Nat) : (s.walking w fl).takePool n false = (s.takePool n false).map fun r => (r.1, r.2.walking w fl) := by
  have h : (s.walking w fl).draw.2.freeSheets = s.draw.2.freeSheets ∧ (s.walking w fl).draw.2.ps.poolRuns = s.draw.2.ps.poolRuns ∧
      (s.walking w fl).draw.1 = s.draw.1 ∧ (∀ i, (s.walking w fl).draw.2.regBase i = s.draw.2.regBase i) ∧
      ∀ i, (s.walking w fl).draw.2.regSize i = s.draw.2.regSize i := ⟨rfl, rfl, rfl, fun _ => rfl, fun _ => rfl⟩
  obtain ⟨hr, hp, hv, hb, hz⟩ := h
  unfold State.takePool
  dsimp only
  rw [hr, hp, hv, hb, hz]
  simp only [Bool.false_eq_true, if_false]
  by_cases c : decide (n ≤ s.draw.2.freeSheets) = true
  · rw [if_pos c, if_pos c]
    cases pickRun s.draw.2.ps.poolRuns (s.draw.2.regBase 6) (s.draw.2.regSize 6) n s.draw.1 with
    | none => rfl
    | some a => rfl
  · rw [if_neg c, if_neg c]; rfl
theorem State.walking_takeRun (n : Nat) : (s.walking w fl).takeRun n = (s.takeRun n).map fun r => (r.1, r.2.walking w fl) := by
  have h : (s.walking w fl).tier.landing < (s.walking w fl).freeSheets ↔ s.tier.landing < s.freeSheets := Iff.rfl
  rw [State.takeRun, State.takeRun, State.walking_takePool]
  by_cases c : s.tier.landing < s.freeSheets
  · rw [if_pos c, if_pos (h.mpr c)]
  · rw [if_neg c, if_neg (mt h.mp c)]; rfl
theorem State.walking_takeAux : (s.walking w fl).takeAux = s.takeAux.map fun r => (r.1, r.2.walking w fl) := by
  simp only [State.takeAux, Option.map_map]; rfl
theorem State.walking_takeSeqSheet : (s.walking w fl).takeSeqSheet = s.takeSeqSheet.map fun r => (r.1, r.2.walking w fl) := by
  simp only [State.takeSeqSheet, Option.map_map]; rfl
theorem State.walking_moreSeqSheets (o : Option (List Nat × State)) :
    State.moreSeqSheets (o.map fun r => (r.1, r.2.walking w fl)) = (State.moreSeqSheets o).map fun r => (r.1, r.2.walking w fl) := by
  cases o with
  | none => rfl
  | some r => simp only [State.moreSeqSheets, Option.map_some, State.walking_takeSeqSheet, Option.map_map]; rfl
theorem State.walking_takeSeqSheets (n : Nat) :
    (s.walking w fl).takeSeqSheets n = (s.takeSeqSheets n).map fun r => (r.1, r.2.walking w fl) := by
  have step : ∀ (l : List Nat) (o : Option (List Nat × State)),
      l.foldl (fun o _ => State.moreSeqSheets o) (o.map fun r => (r.1, r.2.walking w fl)) =
        (l.foldl (fun o _ => State.moreSeqSheets o) o).map fun r => (r.1, r.2.walking w fl) := by
    intro l
    induction l with
    | nil => exact fun o => rfl
    | cons a l ih => intro o; rw [List.foldl_cons, List.foldl_cons, State.walking_moreSeqSheets, ih]
  exact step _ (some ([], s))
theorem State.walking_edit (q lo : Nat) (es : List Entry) : (s.walking w fl).edit q lo es = (s.edit q lo es).map fun r => (r.1, r.2.walking w fl) := by
  have hq : (s.walking w fl).seq q = s.seq q := rfl
  have hl (x : Seq) (k : Nat) : (s.walking w fl).treeLost x k = s.treeLost x k := rfl
  simp only [State.edit, hq, hl, State.walking_takeSeqSheets]
  cases s.takeSeqSheets _ with
  | none => rfl
  | some r => rfl
theorem State.walking_needAux (p : Nat) : (s.walking w fl).needAux p = (s.needAux p).map (·.walking w fl) := by
  have hp : (s.walking w fl).page p = s.page p := rfl
  simp only [State.needAux, hp, State.walking_takeAux]
  split_ifs
  · rfl
  · cases s.takeAux with
    | none => rfl
    | some r => rfl
theorem State.walking_addRef (p : Nat) : (s.walking w fl).addRef p = (s.addRef p).map (·.walking w fl) := by
  have hu : (s.walking w fl).updPage p (fun g => { g with refcount := g.refcount + 1 }) =
    (s.updPage p fun g => { g with refcount := g.refcount + 1 }).walking w fl := rfl
  simp only [State.addRef, hu]
  generalize s.updPage p (fun g => { g with refcount := g.refcount + 1 }) = u
  have hp : (u.walking w fl).page p = u.page p := rfl
  rw [hp]
  split_ifs
  · exact u.walking_needAux w fl p
  · rfl
theorem State.walking_addRefs (ps : List Nat) : (s.walking w fl).addRefs ps = (s.addRefs ps).map (·.walking w fl) := by
  induction ps generalizing s with
  | nil => rfl
  | cons p r ih =>
    simp only [State.addRefs, State.walking_addRef]
    cases s.addRef p with
    | none => rfl
    | some u => exact ih u
theorem State.walking_newStream (q : Nat) (x : Stream) : (s.walking w fl).newStream q x = (s.newStream q x).map (·.walking w fl) := by
  have ha : (s.walking w fl).awl = s.awl := rfl
  simp only [State.newStream, ha, State.walking_takeRun]
  split_ifs
  · rfl
  · rfl
  · cases s.takeRun 1 with
    | none => rfl
    | some r => rfl
theorem State.walking_newSeq (q : Nat) (h : Seq) (x : Stream) : (s.walking w fl).newSeq q h x = (s.newSeq q h x).map (·.walking w fl) :=
  State.walking_newStream (s.updSeq q _) w fl q x
theorem State.walking_attachSeq (c q n model : Nat) (r : Region) :
    (s.walking w fl).attachSeq c q n model r = (s.attachSeq c q n model r).map (·.walking w fl) := by
  have hq : (s.walking w fl).seq q = s.seq q := rfl
  simp only [State.attachSeq, hq]
  split_ifs
  · rfl
  · exact s.walking_newSeq w fl q _ _
end

/-! ## Sequences that allocations leave -/

theorem SameSeqs.draw (s : State) : SameSeqs s s.draw.2 := rfl
theorem SameSeqs.of_map {s : State} {α β : Type} {o : Option α} {g : α → β × State} {r : β × State} (e : o.map g = some r)
    (h : ∀ a, SameSeqs s (g a).2) : SameSeqs s r.2 := by
  cases o with
  | none => cases e
  | some a => cases e; exact h a
theorem SameSeqs.takePool {s : State} {n : Nat} {press : Bool} {r : Nat × State} (h : s.takePool n press = some r) : SameSeqs s r.2 := by
  unfold State.takePool at h
  dsimp only at h
  obtain ⟨-, h⟩ := Option.ite_none_right_eq_some.mp h
  split at h
  · exact Option.some.inj h ▸ .refl s
  · cases h
theorem SameSeqs.takeRun {s : State} {n : Nat} {r : Nat × State} (h : s.takeRun n = some r) : SameSeqs s r.2 :=
  .takePool (Option.ite_none_right_eq_some.mp h).2
theorem SameSeqs.takeAux {s : State} {r : Nat × State} (h : s.takeAux = some r) : SameSeqs s r.2 := by
  unfold State.takeAux at h
  exact .of_map h fun _ => rfl
theorem SameSeqs.takeSeqSheet {s : State} {r : Nat × State} (h : s.takeSeqSheet = some r) : SameSeqs s r.2 := by
  unfold State.takeSeqSheet at h
  exact .of_map h fun _ => rfl
theorem SameSeqs.moreSeqSheets {s : State} {o : Option (List Nat × State)} (h : ∀ r, o = some r → SameSeqs s r.2) {r : List Nat × State}
    (e : State.moreSeqSheets o = some r) : SameSeqs s r.2 := by
  cases o with
  | none => cases e
  | some p =>
    have e : (p.2.takeSeqSheet.map fun q => (p.1 ++ [q.1], q.2)) = some r := e
    obtain ⟨q, hq, rfl⟩ := Option.map_eq_some_iff.mp e
    exact (h p rfl).trans (.takeSeqSheet hq)
theorem SameSeqs.takeSeqSheets {s : State} {n : Nat} {r : List Nat × State} (h : State.takeSeqSheets n s = some r) : SameSeqs s r.2 := by
  have step : ∀ (l : List Nat) (o : Option (List Nat × State)), (∀ r, o = some r → SameSeqs s r.2) →
      ∀ r, l.foldl (fun o _ => State.moreSeqSheets o) o = some r → SameSeqs s r.2 := by
    intro l
    induction l with
    | nil => exact fun o ho => ho
    | cons a l ih => exact fun o ho => ih _ fun r e => .moreSeqSheets ho e
  exact step _ _ (fun r e => by cases e; exact .refl s) r h
theorem SameSeqs.needAux {s t : State} {p : Nat} (h : s.needAux p = some t) : SameSeqs s t := by
  unfold State.needAux at h
  split_ifs at h
  · exact Option.some.inj h ▸ .refl s
  · split at h
    · cases h
    · next i u e =>
      rw [← Option.some.inj h]
      exact ((SameSeqs.takeAux e).trans (.updPage u p _)).trans (.updAux _ i _)
theorem SameSeqs.addRefs {s t : State} {l : List Nat} (h : s.addRefs l = some t) : SameSeqs s t := by
  induction l generalizing s with
  | nil => exact Option.some.inj h ▸ .refl s
  | cons p l ih =>
    unfold State.addRefs State.addRef at h
    dsimp only at h
    split at h
    · next u e =>
      refine SameSeqs.trans ?_ (ih h)
      split_ifs at e
      · exact (SameSeqs.updPage s p _).trans (.needAux e)
      · exact Option.some.inj e ▸ .updPage s p _
    · cases h
theorem SameSeqs.newStream {s t : State} {q : Nat} {x : Stream} (h : s.newStream q x = some t) : SameSeqs s t := by
  unfold State.newStream at h
  split_ifs at h
  · exact Option.some.inj h ▸ .refl s
  · exact Option.some.inj h ▸ .only (OnlyChanges.updStream s q _)
  · split at h
    · cases h
    · next hr =>
      rw [← Option.some.inj h]
      exact SameSeqs.trans (.takeRun hr) (.only ((OnlyChanges.updStream _ q _).seq (OnlyChanges.setAwl _ _)))
theorem SameSeqs.dropRefs (s : State) (ps : List Nat) : SameSeqs s (s.dropRefs ps).2 := by
  induction ps generalizing s with
  | nil => exact .refl s
  | cons p r ih =>
    unfold State.dropRefs
    split
    · exact ih s
    · exact (SameSeqs.updPage s p _).trans (ih _)
/-- Blocks dropped change no sequence's table. -/
theorem SameSeqs.dropBlocks (s : State) (bases : List Nat) (n ctx : Nat) (sheets : List Nat) : SameSeqs s (s.dropBlocks bases n ctx sheets) := by
  have h := SameSeqs.dropRefs s (blockPages bases n)
  exact SameSeqs.trans (.ite (fun _ => h) fun _ => h.trans (.retire _ _))
    (.foldl (fun (s : State) b => s.reclass b n ctx) (fun s b => .reclass s b n ctx) bases _)
theorem SameSeqs.dropStream (s : State) (q : Nat) : SameSeqs s (s.dropStream q) :=
  .ite (fun _ => .refl s) fun _ => .ite (fun _ => rfl) fun _ => rfl

end Sys2Proof.Machine
end

section
-- One proof after another: so many at once would not fit beside the model in memory.
set_option Elab.async false
/-! ATTACH, FORK and RELEASE: the table each leaves in its sequence, and its ending (03 R84, R86, R87, 04 R150). -/
namespace Sys2Proof.Machine
open Sys2Proof

/-! ## One sequence that changes -/

/-- Every sequence but `q` stays. -/
def OtherSeqs (q : Nat) (s t : State) : Prop := ∀ p, p ≠ q → t.seq p = s.seq p

theorem OtherSeqs.trans {q : Nat} {s t u : State} (h : OtherSeqs q s t) (k : OtherSeqs q t u) : OtherSeqs q s u := fun p hp => (k p hp).trans (h p hp)
theorem SameSeqs.others {s t : State} (h : SameSeqs s t) (q : Nat) : OtherSeqs q s t := fun p _ => h.seq p
theorem OtherSeqs.updSeq (s : State) (q : Nat) (g : Seq → Seq) : OtherSeqs q s (s.updSeq q g) := fun _ hp => s.updSeq_seq_ne g hp

theorem pchDown_kept {l : List Part} {s t : State} (h : OnlyChanges l s t) (hd : s.dev.pchDown = []) (hp : .dev ∉ l := by decide) : t.dev.pchDown = [] := by
  rw [h .dev hp, hd]

/-- A structural edit gives the table its new entries, and no other sequence changes. -/
theorem edit_seqs {s : State} (hd : s.dev.pchDown = []) {q lo : Nat} {es : List Entry} {r : List Nat × State} (h : s.edit q lo es = some r) :
    (r.2.seq q).entries = es ∧ (r.2.seq q).owner = (s.seq q).owner ∧ OtherSeqs q s r.2 := by
  unfold State.edit at h
  dsimp only at h
  split at h
  · cases h
  · next sheets u hs =>
    have hu : SameSeqs s u := .takeSeqSheets hs
    rw [← Option.some.inj h]
    have hseq := fun g => (State.updSeq_seq_eq (pchDown_kept (OnlyChanges.takeSeqSheets hs) hd) q q g).trans (if_pos rfl)
    refine ⟨congrArg Seq.entries (hseq _), (congrArg Seq.owner (hseq _)).trans ?_, (hu.others q).trans (.updSeq u q _)⟩
    have ho : (u.seq q).owner = (s.seq q).owner := by rw [hu.seq q]
    exact ho

theorem takeLastHash_state {s : State} (hd : s.dev.pchDown = []) (es : List Entry) : (s.takeLastHash es).2 = s := by
  unfold State.takeLastHash
  split
  · rfl
  · rw [sumBad_none hd]; rfl
/-- While every summary record can be read, LASTHASH is all that its writing changes. -/
theorem putLastHash_eq {s : State} (hd : s.dev.pchDown = []) (q : Nat) (es : List Entry) :
    s.putLastHash q es = s.updSeq q fun y => { y with lastHash := (s.takeLastHash es).1 } := by
  have h : s.putLastHash q es = (s.takeLastHash es).2.updSeq q fun y => { y with lastHash := (s.takeLastHash es).1 } := rfl
  rw [h, takeLastHash_state hd]

/-! ## The quota after an ending -/

theorem quotaStatus_congr {s t : State} {c : Nat} (hs : SameSeqs s t) (hq : (t.ctx c).quota = (s.ctx c).quota) : t.quotaStatus c = s.quotaStatus c := by
  unfold State.quotaStatus State.charge
  rw [hs, hq]
/-- An ending changes neither charge nor quota. -/
theorem finish_quotaStatus (s : State) (f : Nat) (st : BitVec 16) (res : BitVec 64) (cw : Option (BitVec 64)) (c : Nat) :
    (s.finish f st res cw).quotaStatus c = s.quotaStatus c := by
  refine quotaStatus_congr (.finish s f st res cw) ?_
  rw [s.finish_ctx rfl]
  split_ifs with h
  · obtain ⟨_, _, _, _, _, _, e⟩ := (s.ctx (s.flight f).ctx).ended_form (s.flight f) st res
    rw [e, h.2]
  · rfl
theorem framed_quotaStatus (t s : State) (c : Nat) : (t.framed s).quotaStatus c = t.quotaStatus c := rfl

/-! ## After an edit -/

/-- The state after an edit with its tree sheets retired, LASTHASH written and the pages of blocks reclassed. -/
def State.edited (s : State) (q c n : Nat) (old : List Nat) (bases : List Nat) : State :=
  let s := if old.isEmpty then s else s.retire { seqSheets := old }
  bases.foldl (fun s b => s.reclass b n c) (s.putLastHash q (s.seq q).entries)

theorem edited_spec {s : State} (hd : s.dev.pchDown = []) (q c n : Nat) (old bases : List Nat) :
    OnlyChanges pageParts s (s.edited q c n old bases) ∧ ((s.edited q c n old bases).seq q).entries = (s.seq q).entries ∧
      ((s.edited q c n old bases).seq q).owner = (s.seq q).owner ∧ OtherSeqs q s (s.edited q c n old bases) := by
  unfold State.edited
  extract_lets u
  have hu : OnlyChanges [.ps] s u := .ite (fun _ => .refl _ s) fun _ => OnlyChanges.retire s _
  have su : SameSeqs s u := .ite (fun _ => .refl s) fun _ => .retire s _
  have du : u.dev.pchDown = [] := pchDown_kept hu hd
  rw [putLastHash_eq du]
  generalize hv : (u.updSeq q fun y => { y with lastHash := (u.takeLastHash (u.seq q).entries).1 }) = v
  have hseq : v.seq q = { u.seq q with lastHash := (u.takeLastHash (u.seq q).entries).1 } := by
    rw [← hv, State.updSeq_seq_eq du, if_pos rfl]
  have same : SameSeqs v (bases.foldl (fun (s : State) b => s.reclass b n c) v) := .foldl _ (fun t b => .reclass t b n c) bases v
  refine ⟨(hu.mono.trans (hv ▸ (OnlyChanges.updSeq u q _).mono)).trans (.foldl (fun (s : State) b => s.reclass b n c) (fun t b => OnlyChanges.reclass t b n c) bases v),
    ?_, ?_, ((su.others q).trans (hv ▸ OtherSeqs.updSeq u q _)).trans (same.others q)⟩
  · rw [same.seq, hseq, su.seq]
  · rw [same.seq, hseq, su.seq]

/-! ## ATTACH -/

/-- The entries that ATTACH adds. -/
def attached (x : Seq) (n cls : Nat) (r : Region) : List Entry :=
  (r.entries.take n).map fun e => { e with shared := true, cls := cls, hint := 0, fenced := x.fenceOn }
/-- ATTACH's effect is there when its sequence, the references and the tree sheets are. -/
theorem attach_eq_some {s t : State} {c q n cls model : Nat} {r : Region} :
    s.attach c q n cls model r = some t ↔ ∃ u v old w, s.attachSeq c q n model r = some u ∧
      u.addRefs (blockPages ((attached (s.seq q) n cls r).map (·.base)) r.layers) = some v ∧
      v.edit q (s.seq q).entries.length ((s.seq q).entries ++ attached (s.seq q) n cls r) = some (old, w) ∧
      t = w.edited q c r.layers old ((attached (s.seq q) n cls r).map (·.base)) := by
  unfold State.attach
  constructor
  · intro h
    dsimp only at h
    split at h
    · cases h
    · next u hu =>
      split at h
      · cases h
      · next v hv =>
        split at h
        · cases h
        · next old w hw => exact ⟨u, v, old, w, hu, hv, hw, (Option.some.inj h).symm⟩
  · rintro ⟨u, v, old, w, hu, hv, hw, rfl⟩
    dsimp only
    rw [hu]
    dsimp only
    unfold attached at hv hw
    rw [hv]
    dsimp only
    rw [hw]
    rfl

theorem attachSeq_spec {s u : State} {c q n model : Nat} {r : Region} (h : s.attachSeq c q n model r = some u) :
    OnlyChanges [.free, .ps, .awl] s u ∧ OtherSeqs q s u := by
  unfold State.attachSeq at h
  split_ifs at h
  · exact Option.some.inj h ▸ ⟨.refl _ s, fun _ _ => rfl⟩
  · exact ⟨.newSeq h, (OtherSeqs.updSeq s q _).trans ((SameSeqs.newStream h).others q)⟩

/-- What ATTACH and FORK change before their ending. -/
abbrev shareParts : List Part := .awl :: .free :: pageParts

/-- The table that ATTACH leaves. -/
theorem attach_spec {s t : State} (hd : s.dev.pchDown = []) {c q n cls model : Nat} {r : Region} (h : s.attach c q n cls model r = some t) :
    OnlyChanges shareParts s t ∧ (t.seq q).entries = (s.seq q).entries ++ attached (s.seq q) n cls r ∧ OtherSeqs q s t := by
  obtain ⟨u, v, old, w, hu, hv, hw, rfl⟩ := attach_eq_some.mp h
  obtain ⟨ou, qu⟩ := attachSeq_spec hu
  have ov := OnlyChanges.addRefs hv
  have ow := OnlyChanges.edit hw
  have dv := pchDown_kept ov (pchDown_kept ou hd)
  obtain ⟨he, -, qw⟩ := edit_seqs dv hw
  obtain ⟨ot, ht, -, qt⟩ := edited_spec (pchDown_kept ow dv) q c r.layers old ((attached (s.seq q) n cls r).map (·.base))
  exact ⟨((ou.mono.trans ov.mono).trans ow.mono).trans ot.mono, ht.trans he, ((qu.trans ((SameSeqs.addRefs hv).others q)).trans qw).trans qt⟩

/-- A walker slot changes nothing about whether ATTACH finds its space. -/
theorem attach_walking {s t : State} {c q n cls model : Nat} {r : Region} (h : s.attach c q n cls model r = some t) (w : Tbl Nat) (fl : Tbl Flight) :
    ∃ t', (s.walking w fl).attach c q n cls model r = some t' := by
  obtain ⟨u, v, old, z, hu, hv, hz, -⟩ := attach_eq_some.mp h
  exact ⟨_, attach_eq_some.mpr ⟨u.walking w fl, v.walking w fl, old, z.walking w fl, by rw [State.walking_attachSeq, hu]; rfl,
    (u.walking_addRefs w fl _).trans (congrArg _ hv), (v.walking_edit w fl _ _ _).trans (congrArg _ hz), rfl⟩⟩

theorem exec_attach {s : State} {f : Nat} {x : Flight} (h : Acts s f 0x11 x) (hw : s.freeWalker.isSome = true) (hd : s.dev.pchDown = [])
    (ho : (s.seq (sSeq x.a)).state ≠ 0 → (s.seq (sSeq x.a)).owner = x.ctx) {lrec count k ri : Nat} {r : Region} {u : State}
    (hl : lrec = ofLe (s.t0Read ((s.ctx x.ctx).outAddr + fld x.b.toNat 0 32) 32)) (hn : count = fld x.c.toNat 0 24)
    (hr : s.findRegion (fld lrec 88 16) (fld lrec 128 32) x.ctx = some (ri, r))
    (hc : s.attachCheck x.ctx (sSeq x.a) (sBlock x.a) count lrec (some r) = stOk)
    (hk : k = min (if count = 0 then fld lrec 64 24 else count) r.entries.length)
    (hroom : s.refRoom ((r.entries.take k).map (·.base)) r.layers = true)
    (ha : s.attach x.ctx (sSeq x.a) k (fld x.c.toNat 24 2) (fld lrec 104 16) r = some u) :
    ∃ (v t : State) (y : Flight), exec (.attach f) s = .next ((t.finish f (t.quotaStatus x.ctx) (BitVec.ofNat 64 k) none).framed s) ∧
      v.attach x.ctx (sSeq x.a) k (fld x.c.toNat 24 2) (fld lrec 104 16) r = some t ∧
      (v.flight? f = some y ∧ y.mirror = x.mirror ∧ y.ctx = x.ctx ∧ y.word = x.word) ∧ v.ctxs = s.ctxs ∧ v.dev = s.dev ∧ SameSeqs s v := by
  obtain ⟨w, fl, y, hy, hxy, run⟩ := State.asWalker_runs h.here hw
  obtain ⟨t, ht⟩ := attach_walking ha w fl
  refine ⟨s.walking w fl, t, y, ?_, ht, ⟨hy, hxy⟩, rfl, rfl, rfl⟩
  have hd' : (s.walking w fl).dev.pchDown = [] := hd
  have ho' : ¬(((s.walking w fl).seq (sSeq x.a)).state ≠ 0 ∧ ((s.walking w fl).seq (sSeq x.a)).owner ≠ x.ctx) := fun e => e.2 (ho e.1)
  have hl' : ofLe ((s.walking w fl).t0Read ((s.ctx x.ctx).outAddr + fld x.b.toNat 0 32) 32) = lrec := hl.symm
  have hr' : (s.walking w fl).findRegion (fld lrec 88 16) (fld lrec 128 32) x.ctx = some (ri, r) := hr
  have hc' : (s.walking w fl).attachCheck x.ctx (sSeq x.a) (sBlock x.a) count lrec (some r) = stOk := hc
  have hroom' : (s.walking w fl).refRoom ((r.entries.take k).map (·.base)) r.layers = true := hroom
  rw [show exec (.attach f) s = execAttach f s from rfl, execAttach, onFlight_acts h]
  dsimp only
  rw [run, State.readable_ok hd', if_neg ho', State.rangeBad_none _ _ _ hd', hl', hr', ← hn, Option.map_some, hc', if_neg (by simp), if_neg (by simp)]
  dsimp only
  rw [← hk, hroom', State.readable_ok hd', ht]
  rfl

theorem attach_ends {s : State} {f : Nat} {x : Flight} (h : Acts s f 0x11 x) (hw : s.freeWalker.isSome = true) (hd : s.dev.pchDown = [])
    (ho : (s.seq (sSeq x.a)).state ≠ 0 → (s.seq (sSeq x.a)).owner = x.ctx) {lrec count k ri : Nat} {r : Region}
    (hl : lrec = ofLe (s.t0Read ((s.ctx x.ctx).outAddr + fld x.b.toNat 0 32) 32)) (hn : count = fld x.c.toNat 0 24)
    (hr : s.findRegion (fld lrec 88 16) (fld lrec 128 32) x.ctx = some (ri, r))
    (hc : s.attachCheck x.ctx (sSeq x.a) (sBlock x.a) count lrec (some r) = stOk)
    (hk : k = min (if count = 0 then fld lrec 64 24 else count) r.entries.length)
    (hroom : s.refRoom ((r.entries.take k).map (·.base)) r.layers = true)
    (ha : (s.attach x.ctx (sSeq x.a) k (fld x.c.toNat 24 2) (fld lrec 104 16) r).isSome = true) :
    ∃ t, exec (.attach f) s = .next t ∧ Completed s t f x (t.quotaStatus x.ctx) (BitVec.ofNat 64 k) ∧
      (t.seq (sSeq x.a)).entries = (s.seq (sSeq x.a)).entries ++ attached (s.seq (sSeq x.a)) k (fld x.c.toNat 24 2) r ∧ OtherSeqs (sSeq x.a) s t := by
  obtain ⟨u, hu⟩ := Option.isSome_iff_exists.mp ha
  obtain ⟨v, t, y, run, ht, ⟨hy, hxy⟩, hctx, hdev, hv⟩ := exec_attach h hw hd ho hl hn hr hc hk hroom hu
  obtain ⟨only, he, oth⟩ := attach_spec (hdev ▸ hd) ht
  have same := SameSeqs.finish t f (t.quotaStatus x.ctx) (BitVec.ofNat 64 k) none
  refine ⟨_, run, ?_, ?_, ?_⟩
  · rw [framed_quotaStatus, finish_quotaStatus]
    exact (finish_completed_of (fun c _ => by rw [ctx_congr ((only .ctxs (by decide)).trans hctx)]) ((flight?_congr (only .flights (by decide)) f).trans hy)
      hxy _ _ none).framed s
  · rw [(same.framed s).seq, he, hv.seq]
  · exact ((hv.others _).trans oth).trans ((same.framed s).others _)

/-! ## FORK -/

/-- The header of FORK's new sequence. -/
def State.forkHead (s : State) (src n : Nat) : Seq :=
  let x := s.seq src
  { owner := x.owner, model := x.model, layers := x.layers, tpp := x.tpp, ptok := x.ptok, format := x.format, groups := x.groups, dims := x.dims,
    weight := x.weight, fenceOn := (x.entries.take n).any (·.fenced) }
/-- The stream record of FORK's new sequence. -/
def State.forkStream (s : State) (src n : Nat) : Stream :=
  let x := s.seq src
  let y := s.stream src
  if y.used then
    (if n = x.entries.length then { y with reported := [] }
     else { y with states := s.startStates y.autos, nextPos := nextPos (x.entries.take n) x.tpp, matchCount := 0, reported := [] })
  else {}

theorem filter_open_nil {es : List Entry} (hop : ∀ e ∈ es, e.isOpen = false) : (es.filter fun e => e.isOpen) = [] :=
  List.filter_eq_nil_iff.mpr fun e he => by rw [hop e he]; exact Bool.false_ne_true
theorem filter_closed_self {es : List Entry} (hop : ∀ e ∈ es, e.isOpen = false) : (es.filter fun e => !e.isOpen) = es :=
  List.filter_eq_self.mpr fun e he => by rw [hop e he]; rfl

/-- FORK's effect, of blocks that are not open, is there when its header, the references and the tree sheets are. -/
theorem fork_eq_ok {s : State} {src dst n cls : Nat} (hop : ∀ e ∈ (s.seq src).entries.take n, e.isOpen = false) {p : Nat × List Nat × State} :
    s.fork src dst n cls = .ok p ↔ ∃ u v old w, s.newSeq dst (s.forkHead src n) (s.forkStream src n) = some u ∧
      u.addRefs (blockPages (((s.seq src).entries.take n).map (·.base)) (s.seq src).layers) = some v ∧
      v.edit dst 0 (((s.seq src).entries.take n).map fun e => { e with shared := true }) = some (old, w) ∧
      p = (0, [], w.edited dst (s.seq src).owner (s.seq src).layers [] (((s.seq src).entries.take n).map (·.base))) := by
  unfold State.fork
  dsimp only
  rw [filter_closed_self hop, filter_open_nil hop]
  constructor
  · intro h
    split at h
    · cases h
    · next u hu =>
      split at h
      · cases h
      · next v hv =>
        dsimp only [State.forkOpen] at h
        rw [List.append_nil] at h
        split at h
        · cases h
        · next old w hw => exact ⟨u, v, old, w, hu, hv, hw, (Except.ok.inj h).symm⟩
  · rintro ⟨u, v, old, w, hu, hv, hw, rfl⟩
    unfold State.forkHead State.forkStream at hu
    dsimp only at hu
    rw [hu]
    dsimp only
    rw [hv]
    dsimp only [State.forkOpen]
    rw [List.append_nil, hw]
    rfl

theorem newSeq_spec {s u : State} (hd : s.dev.pchDown = []) {q : Nat} {h : Seq} {y : Stream} (e : s.newSeq q h y = some u) :
    (u.seq q).owner = h.owner ∧ OtherSeqs q s u := by
  have same := SameSeqs.newStream e
  refine ⟨?_, (OtherSeqs.updSeq s q _).trans (same.others q)⟩
  rw [same.seq, State.updSeq_seq_eq hd, if_pos rfl]

/-- The table that FORK leaves. -/
theorem fork_spec {s : State} (hd : s.dev.pchDown = []) {src dst n cls : Nat} (hop : ∀ e ∈ (s.seq src).entries.take n, e.isOpen = false)
    {p : Nat × List Nat × State} (h : s.fork src dst n cls = .ok p) :
    ∃ t, p = (0, [], t) ∧ OnlyChanges shareParts s t ∧ (t.seq dst).entries = ((s.seq src).entries.take n).map (fun e => { e with shared := true }) ∧
      (t.seq dst).owner = (s.seq src).owner ∧ OtherSeqs dst s t := by
  obtain ⟨u, v, old, w, hu, hv, hw, rfl⟩ := (fork_eq_ok hop).mp h
  have ou := OnlyChanges.newSeq hu
  have ov := OnlyChanges.addRefs hv
  have ow := OnlyChanges.edit hw
  have du := pchDown_kept ou hd
  have dv := pchDown_kept ov du
  obtain ⟨hown, qu⟩ := newSeq_spec hd hu
  obtain ⟨he, hew, qw⟩ := edit_seqs dv hw
  obtain ⟨ot, hte, hto, qt⟩ := edited_spec (pchDown_kept ow dv) dst (s.seq src).owner (s.seq src).layers [] (((s.seq src).entries.take n).map (·.base))
  have hvo : (v.seq dst).owner = (s.seq src).owner := by rw [(SameSeqs.addRefs hv).seq, hown]; rfl
  exact ⟨_, rfl, ((ou.mono.trans ov.mono).trans ow.mono).trans ot.mono, hte.trans he, (hto.trans hew).trans hvo,
    ((qu.trans ((SameSeqs.addRefs hv).others dst)).trans qw).trans qt⟩

theorem fork_walking {s : State} {src dst n cls : Nat} (hop : ∀ e ∈ (s.seq src).entries.take n, e.isOpen = false) {p : Nat × List Nat × State}
    (h : s.fork src dst n cls = .ok p) (w : Tbl Nat) (fl : Tbl Flight) : ∃ p', (s.walking w fl).fork src dst n cls = .ok p' := by
  obtain ⟨u, v, old, z, hu, hv, hz, -⟩ := (fork_eq_ok hop).mp h
  have hop' : ∀ e ∈ ((s.walking w fl).seq src).entries.take n, e.isOpen = false := hop
  exact ⟨_, (fork_eq_ok hop').mpr ⟨u.walking w fl, v.walking w fl, old, z.walking w fl,
    (s.walking_newSeq w fl _ _ _).trans (congrArg _ hu),
    (u.walking_addRefs w fl _).trans (congrArg _ hv), (v.walking_edit w fl _ _ _).trans (congrArg _ hz), rfl⟩⟩

theorem openAway_none {s : State} {es : List Entry} (hop : ∀ e ∈ es, e.isOpen = false) (n : Nat) : s.openAway es n = [] := by
  rw [State.openAway, filter_open_nil hop]; rfl
theorem openBad_none {s : State} {es : List Entry} (hop : ∀ e ∈ es, e.isOpen = false) (n : Nat) : s.openBad es n = none := by
  rw [State.openBad, filter_open_nil hop]; rfl

theorem exec_fork {s : State} {f : Nat} {x : Flight} (h : Acts s f 0x12 x) (hja : ∀ a b c d, x.job ≠ .append a b c d)
    (hjp : ∀ p l k, x.job ≠ .pages (p :: l) k) (hw : s.freeWalker.isSome = true) (hd : s.dev.pchDown = []) (hs : s.seqCheck x.ctx (sSeq x.a) = stOk)
    (hn : sBlock x.a ≤ (s.seq (sSeq x.a)).entries.length) (hdst : (s.seq (fld x.b.toNat 0 24)).state = 0)
    (hu : ((s.stream (sSeq x.a)).used && s.unscanned (sSeq x.a)) = false)
    (hop : ∀ e ∈ (s.seq (sSeq x.a)).entries.take (sBlock x.a), e.isOpen = false)
    (hroom : s.refRoom (((s.seq (sSeq x.a)).entries.take (sBlock x.a)).map (·.base)) (s.seq (sSeq x.a)).layers = true)
    {p : Nat × List Nat × State} (hf : s.fork (sSeq x.a) (fld x.b.toNat 0 24) (sBlock x.a) (fld x.b.toNat 24 2) = .ok p) :
    ∃ (v t : State) (y : Flight), exec (.fork f) s = .next ((t.finish f (t.quotaStatus x.ctx) (BitVec.ofNat 64 (sBlock x.a)) none).framed s) ∧
      v.fork (sSeq x.a) (fld x.b.toNat 0 24) (sBlock x.a) (fld x.b.toNat 24 2) = .ok (0, [], t) ∧
      (v.flight? f = some y ∧ y.mirror = x.mirror ∧ y.ctx = x.ctx ∧ y.word = x.word) ∧ v.ctxs = s.ctxs ∧ v.dev = s.dev ∧ SameSeqs s v := by
  obtain ⟨w, fl, y, hy, hxy, run⟩ := State.asWalker_runs h.here hw
  obtain ⟨p', hp'⟩ := fork_walking hop hf w fl
  have hd' : (s.walking w fl).dev.pchDown = [] := hd
  obtain ⟨t, rfl, -⟩ := fork_spec (s := s.walking w fl) hd' hop hp'
  refine ⟨s.walking w fl, t, y, ?_, hp', ⟨hy, hxy⟩, rfl, rfl, rfl⟩
  have hdst' : ¬((s.seq (sSeq x.a)).entries.length < sBlock x.a ∨ ((s.walking w fl).seq (fld x.b.toNat 0 24)).state ≠ 0) := by
    rintro (e | e)
    · omega
    · exact e hdst
  have hu' : (((s.walking w fl).stream (sSeq x.a)).used && (s.walking w fl).unscanned (sSeq x.a)) = false := hu
  have hroom' : (s.walking w fl).refRoom (((s.seq (sSeq x.a)).entries.take (sBlock x.a)).map (·.base)) (s.seq (sSeq x.a)).layers = true := hroom
  rw [show exec (.fork f) s = execFork f s from rfl, execFork, onFlight_acts h]
  dsimp only
  split
  · next e => exact absurd e (hja _ _ _ _)
  · next e => exact absurd e (hjp _ _ _)
  · rw [run, State.readable_ok hd', hs, if_neg (by simp), if_neg hdst', hu', if_neg (by simp), State.readable_ok hd', openBad_none hop, openAway_none hop,
      filter_closed_self hop, hroom', hp']
    simp only [Nat.zero_mul, Nat.add_zero]
    rfl

theorem fork_ends {s : State} {f : Nat} {x : Flight} (h : Acts s f 0x12 x) (hja : ∀ a b c d, x.job ≠ .append a b c d)
    (hjp : ∀ p l k, x.job ≠ .pages (p :: l) k) (hw : s.freeWalker.isSome = true) (hd : s.dev.pchDown = []) (hs : s.seqCheck x.ctx (sSeq x.a) = stOk)
    (hn : sBlock x.a ≤ (s.seq (sSeq x.a)).entries.length) (hdst : (s.seq (fld x.b.toNat 0 24)).state = 0)
    (hu : ((s.stream (sSeq x.a)).used && s.unscanned (sSeq x.a)) = false)
    (hop : ∀ e ∈ (s.seq (sSeq x.a)).entries.take (sBlock x.a), e.isOpen = false)
    (hroom : s.refRoom (((s.seq (sSeq x.a)).entries.take (sBlock x.a)).map (·.base)) (s.seq (sSeq x.a)).layers = true)
    (hf : ∃ p, s.fork (sSeq x.a) (fld x.b.toNat 0 24) (sBlock x.a) (fld x.b.toNat 24 2) = .ok p) :
    ∃ t, exec (.fork f) s = .next t ∧ Completed s t f x (t.quotaStatus x.ctx) (BitVec.ofNat 64 (sBlock x.a)) ∧
      (t.seq (fld x.b.toNat 0 24)).entries = ((s.seq (sSeq x.a)).entries.take (sBlock x.a)).map (fun e => { e with shared := true }) ∧
      (t.seq (fld x.b.toNat 0 24)).owner = (s.seq (sSeq x.a)).owner ∧ OtherSeqs (fld x.b.toNat 0 24) s t := by
  obtain ⟨p, hp⟩ := hf
  obtain ⟨v, t, y, run, ht, ⟨hy, hxy⟩, hctx, hdev, hv⟩ := exec_fork h hja hjp hw hd hs hn hdst hu hop hroom hp
  have hq := hv.seq (sSeq x.a)
  obtain ⟨t', e, only, he, ho, oth⟩ := fork_spec (hdev ▸ hd) (hq.symm ▸ hop) ht
  obtain rfl : t = t' := congrArg (·.2.2) e
  have same := SameSeqs.finish t f (t.quotaStatus x.ctx) (BitVec.ofNat 64 (sBlock x.a)) none
  refine ⟨_, run, ?_, ?_, ?_, ?_⟩
  · rw [framed_quotaStatus, finish_quotaStatus]
    exact (finish_completed_of (fun c _ => by rw [ctx_congr ((only .ctxs (by decide)).trans hctx)]) ((flight?_congr (only .flights (by decide)) f).trans hy)
      hxy _ _ none).framed s
  · rw [(same.framed s).seq, he, hq]
  · rw [(same.framed s).seq, ho, hq]
  · exact ((hv.others _).trans oth).trans ((same.framed s).others _)

/-! ## RELEASE -/

theorem releaseWhole_seqs {s : State} (hd : s.dev.pchDown = []) (q : Nat) :
    ((s.releaseWhole q).seq q).state = 0 ∧ ((s.releaseWhole q).seq q).entries = [] ∧ OtherSeqs q s (s.releaseWhole q) := by
  unfold State.releaseWhole
  extract_lets x bases u v
  have hu : SameSeqs u (v.dropBlocks bases x.layers x.owner (x.tree.map (·.2))) := (SameSeqs.dropStream u q).trans (.dropBlocks v _ _ _ _)
  have hq : u.seq q = { gen := (x.gen + 1) % 65536 } := (State.updSeq_seq_eq hd q q _).trans (if_pos rfl)
  refine ⟨?_, ?_, (OtherSeqs.updSeq s q _).trans (hu.others q)⟩ <;> rw [hu.seq, hq]

theorem releaseTail_spec {s t : State} (hd : s.dev.pchDown = []) {q b : Nat} (h : s.releaseTail q b = some t) :
    OnlyChanges (.free :: releaseParts) s t ∧ (t.seq q).entries = (s.seq q).entries.take b ∧ (t.seq q).owner = (s.seq q).owner ∧ OtherSeqs q s t := by
  unfold State.releaseTail at h
  dsimp only at h
  split at h
  · cases h
  · next old u hu =>
    rw [← Option.some.inj h]
    have ou := OnlyChanges.edit hu
    have du := pchDown_kept ou hd
    obtain ⟨he, ho, hoth⟩ := edit_seqs hd hu
    generalize hv : u.updSeq q (fun y => { y with fenceOn := y.fenceOn && ((s.seq q).entries.take b).any (·.fenced) }) = v
    have ov : OnlyChanges [.ps] u v := hv ▸ OnlyChanges.updSeq u q _
    have dv := pchDown_kept ov du
    rw [putLastHash_eq dv]
    generalize hw : v.updSeq q (fun y => { y with lastHash := (v.takeLastHash ((s.seq q).entries.take b)).1 }) = w
    have ow : OnlyChanges [.ps] v w := hw ▸ OnlyChanges.updSeq v q _
    have hwq : (w.seq q).entries = (u.seq q).entries ∧ (w.seq q).owner = (u.seq q).owner := by
      rw [← hw, State.updSeq_seq_eq dv, if_pos rfl, ← hv, State.updSeq_seq_eq du, if_pos rfl]
      exact ⟨rfl, rfl⟩
    have oth : OtherSeqs q s w := (hoth.trans (hv ▸ OtherSeqs.updSeq u q _)).trans (hw ▸ OtherSeqs.updSeq v q _)
    generalize hz : (if (w.stream q).used = true then w.updStream q fun t =>
      { t with states := w.startStates t.autos, nextPos := nextPos ((s.seq q).entries.take b) (s.seq q).tpp } else w) = z
    have oz : OnlyChanges [.awl] w z := hz ▸ .ite (fun _ => OnlyChanges.updStream w q _) fun _ => .refl _ w
    have same : SameSeqs w (z.dropBlocks (s.heldBases q b) (s.seq q).layers (s.seq q).owner old) := (SameSeqs.only oz).trans (.dropBlocks z _ _ _ _)
    refine ⟨(((ou.mono.trans ov.mono).trans ow.mono).trans oz.mono).trans (OnlyChanges.dropBlocks z _ _ _ _).mono, ?_, ?_, oth.trans (same.others q)⟩
    · rw [same.seq, hwq.1, he]
    · rw [same.seq, hwq.2, ho]

theorem exec_release {s : State} {f : Nat} {x : Flight} (h : Acts s f 0x13 x) (hs : s.seqCheck x.ctx (sSeq x.a) = stOk)
    (hn : sBlock x.a ≤ (s.seq (sSeq x.a)).entries.length) (hu : ((s.stream (sSeq x.a)).used && s.unscanned (sSeq x.a)) = false) :
    (fld x.b.toNat 0 1 = 1 → exec (.release f) s = .next (((s.releaseWhole (sSeq x.a)).finish f stOk 0 none).framed s)) ∧
    (fld x.b.toNat 0 1 = 0 → ∀ t, s.releaseTail (sSeq x.a) (sBlock x.a) = some t → exec (.release f) s = .next ((t.finish f stOk 0 none).framed s)) := by
  rw [show exec (.release f) s = execRelease f s from rfl, execRelease, onFlight_acts h]
  dsimp only
  rw [hs, hu, getLsbD_eq_fld, if_neg (by simp), if_neg (by omega), if_neg (by simp)]
  refine ⟨fun e => ?_, fun e t ht => ?_⟩
  · rw [e]; rfl
  · rw [e, ht]; rfl

theorem release_ends {s : State} {f : Nat} {x : Flight} (h : Acts s f 0x13 x) (hd : s.dev.pchDown = []) (hs : s.seqCheck x.ctx (sSeq x.a) = stOk)
    (hn : sBlock x.a ≤ (s.seq (sSeq x.a)).entries.length) (hu : ((s.stream (sSeq x.a)).used && s.unscanned (sSeq x.a)) = false) :
    (fld x.b.toNat 0 1 = 1 → ∃ t, exec (.release f) s = .next t ∧ Completed s t f x stOk 0 ∧
      (t.seq (sSeq x.a)).state = 0 ∧ (t.seq (sSeq x.a)).entries = [] ∧ OtherSeqs (sSeq x.a) s t) ∧
    (fld x.b.toNat 0 1 = 0 → (s.releaseTail (sSeq x.a) (sBlock x.a)).isSome = true → ∃ t, exec (.release f) s = .next t ∧ Completed s t f x stOk 0 ∧
      (t.seq (sSeq x.a)).entries = (s.seq (sSeq x.a)).entries.take (sBlock x.a) ∧ (t.seq (sSeq x.a)).owner = (s.seq (sSeq x.a)).owner ∧
      OtherSeqs (sSeq x.a) s t) := by
  obtain ⟨whole, tail⟩ := exec_release h hs hn hu
  refine ⟨fun e => ?_, fun e ht => ?_⟩
  · obtain ⟨hst, he, oth⟩ := releaseWhole_seqs hd (sSeq x.a)
    have only := OnlyChanges.releaseWhole s (sSeq x.a)
    refine ⟨_, whole e, (finish_completed_after only h.here stOk 0 none).framed s, ?_⟩
    generalize s.releaseWhole (sSeq x.a) = u at hst he oth
    have same := (SameSeqs.finish u f stOk 0 none).framed s
    exact ⟨by rw [same.seq, hst], by rw [same.seq, he], oth.trans (same.others _)⟩
  · obtain ⟨u, hu⟩ := Option.isSome_iff_exists.mp ht
    obtain ⟨only, he, ho, oth⟩ := releaseTail_spec hd hu
    have same := (SameSeqs.finish u f stOk 0 none).framed s
    exact ⟨_, tail e u hu, (finish_completed_after only h.here stOk 0 none).framed s, by rw [same.seq, he], by rw [same.seq, ho], oth.trans (same.others _)⟩

/-- Settles O28: ATTACH and FORK end by one edit of one table, for which a walker's slot changes nothing; RELEASE drops blocks of one table. -/
theorem attachForkRelease : Obligations.AttachForkRelease := by
  intro s f x q n
  refine ⟨?_, ?_, ?_⟩
  · intro h hw hd ho lrec count ri r hr hc k hroom ha
    exact attach_ends h hw hd ho rfl rfl hr hc rfl hroom ha
  · intro h hja hjp hw hd hs hn dst hdst hu hop hroom hf
    exact fork_ends h hja hjp hw hd hs hn hdst hu hop hroom hf
  · intro h hd hs hn hu
    exact release_ends h hd hs hn hu

end Sys2Proof.Machine
end

section
-- One proof after another: so many at once would not fit beside the model in memory.
set_option Elab.async false
/-! APPEND in SEQ mode whose tokens fit in the last block of its sequence (03 R92 to R94, 04 R135, R140). -/
namespace Sys2Proof.Machine
open Sys2Proof

/-! ## Pages that grow in place -/

/-- A page before and after: it stays where it is and as open as it was, and its LENGTH and TOKENS reach at least `len` and `toks`. -/
def Page.Grows (g h : Page) (len toks : Nat) : Prop :=
  (h.location = g.location ∧ h.closed = g.closed) ∧ h.length = max g.length len ∧ h.tokens = max g.tokens toks

theorem Page.Grows.refl (g : Page) : g.Grows g 0 0 := ⟨⟨rfl, rfl⟩, (Nat.max_zero _).symm, (Nat.max_zero _).symm⟩
theorem Page.Grows.trans {g h i : Page} {a b c d : Nat} (k : g.Grows h a b) (m : h.Grows i c d) : g.Grows i (max a c) (max b d) := by
  obtain ⟨⟨l1, c1⟩, n1, t1⟩ := k
  obtain ⟨⟨l2, c2⟩, n2, t2⟩ := m
  exact ⟨⟨l2.trans l1, c2.trans c1⟩, by rw [n2, n1, Nat.max_assoc], by rw [t2, t1, Nat.max_assoc]⟩

theorem writeTokens_open {s : State} (hd : s.dev.pchDown = []) {p : Nat} (hc : (s.page p).closed = false) (t n ptok gi : Nat) (b : Bytes) :
    (s.writeTokens p t n ptok gi b).t0 = memWrite s.t0 ((s.page p).location * 4096 + t * ptok) b ∧
      ∀ r, (s.page r).Grows ((s.writeTokens p t n ptok gi b).page r) (if r = p then (t + n) * ptok else 0) (if r = p then t + n else 0) := by
  unfold State.writeTokens
  dsimp only
  rw [if_neg (by rw [hc]; exact Bool.false_ne_true)]
  have only := OnlyChanges.t0Write s ((s.page p).location * 4096 + t * ptok) b
  have mem := t0Write_t0 hd ((s.page p).location * 4096 + t * ptok) b
  generalize s.t0Write ((s.page p).location * 4096 + t * ptok) b = u at only mem
  have du := pchDown_kept only hd
  refine ⟨mem, fun r => ?_⟩
  rw [State.stampPage, State.updPage_page_eq (s := u.updPage p _) du, State.updPage_page_eq du, State.updPage_page_eq du, page_congr (congrArg Ps.pages (only .ps (by decide))),
    page_congr (congrArg Ps.pages (only .ps (by decide))), if_pos rfl]
  split_ifs with e
  · subst e; exact ⟨⟨rfl, rfl⟩, rfl, rfl⟩
  · exact .refl _

/-- The writes of `k` layer-major tokens from place `t` of the first `n` pages of a block. -/
def State.tokenWrites (s : State) (base t k ptok : Nat) (data : Bytes) (n : Nat) : List (Nat × Bytes) :=
  (List.range n).map fun l => ((s.page (base + l)).location * 4096 + t * ptok, (data.drop (l * k * ptok)).take (k * ptok))

/-- Tokens that fall into one block, layer by layer. -/
theorem writeBlock_within {s : State} (hd : s.dev.pchDown = []) {y : Seq} {e : Entry} {b pos k : Nat} (ha : b * y.tpp ≤ pos) (hb : pos + k ≤ (b + 1) * y.tpp)
    (gi : Nat) (data : Bytes) {n : Nat} (hc : ∀ l < n, (s.page (e.base + l)).closed = false) :
    (s.writeBlock y gi e b pos k data n).t0 = memWrites s.t0 (s.tokenWrites e.base (pos - b * y.tpp) k y.ptok data n) ∧
      ∀ r, (s.page r).Grows ((s.writeBlock y gi e b pos k data n).page r) (if e.base ≤ r ∧ r < e.base + n then (pos - b * y.tpp + k) * y.ptok else 0)
        (if e.base ≤ r ∧ r < e.base + n then pos - b * y.tpp + k else 0) := by
  induction n with
  | zero =>
    refine ⟨rfl, fun r => ?_⟩
    rw [if_neg (by omega), if_neg (by omega)]
    exact .refl _
  | succ n ih =>
    obtain ⟨mem, pages⟩ := ih fun l hl => hc l (by omega)
    have du := pchDown_kept (OnlyChanges.writeBlock s y gi e b pos k data n) hd
    rw [State.writeBlock]
    generalize s.writeBlock y gi e b pos k data n = u at mem pages du
    have hp := pages (e.base + n)
    rw [Nat.max_eq_left ha, Nat.min_eq_left hb, Nat.sub_self, Nat.add_zero, Nat.add_sub_cancel_left]
    obtain ⟨mem', pages'⟩ := writeTokens_open du (hp.1.2.trans (hc n (by omega))) (pos - b * y.tpp) k y.ptok gi ((data.drop (n * k * y.ptok)).take (k * y.ptok))
    refine ⟨?_, fun r => ?_⟩
    · rw [mem', mem, hp.1.1]
      simp only [State.tokenWrites, memWrites, List.range_succ, List.map_append, List.foldl_append, List.map_cons, List.map_nil, List.foldl_cons, List.foldl_nil]
    · have g := (pages r).trans (pages' r)
      have pick (v : Nat) : max (if e.base ≤ r ∧ r < e.base + n then v else 0) (if r = e.base + n then v else 0) =
          if e.base ≤ r ∧ r < e.base + (n + 1) then v else 0 := by split_ifs <;> omega
      rwa [pick, pick] at g

/-! ## The write of one APPEND -/

theorem writeIds_pages (s : State) (p t : Nat) (ids : List Nat) : (s.writeIds p t ids).ps.pages = s.ps.pages := by
  unfold State.writeIds
  split_ifs <;> rfl
theorem closeFull_none {s : State} {n : Nat} {ps : List Nat} (h : ∀ p ∈ ps, (s.page p).length < n) : s.closeFull n ps = ([], s) := by
  induction ps with
  | nil => rfl
  | cons p r ih =>
    unfold State.closeFull
    dsimp only
    rw [if_neg fun c => absurd (h p List.mem_cons_self) (by omega), ih fun q hq => h q (List.mem_cons_of_mem p hq)]
theorem screen_unused {s : State} {q : Nat} (h : (s.stream q).used = false) (pos block : Nat) (ids : List Nat) : s.screen q pos block ids = ([], s) := by
  rw [State.screen, h]; rfl
theorem stream_congr {s t : State} (h : t.awl = s.awl) (q : Nat) : t.stream q = s.stream q := by rw [State.stream, h]; rfl
theorem span_one (b : Nat) : span b (b + 1) = [b] := by simp [span]

/-- What lies in T0 and in the pages after `k` tokens have been written from place `t` of the `n` pages of a block. -/
def State.Wrote (s u : State) (base n t k ptok : Nat) (data : Bytes) : Prop :=
  u.t0 = memWrites s.t0 (s.tokenWrites base t k ptok data n) ∧
    ∀ r, (s.page r).Grows (u.page r) (if base ≤ r ∧ r < base + n then (t + k) * ptok else 0) (if base ≤ r ∧ r < base + n then t + k else 0)

/-- The write of tokens that fit in one block of an unscreened sequence and fill no page: nothing is sealed and nothing scanned. -/
theorem writeSeq_within {s : State} (hd : s.dev.pchDown = []) {q : Nat} (hq : (s.stream q).used = false) {y : Seq} {es : List Entry} {pos k : Nat} (h0 : 0 < k)
    (hp : 0 < y.ptok) (hb : pos + k < (pos / y.tpp + 1) * y.tpp)
    (hc : ∀ l < y.layers, (s.page ((es.getD (pos / y.tpp) {}).base + l)).closed = false)
    (hl : ∀ l < y.layers, (s.page ((es.getD (pos / y.tpp) {}).base + l)).length < y.ptok * y.tpp) (gi : Nat) (data : Bytes) (ids : List Nat) :
    ∃ u, s.writeSeq q y es gi pos k data ids = ([], [], u) ∧ OnlyChanges [.t0, .ps] s u ∧
      s.Wrote u (es.getD (pos / y.tpp) {}).base y.layers (pos - pos / y.tpp * y.tpp) k y.ptok data := by
  have ha : pos / y.tpp * y.tpp ≤ pos := Nat.div_mul_le_self pos y.tpp
  have hlast : (pos + k - 1) / y.tpp = pos / y.tpp := Nat.div_eq_of_lt_le (by omega) (by omega)
  unfold State.writeSeq
  rw [hlast, span_one]
  simp only [List.foldl_cons, List.foldl_nil, List.flatMap_cons, List.flatMap_nil, List.append_nil]
  have only := OnlyChanges.writeBlock s y gi (es.getD (pos / y.tpp) {}) (pos / y.tpp) pos k data y.layers
  obtain ⟨mem, pages⟩ := writeBlock_within hd ha hb.le gi data hc
  generalize s.writeBlock y gi (es.getD (pos / y.tpp) {}) (pos / y.tpp) pos k data y.layers = u1 at only mem pages ⊢
  have only2 := OnlyChanges.writeIds u1 (es.getD (pos / y.tpp) {}).base (max pos (pos / y.tpp * y.tpp) - pos / y.tpp * y.tpp)
    ((ids.drop (max pos (pos / y.tpp * y.tpp) - pos)).take (min (pos + k) ((pos / y.tpp + 1) * y.tpp) - max pos (pos / y.tpp * y.tpp)))
  have pages2 := writeIds_pages u1 (es.getD (pos / y.tpp) {}).base (max pos (pos / y.tpp * y.tpp) - pos / y.tpp * y.tpp)
    ((ids.drop (max pos (pos / y.tpp * y.tpp) - pos)).take (min (pos + k) ((pos / y.tpp + 1) * y.tpp) - max pos (pos / y.tpp * y.tpp)))
  generalize u1.writeIds _ _ _ = u2 at only2 pages2 ⊢
  generalize hu3 : (u2.updSeq q fun z => { z with
    entries := z.entries.modify (pos / y.tpp) fun e => u2.refill e y.layers y.ptok y.tpp, ageGath := gi, ageValid := true }).stampSeq q gi = u3
  have only3 : OnlyChanges [.ps] u2 u3 := hu3 ▸ (OnlyChanges.stampSeq _ q gi).seq (OnlyChanges.updSeq u2 q _)
  have pages3 : u3.ps.pages = u1.ps.pages := by rw [← hu3]; exact pages2
  have page3 (r : Nat) : u3.page r = u1.page r := page_congr pages3 r
  have open3 : ∀ p ∈ (List.range y.layers).map ((es.getD (pos / y.tpp) {}).base + ·), (u3.page p).length < y.payload := by
    intro p hmem
    obtain ⟨l, hlt, rfl⟩ := List.mem_map.mp hmem
    have hlt := List.mem_range.mp hlt
    rw [page3, (pages _).2.1, if_pos ⟨by omega, by omega⟩]
    have hnew : (pos - pos / y.tpp * y.tpp + k) * y.ptok < y.ptok * y.tpp := by
      rw [Nat.mul_comm]
      refine Nat.mul_lt_mul_of_pos_left ?_ hp
      rw [Nat.add_mul, Nat.one_mul] at hb
      omega
    exact max_lt (hl l hlt) hnew
  have all : OnlyChanges [.t0, .ps] s u3 := (only.trans only2.mono).trans only3.mono
  rw [closeFull_none open3]
  dsimp only
  rw [screen_unused ((congrArg Stream.used (stream_congr (all .awl (by decide)) q)).trans hq)]
  refine ⟨u3, rfl, all, ?_, fun r => page3 r ▸ pages r⟩
  rw [only3 .t0 (by decide), only2 .t0 (by decide), mem]

/-! ## The ending of an instruction that holds no work -/

theorem dropHolds_pages (s : State) (f : Nat) : (s.dropHolds f).ps.pages = s.ps.pages := by
  unfold State.dropHolds
  dsimp only
  have only : OnlyChanges [.pools] s ((s.flight f).holds.foldl (fun s i => s.freeCredits i 1) s) :=
    .foldl (fun (s : State) i => s.freeCredits i 1) (fun t i => OnlyChanges.freeCredits t i 1) _ s
  have hp : (((s.flight f).holds.foldl (fun s i => s.freeCredits i 1) s).ps.pages) = s.ps.pages := congrArg Ps.pages (only .ps (by decide))
  split <;> exact hp
theorem finish_pages {s : State} {f : Nat} (h : (s.flight f).job = .none) (st : BitVec 16) (res : BitVec 64) (cw : Option (BitVec 64)) :
    (s.finish f st res cw).ps.pages = s.ps.pages := by
  unfold State.finish
  extract_lets x e s1 s2 s3 s4 s5
  have h1 : s1 = s := by rw [show s1 = s.dropJob x.job _ from rfl, h]; rfl
  have h3 : s3.ps.pages = s.ps.pages := (dropHolds_pages s1 f).trans (by rw [h1])
  have h5 : s5.ps.pages = s3.ps.pages := congrArg Ps.pages (OnlyChanges.endCounts s3 x e st .ps (by decide))
  have h6 : OnlyChanges endParts s5 (if x.mirror.isSome = true then s5 else s5.endCtx f st res) := .ite (fun _ => .refl _ s5) fun _ => OnlyChanges.endCtx s5 f st res
  exact (congrArg Ps.pages (h6 .ps (by decide))).trans (h5.trans h3)

/-! ## APPEND in SEQ mode -/

/-- The sequence that an APPEND in SEQ mode names. -/
abbrev Flight.appends (x : Flight) : Nat := fld x.a.toNat 28 24
/-- The position of an APPEND's first token in its sequence, and the block it lies in. -/
abbrev State.appendPos (s : State) (x : Flight) : Nat := nextPos (s.seq x.appends).entries (s.seq x.appends).tpp
abbrev State.appendBlock (s : State) (x : Flight) : Nat := s.appendPos x / (s.seq x.appends).tpp
/-- The layer-0 page of that block. -/
abbrev State.appendBase (s : State) (x : Flight) : Nat := ((s.seq x.appends).entries.getD (s.appendBlock x) {}).base
/-- The input of an APPEND. -/
abbrev State.appendData (s : State) (x : Flight) : Bytes :=
  s.t0Read ((s.ctx x.ctx).inAddr + bOffset x.b) ((s.seq x.appends).layers * bCount x.b * (s.seq x.appends).ptok)

/-- An APPEND to an unscreened sequence whose tokens fit in a block that it has, without filling a page, while every pseudo-channel works. -/
structure State.AppendFits (s : State) (x : Flight) : Prop where
  present : (s.seq x.appends).state = 1
  some : 0 < bCount x.b
  wide : 0 < (s.seq x.appends).ptok
  small : s.appendPos x + bCount x.b ≤ 2 ^ 24 * (s.seq x.appends).tpp
  there : s.appendBlock x < (s.seq x.appends).entries.length
  fits : s.appendPos x + bCount x.b < (s.appendBlock x + 1) * (s.seq x.appends).tpp
  short : ∀ l < (s.seq x.appends).layers, (s.page (s.appendBase x + l)).length < (s.seq x.appends).ptok * (s.seq x.appends).tpp
  takes : ∀ l < (s.seq x.appends).layers, (s.page (s.appendBase x + l)).closed = false
  unscreened : (s.stream x.appends).used = false
  up : s.dev.pchDown = []

/-- The state in which an APPEND that fits has written its tokens. -/
def State.Appended (s : State) (x : Flight) (u : State) : Prop :=
  OnlyChanges [.t0, .ps] s u ∧ s.Wrote u (s.appendBase x) (s.seq x.appends).layers (s.appendPos x - s.appendBlock x * (s.seq x.appends).tpp) (bCount x.b)
    (s.seq x.appends).ptok (s.appendData x)
/-- Its ending then. -/
def State.appendEnd (u : State) (f : Nat) (x : Flight) : State :=
  (u.updFlight f fun x => { x with job := .none }).finish f (u.quotaStatus x.ctx) (BitVec.ofNat 64 (bCount x.b)) none

theorem State.AppendFits.no_block {s : State} {x : Flight} (h : s.AppendFits x) :
    cdiv (s.appendPos x + bCount x.b) (s.seq x.appends).tpp - (s.seq x.appends).entries.length = 0 := by
  have fits := h.fits
  have below : (s.appendPos x + bCount x.b + (s.seq x.appends).tpp - 1) / (s.seq x.appends).tpp < s.appendBlock x + 2 := by
    refine Nat.div_lt_of_lt_mul ?_
    have grow : (s.seq x.appends).tpp * (s.appendBlock x + 2) = (s.appendBlock x + 1) * (s.seq x.appends).tpp + (s.seq x.appends).tpp := by ring
    omega
  have there := h.there
  unfold cdiv
  omega
theorem State.targetSeq_present {s : State} {q : Nat} (h : (s.seq q).state = 1) (c : Nat) (r : GRec) : s.targetSeq c q r = s.seq q :=
  if_pos (by rw [h]; decide)

/-- An APPEND that fits takes no block, seals no page and sends no token: it ends at once. -/
theorem applySeq_fits {s : State} {x : Flight} (h : s.AppendFits x) (hj : x.job.held = []) (f : Nat) :
    ∃ u, s.applySeq f x = u.appendEnd f x ∧ s.Appended x u := by
  obtain ⟨u, hu, only, wrote⟩ := writeSeq_within h.up h.unscreened h.some h.wide h.fits h.takes h.short (gField x.a) (s.appendData x)
    (idsAt (s.t0Read ((s.ctx x.ctx).inAddr + fld x.c.toNat 0 32) (4 * bCount x.b)))
  refine ⟨u, ?_, only, wrote⟩
  have target : s.appendTarget x.ctx x.appends (s.seq x.appends) = some s := if_pos (by rw [h.present]; decide)
  have range : ¬((s.seq x.appends).state = 2 ∨ 2 ^ 24 * (s.seq x.appends).tpp < s.appendPos x + bCount x.b) := by
    have := h.small
    rw [h.present]
    omega
  unfold State.applySeq
  dsimp only
  rw [State.targetSeq_present h.present, if_neg range, State.readable_ok h.up, s.rangeBad_none _ _ h.up, s.rangeBad_none _ _ h.up, Bool.or_false,
    if_neg Bool.false_ne_true, h.no_block, hj, Nat.zero_sub]
  simp only [State.allocBlocks, List.append_nil, List.take_nil, List.drop_nil, Nat.zero_mul, Nat.add_zero]
  unfold State.appendSeq
  dsimp only
  rw [State.targetSeq_present h.present, target]
  dsimp only
  rw [List.isEmpty_nil, if_pos rfl, hu]
  rfl

theorem exec_append {s : State} {f : Nat} {x : Flight} (h : Acts s f 0x20 x) (hseq : fld x.a.toNat 52 1 = 0) (hlive : (s.gath (gField x.a)).live = true)
    (hown : (s.gath (gField x.a)).owner = x.ctx) (hfit : s.AppendFits x) (howner : (s.seq x.appends).owner = x.ctx)
    (hin : bOffset x.b + (s.seq x.appends).layers * bCount x.b * (s.seq x.appends).ptok ≤ (s.ctx x.ctx).inLen)
    (hbefore : s.appendBefore f x.ctx true [x.appends] = false)
    (hj : x.job = .boundary [] ∨ x.job = .none ∧ bAwait x.b = false ∧ s.listing x.appends = []) :
    exec (.append f) s = .next ((s.applySeq f x).framed s) := by
  have bit : x.a.getLsbD 52 = false := by rw [getLsbD_eq_fld, hseq]; rfl
  have range : ¬((s.seq x.appends).state = 2 ∨ (!inRange (bOffset x.b) ((s.seq x.appends).layers * bCount x.b * (s.seq x.appends).ptok) (s.ctx x.ctx).inLen) = true ∨
      2 ^ 24 * (s.seq x.appends).tpp < s.appendPos x + bCount x.b) := by
    have := hfit.small
    rw [hfit.present, inRange, decide_eq_true hin]
    simp only [Bool.not_true, Bool.false_eq_true, false_or]
    omega
  have mode : s.seqMode f x = s.applySeq f x := by
    unfold State.seqMode
    dsimp only
    rw [State.targetSeq_present hfit.present, hlive, State.readable_ok hfit.up, hown, howner, if_neg (by simp), if_neg (by simp), if_neg range]
    rcases hj with hj | ⟨hj, hwait, hlist⟩
    · rw [hj]
      dsimp only
      rw [hbefore]
      rfl
    · rw [hj]
      dsimp only
      rw [hwait, State.awaitGate_off, hlist, hbefore]
      rfl
  rw [show exec (.append f) s = execAppend f s from rfl, execAppend, onFlight_acts h]
  rcases hj with hj | ⟨hj, -, -⟩ <;>
  · rw [hj]
    dsimp only
    rw [bit, mode]
    rfl

theorem exec_boundary {s : State} {f : Nat} {x : Flight} (h : Acts s f 0x20 x) (hseq : fld x.a.toNat 52 1 = 0) (hj : x.job = .boundary [])
    (honly : s.flights = [(f, x)]) {gi : Nat} (hm : x.appends ∈ (s.gath gi).members) (hbefore : s.appendBefore f x.ctx true [x.appends] = false) :
    exec (.seqAppendAtStepBoundary gi) s = .next ((s.applySeq f x).framed s) := by
  have bit : x.a.getLsbD 52 = false := by rw [getLsbD_eq_fld, hseq]; rfl
  have applied : s.applyBoundaries gi = s.applySeq f x := by
    unfold State.applyBoundaries
    rw [honly, List.foldl_cons, List.foldl_nil]
    dsimp only
    rw [State.flight_of_flight? h.here, hj]
    dsimp only
    rw [bit, hbefore, List.contains_iff_mem.mpr hm]
    rfl
  rw [show exec (.seqAppendAtStepBoundary gi) s = execSeqAppendAtStepBoundary gi s from rfl, execSeqAppendAtStepBoundary, act, h.runs, applied]
  rfl

theorem appendEnd_spec {s u : State} {f : Nat} {x : Flight} (hf : s.flight? f = some x) (h : s.Appended x u) :
    Completed s ((u.appendEnd f x).framed s) f x (((u.appendEnd f x).framed s).quotaStatus x.ctx) (BitVec.ofNat 64 (bCount x.b)) ∧
      (∀ r, ((u.appendEnd f x).framed s).page r = u.page r) ∧ ((u.appendEnd f x).framed s).t0 = u.t0 := by
  obtain ⟨only, -⟩ := h
  have hu : u.flight? f = some x := (flight?_congr (only .flights (by decide)) f).trans hf
  have hv := State.updFlight_flight?_same hu fun x => { x with job := .none }
  refine ⟨?_, fun r => ?_, ?_⟩
  · rw [framed_quotaStatus]
    unfold State.appendEnd
    rw [finish_quotaStatus]
    exact (finish_completed_of (fun c _ => by rw [State.updFlight_ctx, ctx_congr (only .ctxs (by decide))]) hv ⟨rfl, rfl, rfl⟩ _ _ none).framed s
  · exact page_congr ((finish_pages (by rw [State.flight_of_flight? hv]) _ _ none).trans rfl) r
  · exact OnlyChanges.finish (u.updFlight f fun x => { x with job := .none }) f _ _ none .t0 (by decide)

/-- Each page takes its layer's part of the input. -/
theorem appendData_writes (s : State) (x : Flight) (base t : Nat) :
    s.tokenWrites base t (bCount x.b) (s.seq x.appends).ptok (s.appendData x) (s.seq x.appends).layers =
      (List.range (s.seq x.appends).layers).map fun l => ((s.page (base + l)).location * 4096 + t * (s.seq x.appends).ptok,
        memReadN s.t0 ((s.ctx x.ctx).inAddr + bOffset x.b + l * bCount x.b * (s.seq x.appends).ptok) (bCount x.b * (s.seq x.appends).ptok)) := by
  refine List.map_congr_left fun l hl => ?_
  have hl := List.mem_range.mp hl
  have room : l * bCount x.b * (s.seq x.appends).ptok + bCount x.b * (s.seq x.appends).ptok ≤ (s.seq x.appends).layers * bCount x.b * (s.seq x.appends).ptok := by
    rw [← Nat.add_mul, ← Nat.succ_mul]
    exact Nat.mul_le_mul_right _ (Nat.mul_le_mul_right _ hl)
  rw [State.appendData, State.t0Read, memReadN_drop, memReadN_take, Nat.min_eq_left (by omega)]

/-- Settles O29: the tokens are one write for each layer of the block, and what follows changes neither T0 nor any page. -/
theorem appendWritesTokens : Obligations.AppendWritesTokens := by
  intro s f x q gi y k pos b e loc done h hseq hlive hown hstate howner hin hk _ hsmall hthere hfits hshort hwide hopen hstream hd hbefore
  have hfit : s.AppendFits x := ⟨hstate, hk, hwide, hsmall, hthere, hfits, hshort, hopen, hstream, hd⟩
  have ends (hj : x.job.held = []) : ∃ t, s.applySeq f x = t ∧ done (t.framed s) := by
    obtain ⟨u, run, happ⟩ := applySeq_fits hfit hj f
    obtain ⟨hdone, hpage, hmem⟩ := appendEnd_spec h.here happ
    obtain ⟨-, mem, pages⟩ := happ
    rw [appendData_writes] at mem
    refine ⟨_, run, hdone, fun l hl => ?_, fun a ha => ?_, fun hapart l hl i hi => ?_⟩
    · obtain ⟨-, hlen, htok⟩ := pages (e.base + l)
      have inside : e.base ≤ e.base + l ∧ e.base + l < e.base + y.layers := by omega
      rw [if_pos inside] at hlen htok
      rw [hpage]
      exact ⟨hlen, htok⟩
    · rw [hmem, mem]
      refine memRead_writes_out (fun w hw => ?_) _
      obtain ⟨l, hl, rfl⟩ := List.mem_map.mp hw
      unfold Outside
      rw [memReadN_length]
      exact ha l (List.mem_range.mp hl)
    · rw [hmem, mem]
      have hlen : i < (memReadN s.t0 ((s.ctx x.ctx).inAddr + bOffset x.b + l * k * y.ptok) (k * y.ptok)).length := by rw [memReadN_length]; exact hi
      refine (memRead_writes_in ?_ (List.mem_map.mpr ⟨l, List.mem_range.mpr hl, rfl⟩) hlen _).trans (memReadN_getElem _ _ _ _)
      refine List.pairwise_map.mpr (List.nodup_range.pairwise_of_forall_ne fun m hm n hn hne => ?_)
      unfold Apart
      rw [memReadN_length, memReadN_length]
      exact hapart m (List.mem_range.mp hm) n (List.mem_range.mp hn) hne
  refine ⟨fun hj => ?_, fun hj honly hm => ?_⟩
  · obtain ⟨t, run, ht⟩ := ends (by rcases hj with hj | ⟨hj, -⟩ <;> rw [hj] <;> rfl)
    exact ⟨_, (exec_append h hseq hlive hown hfit howner hin hbefore hj).trans (by rw [run]), ht⟩
  · obtain ⟨t, run, ht⟩ := ends (by rw [hj]; rfl)
    exact ⟨_, (exec_boundary h hseq hj honly hm hbefore).trans (by rw [run]), ht⟩

end Sys2Proof.Machine
end

section
-- One proof after another: so many at once would not fit beside the model in memory.
set_option Elab.async false
/-! T0 stays canonical (O7): the operations that do not write T0. The canonical form is a property of the list T0 alone, so each of these has one lemma
`State.f_canonical`: the state after `f` is canonical exactly when the state before was. Where `f` may answer nothing, the lemma takes the equation that it
answered. An operation whose frame is proved above cites it; the others unfold once and use the lemmas of what they call. -/
namespace Sys2Proof.Machine
open Sys2Proof

/-- An operation whose frame does not list T0 leaves its form as it was. -/
theorem OnlyChanges.canonical {l : List Part} {s t : State} (h : OnlyChanges l s t) (k : Part.t0 ∉ l := by decide) : t.t0Canonical ↔ s.t0Canonical := by
  unfold State.t0Canonical
  rw [show t.t0 = s.t0 from h .t0 k]
@[simp] theorem State.mk_canonical (a b c m d e f g h i j k l n o p q r s t u v w x y z a' b' c' d') :
    State.t0Canonical ⟨a, b, c, m, d, e, f, g, h, i, j, k, l, n, o, p, q, r, s, t, u, v, w, x, y, z, a', b', c', d'⟩ ↔ Memory.wf m = true := Iff.rfl
@[simp] theorem State.wf_t0 (s : State) : Memory.wf s.t0 = true ↔ s.t0Canonical := Iff.rfl
@[simp] theorem State.ite_canonical (c : Prop) [Decidable c] (s t : State) :
    (if c then s else t).t0Canonical ↔ if c then s.t0Canonical else t.t0Canonical := by
  split <;> rfl
@[simp] theorem State.foldl_canonical {α : Type} {f : State → α → State} (h : ∀ s a, (f s a).t0Canonical ↔ s.t0Canonical) (xs : List α) (s : State) :
    (xs.foldl f s).t0Canonical ↔ s.t0Canonical := by
  induction xs generalizing s with
  | nil => rfl
  | cons a r ih => exact (ih _).trans (h s a)

section
variable (s : State)

/-! ### The shared operations -/

@[simp] theorem State.updCtx_canonical (c f) : (s.updCtx c f).t0Canonical ↔ s.t0Canonical := Iff.rfl
@[simp] theorem State.setFlight_canonical (f x) : (s.setFlight f x).t0Canonical ↔ s.t0Canonical := Iff.rfl
@[simp] theorem State.updFlight_canonical (f g) : (s.updFlight f g).t0Canonical ↔ s.t0Canonical := Iff.rfl
@[simp] theorem State.dropFlight_canonical (f) : (s.dropFlight f).t0Canonical ↔ s.t0Canonical := Iff.rfl
@[simp] theorem State.updFn_canonical (f g) : (s.updFn f g).t0Canonical ↔ s.t0Canonical := Iff.rfl
@[simp] theorem State.updGath_canonical (g h) : (s.updGath g h).t0Canonical ↔ s.t0Canonical := Iff.rfl
@[simp] theorem State.updPort_canonical (p g) : (s.updPort p g).t0Canonical ↔ s.t0Canonical := Iff.rfl
@[simp] theorem State.updQp_canonical (q g) : (s.updQp q g).t0Canonical ↔ s.t0Canonical := Iff.rfl
@[simp] theorem State.updReg_canonical (i g) : (s.updReg i g).t0Canonical ↔ s.t0Canonical := Iff.rfl
@[simp] theorem State.updExt_canonical (e g) : (s.updExt e g).t0Canonical ↔ s.t0Canonical := Iff.rfl
@[simp] theorem State.updSub_canonical (i g) : (s.updSub i g).t0Canonical ↔ s.t0Canonical := Iff.rfl
@[simp] theorem State.updSet_canonical (k g) : (s.updSet k g).t0Canonical ↔ s.t0Canonical := Iff.rfl
@[simp] theorem State.updRow_canonical (r g) : (s.updRow r g).t0Canonical ↔ s.t0Canonical := Iff.rfl
@[simp] theorem State.updBank_canonical (b g) : (s.updBank b g).t0Canonical ↔ s.t0Canonical := Iff.rfl
@[simp] theorem State.updRegion_canonical (i g) : (s.updRegion i g).t0Canonical ↔ s.t0Canonical := Iff.rfl
@[simp] theorem State.updSp_canonical (n g) : (s.updSp n g).t0Canonical ↔ s.t0Canonical := Iff.rfl
@[simp] theorem State.emitOut_canonical (o) : (s.emitOut o).t0Canonical ↔ s.t0Canonical := Iff.rfl
@[simp] theorem State.draw_canonical : s.draw.2.t0Canonical ↔ s.t0Canonical := (OnlyChanges.draw _).canonical
@[simp] theorem State.logEntry_canonical (kind point data r) : (s.logEntry kind point data r).t0Canonical ↔ s.t0Canonical :=
  (OnlyChanges.logEntry _ _ _ _ _).canonical
@[simp] theorem State.trace_canonical (p data) : (s.trace p data).t0Canonical ↔ s.t0Canonical := (OnlyChanges.trace _ _ _).canonical
@[simp] theorem State.fwEvent_canonical (p data) : (s.fwEvent p data).t0Canonical ↔ s.t0Canonical := (OnlyChanges.fwEvent _ _ _).canonical
@[simp] theorem State.upAer_canonical (f result) : (s.upAer f result).t0Canonical ↔ s.t0Canonical := (OnlyChanges.upAer _ _ _).canonical
@[simp] theorem State.countFn_canonical (f i n) : (s.countFn f i n).t0Canonical ↔ s.t0Canonical := (OnlyChanges.countFn _ _ _ _).canonical
@[simp] theorem State.countDev_canonical (i n) : (s.countDev i n).t0Canonical ↔ s.t0Canonical := (OnlyChanges.countDev _ _ _).canonical
@[simp] theorem State.report_canonical (r) : (s.report r).t0Canonical ↔ s.t0Canonical := (OnlyChanges.report _ _).canonical
@[simp] theorem State.irq_canonical (f i share urgent) : (s.irq f i share urgent).t0Canonical ↔ s.t0Canonical := (OnlyChanges.irq _ _ _ _ _).canonical
@[simp] theorem State.freeBytes_canonical (n) : (s.freeBytes n).2.t0Canonical ↔ s.t0Canonical := (OnlyChanges.freeBytes _ _).canonical
@[simp] theorem State.hostWrote_canonical (old) : (s.hostWrote old).t0Canonical ↔ s.t0Canonical := Iff.rfl
@[simp] theorem State.badGranule_canonical (source addr fn ctx st tag) : (s.badGranule source addr fn ctx st tag).t0Canonical ↔ s.t0Canonical :=
  (OnlyChanges.badGranule _ _ _ _ _ _ _).canonical
@[simp] theorem State.updPage_canonical (p g) : (s.updPage p g).t0Canonical ↔ s.t0Canonical := Iff.rfl
@[simp] theorem State.updAux_canonical (i g) : (s.updAux i g).t0Canonical ↔ s.t0Canonical := Iff.rfl
@[simp] theorem State.updSum_canonical (a g) : (s.updSum a g).t0Canonical ↔ s.t0Canonical := Iff.rfl
@[simp] theorem State.updSeq_canonical (q g) : (s.updSeq q g).t0Canonical ↔ s.t0Canonical := Iff.rfl
theorem State.takePool_canonical {s t : State} {n a : Nat} {press : Bool} (h : s.takePool n press = some (a, t)) : t.t0Canonical ↔ s.t0Canonical :=
  (OnlyChanges.takePool h).canonical
theorem State.takeSum_canonical {s t : State} {n a : Nat} (h : s.takeSum n = some (a, t)) : t.t0Canonical ↔ s.t0Canonical := (OnlyChanges.takeSum h).canonical
@[simp] theorem State.retire_canonical (r) : (s.retire r).t0Canonical ↔ s.t0Canonical := (OnlyChanges.retire _ _).canonical
theorem State.takeWalker_canonical {s t : State} {i : Nat} (h : s.takeWalker = some (i, t)) : t.t0Canonical ↔ s.t0Canonical := by
  obtain ⟨j, -, e⟩ := Option.map_eq_some_iff.mp h
  cases e
  rfl
@[simp] theorem State.dropWalker_canonical (i) : (s.dropWalker i).t0Canonical ↔ s.t0Canonical := (OnlyChanges.dropWalker _ _).canonical
@[simp] theorem State.takeCredits_canonical (i n) : (s.takeCredits i n).t0Canonical ↔ s.t0Canonical := (OnlyChanges.takeCredits _ _ _).canonical
@[simp] theorem State.freeCredits_canonical (i n) : (s.freeCredits i n).t0Canonical ↔ s.t0Canonical := (OnlyChanges.freeCredits _ _ _).canonical
@[simp] theorem State.ungrab_canonical (f i) : (s.ungrab f i).t0Canonical ↔ s.t0Canonical := (OnlyChanges.ungrab _ _ _).canonical
@[simp] theorem State.ctxTo_canonical (c st) : (s.ctxTo c st).t0Canonical ↔ s.t0Canonical := (OnlyChanges.ctxTo _ _ _).canonical
@[simp] theorem State.upWrite_canonical (c addr b) : (s.upWrite c addr b).t0Canonical ↔ s.t0Canonical := (OnlyChanges.upWrite _ _ _ _).canonical
@[simp] theorem State.settle_canonical (c) : (s.settle c).t0Canonical ↔ s.t0Canonical := (OnlyChanges.settle _ _).canonical

/-! ### Endings of instructions -/

@[simp] theorem State.retireTaken_canonical (ps) : (s.retireTaken ps).t0Canonical ↔ s.t0Canonical := (OnlyChanges.retireTaken _ _).canonical
@[simp] theorem State.finish_canonical (f st res cw) : (s.finish f st res cw).t0Canonical ↔ s.t0Canonical := (OnlyChanges.finish _ _ _ _ _).canonical
@[simp] theorem State.fail_canonical (f st) : (s.fail f st).t0Canonical ↔ s.t0Canonical := (OnlyChanges.fail _ _ _).canonical
@[simp] theorem State.begin_canonical (f) : (s.begin f).t0Canonical ↔ s.t0Canonical := (OnlyChanges.begin _ _).canonical
@[simp] theorem State.setJob_canonical (f j) : (s.setJob f j).t0Canonical ↔ s.t0Canonical := (OnlyChanges.setJob _ _ _).canonical
@[simp] theorem State.stall_canonical (f c) : (s.stall f c).t0Canonical ↔ s.t0Canonical := (OnlyChanges.stall _ _ _).canonical
@[simp] theorem State.waitOn_canonical (f j c) : (s.waitOn f j c).t0Canonical ↔ s.t0Canonical := (OnlyChanges.waitOn _ _ _ _).canonical

/-! ### Queue pairs and messages -/

@[simp] theorem State.enqueue_canonical (q v fs) : (s.enqueue q v fs).t0Canonical ↔ s.t0Canonical := (OnlyChanges.enqueue _ _ _ _).canonical
@[simp] theorem State.sendMessage_canonical (q write svc va rkey data flight counted dirKeys) :
    (s.sendMessage q write svc va rkey data flight counted dirKeys).t0Canonical ↔ s.t0Canonical := (OnlyChanges.sendMessage _ _ _ _ _ _ _ _ _ _).canonical
@[simp] theorem State.sendRead_canonical (q svc va rkey n flight) : (s.sendRead q svc va rkey n flight).t0Canonical ↔ s.t0Canonical := Iff.rfl
@[simp] theorem State.sendReadResponse_canonical (q psn msn data) : (s.sendReadResponse q psn msn data).t0Canonical ↔ s.t0Canonical := Iff.rfl
@[simp] theorem State.sendBypass_canonical (p b) : (s.sendBypass p b).t0Canonical ↔ s.t0Canonical := (OnlyChanges.sendBypass _ _ _).canonical
@[simp] theorem State.dropFrames_canonical (gone) : (s.dropFrames gone).t0Canonical ↔ s.t0Canonical := (OnlyChanges.dropFrames _ _).canonical
@[simp] theorem State.flushQp_canonical (q st) : (s.flushQp q st).t0Canonical ↔ s.t0Canonical := (OnlyChanges.flushQp _ _ _).canonical
@[simp] theorem State.qpError_canonical (q cause) : (s.qpError q cause).t0Canonical ↔ s.t0Canonical := by simp [State.qpError]
@[simp] theorem State.qpReset_canonical (q) : (s.qpReset q).t0Canonical ↔ s.t0Canonical := (OnlyChanges.qpReset _ _).canonical
@[simp] theorem State.finishWrites_canonical (f st res cw) : (s.finishWrites f st res cw).t0Canonical ↔ s.t0Canonical := by simp [State.finishWrites]
@[simp] theorem State.settleWrites_canonical (fs) : (s.settleWrites fs).t0Canonical ↔ s.t0Canonical :=
  State.foldl_canonical (fun s f => by split <;> simp) fs s
@[simp] theorem State.sendResponse_canonical (q typ reqSeq extent tag st res cw stalls data) :
    (s.sendResponse q typ reqSeq extent tag st res cw stalls data).t0Canonical ↔ s.t0Canonical := (OnlyChanges.sendResponse _ _ _ _ _ _ _ _ _ _ _).canonical
@[simp] theorem State.respond_canonical (q typ reqSeq extent tag st res cw stalls data) :
    (s.respond q typ reqSeq extent tag st res cw stalls data).t0Canonical ↔ s.t0Canonical := (OnlyChanges.respond _ _ _ _ _ _ _ _ _ _ _).canonical

/-! ### Pages -/

@[simp] theorem State.takeHome_canonical (tier loc n) : (s.takeHome tier loc n).t0Canonical ↔ s.t0Canonical := by simp [State.takeHome]
@[simp] theorem State.freeHome_canonical (tier loc n) : (s.freeHome tier loc n).t0Canonical ↔ s.t0Canonical := (OnlyChanges.freeHome _ _ _ _).canonical
@[simp] theorem State.leaveSlot_canonical (f) : (s.leaveSlot f).t0Canonical ↔ s.t0Canonical := by
  simp only [State.leaveSlot]
  split <;> simp
@[simp] theorem State.allocWait_canonical (f k) : (s.allocWait f k).t0Canonical ↔ s.t0Canonical := by
  simp only [State.allocWait]
  (repeat' split) <;> simp
@[simp] theorem State.dropCopy_canonical (p) : (s.dropCopy p).t0Canonical ↔ s.t0Canonical := (OnlyChanges.dropCopy _ _).canonical
@[simp] theorem State.retireHome_canonical (p) : (s.retireHome p).t0Canonical ↔ s.t0Canonical := (OnlyChanges.retireHome _ _).canonical
@[simp] theorem State.updMove_canonical (p f) : (s.updMove p f).t0Canonical ↔ s.t0Canonical := (OnlyChanges.updMove _ _ _).canonical
@[simp] theorem State.askMove_canonical (kind p ctx pos gath) : (s.askMove kind p ctx pos gath).t0Canonical ↔ s.t0Canonical :=
  (OnlyChanges.askMove _ _ _ _ _ _).canonical
@[simp] theorem State.dropCold_canonical (p) : (s.dropCold p).t0Canonical ↔ s.t0Canonical := (OnlyChanges.dropCold _ _).canonical
@[simp] theorem State.reclass_canonical (base n ctx) : (s.reclass base n ctx).t0Canonical ↔ s.t0Canonical := (OnlyChanges.reclass _ _ _ _).canonical
theorem State.needAux_canonical {s t : State} {p : Nat} (h : s.needAux p = some t) : t.t0Canonical ↔ s.t0Canonical := (OnlyChanges.needAux h).canonical
theorem State.addRefs_canonical {s t : State} {l : List Nat} (h : s.addRefs l = some t) : t.t0Canonical ↔ s.t0Canonical := (OnlyChanges.addRefs h).canonical
@[simp] theorem State.readable_canonical (f l) {k : State → State} (hk : ∀ t, (k t).t0Canonical ↔ t.t0Canonical) :
    (s.readable f l k).t0Canonical ↔ s.t0Canonical := by
  unfold State.readable
  split <;> simp [hk]
@[simp] theorem State.dropRefs_canonical (n) : (s.dropRefs n).2.t0Canonical ↔ s.t0Canonical := (OnlyChanges.dropRefs _ _).canonical
@[simp] theorem State.dropBlocks_canonical (bases n ctx sheets) : (s.dropBlocks bases n ctx sheets).t0Canonical ↔ s.t0Canonical :=
  (OnlyChanges.dropBlocks _ _ _ _ _).canonical
theorem State.takeRun_canonical {s t : State} {n a : Nat} (h : s.takeRun n = some (a, t)) : t.t0Canonical ↔ s.t0Canonical := (OnlyChanges.takeRun h).canonical
theorem State.allocBlock_canonical {s t : State} {y : Seq} {q cls a : Nat} (h : s.allocBlock y q cls = .ok (a, t)) : t.t0Canonical ↔ s.t0Canonical :=
  (OnlyChanges.allocBlock h).canonical
theorem State.allocBlocks_canonical {s t : State} {y : Seq} {q cls n : Nat} {l : List Nat} {k : Option Short}
    (h : s.allocBlocks y q cls n = (l, t, k)) : t.t0Canonical ↔ s.t0Canonical := by
  have := (OnlyChanges.allocBlocks s y q cls n).canonical
  rwa [h] at this
@[simp] theorem State.seatBlock_canonical (qid base layers block prev) : (s.seatBlock qid base layers block prev).t0Canonical ↔ s.t0Canonical :=
  (OnlyChanges.seatBlock _ _ _ _ _ _).canonical
@[simp] theorem State.seatBlocks_canonical (qid fenced layers cls bs es) : (s.seatBlocks qid fenced layers cls bs es).2.t0Canonical ↔ s.t0Canonical :=
  (OnlyChanges.seatBlocks s qid fenced layers cls bs es).canonical
theorem State.edit_canonical {s t : State} {q lo : Nat} {es : List Entry} {l : List Nat} (h : s.edit q lo es = some (l, t)) : t.t0Canonical ↔ s.t0Canonical :=
  (OnlyChanges.edit h).canonical
@[simp] theorem State.updStream_canonical (q f) : (s.updStream q f).t0Canonical ↔ s.t0Canonical := (OnlyChanges.updStream _ _ _).canonical
@[simp] theorem State.stampPage_canonical (p g) : (s.stampPage p g).t0Canonical ↔ s.t0Canonical := (OnlyChanges.stampPage _ _ _).canonical
@[simp] theorem State.stampSeq_canonical (q g) : (s.stampSeq q g).t0Canonical ↔ s.t0Canonical := (OnlyChanges.stampSeq _ _ _).canonical
@[simp] theorem State.stampBySeq_canonical (q p) : (s.stampBySeq q p).t0Canonical ↔ s.t0Canonical := (OnlyChanges.stampBySeq _ _ _).canonical
@[simp] theorem State.toSealing_canonical (p) : (s.toSealing p).t0Canonical ↔ s.t0Canonical := Iff.rfl
@[simp] theorem State.sendSeals_canonical (f o) : (s.sendSeals f o).2.t0Canonical ↔ s.t0Canonical := (OnlyChanges.sendSeals _ _ _).canonical
@[simp] theorem State.sendRest_canonical (f pages tokens st res) : (s.sendRest f pages tokens st res).t0Canonical ↔ s.t0Canonical :=
  (OnlyChanges.sendRest _ _ _ _ _ _).canonical
@[simp] theorem State.poisonPage_canonical (p) : (s.poisonPage p).t0Canonical ↔ s.t0Canonical := (OnlyChanges.poisonPage _ _).canonical
@[simp] theorem State.expandFail_canonical (c p row tag) : (s.expandFail c p row tag).t0Canonical ↔ s.t0Canonical := by simp [State.expandFail]
@[simp] theorem State.sumFail_canonical (p fn ctx st tag) : (s.sumFail p fn ctx st tag).t0Canonical ↔ s.t0Canonical := by simp [State.sumFail]
@[simp] theorem State.awaitPages_canonical (f kind ps j) : (s.awaitPages f kind ps j).t0Canonical ↔ s.t0Canonical := by simp [State.awaitPages]

/-! ### The Kettle -/

@[simp] theorem State.endPrefetchHold_canonical (p) : (s.endPrefetchHold p).t0Canonical ↔ s.t0Canonical := (OnlyChanges.endPrefetchHold _ _).canonical
@[simp] theorem State.markRead_canonical (p) : (s.markRead p).t0Canonical ↔ s.t0Canonical := (OnlyChanges.markRead _ _).canonical
@[simp] theorem State.endPrefetchHolds_canonical (gi every) : (s.endPrefetchHolds gi every).t0Canonical ↔ s.t0Canonical :=
  (OnlyChanges.endPrefetchHolds _ _ _).canonical
@[simp] theorem State.updWrec_canonical (i f) : (s.updWrec i f).t0Canonical ↔ s.t0Canonical := Iff.rfl
@[simp] theorem State.dropClear_canonical (i) : (s.dropClear i).t0Canonical ↔ s.t0Canonical := (OnlyChanges.dropClear _ _).canonical
@[simp] theorem State.sweepWindows_canonical : s.sweepWindows.t0Canonical ↔ s.t0Canonical := (OnlyChanges.sweepWindows _).canonical
@[simp] theorem State.openWindow_canonical (gi) : (s.openWindow gi).t0Canonical ↔ s.t0Canonical := (OnlyChanges.openWindow _ _).canonical
@[simp] theorem State.kettle_canonical (gi) : (s.kettle gi).t0Canonical ↔ s.t0Canonical := (OnlyChanges.kettle _ _).canonical
@[simp] theorem State.attendDone_canonical (gi stepAt layer) : (s.attendDone gi stepAt layer).t0Canonical ↔ s.t0Canonical :=
  (OnlyChanges.attendDone _ _ _ _).canonical
@[simp] theorem State.endHold_canonical (gi) : (s.endHold gi).t0Canonical ↔ s.t0Canonical := (OnlyChanges.endHold _ _).canonical
@[simp] theorem State.takeSnap_canonical (gi) : (s.takeSnap gi).t0Canonical ↔ s.t0Canonical := by simp [State.takeSnap]
@[simp] theorem State.ensureSnap_canonical (gi) : (s.ensureSnap gi).t0Canonical ↔ s.t0Canonical := by simp [State.ensureSnap]
@[simp] theorem State.passBoundary_canonical (gi) : (s.passBoundary gi).t0Canonical ↔ s.t0Canonical := (OnlyChanges.passBoundary _ _).canonical

/-! ### Rings and completions -/

@[simp] theorem State.noteWant_canonical (c) : (s.noteWant c).t0Canonical ↔ s.t0Canonical := (OnlyChanges.noteWant _ _).canonical
@[simp] theorem State.noteWants_canonical : s.noteWants.t0Canonical ↔ s.t0Canonical := (OnlyChanges.noteWants _).canonical
@[simp] theorem State.tailBell_canonical (fn c ring index rsv) : (s.tailBell fn c ring index rsv).t0Canonical ↔ s.t0Canonical :=
  (OnlyChanges.tailBell _ _ _ _ _ _).canonical
@[simp] theorem State.headBell_canonical (fn c ring index rsv) : (s.headBell fn c ring index rsv).t0Canonical ↔ s.t0Canonical :=
  (OnlyChanges.headBell _ _ _ _ _ _).canonical
@[simp] theorem State.doorbell_canonical (fn c v) : (s.doorbell fn c v).t0Canonical ↔ s.t0Canonical := by simp [State.doorbell]
@[simp] theorem State.fetchCompletion_canonical (c ring result data) : (s.fetchCompletion c ring result data).t0Canonical ↔ s.t0Canonical :=
  (OnlyChanges.fetchCompletion _ _ _ _ _).canonical

/-! ### Sequences -/

@[simp] theorem State.takeLastHash_canonical (es) : (s.takeLastHash es).2.t0Canonical ↔ s.t0Canonical := by
  simp only [State.takeLastHash]
  (repeat' split) <;> simp
@[simp] theorem State.putLastHash_canonical (q es) : (s.putLastHash q es).t0Canonical ↔ s.t0Canonical := by simp [State.putLastHash]
theorem State.newSeq_canonical {s t : State} {q : Nat} {y : Seq} {x : Stream} (h : s.newSeq q y x = some t) : t.t0Canonical ↔ s.t0Canonical :=
  (OnlyChanges.newSeq h).canonical
theorem State.attachSeq_canonical {s t : State} {c q n model : Nat} {r : Region} (h : s.attachSeq c q n model r = some t) :
    t.t0Canonical ↔ s.t0Canonical := by
  unfold State.attachSeq at h
  split at h
  · rw [Option.some.inj h]
  · exact State.newSeq_canonical h
theorem State.attach_canonical {s t : State} {c q n cls model : Nat} {r : Region} (h : s.attach c q n cls model r = some t) :
    t.t0Canonical ↔ s.t0Canonical := by
  simp only [State.attach] at h
  split at h
  · cases h
  split at h
  · cases h
  split at h
  · cases h
  next h1 _ _ h2 _ _ _ h3 =>
    rw [← Option.some.inj h]
    simp [State.edit_canonical h3, State.addRefs_canonical h2, State.attachSeq_canonical h1]
@[simp] theorem State.releaseWhole_canonical (q) : (s.releaseWhole q).t0Canonical ↔ s.t0Canonical := (OnlyChanges.releaseWhole _ _).canonical
theorem State.releaseTail_canonical {s t : State} {q b : Nat} (h : s.releaseTail q b = some t) : t.t0Canonical ↔ s.t0Canonical := by
  simp only [State.releaseTail] at h
  split at h
  · cases h
  next h1 =>
    rw [← Option.some.inj h]
    simp [State.edit_canonical h1]

/-! ### Appending -/

@[simp] theorem State.fence_canonical (q b) : (s.fence q b).t0Canonical ↔ s.t0Canonical := (OnlyChanges.fence _ _ _).canonical
@[simp] theorem State.fenceClosed_canonical (q b case) : (s.fenceClosed q b case).t0Canonical ↔ s.t0Canonical := (OnlyChanges.fenceClosed _ _ _ _).canonical
@[simp] theorem State.screen_canonical (q pos block ids) : (s.screen q pos block ids).2.t0Canonical ↔ s.t0Canonical :=
  (OnlyChanges.screen _ _ _ _ _).canonical
@[simp] theorem State.writeIds_canonical (p t ids) : (s.writeIds p t ids).t0Canonical ↔ s.t0Canonical := (OnlyChanges.writeIds _ _ _ _).canonical
@[simp] theorem State.closeFull_canonical (payload o) : (s.closeFull payload o).2.t0Canonical ↔ s.t0Canonical := (OnlyChanges.closeFull _ _ _).canonical
@[simp] theorem State.growWait_canonical (f layers before held k) : (s.growWait f layers before held k).t0Canonical ↔ s.t0Canonical :=
  (OnlyChanges.growWait _ _ _ _ _ _).canonical
theorem State.appendTarget_canonical {s t : State} {c q : Nat} {y : Seq} (h : s.appendTarget c q y = some t) : t.t0Canonical ↔ s.t0Canonical :=
  (OnlyChanges.appendTarget h).canonical
@[simp] theorem State.updMember_canonical (gi i f) : (s.updMember gi i f).t0Canonical ↔ s.t0Canonical := Iff.rfl
@[simp] theorem State.takeBlocks_canonical (c gi cls ms) : (s.takeBlocks c gi cls ms).2.1.t0Canonical ↔ s.t0Canonical := by
  induction ms generalizing s with
  | nil => rfl
  | cons i r ih =>
    simp only [State.takeBlocks]
    split
    · rfl
    next h => exact (ih _).trans (State.allocBlock_canonical h)
theorem State.memberBlock_canonical {s t : State} {c gi i cls base : Nat} (h : s.memberBlock c gi i cls base = .ok t) : t.t0Canonical ↔ s.t0Canonical := by
  simp only [State.memberBlock] at h
  split at h
  · cases h
  next u h1 =>
    have hu : u.t0Canonical ↔ s.t0Canonical := by
      split at h1
      · exact State.appendTarget_canonical h1
      · rw [Option.some.inj h1]
    split at h
    · split at h
      · cases h
      next h2 =>
        rw [← Except.ok.inj h]
        simp [State.edit_canonical h2, hu]
    · rw [← Except.ok.inj h]
      simp [hu]
theorem State.memberBlocks_canonical {s t : State} {c gi cls : Nat} {l : List (Nat × Nat)} (h : s.memberBlocks c gi cls l = .ok t) :
    t.t0Canonical ↔ s.t0Canonical := by
  induction l generalizing s with
  | nil => rw [Except.ok.inj h]
  | cons m r ih =>
    simp only [State.memberBlocks] at h
    split at h
    · cases h
    next h1 => exact (ih h).trans (State.memberBlock_canonical h1)

/-! ### Instructions on pages -/

@[simp] theorem State.sealOn_canonical (f ps) : (s.sealOn f ps).t0Canonical ↔ s.t0Canonical := by simp [State.sealOn]
@[simp] theorem State.sealFinal_canonical (q n) : (s.sealFinal q n).t0Canonical ↔ s.t0Canonical := by
  simp only [State.sealFinal]
  (repeat' split) <;> simp
@[simp] theorem State.noTarget_canonical (p tier) : (s.noTarget p tier).t0Canonical ↔ s.t0Canonical := by simp [State.noTarget]
@[simp] theorem State.demoteOne_canonical (c tier p a) : (s.demoteOne c tier p a).2.t0Canonical ↔ s.t0Canonical := by
  simp only [State.demoteOne]
  (repeat' split) <;> simp
@[simp] theorem State.demoteAll_canonical (c tier a ps) : (s.demoteAll c tier a ps).2.t0Canonical ↔ s.t0Canonical := by
  induction ps generalizing s a with
  | nil => rfl
  | cons p r ih => exact (ih _ _).trans (s.demoteOne_canonical c tier p a)
@[simp] theorem State.demoteEnded_canonical (p ok) : (s.demoteEnded p ok).t0Canonical ↔ s.t0Canonical := (OnlyChanges.demoteEnded _ _ _).canonical
@[simp] theorem State.deliverFail_canonical (c form p row tag) : (s.deliverFail c form p row tag).t0Canonical ↔ s.t0Canonical := by
  simp [State.deliverFail]
@[simp] theorem State.freePool_canonical (runs) : (s.freePool runs).t0Canonical ↔ s.t0Canonical := (OnlyChanges.freePool _ _).canonical
@[simp] theorem State.freePage_canonical (p) : (s.freePage p).t0Canonical ↔ s.t0Canonical := by simp [State.freePage]

/-! ### Gatherings -/

@[simp] theorem State.adopt_canonical (gi ms) : (s.adopt gi ms).t0Canonical ↔ s.t0Canonical := by simp [State.adopt]
@[simp] theorem State.passCopies_canonical (gi) : (s.passCopies gi).t0Canonical ↔ s.t0Canonical := (OnlyChanges.passCopies _ _).canonical

/-! ### Moves between tiers -/

@[simp] theorem State.resumeReaders_canonical (p) : (s.resumeReaders p).t0Canonical ↔ s.t0Canonical := (OnlyChanges.resumeReaders _ _).canonical
@[simp] theorem State.failReaders_canonical (p tier st) : (s.failReaders p tier st).t0Canonical ↔ s.t0Canonical := (OnlyChanges.failReaders _ _ _ _).canonical
@[simp] theorem State.endMove_canonical (m) : (s.endMove m).t0Canonical ↔ s.t0Canonical := (OnlyChanges.endMove _ _).canonical
@[simp] theorem State.failInward_canonical (m cause) : (s.failInward m cause).t0Canonical ↔ s.t0Canonical := by simp [State.failInward]
@[simp] theorem State.lostMove_canonical (m) : (s.lostMove m).t0Canonical ↔ s.t0Canonical := by simp [State.lostMove]
@[simp] theorem State.startMove_canonical (m tier port loc landing walker) : (s.startMove m tier port loc landing walker).t0Canonical ↔ s.t0Canonical := by
  simp [State.startMove]
theorem State.startInward_canonical {s t : State} {m : Move} (h : s.startInward m = some t) : t.t0Canonical ↔ s.t0Canonical := by
  simp only [State.startInward] at h
  split at h
  · rw [← Option.some.inj h]; simp
  split at h
  · rw [← Option.some.inj h]; simp
  split at h
  · cases h
  split at h
  · cases h
  split at h
  · cases h
  next hw _ _ _ hr =>
    rw [← Option.some.inj h]
    split at hr
    · simp [State.takeRun_canonical hr, State.takeWalker_canonical hw]
    · simp [State.takePool_canonical hr, State.takeWalker_canonical hw]
@[simp] theorem State.reclaimT2_canonical (n ps) : (s.reclaimT2 n ps).t0Canonical ↔ s.t0Canonical := by
  induction ps generalizing s with
  | nil => rfl
  | cons p r ih => simp [State.reclaimT2, ih]
@[simp] theorem State.noOutward_canonical (m tier) : (s.noOutward m tier).t0Canonical ↔ s.t0Canonical := by simp [State.noOutward]
theorem State.startOutward_canonical {s t : State} {m : Move} (h : s.startOutward m = some t) : t.t0Canonical ↔ s.t0Canonical := by
  unfold State.startOutward at h
  extract_lets p g still tiers at h
  split at h
  · rw [← Option.some.inj h]; simp
  split at h
  · rw [← Option.some.inj h]; simp
  split at h
  next u hd =>
  have drawn : u.t0Canonical ↔ s.t0Canonical := by simpa [hd] using s.draw_canonical
  split at h
  · split at h
    · cases h
    · rw [← Option.some.inj h]; simp [drawn]
  next ha =>
  have held := (State.needAux_canonical ha).trans drawn
  split at h
  · dsimp only at h
    split_ifs at h <;> (rw [← Option.some.inj h]; simp [held])
  split at h
  · cases h
  split at h
  · cases h
  next hw =>
  have taken := (State.takeWalker_canonical hw).trans held
  dsimp only at h
  rw [← Option.some.inj h]
  split <;> simp [taken]
@[simp] theorem State.grantMoves_canonical : s.grantMoves.t0Canonical ↔ s.t0Canonical :=
  State.foldl_canonical (fun s m => (OnlyChanges.moveCredit s m).canonical) _ s
theorem State.tryStart_canonical {s t : State} {m : Move} (h : s.tryStart m = some t) : t.t0Canonical ↔ s.t0Canonical := by
  simp only [State.tryStart] at h
  split_ifs at h
  · rw [← Option.some.inj h]; simp
  · exact State.startInward_canonical h
  · exact State.startOutward_canonical h
@[simp] theorem State.sampleLat_canonical (m) : (s.sampleLat m).t0Canonical ↔ s.t0Canonical := (OnlyChanges.sampleLat _ _).canonical
theorem State.tierRead_canonical {s t : State} {m : Move} {data : Bytes} {o : Option Bytes} (h : s.tierRead m data = (t, o)) :
    t.t0Canonical ↔ s.t0Canonical := by
  have := (OnlyChanges.tierRead s m data).canonical
  rwa [h] at this
@[simp] theorem State.placeInstead_canonical (m) : (s.placeInstead m).t0Canonical ↔ s.t0Canonical := by simp [State.placeInstead]
@[simp] theorem State.failOutward_canonical (m) : (s.failOutward m).t0Canonical ↔ s.t0Canonical := by simp [State.failOutward]
@[simp] theorem State.setPassing_canonical (b) : (s.setPassing b).t0Canonical ↔ s.t0Canonical := Iff.rfl
@[simp] theorem State.spillVictim_canonical (runs ps) : (s.spillVictim runs ps).1.t0Canonical ↔ s.t0Canonical := by
  induction ps generalizing s runs with
  | nil => rfl
  | cons p r ih =>
    simp only [State.spillVictim]
    split
    · rfl
    · simp [ih]
@[simp] theorem State.preempt_canonical : s.preempt.t0Canonical ↔ s.t0Canonical := by
  unfold State.preempt
  split
  · rfl
  · simp

/-! ### The Press -/

@[simp] theorem State.storeHash_canonical (p h) : (s.storeHash p h).t0Canonical ↔ s.t0Canonical := by simp [State.storeHash]
@[simp] theorem State.formHash_canonical (p) : (s.formHash p).1.t0Canonical ↔ s.t0Canonical := by
  unfold State.formHash
  split <;> simp
@[simp] theorem State.hashPage_canonical (p) : (s.hashPage p).t0Canonical ↔ s.t0Canonical := by simp [State.hashPage]
@[simp] theorem State.nextSeal_canonical (ps) : (s.nextSeal ps).2.t0Canonical ↔ s.t0Canonical := by
  induction ps generalizing s with
  | nil => rfl
  | cons p r ih =>
    simp only [State.nextSeal]
    split <;> simp [ih]
@[simp] theorem State.freePipe_canonical (pipe) : (s.freePipe pipe).t0Canonical ↔ s.t0Canonical := by simp [State.freePipe]
@[simp] theorem State.markSealed_canonical (p) : (s.markSealed p).t0Canonical ↔ s.t0Canonical := Iff.rfl
theorem State.pressRun_canonical {s t : State} {n : Nat} {l : List Nat} (h : s.pressRun n = some (l, t)) : t.t0Canonical ↔ s.t0Canonical := by
  unfold State.pressRun at h
  split at h
  · cases h; rfl
  · obtain ⟨a, ha, e⟩ := Option.map_eq_some_iff.mp h
    cases e
    exact State.takePool_canonical ha

/-! ### Weights -/

@[simp] theorem State.keepRecord_canonical (r) : (s.keepRecord r).t0Canonical ↔ s.t0Canonical := by simp [State.keepRecord]
@[simp] theorem State.writeWrec_canonical (i r) : (s.writeWrec i r).t0Canonical ↔ s.t0Canonical := by simp [State.writeWrec]
@[simp] theorem State.weightReport_canonical (i page row st) : (s.weightReport i page row st).t0Canonical ↔ s.t0Canonical := by
  simp [State.weightReport]
@[simp] theorem State.layerFails_canonical (i st) : (s.layerFails i st).t0Canonical ↔ s.t0Canonical := Iff.rfl
@[simp] theorem State.passEnds_canonical (i k) : (s.passEnds i k).t0Canonical ↔ s.t0Canonical := Iff.rfl
@[simp] theorem State.passFails_canonical (i page row st) : (s.passFails i page row st).t0Canonical ↔ s.t0Canonical := by simp [State.passFails]
@[simp] theorem State.streamFail_canonical (i run k) : (s.streamFail i run k).t0Canonical ↔ s.t0Canonical := by
  unfold State.streamFail
  simp
@[simp] theorem State.layerFor_canonical (g i) : (s.layerFor g i).2.2.2.t0Canonical ↔ s.t0Canonical := by
  simp only [State.layerFor]
  (repeat' split) <;> simp

/-! ### Attention -/

@[simp] theorem State.notePeriod_canonical (gi layer) : (s.notePeriod gi layer).t0Canonical ↔ s.t0Canonical := Iff.rfl
@[simp] theorem State.attendStart_canonical (f gi layer) : (s.attendStart f gi layer).t0Canonical ↔ s.t0Canonical := by simp [State.attendStart]
@[simp] theorem State.attendMarks_canonical (gi layer stepAt a) : (s.attendMarks gi layer stepAt a).t0Canonical ↔ s.t0Canonical :=
  (OnlyChanges.attendMarks _ _ _ _ _).canonical
@[simp] theorem State.attendOut_canonical (r spoiled) : (s.attendOut r spoiled).2.t0Canonical ↔ s.t0Canonical := by
  simp only [State.attendOut]
  split <;> simp
@[simp] theorem State.expanderWait_canonical (f a) : (s.expanderWait f a).t0Canonical ↔ s.t0Canonical := Iff.rfl
@[simp] theorem State.dipQuire_canonical (m bytes decoded partials) : (s.dipQuire m bytes decoded partials).t0Canonical ↔ s.t0Canonical :=
  (OnlyChanges.dipQuire _ _ _ _ _).canonical
@[simp] theorem State.dipPages_canonical (a) : (s.dipPages a).t0Canonical ↔ s.t0Canonical := (OnlyChanges.dipPages _ _).canonical
@[simp] theorem State.attendAwait_canonical (f ps a cause) : (s.attendAwait f ps a cause).t0Canonical ↔ s.t0Canonical := by simp [State.attendAwait]
@[simp] theorem State.attendLayer_canonical (f layer a) : (s.attendLayer f layer a).1.t0Canonical ↔ s.t0Canonical := by
  have read (i) := s.layerFor_canonical a.grec i
  simp only [State.attendLayer]
  split
  · simp
  next i _ =>
    split <;> next h =>
      have := h ▸ read i
      (repeat' split) <;> simpa using this

/-! ### The Awl -/

@[simp] theorem State.updAuto_canonical (a f) : (s.updAuto a f).t0Canonical ↔ s.t0Canonical := Iff.rfl
@[simp] theorem State.awlEnd_canonical (st) : (s.awlEnd st).t0Canonical ↔ s.t0Canonical := Iff.rfl
@[simp] theorem State.scanEntry_canonical (t k) : (s.scanEntry t k).t0Canonical ↔ s.t0Canonical := by simp [State.scanEntry]
@[simp] theorem State.scanToken_canonical (t) : (s.scanToken t).t0Canonical ↔ s.t0Canonical := by simp [State.scanToken]

/-! ### The Spine -/

@[simp] theorem State.updOvf_canonical (i f) : (s.updOvf i f).t0Canonical ↔ s.t0Canonical := (OnlyChanges.updOvf _ _ _).canonical
@[simp] theorem State.walkErrors_canonical (key fn ctx) : (s.walkErrors key fn ctx).t0Canonical ↔ s.t0Canonical :=
  State.foldl_canonical (fun s _ => s.badGranule_canonical ..) _ s
@[simp] theorem State.ovfInsert_canonical (key e) : (s.ovfInsert key e).2.t0Canonical ↔ s.t0Canonical := by
  simp only [State.ovfInsert]
  split <;> simp
@[simp] theorem State.shiftOne_canonical (w p) : (s.shiftOne w p).t0Canonical ↔ s.t0Canonical := by
  simp only [State.shiftOne]
  split <;> simp
@[simp] theorem State.writeEntryAt_canonical (p us e) : (s.writeEntryAt p us e).t0Canonical ↔ s.t0Canonical :=
  State.foldl_canonical (fun s _ => s.updRow_canonical ..) _ s
@[simp] theorem State.shiftRange_canonical (w free l) : (s.shiftRange w free l).t0Canonical ↔ s.t0Canonical := by simp [State.shiftRange]
theorem State.insertPrefix_canonical {s t : State} {key prio : Nat} {e : RowSlot} {p : Option Nat} {fresh : Bool}
    (h : s.insertPrefix key prio e = some (p, fresh, t)) : t.t0Canonical ↔ s.t0Canonical := by
  simp only [State.insertPrefix] at h
  split at h
  · cases h
  split at h
  · cases h; simp
  split at h
  · cases h; simp
  · cases h; simp
  · cases h; simp
  · cases h
@[simp] theorem State.clearPlace_canonical (w p) : (s.clearPlace w p).t0Canonical ↔ s.t0Canonical := by
  unfold State.clearPlace
  split
  · exact State.foldl_canonical (fun s _ => s.updRow_canonical ..) _ s
  · simp
@[simp] theorem State.makeSuspect_canonical (p) : (s.makeSuspect p).t0Canonical ↔ s.t0Canonical := by simp [State.makeSuspect]
@[simp] theorem State.setWorkers_canonical (p v) : (s.setWorkers p v).t0Canonical ↔ s.t0Canonical := s.updRow_canonical _ _
@[simp] theorem State.dirAdd_canonical (w key) : (s.dirAdd w key).t0Canonical ↔ s.t0Canonical := by
  simp only [State.dirAdd]
  (repeat' split) <;> simp
@[simp] theorem State.dirDel_canonical (w key) : (s.dirDel w key).t0Canonical ↔ s.t0Canonical := by
  simp only [State.dirDel]
  split <;> simp
@[simp] theorem State.dirOp_canonical (o) : (s.dirOp o).t0Canonical ↔ s.t0Canonical := by
  unfold State.dirOp
  split <;> simp
@[simp] theorem State.dirDrain_canonical : s.dirDrain.t0Canonical ↔ s.t0Canonical := by simp [State.dirDrain]
@[simp] theorem State.dirPut_canonical (add w key) : (s.dirPut add w key).t0Canonical ↔ s.t0Canonical := by simp [State.dirPut]
@[simp] theorem State.dirReport_canonical (add key) : (s.dirReport add key).t0Canonical ↔ s.t0Canonical := by simp [State.dirReport]

/-! ### Lookups and publication -/

@[simp] theorem State.answerScope_canonical (b m) : (s.answerScope b m).2.t0Canonical ↔ s.t0Canonical := by
  simp only [State.answerScope]
  split <;> simp
@[simp] theorem State.walkWait_canonical (f) : (s.walkWait f).t0Canonical ↔ s.t0Canonical := by
  have := (OnlyChanges.grab s f 8).canonical
  simpa [State.walkWait] using this
@[simp] theorem State.queueOps_canonical (f ops) : (s.queueOps f ops).2.t0Canonical ↔ s.t0Canonical := by
  induction ops generalizing s with
  | nil => rfl
  | cons o r ih =>
    simp only [State.queueOps]
    split <;> simp [ih]
@[simp] theorem State.conflict_canonical (c r digest tag) : (s.conflict c r digest tag).t0Canonical ↔ s.t0Canonical :=
  (OnlyChanges.conflict _ _ _ _ _).canonical
theorem State.needAuxAll_canonical {s t : State} {l : List Nat} (h : s.needAuxAll l = some t) : t.t0Canonical ↔ s.t0Canonical := by
  induction l generalizing s with
  | nil => rw [Option.some.inj h]
  | cons p r ih =>
    unfold State.needAuxAll at h
    split at h
    next h1 => exact (ih h).trans (OnlyChanges.needAux h1).canonical
    · cases h
@[simp] theorem State.publishStart_canonical (f x q n) : (s.publishStart f x q n).t0Canonical ↔ s.t0Canonical := by
  unfold State.publishStart
  extract_lets rid ver scope es hs old bases begin_
  have begun (ri r) : (begin_ s ri r).t0Canonical ↔ s.t0Canonical := by
    unfold begin_
    split
    · simp
    split
    · simp
    next h => simp [State.needAuxAll_canonical h]
  clear_value old begin_
  split
  · split_ifs <;> simp [begun]
  · split <;> simp [begun]
@[simp] theorem State.ownScope_canonical (scope p) : (s.ownScope scope p).t0Canonical ↔ s.t0Canonical := Iff.rfl
@[simp] theorem State.reportFresh_canonical (ri) : (s.reportFresh ri).t0Canonical ↔ s.t0Canonical := by
  simp only [State.reportFresh, State.updRegion_canonical]
  exact State.foldl_canonical (fun s _ => s.dirReport_canonical ..) _ s
@[simp] theorem State.publishCommit_canonical (f ri) : (s.publishCommit f ri).t0Canonical ↔ s.t0Canonical := by
  unfold State.publishCommit
  extract_lets s1 r q bases s2 s3 n nOld carried j s4 s5 s6
  have referenced : s2.t0Canonical ↔ s1.t0Canonical := by
    unfold s2
    split
    next h => exact State.addRefs_canonical h
    · rfl
  simp [s6, s5, s4, s3, referenced, s1]
@[simp] theorem State.publishUndone_canonical (ri) : (s.publishUndone ri).t0Canonical ↔ s.t0Canonical := (OnlyChanges.publishUndone _ _).canonical
@[simp] theorem State.publishOn_canonical (f ri stage todo) : (s.publishOn f ri stage todo).t0Canonical ↔ s.t0Canonical := by
  simp only [State.publishOn]
  (repeat' split) <;> simp
@[simp] theorem State.retractDone_canonical (ri c) : (s.retractDone ri c).t0Canonical ↔ s.t0Canonical := (OnlyChanges.retractDone _ _ _).canonical
@[simp] theorem State.retractOn_canonical (f ri todo) : (s.retractOn f ri todo).t0Canonical ↔ s.t0Canonical := by simp [State.retractOn]

/-! ### Commands of the Spine -/

@[simp] theorem State.popOp_canonical (f) : (s.popOp f).t0Canonical ↔ s.t0Canonical := by simp [State.popOp]
@[simp] theorem State.publishRestore_canonical (f ri) : (s.publishRestore f ri).t0Canonical ↔ s.t0Canonical := (OnlyChanges.publishRestore _ _ _).canonical
@[simp] theorem State.publishFails_canonical (f ri) : (s.publishFails f ri).t0Canonical ↔ s.t0Canonical := by simp [State.publishFails]
@[simp] theorem State.reportGone_canonical (key) : (s.reportGone key).t0Canonical ↔ s.t0Canonical := by simp [State.reportGone]
@[simp] theorem State.recoverMore_canonical : s.recoverMore.t0Canonical ↔ s.t0Canonical := (OnlyChanges.recoverMore _).canonical
@[simp] theorem State.recoverEnd_canonical (ri) : (s.recoverEnd ri).t0Canonical ↔ s.t0Canonical := (OnlyChanges.recoverEnd _ _).canonical
@[simp] theorem State.stopFlight_canonical (f st) : (s.stopFlight f st).t0Canonical ↔ s.t0Canonical := (OnlyChanges.stopFlight _ _ _).canonical

/-! ### PUT_PAGES -/

@[simp] theorem State.putRead_canonical (f p) : (s.putRead f p).t0Canonical ↔ s.t0Canonical := by simp [State.putRead]
theorem State.extRun_canonical {s t : State} {e n a : Nat} (h : s.extRun e n = some (a, t)) : t.t0Canonical ↔ s.t0Canonical := by
  obtain ⟨b, hb, r⟩ := Option.map_eq_some_iff.mp h
  cases r
  exact (State.takePool_canonical hb :)
@[simp] theorem State.putDone_canonical (f p) : (s.putDone f p).t0Canonical ↔ s.t0Canonical := by
  simp only [State.putDone]
  refine State.readable_canonical _ _ _ fun s => ?_
  split
  · simp
  split
  · simp
  split
  · simp
  next n hn =>
  have named : n.t0Canonical ↔ s.t0Canonical := by
    split_ifs at hn
    · rw [Option.some.inj hn]
    · exact State.newSeq_canonical hn
    · exact State.newSeq_canonical hn
  split
  · simp
  next he => split_ifs <;> simp [State.edit_canonical he, named]

/-! ### RDMA -/

@[simp] theorem State.metered_canonical (sub fr) : (s.metered sub fr).2.t0Canonical ↔ s.t0Canonical := by
  simp only [State.metered]
  (repeat' split) <;> simp
@[simp] theorem State.toQp_canonical (q p) : (s.toQp q p).t0Canonical ↔ s.t0Canonical := by
  simp only [State.toQp]
  split <;> simp
@[simp] theorem State.acknowledge_canonical (q path ts) : (s.acknowledge q path ts).t0Canonical ↔ s.t0Canonical := Iff.rfl
@[simp] theorem State.writeDone_canonical (m) : (s.writeDone m).t0Canonical ↔ s.t0Canonical := by
  simp only [State.writeDone]
  split <;> simp
@[simp] theorem State.handSends_canonical (q k) : (s.handSends q k).t0Canonical ↔ s.t0Canonical := by
  induction k generalizing s with
  | zero => rfl
  | succ k ih =>
    simp only [State.handSends]
    split <;> simp [ih]
@[simp] theorem State.messageDone_canonical (q m) : (s.messageDone q m).t0Canonical ↔ s.t0Canonical := by simp [State.messageDone]
@[simp] theorem State.afterData_canonical (q p) : (s.afterData q p).t0Canonical ↔ s.t0Canonical := by simp [State.afterData]
@[simp] theorem State.retireSent_canonical (q gone) : (s.retireSent q gone).t0Canonical ↔ s.t0Canonical := by simp [State.retireSent]
@[simp] theorem State.sample_canonical (q path b x) : (s.sample q path b x).t0Canonical ↔ s.t0Canonical := Iff.rfl
@[simp] theorem State.ackStandard_canonical (q psn) : (s.ackStandard q psn).t0Canonical ↔ s.t0Canonical := by
  simp only [State.ackStandard]
  (repeat' split) <;> simp
@[simp] theorem State.ackMulti_canonical (q p) : (s.ackMulti q p).t0Canonical ↔ s.t0Canonical := by simp [State.ackMulti]
@[simp] theorem State.resend_canonical (q p) : (s.resend q p).t0Canonical ↔ s.t0Canonical := by simp [State.resend]
@[simp] theorem State.gapNak_canonical (q) : (s.gapNak q).t0Canonical ↔ s.t0Canonical := by
  simp only [State.gapNak]
  split <;> simp

/-! ### Vanged requests -/

@[simp] theorem State.mirrored_canonical (q op r tenant) : (s.mirrored q op r tenant).t0Canonical ↔ s.t0Canonical := by simp [State.mirrored]
@[simp] theorem State.putStart_canonical (f sub b id) : (s.putStart f sub b id).t0Canonical ↔ s.t0Canonical := by
  simp only [State.putStart]
  split
  · simp
  refine State.readable_canonical _ _ _ fun s => ?_
  (repeat' split) <;> simp

/-! ### Egress -/

@[simp] theorem State.updGcl_canonical (p f) : (s.updGcl p f).t0Canonical ↔ s.t0Canonical := Iff.rfl
@[simp] theorem State.refreshGates_canonical (p) : (s.refreshGates p).t0Canonical ↔ s.t0Canonical := by simp [State.refreshGates]
@[simp] theorem State.refreshAll_canonical : s.refreshAll.t0Canonical ↔ s.t0Canonical := State.foldl_canonical State.refreshGates_canonical _ s
@[simp] theorem State.gclCommit_canonical (p rsv) : (s.gclCommit p rsv).t0Canonical ↔ s.t0Canonical := by simp [State.gclCommit]
@[simp] theorem State.gclWrite_canonical (p v) : (s.gclWrite p v).t0Canonical ↔ s.t0Canonical := by simp [State.gclWrite]
@[simp] theorem State.shutOut_canonical (p) : (s.shutOut p).t0Canonical ↔ s.t0Canonical :=
  State.foldl_canonical (fun s v => by (repeat' split) <;> rfl) _ s
@[simp] theorem State.startFrame_canonical (p f) : (s.startFrame p f).t0Canonical ↔ s.t0Canonical := by simp [State.startFrame]
@[simp] theorem State.sendFrame_canonical (p v sub f subs svcs) : (s.sendFrame p v sub f subs svcs).t0Canonical ↔ s.t0Canonical := by
  simp [State.sendFrame]
@[simp] theorem State.startBypass_canonical (p b) : (s.startBypass p b).t0Canonical ↔ s.t0Canonical := by simp [State.startBypass]

/-! ### Time -/

@[simp] theorem State.updPtp_canonical (f) : (s.updPtp f).t0Canonical ↔ s.t0Canonical := Iff.rfl
@[simp] theorem State.ptpTo_canonical (x) : (s.ptpTo x).t0Canonical ↔ s.t0Canonical := by simp [State.ptpTo]
@[simp] theorem State.selectParent_canonical : s.selectParent.t0Canonical ↔ s.t0Canonical := by
  simp only [State.selectParent]
  (repeat' split) <;> simp
@[simp] theorem State.divFree_canonical (a b) : (s.divFree a b).2.t0Canonical ↔ s.t0Canonical := by
  simp only [State.divFree]
  split <;> simp
@[simp] theorem State.delaySample_canonical (x) : (s.delaySample x).t0Canonical ↔ s.t0Canonical := by simp [State.delaySample]
@[simp] theorem State.servo_canonical (o) : (s.servo o).t0Canonical ↔ s.t0Canonical := by
  simp only [State.servo]
  split <;> simp
@[simp] theorem State.countGood_canonical (o) : (s.countGood o).t0Canonical ↔ s.t0Canonical := by simp [State.countGood]
@[simp] theorem State.exchange_canonical (t1 t2 t3 t4) : (s.exchange t1 t2 t3 t4).t0Canonical ↔ s.t0Canonical := by simp [State.exchange]
@[simp] theorem State.syncKnown_canonical (t1 t2) : (s.syncKnown t1 t2).t0Canonical ↔ s.t0Canonical := by
  simp only [State.syncKnown]
  split <;> simp
@[simp] theorem State.ptpWrite_canonical (v) : (s.ptpWrite v).t0Canonical ↔ s.t0Canonical := by
  simp only [State.ptpWrite]
  (repeat' split) <;> simp

/-! ### Network registers -/

@[simp] theorem State.qpEnd_canonical (k st) : (s.qpEnd k st).t0Canonical ↔ s.t0Canonical := Iff.rfl
@[simp] theorem State.qpTo_canonical (q st) : (s.qpTo q st).t0Canonical ↔ s.t0Canonical := by simp [State.qpTo]
@[simp] theorem State.regEnd_canonical (k st) : (s.regEnd k st).t0Canonical ↔ s.t0Canonical := Iff.rfl
@[simp] theorem State.revokeRegs_canonical (c) : (s.revokeRegs c).t0Canonical ↔ s.t0Canonical := (OnlyChanges.revokeRegs _ _).canonical
@[simp] theorem State.withdrawExts_canonical (f) : (s.withdrawExts f).t0Canonical ↔ s.t0Canonical := (OnlyChanges.withdrawExts _ _).canonical
@[simp] theorem State.updNetPort_canonical (p f) : (s.updNetPort p f).t0Canonical ↔ s.t0Canonical := Iff.rfl
@[simp] theorem State.dropLinks_canonical : s.dropLinks.t0Canonical ↔ s.t0Canonical := by simp [State.dropLinks]
@[simp] theorem State.netControl_canonical (v) : (s.netControl v).t0Canonical ↔ s.t0Canonical := by simp [State.netControl]
@[simp] theorem State.dirControl_canonical (v) : (s.dirControl v).t0Canonical ↔ s.t0Canonical := Iff.rfl

/-! ### Contexts -/

@[simp] theorem State.stirDrbg_canonical : s.stirDrbg.t0Canonical ↔ s.t0Canonical := Iff.rfl
@[simp] theorem State.drbg_canonical (words) : (s.drbg words).2.t0Canonical ↔ s.t0Canonical := (OnlyChanges.drbg _ _).canonical
@[simp] theorem State.enableCtx_canonical (c) : (s.enableCtx c).t0Canonical ↔ s.t0Canonical := (OnlyChanges.enableCtx _ _).canonical
@[simp] theorem State.resume_canonical (c) : (s.resume c).t0Canonical ↔ s.t0Canonical := (OnlyChanges.resume _ _).canonical
@[simp] theorem State.dropFetched_canonical (c) : (s.dropFetched c).t0Canonical ↔ s.t0Canonical := (OnlyChanges.dropFetched _ _).canonical
@[simp] theorem State.resetFlight_canonical (f) : (s.resetFlight f).t0Canonical ↔ s.t0Canonical := (OnlyChanges.resetFlight _ _).canonical
@[simp] theorem State.dropTokens_canonical (q) : (s.dropTokens q).t0Canonical ↔ s.t0Canonical := (OnlyChanges.dropTokens _ _).canonical
@[simp] theorem State.retractOwn_canonical (c) : (s.retractOwn c).t0Canonical ↔ s.t0Canonical := (OnlyChanges.retractOwn _ _).canonical
@[simp] theorem State.eraseKey_canonical (c) : (s.eraseKey c).t0Canonical ↔ s.t0Canonical := (OnlyChanges.eraseKey _ _).canonical

/-! ### The layout -/

@[simp] theorem State.commit_canonical (v) : (s.commit v).t0Canonical ↔ s.t0Canonical := by
  simp only [State.commit]
  (repeat' split) <;> simp

/-! ### Security -/

@[simp] theorem State.updConn_canonical (t f) : (s.updConn t f).t0Canonical ↔ s.t0Canonical := Iff.rfl
@[simp] theorem State.updSlot_canonical (i f) : (s.updSlot i f).t0Canonical ↔ s.t0Canonical := Iff.rfl
@[simp] theorem State.updCoCtx_canonical (c f) : (s.updCoCtx c f).t0Canonical ↔ s.t0Canonical := Iff.rfl
@[simp] theorem State.updImage_canonical (i f) : (s.updImage i f).t0Canonical ↔ s.t0Canonical := Iff.rfl
@[simp] theorem State.dropM_canonical (t) : (s.dropM t).t0Canonical ↔ s.t0Canonical := Iff.rfl
@[simp] theorem State.signed_canonical (t req unsigned) : (s.signed t req unsigned).2.t0Canonical ↔ s.t0Canonical := Iff.rfl
@[simp] theorem State.nonce32_canonical : s.nonce32.2.t0Canonical ↔ s.t0Canonical := Iff.rfl
@[simp] theorem State.getMeasurements_canonical (t m) : (s.getMeasurements t m).2.t0Canonical ↔ s.t0Canonical := by
  simp only [State.getMeasurements]
  (repeat' split) <;> simp
@[simp] theorem State.challenge_canonical (t m) : (s.challenge t m).2.t0Canonical ↔ s.t0Canonical := by
  simp only [State.challenge]
  (repeat' split) <;> simp
@[simp] theorem State.newSession_canonical (reqId) : (s.newSession reqId).2.t0Canonical ↔ s.t0Canonical := Iff.rfl
@[simp] theorem State.keyExchange_canonical (t m) : (s.keyExchange t m).2.t0Canonical ↔ s.t0Canonical := by
  simp only [State.keyExchange]
  (repeat' split) <;> simp
@[simp] theorem State.endSession_canonical (id) : (s.endSession id).t0Canonical ↔ s.t0Canonical := Iff.rfl
@[simp] theorem State.endSessions_canonical : s.endSessions.t0Canonical ↔ s.t0Canonical :=
  State.foldl_canonical (fun s (p : Nat × Session) => s.endSession_canonical p.1) _ s
@[simp] theorem State.pqSignature_canonical (t) : (s.pqSignature t).2.t0Canonical ↔ s.t0Canonical := by
  simp only [State.pqSignature]
  (repeat' split) <;> simp
@[simp] theorem State.keyRelease_canonical (sid p) : (s.keyRelease sid p).2.t0Canonical ↔ s.t0Canonical := by
  simp only [State.keyRelease]
  (repeat' split) <;> simp
@[simp] theorem State.keyErase_canonical (sid p) : (s.keyErase sid p).2.t0Canonical ↔ s.t0Canonical := by
  simp only [State.keyErase]
  (repeat' split) <;> simp
@[simp] theorem State.contextKey_canonical (sid p) : (s.contextKey sid p).2.t0Canonical ↔ s.t0Canonical := by
  simp only [State.contextKey]
  (repeat' split) <;> simp
@[simp] theorem State.vendor_canonical (t sid m) : (s.vendor t sid m).2.t0Canonical ↔ s.t0Canonical := by
  simp only [State.vendor]
  (repeat' split) <;> simp
@[simp] theorem State.capabilities_canonical (t m) : (s.capabilities t m).2.t0Canonical ↔ s.t0Canonical := by
  simp only [State.capabilities]
  split <;> simp
@[simp] theorem State.updSession_canonical (id f) : (s.updSession id f).t0Canonical ↔ s.t0Canonical := Iff.rfl
@[simp] theorem State.finishSession_canonical (sid m) : (s.finishSession sid m).2.t0Canonical ↔ s.t0Canonical := by
  simp only [State.finishSession]
  (repeat' split) <;> simp
@[simp] theorem State.keyUpdate_canonical (sid m) : (s.keyUpdate sid m).2.t0Canonical ↔ s.t0Canonical := by
  simp only [State.keyUpdate]
  split <;> simp
@[simp] theorem State.inSession_canonical (sid code m) : (s.inSession sid code m).2.t0Canonical ↔ s.t0Canonical := by
  simp only [State.inSession]
  (repeat' split) <;> simp
@[simp] theorem State.spdmWhole_canonical (t sid m) : (s.spdmWhole t sid m).2.t0Canonical ↔ s.t0Canonical := by
  simp [State.spdmWhole, apply_ite Prod.snd]
@[simp] theorem State.sized_canonical (t sid r) : (s.sized t sid r).2.t0Canonical ↔ s.t0Canonical := by
  simp only [State.sized]
  split <;> simp
@[simp] theorem State.spdmSized_canonical (t sid m) : (s.spdmSized t sid m).2.t0Canonical ↔ s.t0Canonical := by simp [State.spdmSized]
@[simp] theorem State.chunkSend_canonical (t sid m) : (s.chunkSend t sid m).2.t0Canonical ↔ s.t0Canonical := by
  simp only [State.chunkSend]
  (repeat' split) <;> simp
@[simp] theorem State.chunkGet_canonical (t sid m) : (s.chunkGet t sid m).2.t0Canonical ↔ s.t0Canonical := by
  simp only [State.chunkGet]
  split <;> simp
@[simp] theorem State.spdmAnswer_canonical (t sid m) : (s.spdmAnswer t sid m).2.t0Canonical ↔ s.t0Canonical := by
  simp only [State.spdmAnswer]
  (repeat' split) <;> simp
@[simp] theorem State.spdmReply_canonical (t sid k r) : (s.spdmReply t sid k r).t0Canonical ↔ s.t0Canonical := by simp [State.spdmReply]
@[simp] theorem State.spdm_canonical (t sid m) : (s.spdm t sid m).t0Canonical ↔ s.t0Canonical := by
  simp only [State.spdm]
  (repeat' split) <;> simp
@[simp] theorem State.coCmd_canonical {f : State → BitVec 16 × State} (hf : ∀ t, (f t).2.t0Canonical ↔ t.t0Canonical) :
    (s.coCmd f).t0Canonical ↔ s.t0Canonical := by
  unfold State.coCmd
  split
  · rfl
  split
  · simp [hf]
  · simp
  · rfl
@[simp] theorem State.authSlot_canonical (slot session fn) : (s.authSlot slot session fn).t0Canonical ↔ s.t0Canonical := by
  simp [State.authSlot, apply_ite Prod.snd]
@[simp] theorem State.authCtx_canonical (c session) : (s.authCtx c session).t0Canonical ↔ s.t0Canonical := by simp [State.authCtx, apply_ite Prod.snd]
@[simp] theorem State.eraseSlot_canonical (slot) : (s.eraseSlot slot).t0Canonical ↔ s.t0Canonical := by simp [State.eraseSlot, apply_ite Prod.snd]
@[simp] theorem State.debug1_canonical : s.debug1.t0Canonical ↔ s.t0Canonical := by simp [State.debug1]
@[simp] theorem State.debug2_canonical : s.debug2.t0Canonical ↔ s.t0Canonical := by simp [State.debug2, apply_ite Prod.snd]
@[simp] theorem State.coCmdWrite_canonical (v) : (s.coCmdWrite v).t0Canonical ↔ s.t0Canonical := by
  simp only [State.coCmdWrite]
  split <;> simp
@[simp] theorem State.coSecured_canonical (m) : (s.coSecured m).t0Canonical ↔ s.t0Canonical := by
  simp only [State.coSecured]
  (repeat' split) <;> simp
@[simp] theorem State.coMbox_canonical (v) : (s.coMbox v).t0Canonical ↔ s.t0Canonical := by simp [State.coMbox]
@[simp] theorem State.setMeas_canonical (i d) : (s.setMeas i d).t0Canonical ↔ s.t0Canonical := Iff.rfl
@[simp] theorem State.ideKm_canonical (m) : (s.ideKm m).t0Canonical ↔ s.t0Canonical := by simp [State.ideKm]

/-! ### Power -/

@[simp] theorem State.setPwr_canonical (p) : (s.setPwr p).t0Canonical ↔ s.t0Canonical := by
  simp only [State.setPwr]
  split <;> simp
@[simp] theorem State.pmCtl_canonical (v) : (s.pmCtl v).t0Canonical ↔ s.t0Canonical := by simp [State.pmCtl]

/-! ### Functions -/

@[simp] theorem State.eraseSlots_canonical (f) : (s.eraseSlots f).t0Canonical ↔ s.t0Canonical := (OnlyChanges.eraseSlots _ _).canonical
@[simp] theorem State.fnVec_canonical (f v) : (s.fnVec f v).t0Canonical ↔ s.t0Canonical := (OnlyChanges.fnVec _ _ _).canonical
@[simp] theorem State.release_canonical (f i) : (s.release f i).t0Canonical ↔ s.t0Canonical := (OnlyChanges.release _ _ _).canonical
@[simp] theorem State.cntCmd_canonical (v) : (s.cntCmd v).t0Canonical ↔ s.t0Canonical := (OnlyChanges.cntCmd _ _).canonical
@[simp] theorem State.sigClear_canonical (f v) : (s.sigClear f v).t0Canonical ↔ s.t0Canonical := (OnlyChanges.sigClear _ _ _).canonical
@[simp] theorem State.errHead_canonical (v) : (s.errHead v).t0Canonical ↔ s.t0Canonical := (OnlyChanges.errHead _ _).canonical

/-! ### Downstream ports -/

@[simp] theorem State.tracePort_canonical (p e outcome) : (s.tracePort p e outcome).t0Canonical ↔ s.t0Canonical := by simp [State.tracePort]
@[simp] theorem State.failPortMoves_canonical (p) : (s.failPortMoves p).t0Canonical ↔ s.t0Canonical := by simp [State.failPortMoves]
@[simp] theorem State.portOff_canonical (p e) : (s.portOff p e).t0Canonical ↔ s.t0Canonical := by simp [State.portOff]
@[simp] theorem State.portReset_canonical (p) : (s.portReset p).t0Canonical ↔ s.t0Canonical := by simp [State.portReset]
@[simp] theorem State.portResetWrite_canonical (p) : (s.portResetWrite p).t0Canonical ↔ s.t0Canonical := by simp [State.portResetWrite]
@[simp] theorem State.linkSeen_canonical (p) : (s.linkSeen p).t0Canonical ↔ s.t0Canonical := by simp [State.linkSeen]
@[simp] theorem State.portsResume_canonical : s.portsResume.t0Canonical ↔ s.t0Canonical := State.foldl_canonical (fun s p => by simp) _ s
@[simp] theorem State.awlFails_canonical (e) : (s.awlFails e).t0Canonical ↔ s.t0Canonical := by simp [State.awlFails]
@[simp] theorem State.engineLost_canonical (i) : (s.engineLost i).t0Canonical ↔ s.t0Canonical := by simp [State.engineLost]
@[simp] theorem State.markDown_canonical (kind i) : (s.markDown kind i).t0Canonical ↔ s.t0Canonical := by
  simp only [State.markDown]
  split <;> simp

/-! ### Firmware -/

@[simp] theorem State.fwDone_canonical (st p) : (s.fwDone st p).t0Canonical ↔ s.t0Canonical := Iff.rfl
@[simp] theorem State.spRestart_canonical (n activation) : (s.spRestart n activation).t0Canonical ↔ s.t0Canonical := by simp [State.spRestart]
@[simp] theorem State.spWrite_canonical (n v) : (s.spWrite n v).t0Canonical ↔ s.t0Canonical := by simp [State.spWrite]
@[simp] theorem State.hello_canonical (major minor) : (s.hello major minor).2.2.t0Canonical ↔ s.t0Canonical := by simp [State.hello]
@[simp] theorem State.fwStage_canonical (p) : (s.fwStage p).2.2.t0Canonical ↔ s.t0Canonical := by
  simp only [State.fwStage]
  (repeat' split) <;> simp
@[simp] theorem State.fwVerify_canonical (p) : (s.fwVerify p).2.2.t0Canonical ↔ s.t0Canonical := by
  simp only [State.fwVerify]
  (repeat' split) <;> simp
@[simp] theorem State.fwActivate_canonical (p) : (s.fwActivate p).2.2.t0Canonical ↔ s.t0Canonical := by
  simp only [State.fwActivate]
  (repeat' split) <;> simp
@[simp] theorem State.fwAnswer_canonical (bus recovery m) : (s.fwAnswer bus recovery m).2.2.t0Canonical ↔ s.t0Canonical := by
  simp only [State.fwAnswer]
  (repeat' split) <;> simp
@[simp] theorem State.fwRun_canonical (recovery) : (s.fwRun recovery).t0Canonical ↔ s.t0Canonical := by simp [State.fwRun]
@[simp] theorem State.fwServe_canonical : s.fwServe.t0Canonical ↔ s.t0Canonical := by
  simp only [State.fwServe]
  (repeat' split) <;> simp
@[simp] theorem State.startServing_canonical : s.startServing.t0Canonical ↔ s.t0Canonical := by simp [State.startServing]
@[simp] theorem State.fwSubmit_canonical (src m) : (s.fwSubmit src m).t0Canonical ↔ s.t0Canonical := by simp [State.fwSubmit]
@[simp] theorem State.fwMbox_canonical (v) : (s.fwMbox v).t0Canonical ↔ s.t0Canonical := by simp [State.fwMbox]
@[simp] theorem State.copyLogs_canonical : s.copyLogs.t0Canonical ↔ s.t0Canonical := by
  unfold State.copyLogs
  extract_lets n s1 s2
  have records : s1.t0Canonical ↔ s.t0Canonical := State.foldl_canonical (fun s i => by dsimp only; split <;> simp) _ s
  have events : s2.t0Canonical ↔ s1.t0Canonical := State.foldl_canonical (fun s e => by simp) _ s1
  simp [events, records]

/-! ### Resets and starts -/

@[simp] theorem State.asSmall_canonical : s.asSmall.t0Canonical ↔ s.t0Canonical := Iff.rfl
@[simp] theorem State.romChecks_canonical (keys ok entropy) : (s.romChecks keys ok entropy).t0Canonical ↔ s.t0Canonical := by simp [State.romChecks]
@[simp] theorem State.romStart_canonical (puf entropy) : (s.romStart puf entropy).t0Canonical ↔ s.t0Canonical := by simp [State.romStart]
@[simp] theorem State.warmReset_canonical : s.warmReset.t0Canonical ↔ s.t0Canonical := by simp [State.warmReset]
@[simp] theorem State.devReset_canonical (v) : (s.devReset v).t0Canonical ↔ s.t0Canonical := by simp [State.devReset]
@[simp] theorem State.scaleLayout_canonical : s.scaleLayout.t0Canonical ↔ s.t0Canonical := by simp [State.scaleLayout]
@[simp] theorem State.imageFails_canonical (i) : (s.imageFails i).t0Canonical ↔ s.t0Canonical :=
  (State.report_canonical ..).trans (by split <;> exact Iff.rfl)
@[simp] theorem State.imageStarts_canonical (i d v) : (s.imageStarts i d v).t0Canonical ↔ s.t0Canonical := by simp [State.imageStarts]

/-! ### Registers -/

@[simp] theorem State.writeId_canonical (o v) : (s.writeId o v).t0Canonical ↔ s.t0Canonical := by simp [State.writeId]
@[simp] theorem State.writeVm_canonical (m v) : (s.writeVm m v).t0Canonical ↔ s.t0Canonical := Iff.rfl
@[simp] theorem State.writeTier_canonical (o v) : (s.writeTier o v).t0Canonical ↔ s.t0Canonical := by
  simp only [State.writeTier]
  (repeat' split) <;> simp
@[simp] theorem State.writePages_canonical (o v) : (s.writePages o v).t0Canonical ↔ s.t0Canonical := by
  simp only [State.writePages]
  (repeat' split) <;> simp
@[simp] theorem State.writeKettle_canonical (o v) : (s.writeKettle o v).t0Canonical ↔ s.t0Canonical := by simp [State.writeKettle]
@[simp] theorem State.writeFq_canonical (o v) : (s.writeFq o v).t0Canonical ↔ s.t0Canonical := by simp [State.writeFq]
@[simp] theorem State.writeGate_canonical (p o v) : (s.writeGate p o v).t0Canonical ↔ s.t0Canonical := by
  simp only [State.writeGate]
  (repeat' split) <;> simp
@[simp] theorem State.writeCo_canonical (o w bytes) : (s.writeCo o w bytes).t0Canonical ↔ s.t0Canonical := by simp [State.writeCo]
@[simp] theorem State.writePm_canonical (o v) : (s.writePm o v).t0Canonical ↔ s.t0Canonical := by simp [State.writePm]
@[simp] theorem State.writeCredit_canonical (i v) : (s.writeCredit i v).t0Canonical ↔ s.t0Canonical := by simp [State.writeCredit]
@[simp] theorem State.writeErr_canonical (o v) : (s.writeErr o v).t0Canonical ↔ s.t0Canonical := by
  simp only [State.writeErr]
  (repeat' split) <;> simp
@[simp] theorem State.writeFw_canonical (o w bytes) : (s.writeFw o w bytes).t0Canonical ↔ s.t0Canonical := by
  simp only [State.writeFw]
  (repeat' split) <;> simp
@[simp] theorem State.writeMsix_canonical (f i w v) : (s.writeMsix f i w v).t0Canonical ↔ s.t0Canonical := by simp [State.writeMsix]
@[simp] theorem State.writeMsixControl_canonical (f v) : (s.writeMsixControl f v).t0Canonical ↔ s.t0Canonical := by simp [State.writeMsixControl]
@[simp] theorem State.writeAer_canonical (f o v) : (s.writeAer f o v).t0Canonical ↔ s.t0Canonical := by simp [State.writeAer]
@[simp] theorem State.windowRead_canonical (served l) : (s.windowRead served l).2.t0Canonical ↔ s.t0Canonical := by
  induction l generalizing s with
  | nil => rfl
  | cons o l ih =>
    simp only [State.windowRead]
    (repeat' split) <;> simp [ih]

end

end Sys2Proof.Machine
end

section
-- One proof after another: so many at once would not fit beside the model in memory.
set_option Elab.async false
/-! T0 stays canonical (O7): the operations that write T0. All of them write by `State.t0Write` (or clear T0), which keeps the canonical form; each has one
lemma, in one direction: the state after it is canonical if the state before was. Operations that go on with a continuation keep the form if the
continuation does. -/
namespace Sys2Proof.Machine
open Sys2Proof

/-- A choice keeps the form if both of its outcomes have it: one guard of a meaning. -/
theorem State.ite_keeps {c : Prop} [Decidable c] {t u : State} (ht : t.t0Canonical) (hu : u.t0Canonical) : (if c then t else u).t0Canonical := by
  split
  · exact ht
  · exact hu
@[simp] theorem State.t0Write_keeps {s : State} (a b) (h : s.t0Canonical) : (s.t0Write a b).t0Canonical := t0Write_canonical s a b h
/-! Operations that go on with a continuation `k` -/

theorem State.readable_keeps {s : State} (f l) {k : State → State} (hk : ∀ t, t.t0Canonical → (k t).t0Canonical) (h : s.t0Canonical) :
    (s.readable f l k).t0Canonical := by
  unfold State.readable
  split
  · exact hk s h
  · simpa using h
theorem State.awaitGate_keeps {s : State} (f await off n) {k : State → State} (hk : ∀ t, t.t0Canonical → (k t).t0Canonical) (h : s.t0Canonical) :
    (s.awaitGate f await off n k).t0Canonical := by
  unfold State.awaitGate
  extract_lets x lo m
  split
  · exact hk s h
  split
  · exact hk s h
  · split
    · exact hk _ (by simpa using h)
    · exact h
  · split
    · exact hk _ (by simpa using h)
    · simpa using h
  · exact hk s h
theorem State.psnCheck_keeps {s : State} (q p) {k : State → State} (hk : ∀ t, t.t0Canonical → (k t).t0Canonical) (h : s.t0Canonical) :
    (s.psnCheck q p k).t0Canonical := by
  simp only [State.psnCheck]
  split_ifs
  · exact hk s h
  · simpa using h
  · simpa using h
theorem State.asWalker_keeps {s : State} (f) {k : State → State} (hk : ∀ t, t.t0Canonical → (k t).t0Canonical) (h : s.t0Canonical) :
    (s.asWalker f k).t0Canonical := by
  unfold State.asWalker
  split
  · exact hk s h
  split
  next e => exact hk _ (by simpa [State.takeWalker_canonical e] using h)
  · exact h
/-! Answers taken apart, repetitions and configuration requests -/

theorem State.takeBlocks_canonical_of_eq {s t : State} {c gi cls : Nat} {ms l : List Nat} {k : Option Short} (e : s.takeBlocks c gi cls ms = (l, t, k)) :
    t.t0Canonical ↔ s.t0Canonical := by
  have := s.takeBlocks_canonical c gi cls ms
  rwa [e] at this
theorem State.foldl_keeps {α : Type} {f : State → α → State} (hf : ∀ s a, s.t0Canonical → (f s a).t0Canonical) (xs : List α) {s : State}
    (h : s.t0Canonical) : (xs.foldl f s).t0Canonical := by
  induction xs generalizing s with
  | nil => exact h
  | cons a r ih => exact ih (hf s a h)
theorem State.onConfig_keeps {s : State} (link) {k : State → State} (hk : s.t0Canonical → (k s).t0Canonical) (h : s.t0Canonical) :
    (s.onConfig link k).t0Canonical :=
  State.ite_keeps (hk h) (by simpa using h)

section
variable (s : State)

/-! ### Endings of instructions -/

@[simp] theorem State.ringWrite_canonical (c loc base depth i b) (h : s.t0Canonical) : (s.ringWrite c loc base depth i b).t0Canonical := by
  simp only [State.ringWrite]
  split <;> simp [h]

/-! ### Queue pairs and messages -/

@[simp] theorem State.place_canonical (f data svc counted d) (h : s.t0Canonical) : (s.place f data svc counted d).t0Canonical := by
  simp [State.place, h]
@[simp] theorem State.places_canonical (f data svc counted) (ds : List Dest) (h : s.t0Canonical) :
    (ds.foldl (fun s d => s.place f data svc counted d) s).t0Canonical :=
  State.foldl_keeps (fun s d hs => s.place_canonical f data svc counted d hs) ds h
theorem State.output_canonical {s t : State} {f svc : Nat} {data : Bytes} {ds : List Dest} (e : s.output f data ds svc = some t) (h : s.t0Canonical) :
    t.t0Canonical := by
  simp only [State.output] at e
  split at e
  · split at e
    · cases e
    · cases e; simp [h]
  · cases e; simp [h]

/-! ### Rings and completions -/

@[simp] theorem State.writeSeal_canonical (x e) (h : s.t0Canonical) : (s.writeSeal x e).t0Canonical := by simp [State.writeSeal, h]
@[simp] theorem State.writeEntry_canonical (x) (h : s.t0Canonical) : (s.writeEntry x).t0Canonical := by
  simp only [State.writeEntry]
  split <;> simp [h]
@[simp] theorem State.instructionComplete_canonical (f) (h : s.t0Canonical) : (s.instructionComplete f).t0Canonical := by
  simp only [State.instructionComplete]
  (repeat' split) <;> simp [h]

/-! ### Sequences -/

theorem State.copyPage_canonical {s t : State} {src dst : Nat} (e : s.copyPage src dst = some t) (h : s.t0Canonical) : t.t0Canonical := by
  simp only [State.copyPage] at e
  split at e
  · cases e; simp [h]
  · cases e
theorem State.copyPages_canonical {s t : State} {src dst n : Nat} (e : s.copyPages src dst n = some t) (h : s.t0Canonical) : t.t0Canonical := by
  induction n generalizing t with
  | zero => cases e; exact h
  | succ n ih =>
    simp only [State.copyPages] at e
    split at e
    next he => exact State.copyPage_canonical e (ih he)
    · cases e
theorem State.forkOpen_canonical {s t : State} {y : Seq} {dst cls payload : Nat} {keep opens tail : List Entry} {full : List Nat}
    (e : s.forkOpen y dst cls payload keep opens = .ok (tail, full, t)) (h : s.t0Canonical) : t.t0Canonical := by
  simp only [State.forkOpen] at e
  split at e
  · cases e; exact h
  split at e
  · cases e
  next ha =>
  split at e
  · cases e
  next hc =>
    cases e
    exact State.copyPages_canonical hc (by simp [State.allocBlock_canonical ha, h])
theorem State.fork_canonical {s t : State} {src dst n cls a : Nat} {full : List Nat} (e : s.fork src dst n cls = .ok (a, full, t)) (h : s.t0Canonical) :
    t.t0Canonical := by
  simp only [State.fork] at e
  split at e
  · cases e
  next hn =>
  split at e
  · cases e
  next hr =>
  split at e
  · cases e
  next ho =>
  split at e
  · cases e
  next he =>
    have opened := State.forkOpen_canonical ho (by simp [State.addRefs_canonical hr, State.newSeq_canonical hn, h])
    cases e
    simp [State.edit_canonical he, opened]

/-! ### Appending -/

@[simp] theorem State.writeTokens_canonical (p t n ptok gi b) (h : s.t0Canonical) : (s.writeTokens p t n ptok gi b).t0Canonical := by
  simp only [State.writeTokens]
  split <;> simp [h]
@[simp] theorem State.writeBlock_canonical (x gi e b pos k data l) (h : s.t0Canonical) : (s.writeBlock x gi e b pos k data l).t0Canonical := by
  induction l with
  | zero => exact h
  | succ l ih => exact State.writeTokens_canonical _ _ _ _ _ _ _ ih
@[simp] theorem State.writeSeq_canonical (q x es gi pos k data ids) (h : s.t0Canonical) : (s.writeSeq q x es gi pos k data ids).2.2.t0Canonical := by
  simp only [State.writeSeq, State.screen_canonical, State.closeFull_canonical, State.stampSeq_canonical, State.updSeq_canonical]
  exact (State.foldl_canonical (fun s b => s.writeIds_canonical _ _ _) _ _).mpr
    (State.foldl_keeps (fun s b hs => s.writeBlock_canonical _ _ _ _ _ _ _ _ hs) _ h)
theorem State.writeSeq_canonical_of_eq {s u : State} {q gi pos k : Nat} {x : Seq} {es : List Entry} {data : Bytes} {ids full : List Nat} {toks : List Token}
    (e : s.writeSeq q x es gi pos k data ids = (full, toks, u)) (h : s.t0Canonical) : u.t0Canonical := by
  have := s.writeSeq_canonical q x es gi pos k data ids h
  rwa [e] at this
theorem State.appendSeq_canonical {s u : State} {c q gi cls k : Nat} {blocks : List Nat} {data : Bytes} {ids full : List Nat} {toks : List Token}
    (e : s.appendSeq c q gi cls k blocks data ids = .ok (full, toks, u)) (h : s.t0Canonical) : u.t0Canonical := by
  simp only [State.appendSeq] at e
  split at e
  · cases e
  next ha =>
  have named := (State.appendTarget_canonical ha).mpr h
  split at e
  · exact State.writeSeq_canonical_of_eq (Except.ok.inj e) named
  split at e
  · cases e
  next he =>
    exact State.writeSeq_canonical_of_eq (Except.ok.inj e) (by simp [State.edit_canonical he, named])
@[simp] theorem State.applySeq_canonical (f x) (h : s.t0Canonical) : (s.applySeq f x).t0Canonical := by
  simp only [State.applySeq]
  split
  · simpa using h
  refine State.readable_keeps _ _ (fun t ht => ?_) h
  split
  · simpa using ht
  split
  next ha => simp [State.allocBlocks_canonical ha, ht]
  next ha =>
    have alloc := (State.allocBlocks_canonical ha).mpr ht
    split
    · simp [alloc, ht]
    next hb => simp [State.appendSeq_canonical hb alloc]
@[simp] theorem State.seqMode_canonical (f x) (h : s.t0Canonical) : (s.seqMode f x).t0Canonical := by
  simp only [State.seqMode]
  split
  · simpa using h
  refine State.readable_keeps _ _ (fun t ht => ?_) h
  split
  · simpa using ht
  split
  · simpa using ht
  split
  · split <;> simp [ht]
  · exact ht
  · split <;> simp [ht]
  · refine State.awaitGate_keeps _ _ _ _ (fun u hu => ?_) ht
    split_ifs <;> simp [hu]
@[simp] theorem State.applyBoundaries_canonical (gi) (h : s.t0Canonical) : (s.applyBoundaries gi).t0Canonical :=
  State.foldl_keeps (fun s p hs => by dsimp only; split <;> simp [hs]) _ h
@[simp] theorem State.stepBoundary_canonical (gi) (h : s.t0Canonical) : (s.stepBoundary gi).t0Canonical := by simp [State.stepBoundary, h]
@[simp] theorem State.memberWrite_canonical (gi i layer data id) (h : s.t0Canonical) : (s.memberWrite gi i layer data id).2.2.t0Canonical := by
  simp [State.memberWrite, h]
@[simp] theorem State.memberWrites_canonical (gi layer ptok data ids i n) (h : s.t0Canonical) :
    (s.memberWrites gi layer ptok data ids i n).2.2.t0Canonical := by
  induction n generalizing s i with
  | zero => exact h
  | succ n ih => simp [State.memberWrites, ih, h]
@[simp] theorem State.gatherMode_canonical (f x) (h : s.t0Canonical) : (s.gatherMode f x).t0Canonical := by
  simp only [State.gatherMode]
  split
  · simpa using h
  refine State.readable_keeps _ _ (fun t ht => ?_) h
  split
  · simpa using ht
  split
  · simpa using ht
  split
  · exact ht
  refine State.readable_keeps _ _ (fun t ht => ?_) ht
  refine State.awaitGate_keeps _ _ _ _ (fun t ht => ?_) ht
  split
  · simpa using ht
  split
  · simpa using ht
  split
  next ha => simp [State.takeBlocks_canonical_of_eq ha, ht]
  next ha =>
    have taken := (State.takeBlocks_canonical_of_eq ha).mpr (by simpa using ht)
    split
    · simp [taken, ht]
    next hm => simp [(State.memberBlocks_canonical hm).mpr taken]

/-! ### Instructions on pages -/

@[simp] theorem State.deliver_canonical (f v) (h : s.t0Canonical) : (s.deliver f v).t0Canonical := by
  simp only [State.deliver]
  split
  · simpa using h
  split
  · split <;> simp [h]
  split
  · simpa using h
  next e => simp [State.output_canonical e (by simpa using h)]
@[simp] theorem State.deliverOn_canonical (f v) (h : s.t0Canonical) : (s.deliverOn f v).t0Canonical := by
  refine State.readable_keeps _ _ (fun t ht => ?_) h
  simp [ht]
@[simp] theorem State.freeClear_canonical (c) (h : s.t0Canonical) : (s.freeClear c).t0Canonical := by simp [State.freeClear, h]
@[simp] theorem State.freeRetired_canonical (r) (h : s.t0Canonical) : (s.freeRetired r).t0Canonical := by
  have cleared (l : List (Nat × Nat)) {t : State} (ht : t.t0Canonical) : (l.foldl State.freeClear t).t0Canonical :=
    State.foldl_keeps (fun s c hs => s.freeClear_canonical c hs) l ht
  simp only [State.freeRetired]
  split <;> simp [cleared, h]

/-! ### Gatherings -/

@[simp] theorem State.dissolve_canonical (gi) (h : s.t0Canonical) : (s.dissolve gi).t0Canonical := by
  simp only [State.dissolve]
  exact State.foldl_keeps (fun s p hs => by split <;> simp [hs]) _ (by simp [h])
@[simp] theorem State.setPosition_canonical (gi step layer) (h : s.t0Canonical) : (s.setPosition gi step layer).t0Canonical := by
  simp [State.setPosition, h]
@[simp] theorem State.kettleBell_canonical (fn v) (h : s.t0Canonical) : (s.kettleBell fn v).2.t0Canonical := by
  simp [State.kettleBell, apply_ite Prod.snd, h]

/-! ### Moves between tiers -/

@[simp] theorem State.land_canonical (m b) (h : s.t0Canonical) : (s.land m b).t0Canonical := by simp [State.land, h]
@[simp] theorem State.runRead_canonical (m data) (h : s.t0Canonical) : (s.runRead m data).t0Canonical := by
  simp only [State.runRead]
  split
  · simpa using h
  split
  next e => simp [State.tierRead_canonical e, h]
  next e => split <;> simp [State.tierRead_canonical e, h]

/-! ### The Press -/

theorem State.placeForm_canonical {s t : State} {p spent : Nat} {form : Bytes} {raw poison : Bool} (e : s.placeForm p form raw poison spent = some t)
    (h : s.t0Canonical) : t.t0Canonical := by
  simp only [State.placeForm] at e
  split at e
  · split at e
    · cases e
    next hr =>
      have pressed := (State.pressRun_canonical hr).mpr h
      cases e
      split_ifs <;> simp [pressed]
  · split at e
    · cases e
    next hr =>
      cases e
      simp [State.takePool_canonical hr, h]

/-! ### Weights -/

@[simp] theorem State.weightPass_canonical (w page) (h : s.t0Canonical) : (s.weightPass w page).t0Canonical := by
  simp only [State.weightPass]
  (repeat' split) <;> simp [h]

/-! ### Attention -/

@[simp] theorem State.attendCompute_canonical (f gi layer a l) (h : s.t0Canonical) : (s.attendCompute f gi layer a l).t0Canonical := by
  unfold State.attendCompute
  extract_lets x c g base
  split
  · split <;> simp [h]
  extract_lets rows rs
  split
  next ha =>
  have drawn := by simpa [h] using congrArg (fun r => r.2.t0Canonical) ha
  extract_lets set pad n lost
  generalize (if g.odest ≠ 0 then (_ : Bytes × List Dest) else _) = dests
  split
  split
  · simpa using drawn
  split
  · exact drawn
  next e => simp [State.output_canonical e drawn]
@[simp] theorem State.attendPages_canonical (f gi layer a l) (h : s.t0Canonical) : (s.attendPages f gi layer a l).t0Canonical := by
  simp only [State.attendPages]
  split_ifs <;> simp [h]
@[simp] theorem State.attendOn_canonical (f gi layer a) (h : s.t0Canonical) : (s.attendOn f gi layer a).t0Canonical := by
  unfold State.attendOn
  split
  next t a' e =>
  have entered : t.t0Canonical := by
    have := s.attendLayer_canonical f layer a
    split at e
    · rw [e] at this; exact this.mpr h
    · cases e; exact h
  split
  · exact entered
  next a1 =>
  refine State.readable_keeps _ _ (fun t ht => ?_) entered
  extract_lets x l
  rcases t.copyBad a1 with _ | k
  · dsimp only
    split
    · simp [ht]
    · split <;> simp [ht]
  · rcases t.recordFor a1.grec.model layer a1.past with _ | i <;> simp [ht]

/-! ### The Awl -/

@[simp] theorem State.awlLoad_canonical (c a off) (h : s.t0Canonical) : (s.awlLoad c a off).t0Canonical := by
  simp only [State.awlLoad]
  split_ifs
  iterate 7 · simpa using h
  all_goals
    split
    next e => simp [State.takeRun_canonical e, h]
    · simpa using h

/-! ### Lookups and publication -/

@[simp] theorem State.lookOut_canonical (f off b) (h : s.t0Canonical) : (s.lookOut f off b).t0Canonical := by simp [State.lookOut, h]
@[simp] theorem State.dirAnswer_canonical (f r st res) (h : s.t0Canonical) : (s.dirAnswer f r st res).t0Canonical := by simp [State.dirAnswer, h]
@[simp] theorem State.lookEnd_canonical (f hs st res record) (h : s.t0Canonical) : (s.lookEnd f hs st res record).t0Canonical := by
  unfold State.lookEnd
  extract_lets x b t q part gran body n t1 t2
  have looked : t.t0Canonical := by
    unfold t
    split_ifs <;> simp [h]
  split
  · simpa using looked
  split
  · split
    split <;> simp [looked]
  split <;> simp [t2, t1, looked]
@[simp] theorem State.lookMiss_canonical (f l) (h : s.t0Canonical) : (s.lookMiss f l).t0Canonical := s.lookEnd_canonical _ _ _ _ _ h
@[simp] theorem State.descend_canonical (f n l) (h : s.t0Canonical) : (s.descend f n l).t0Canonical := by
  induction n generalizing l with
  | zero => simp [State.descend, h]
  | succ i ih =>
    simp only [State.descend]
    (repeat' split) <;> simp [ih, h]
@[simp] theorem State.startDescent_canonical (f l) (h : s.t0Canonical) : (s.startDescent f l).t0Canonical := s.descend_canonical _ _ _ h
@[simp] theorem State.lookStart_canonical (f part) (h : s.t0Canonical) : (s.lookStart f part).t0Canonical := by
  unfold State.lookStart
  extract_lets x n inline addr go
  split
  split
  · exact h
  have goes (t : State) (ht : t.t0Canonical) : (go t).t0Canonical := by
    unfold go
    split <;> simp [ht]
  split
  · exact goes s h
  · exact State.awaitGate_keeps _ _ _ _ goes h
@[simp] theorem State.recordRead_canonical (f x l p scope) (h : s.t0Canonical) : (s.recordRead f x l p scope).t0Canonical := by
  simp only [State.recordRead]
  split_ifs <;> simp [h]

/-! ### PUT_PAGES -/

theorem State.putPage_canonical {s t : State} {f : Nat} {p p' : Putting} {data : Bytes} (e : s.putPage f p data = .ok (p', t)) (h : s.t0Canonical) :
    t.t0Canonical := by
  unfold State.putPage at e
  extract_lets c y layers b l page prev at e
  split at e
  extract_lets n at e
  split at e
  · cases e
  next hx =>
  split at e
  · cases e
  next hs =>
    have summed := (State.extRun_canonical hx).mpr h
    split at hs
    · cases hs; cases e; simp [summed]
    · cases e; simp [State.takeSum_canonical hs, summed]
theorem State.putData_canonical {s t : State} {f : Nat} {data : Bytes} (e : s.putData f data = some t) (h : s.t0Canonical) : t.t0Canonical := by
  simp only [State.putData] at e
  split at e
  · split at e
    · split at e <;> (cases e; simpa using h)
    split at e
    · cases e
    split at e
    · split at e <;> cases e
      simpa using h
    next hp =>
      have put := State.putPage_canonical hp h
      cases e
      simp [put]
  · cases e; exact h

/-! ### RDMA -/

@[simp] theorem State.placeAt_canonical (q p m i) (h : s.t0Canonical) : (s.placeAt q p m i).t0Canonical := by
  unfold State.placeAt
  extract_lets x off n m1 r keep m2 t
  split
  · simpa using h
  have placed : t.t0Canonical := by
    unfold t
    split
    · exact h
    · simp [h]
  split <;> simp [placed]
@[simp] theorem State.drainHeld_canonical (q l) (h : s.t0Canonical) : (s.drainHeld q l).t0Canonical := by
  induction l generalizing s with
  | nil => exact h
  | cons p r ih =>
    unfold State.drainHeld
    extract_lets t
    have placed : t.t0Canonical := by
      unfold t
      split <;> simp [h]
    split
    · exact ih _ placed
    · exact placed
@[simp] theorem State.dataPacket_canonical (q p) (h : s.t0Canonical) : (s.dataPacket q p).t0Canonical := by
  refine State.psnCheck_keeps _ _ (fun t ht => ?_) h
  split
  · simpa using ht
  · exact ht
  · split <;> simp [ht]
  · simp [ht]

/-! ### Contexts -/

@[simp] theorem State.resetRun_canonical (c) (h : s.t0Canonical) : (s.resetRun c).t0Canonical := by
  unfold State.resetRun
  extract_lets marked unfetched aborted unlinked revoked undone emptied ended
  have before : revoked.t0Canonical := by simp [revoked, unlinked, aborted, unfetched, marked, h]
  have dissolved : undone.t0Canonical := by
    refine State.foldl_keeps (fun s g hs => ?_) _ before
    exact s.dissolve_canonical g.1 hs
  simp [ended, emptied, dissolved]
@[simp] theorem State.startReset_canonical (c) (h : s.t0Canonical) : (s.startReset c).t0Canonical := by simp [State.startReset, h]

/-! ### Functions -/

@[simp] theorem State.flrOne_canonical (f) (h : s.t0Canonical) : (s.flrOne f).t0Canonical := by
  have reset (l : List Nat) {t : State} (ht : t.t0Canonical) : (l.foldl State.startReset t).t0Canonical :=
    State.foldl_keeps (fun s c hs => s.startReset_canonical c hs) l ht
  simp [State.flrOne, reset, h]
@[simp] theorem State.vfConfig_canonical (enable num) (h : s.t0Canonical) : (s.vfConfig enable num).t0Canonical := by
  have reset (l : List Nat) : (l.foldl State.flrOne s).t0Canonical := State.foldl_keeps (fun s f hs => s.flrOne_canonical f hs) l h
  simp [State.vfConfig, reset]
@[simp] theorem State.flr_canonical (f) (h : s.t0Canonical) : (s.flr f).t0Canonical := by simp [State.flr, h]
@[simp] theorem State.swapCompletion_canonical (page result data) (h : s.t0Canonical) : (s.swapCompletion page result data).t0Canonical := by
  simp only [State.swapCompletion]
  (repeat' split) <;> simp [h]

/-! ### Resets and starts -/

@[simp] theorem State.outlive_canonical : s.outlive.t0Canonical := rfl
@[simp] theorem State.outliveWarm_canonical : s.outliveWarm.t0Canonical := rfl
@[simp] theorem State.linkDown_canonical (link) (h : s.t0Canonical) : (s.linkDown link).t0Canonical := by
  simp only [State.linkDown]
  split
  · simpa using h
  split
  · exact State.foldl_keeps (fun s f hs => s.flr_canonical f hs) _ (by simpa using h)
  · exact h
@[simp] theorem State.brown_canonical : s.brown.t0Canonical := rfl

/-! ### Registers -/

@[simp] theorem State.writeCtx_canonical (c i v) (h : s.t0Canonical) : (s.writeCtx c i v).t0Canonical := by simp [State.writeCtx, h]
@[simp] theorem State.writeSriov_canonical (o v) (h : s.t0Canonical) : (s.writeSriov o v).t0Canonical := by simp [State.writeSriov, h]
@[simp] theorem State.writeCfg_canonical (f o v bytes) (h : s.t0Canonical) : (s.writeCfg f o v bytes).t0Canonical := by simp [State.writeCfg, h]
@[simp] theorem State.windowWrite_canonical (f o l) (h : s.t0Canonical) : (s.windowWrite f o l).t0Canonical := by
  induction l generalizing s o with
  | nil => exact h
  | cons b r ih =>
    cases b with
    | none => exact ih _ _ h
    | some b =>
      refine ih _ _ ?_
      split
      · exact t0Write_canonical s _ [b] h
      · exact h

end

end Sys2Proof.Machine
end

section
-- One proof after another: so many at once would not fit beside the model in memory.
set_option Elab.async false
/-! T0 stays canonical (O7): the meanings of the commands. Each wrapper that a meaning goes through (`act`, `onFlight`, `onRequest` and so on) has one lemma
that reduces it to the wrapped function; each command then has one, from the lemmas of its operations. The commands of the families control and context
that leave T0 alone need none: their frame (O8) says it. -/
namespace Sys2Proof.Machine
open Sys2Proof

/-- A meaning that answers a next state leads from a canonical T0 to a canonical T0. -/
def KeepsCanonical (s : State) (o : Host.Outcome State Fault Refusal) : Prop := ∀ t, o = .next t → s.t0Canonical → t.t0Canonical
/-- What acts on the state keeps the form if the function it runs does. -/
@[simp] theorem act_keeps {s : State} {f : State → State} (h : s.t0Canonical → (f s).t0Canonical) : KeepsCanonical s (act s f) := by
  intro t e hs
  obtain rfl : (if s.stopped then s else (f s).framed s) = t := by simpa [act] using e
  split
  · exact hs
  · exact h hs
@[simp] theorem onFlight_keeps {s : State} {op f : Nat} {k : Flight → State → State} (h : ∀ x, s.t0Canonical → (k x s).t0Canonical) :
    KeepsCanonical s (onFlight op f s k) := by
  refine act_keeps fun hs => ?_
  split
  · split_ifs
    · exact h _ hs
    · simpa using hs
    · exact hs
  · exact hs
@[simp] theorem onGset_keeps {s : State} {action f : Nat} {k : Flight → Nat → State → State} (h : ∀ x n, s.t0Canonical → (k x n s).t0Canonical) :
    KeepsCanonical s (onGset action f s k) := by
  refine onFlight_keeps fun x hs => ?_
  split
  · exact h _ _ hs
  · exact hs
@[simp] theorem onAwl_keeps {s : State} {c : Nat} {k : State → State} (h : s.t0Canonical → (k s).t0Canonical) : KeepsCanonical s (onAwl c s k) := by
  refine act_keeps fun hs => ?_
  split_ifs
  · exact hs
  · exact h hs
  · simpa using hs
@[simp] theorem onPacket_keeps {s : State} {q : Nat} {kind : Packet → Bool} {k : Packet → State → State}
    (h : ∀ p t, t.t0Canonical → (k p t).t0Canonical) : KeepsCanonical s (onPacket q kind s k) := by
  refine act_keeps fun hs => ?_
  split
  · split
    · exact h _ _ hs
    · exact hs
  · exact hs
@[simp] theorem onRequest_keeps {s : State} {kind q : Nat} {k : VReq → State → State} (h : ∀ r t, t.t0Canonical → (k r t).t0Canonical) :
    KeepsCanonical s (onRequest kind q s k) := by
  refine act_keeps fun hs => ?_
  dsimp only
  split
  · exact hs
  · split_ifs
    · exact hs
    · simpa using hs
    · simpa using hs
    · exact h _ _ (by simpa using hs)
@[simp] theorem qpCommand_keeps {s : State} {bar fn qp : Nat} {k : Nat → State → State} (h : ∀ q, s.t0Canonical → (k q s).t0Canonical) :
    KeepsCanonical s (qpCommand bar fn qp s k) := by
  refine act_keeps fun hs => ?_
  dsimp only
  split
  · exact h _ hs
  · simpa using hs
@[simp] theorem fwRow_keeps (op src m s) : KeepsCanonical s (fwRow op src m s) := act_keeps fun hs => by
  split
  · simpa using hs
  · exact hs
@[simp] theorem mirror_keeps (kind op q s tenant) : KeepsCanonical s (mirror kind op q s tenant) := onRequest_keeps fun r t ht => by simpa using ht
@[simp] theorem after_canonical {s : State} {o : Host.Outcome State Fault Refusal} (h : KeepsCanonical s o) (hs : s.t0Canonical) :
    (after s o).t0Canonical := by
  unfold after
  split
  · exact h _ rfl hs
  · exact hs
theorem ite_keepsCanonical {s : State} {c : Prop} [Decidable c] {o r : Host.Outcome State Fault Refusal} (ho : KeepsCanonical s o) (hr : KeepsCanonical s r) :
    KeepsCanonical s (if c then o else r) := by
  split
  · exact ho
  · exact hr
theorem idle_keeps (s : State) : KeepsCanonical s (act s fun s => s) := act_keeps id
theorem next_keeps {s t : State} (h : s.t0Canonical → t.t0Canonical) : KeepsCanonical s (.next t) := fun _ e hs => by
  cases e
  exact h hs

section
variable (s : State)

/-! ### Rings and completions -/

@[simp] theorem execInstructionComplete_keeps (f) : KeepsCanonical s (execInstructionComplete f s) :=
  act_keeps fun h => by simp [h]

/-! ### Sequences -/

@[simp] theorem execAttach_keeps (f) : KeepsCanonical s (execAttach f s) := by
  refine onFlight_keeps fun x h => ?_
  dsimp only
  refine State.asWalker_keeps _ (fun t ht => ?_) h
  refine State.readable_keeps _ _ (fun t ht => ?_) ht
  refine State.ite_keeps (by simpa using ht) ?_
  refine State.ite_keeps (by simpa using ht) ?_
  refine State.ite_keeps (by simpa using ht) ?_
  split
  · simpa using ht
  refine State.ite_keeps (by simpa using ht) ?_
  refine State.readable_keeps _ _ (fun t ht => ?_) ht
  split
  · simpa using ht
  next e => simp [State.attach_canonical e, ht]
@[simp] theorem execFork_keeps (f) : KeepsCanonical s (execFork f s) := by
  refine onFlight_keeps fun x h => ?_
  dsimp only
  split
  · simp [h]
  · exact h
  refine State.asWalker_keeps _ (fun t ht => ?_) h
  refine State.readable_keeps _ _ (fun t ht => ?_) ht
  refine State.ite_keeps (by simpa using ht) ?_
  refine State.ite_keeps (by simpa using ht) ?_
  refine State.ite_keeps (by simpa using ht) ?_
  refine State.readable_keeps _ _ (fun t ht => ?_) ht
  split
  · split_ifs <;> simp [ht]
  refine State.ite_keeps (by simpa using ht) ?_
  refine State.ite_keeps (by simpa using ht) ?_
  split
  · simpa using ht
  next e => simp [State.fork_canonical e ht]
@[simp] theorem execRelease_keeps (f) : KeepsCanonical s (execRelease f s) := by
  refine onFlight_keeps fun x h => ?_
  dsimp only
  refine State.ite_keeps (by simpa using h) ?_
  refine State.ite_keeps (by simpa using h) ?_
  refine State.ite_keeps (by simpa using h) ?_
  refine State.ite_keeps (by simpa using h) ?_
  split
  · simpa using h
  next e => simp [State.releaseTail_canonical e, h]

/-! ### Appending -/

@[simp] theorem execSeqAppendAtStepBoundary_keeps (g) : KeepsCanonical s (execSeqAppendAtStepBoundary g s) :=
  act_keeps fun h => by simp [h]
@[simp] theorem execAppend_keeps (f) : KeepsCanonical s (execAppend f s) := onFlight_keeps fun x h => by
  (repeat' split) <;> simp [h]

/-! ### Instructions on pages -/

@[simp] theorem execSeal_keeps (f) : KeepsCanonical s (execSeal f s) := onFlight_keeps fun x h => by
  (repeat' split) <;> simp [h]
@[simp] theorem execStage_keeps (f) : KeepsCanonical s (execStage f s) := by
  refine onFlight_keeps fun x h => ?_
  dsimp only
  split
  · simpa using h
  · exact h
  refine State.readable_keeps _ _ (fun t ht => ?_) h
  refine State.ite_keeps (by simpa using ht) ?_
  refine State.ite_keeps (by simpa using ht) ?_
  refine State.readable_keeps _ _ (fun t ht => ?_) ht
  refine State.asWalker_keeps _ (fun t ht => ?_) ht
  split_ifs <;> simp [ht]
@[simp] theorem execHint_keeps (f) : KeepsCanonical s (execHint f s) := by
  refine onFlight_keeps fun x h => ?_
  dsimp only
  refine State.readable_keeps _ _ (fun t ht => ?_) h
  refine State.ite_keeps (by simpa using ht) ?_
  refine State.ite_keeps (by simpa using ht) ?_
  refine State.readable_keeps _ _ (fun t ht => ?_) ht
  simp [ht]
@[simp] theorem execDemote_keeps (f) : KeepsCanonical s (execDemote f s) := by
  refine onFlight_keeps fun x h => ?_
  dsimp only
  split
  · simpa using h
  · exact h
  refine State.readable_keeps _ _ (fun t ht => ?_) h
  refine State.ite_keeps (by simpa using ht) ?_
  refine State.ite_keeps (by simpa using ht) ?_
  refine State.readable_keeps _ _ (fun t ht => ?_) ht
  refine State.ite_keeps (by simpa using ht) ?_
  refine State.asWalker_keeps _ (fun t ht => ?_) ht
  have moved := (t.demoteAll_canonical x.ctx (fld x.b.toNat 24 2) ([], 0,
    0) ((s.seq (sSeq x.a)).rangePages (sBlock x.a) (fld x.b.toNat 0 24) 0 (s.seq (sSeq x.a)).layers).eraseDups).mpr ht
  split
  next e => simpa [e] using moved
  next e => simpa [e] using moved
@[simp] theorem execDeliver_keeps (f) : KeepsCanonical s (execDeliver f s) := by
  refine onFlight_keeps fun x h => ?_
  dsimp only
  split
  · split <;> simp [h]
  · exact h
  · simp [h]
  refine State.readable_keeps _ _ (fun t ht => ?_) h
  refine State.ite_keeps (by simpa using ht) ?_
  refine State.ite_keeps (by simpa using ht) ?_
  refine State.readable_keeps _ _ (fun t ht => ?_) ht
  refine State.ite_keeps (by simpa using ht) ?_
  refine State.ite_keeps (by simpa using ht) ?_
  refine State.ite_keeps (by simpa using ht) ?_
  refine State.ite_keeps (by simpa using ht) ?_
  refine State.ite_keeps (by simpa using ht) ?_
  exact State.asWalker_keeps _ (fun t ht => t.deliverOn_canonical _ _ ht) ht
@[simp] theorem execRetirementFree_keeps : KeepsCanonical s (execRetirementFree s) := act_keeps fun h => by
  split <;> simp [h]

/-! ### Gatherings -/

@[simp] theorem execGsetCreate_keeps (f) : KeepsCanonical s (execGsetCreate f s) := by simp [execGsetCreate]
@[simp] theorem execGsetUpdate_keeps (f) : KeepsCanonical s (execGsetUpdate f s) := by
  refine onGset_keeps fun x gi h => ?_
  dsimp only
  refine State.ite_keeps (by simpa using h) ?_
  refine State.ite_keeps (by simpa using h) ?_
  refine State.ite_keeps (by simpa using h) ?_
  refine State.readable_keeps _ _ (fun t ht => ?_) h
  split
  · simpa using ht
  · simp [ht]
@[simp] theorem execGsetDissolve_keeps (f) : KeepsCanonical s (execGsetDissolve f s) := by
  refine onGset_keeps fun x gi h => ?_
  dsimp only
  refine State.ite_keeps (by simpa using h) ?_
  split
  · simpa using h
  · exact (State.finish_canonical ..).mpr (s.dissolve_canonical gi h)
@[simp] theorem execStep_keeps (f) : KeepsCanonical s (execStep f s) :=
  onFlight_keeps fun x h => by simp [h]
@[simp] theorem execKettleDoorbell_keeps (fn v bytes) : KeepsCanonical s (execKettleDoorbell fn v bytes s) :=
  act_keeps fun h => by simp [h]
@[simp] theorem execStepHoldExpired_keeps (g) : KeepsCanonical s (execStepHoldExpired g s) :=
  act_keeps fun h => by simp [h]

/-! ### Moves between tiers -/

@[simp] theorem execGathererMoveStart_keeps : KeepsCanonical s (execGathererMoveStart s) := act_keeps fun h => by
  dsimp only
  split
  · exact h
  cases e : ((sortBy Move.before (s.grantMoves.tier.moves.filter fun m => !m.started)).findSome? s.grantMoves.tryStart)
  case none => simpa using h
  case some t =>
    obtain ⟨m, -, hm⟩ := List.exists_of_findSome?_eq_some e
    simpa [State.tryStart_canonical hm] using h
@[simp] theorem execInwardMoveLanded_keeps (page data) : KeepsCanonical s (execInwardMoveLanded page data s) := act_keeps fun h => by
  split <;> simp [h]
@[simp] theorem execInwardMoveFailed_keeps (page cause) : KeepsCanonical s (execInwardMoveFailed page cause s) := act_keeps fun h => by
  split <;> simp [h]
@[simp] theorem execTierReadTimeout_keeps (page) : KeepsCanonical s (execTierReadTimeout page s) := act_keeps fun h => by
  split <;> simp [h]
@[simp] theorem execDemandLandingTimeout_keeps (page) : KeepsCanonical s (execDemandLandingTimeout page s) := act_keeps fun h => by
  split <;> simp [h]
@[simp] theorem execOutwardMoveDone_keeps (page) : KeepsCanonical s (execOutwardMoveDone page s) := act_keeps fun h => by
  split <;> simp [h]
@[simp] theorem execOutwardWriteFail_keeps (page) : KeepsCanonical s (execOutwardWriteFail page s) := act_keeps fun h => by
  split <;> simp [h]
@[simp] theorem execTierWriteTimeout_keeps (page) : KeepsCanonical s (execTierWriteTimeout page s) := act_keeps fun h => by
  split <;> simp [h]
@[simp] theorem execReclaimPass_keeps : KeepsCanonical s (execReclaimPass s) := act_keeps fun h => by
  dsimp only
  refine State.ite_keeps h ?_
  refine State.ite_keeps h ?_
  split
  · simpa using h
  refine State.ite_keeps h ?_
  refine State.ite_keeps (by simpa using h) ?_
  split <;> simpa using h

/-! ### The Press -/

@[simp] theorem execChainHashFormed_keeps : KeepsCanonical s (execChainHashFormed s) := act_keeps fun h => by
  split <;> simp [h]
@[simp] theorem execPressSeal_keeps (pipe) : KeepsCanonical s (execPressSeal pipe s) := act_keeps fun h => by
  dsimp only
  refine State.ite_keeps h ?_
  split
  · exact h
  next w t hw =>
  have taken := (State.takeWalker_canonical hw).mpr h
  split
  · simpa using h
  next hn =>
    have next := by simpa [hn] using t.nextSeal_canonical t.press.queue
    split_ifs <;> simp [next, taken]
@[simp] theorem execPageSealed_keeps (pipe) : KeepsCanonical s (execPageSealed pipe s) := act_keeps fun h => by
  dsimp only
  refine State.ite_keeps h ?_
  refine State.ite_keeps (by simpa using h) ?_
  split
  · exact h
  next e =>
    have placed := State.placeForm_canonical e (by simpa using h)
    split_ifs <;> simp [placed]
@[simp] theorem execDigest_keeps (f) : KeepsCanonical s (execDigest f s) := by
  refine onFlight_keeps fun x h => ?_
  dsimp only
  refine State.ite_keeps h ?_
  refine State.awaitGate_keeps _ _ _ _ (fun t ht => ?_) h
  refine State.ite_keeps (by simpa using ht) ?_
  refine State.ite_keeps (by simpa using ht) ?_
  split
  · exact ht
  next e => simp [State.output_canonical e ht]

/-! ### Weights -/

@[simp] theorem execLoadw_keeps (f) : KeepsCanonical s (execLoadw f s) := by
  refine onFlight_keeps fun x h => ?_
  dsimp only
  refine State.ite_keeps (by simpa using h) ?_
  refine State.ite_keeps (by simpa using h) ?_
  refine State.ite_keeps (by simpa using h) ?_
  refine State.readable_keeps _ _ (fun t ht => ?_) h
  refine State.ite_keeps (by simpa using ht) ?_
  refine State.ite_keeps (by simpa using ht) ?_
  refine State.ite_keeps (by simpa using ht) ?_
  split
  · simpa using ht
  split
  · simpa using ht
  next e => simp [State.addRefs_canonical e, ht]
@[simp] theorem execWeightPass_keeps (wrec page) : KeepsCanonical s (execWeightPass wrec page s) :=
  act_keeps fun h => by simp [h]

/-! ### Attention -/

@[simp] theorem execAttend_keeps (f) : KeepsCanonical s (execAttend f s) := by
  refine onFlight_keeps fun x h => ?_
  dsimp only
  split
  · split <;> simp [h]
  · split_ifs <;> simp [h]
  refine State.ite_keeps (by simpa using h) ?_
  refine State.ite_keeps (by simpa using h) ?_
  refine State.ite_keeps h ?_
  refine State.readable_keeps _ _ (fun t ht => ?_) h
  refine State.awaitGate_keeps _ _ _ _ (fun t ht => ?_) ht
  split <;> simp [ht]
@[simp] theorem execCombine_keeps (f) : KeepsCanonical s (execCombine f s) := by
  refine onFlight_keeps fun x h => ?_
  dsimp only
  split
  · split <;> simp [h]
  refine State.ite_keeps (by simpa using h) ?_
  refine State.ite_keeps (by simpa using h) ?_
  refine State.ite_keeps h ?_
  refine State.awaitGate_keeps _ _ _ _ (fun t ht => ?_) h
  refine State.ite_keeps (by simpa using ht) ?_
  refine State.ite_keeps (by simpa using ht) ?_
  refine State.ite_keeps (by simpa using ht) ?_
  split
  · exact ht
  next e => simp [State.output_canonical e ht]

/-! ### The Awl -/

@[simp] theorem execAwlLoad_keeps (ctx auto offset) : KeepsCanonical s (execAwlLoad ctx auto offset s) := act_keeps fun h => by
  split <;> simp [h]
@[simp] theorem execAwlUnload_keeps (ctx auto) : KeepsCanonical s (execAwlUnload ctx auto s) := by simp [execAwlUnload]
@[simp] theorem execAwlBind_keeps (ctx auto target entry) : KeepsCanonical s (execAwlBind ctx auto target entry s) := by simp [execAwlBind]
@[simp] theorem execAwlUnbind_keeps (ctx auto target entry) : KeepsCanonical s (execAwlUnbind ctx auto target entry s) := by simp [execAwlUnbind]
@[simp] theorem execAwlTokenScan_keeps (engine) : KeepsCanonical s (execAwlTokenScan engine s) := act_keeps fun h => by
  split <;> simp [h]

/-! ### Lookups and publication -/

@[simp] theorem execLookup_keeps (f) : KeepsCanonical s (execLookup f s) := by
  refine onFlight_keeps fun x h => ?_
  split
  · split <;> simp [h]
  · exact h
  refine State.asWalker_keeps _ (fun t ht => ?_) h
  split
  · simp [ht]
  split <;> simp [ht]
@[simp] theorem execOverflowWalk_keeps (f) : KeepsCanonical s (execOverflowWalk f s) := act_keeps fun h => by
  dsimp only
  split
  · split
    · exact h
    · split_ifs <;> simp [h]
  · exact h
@[simp] theorem execLookupRecordRead_keeps (f) : KeepsCanonical s (execLookupRecordRead f s) := act_keeps fun h => by
  dsimp only
  split
  · split
    · split_ifs <;> simp [h]
    · exact h
  · exact h
@[simp] theorem execPublish_keeps (f) : KeepsCanonical s (execPublish f s) := by
  refine onFlight_keeps fun x h => ?_
  dsimp only
  split
  · simp [h]
  refine State.readable_keeps _ _ (fun t ht => ?_) h
  refine State.ite_keeps (by simpa using ht) ?_
  refine State.ite_keeps (by simpa using ht) ?_
  refine State.readable_keeps _ _ (fun t ht => ?_) ht
  refine State.ite_keeps (by simpa using ht) ?_
  refine State.asWalker_keeps _ (fun t ht => ?_) ht
  split
  · simpa using ht
  refine State.ite_keeps (by simpa using ht) ?_
  refine State.ite_keeps ht ?_
  refine State.ite_keeps (by simpa using ht) ?_
  split <;> simp [ht]
@[simp] theorem execRetract_keeps (f) : KeepsCanonical s (execRetract f s) := onFlight_keeps fun x h => by
  (repeat' split) <;> simp [h]

/-! ### Commands of the Spine -/

@[simp] theorem execSpineInsertion_keeps : KeepsCanonical s (execSpineInsertion s) := act_keeps fun h => by
  dsimp only
  split
  · split
    · exact h
    next e => simp [State.insertPrefix_canonical e, h]
    next e => simp [State.insertPrefix_canonical e, h]
  · exact h
@[simp] theorem execSpineCarry_keeps : KeepsCanonical s (execSpineCarry s) := act_keeps fun h => by
  dsimp only
  split
  · split <;> simp [h]
  · exact h
@[simp] theorem execSpineWithdrawal_keeps : KeepsCanonical s (execSpineWithdrawal s) := act_keeps fun h => by
  dsimp only
  split
  · split
    · simp [h]
    · split <;> simp [h]
  · exact h
@[simp] theorem execScrubRow_keeps : KeepsCanonical s (execScrubRow s) := by simp [execScrubRow]
@[simp] theorem execProbeSearch_keeps (v) : KeepsCanonical s (execProbeSearch v s) := by simp [execProbeSearch]
@[simp] theorem execSpBankWrite_keeps (bank v) : KeepsCanonical s (execSpBankWrite bank v s) := by simp [execSpBankWrite]
@[simp] theorem execSpOvfWrite_keeps (v) : KeepsCanonical s (execSpOvfWrite v s) := by simp [execSpOvfWrite]

/-! ### RDMA -/

@[simp] theorem execFrameRx_keeps (port fr) : KeepsCanonical s (execFrameRx port fr s) := by simp [execFrameRx]
@[simp] theorem execInboundRdmaWrite_keeps (qp) : KeepsCanonical s (execInboundRdmaWrite qp s) :=
  onPacket_keeps fun p t h => by simp [h]
@[simp] theorem execInboundSend_keeps (qp) : KeepsCanonical s (execInboundSend qp s) := onPacket_keeps fun p t h => by simp [h]
@[simp] theorem execInboundRdmaReadRequest_keeps (qp) : KeepsCanonical s (execInboundRdmaReadRequest qp s) := by
  refine onPacket_keeps fun p t h => ?_
  dsimp only
  refine State.psnCheck_keeps _ _ (fun t ht => ?_) h
  refine State.ite_keeps (by simpa using ht) ?_
  split
  · simpa using ht
  · simp [apply_ite Prod.snd, ht]
@[simp] theorem execInboundAcknowledge_keeps (qp) : KeepsCanonical s (execInboundAcknowledge qp s) := by simp [execInboundAcknowledge]
@[simp] theorem execInboundNak_keeps (qp) : KeepsCanonical s (execInboundNak qp s) := by simp [execInboundNak]
@[simp] theorem execRetransmitTimeout_keeps (qp psn) : KeepsCanonical s (execRetransmitTimeout qp psn s) := act_keeps fun h => by
  dsimp only
  split
  · split <;> simp [h]
  · exact h
@[simp] theorem execReorderGapTimeout_keeps (qp) : KeepsCanonical s (execReorderGapTimeout qp s) := by simp [execReorderGapTimeout]
@[simp] theorem execMessageTimeout_keeps (qp msg) : KeepsCanonical s (execMessageTimeout qp msg s) := by simp [execMessageTimeout]
@[simp] theorem execInboundReadResponse_keeps (qp) : KeepsCanonical s (execInboundReadResponse qp s) := by
  refine onPacket_keeps fun p t h => ?_
  dsimp only
  split
  · exact h
  refine State.ite_keeps h ?_
  refine State.ite_keeps (by simpa using h) ?_
  split
  next e => exact State.putData_canonical e (by simpa using h)
  · exact h

/-! ### Vanged requests -/

@[simp] theorem execVangedLookup_keeps (qp) : KeepsCanonical s (execVangedLookup qp s) := ite_keepsCanonical (by simp) (idle_keeps s)
@[simp] theorem execVangedGetPages_keeps (qp) : KeepsCanonical s (execVangedGetPages qp s) := ite_keepsCanonical (by simp) (idle_keeps s)
@[simp] theorem execVangedPublish_keeps (qp) : KeepsCanonical s (execVangedPublish qp s) := ite_keepsCanonical (by simp) (idle_keeps s)
@[simp] theorem execVangedAttend_keeps (qp) : KeepsCanonical s (execVangedAttend qp s) := ite_keepsCanonical (by simp) (idle_keeps s)
@[simp] theorem execVangedStep_keeps (qp) : KeepsCanonical s (execVangedStep qp s) := ite_keepsCanonical (by simp) (idle_keeps s)
@[simp] theorem execVangedLoad_keeps (qp) : KeepsCanonical s (execVangedLoad qp s) := by simp [execVangedLoad]
@[simp] theorem execExtentGrant_keeps (qp) : KeepsCanonical s (execExtentGrant qp s) := by
  refine onRequest_keeps fun r t h => ?_
  dsimp only
  refine State.ite_keeps (by simpa using h) ?_
  refine State.ite_keeps (by simpa using h) ?_
  split <;> simp [h]
@[simp] theorem execExtentReturn_keeps (qp) : KeepsCanonical s (execExtentReturn qp s) := by simp [execExtentReturn]
@[simp] theorem execExtentWithdrawn_keeps (e) : KeepsCanonical s (execExtentWithdrawn e s) := by
  refine act_keeps fun h => ?_
  extract_lets x ps freed done answer
  have answered : answer.t0Canonical := by
    unfold answer
    split <;> simp [done, freed, h]
  split_ifs <;> simp [answered, h]
@[simp] theorem execPutPages_keeps (qp) : KeepsCanonical s (execPutPages qp s) :=
  ite_keepsCanonical (idle_keeps s) (onRequest_keeps fun r t h => by simp [h])

/-! ### The directory -/

@[simp] theorem execDirKeyFlush_keeps (qp) : KeepsCanonical s (execDirKeyFlush qp s) := by simp [execDirKeyFlush]
@[simp] theorem execDirKeyMessage_keeps (qp) : KeepsCanonical s (execDirKeyMessage qp s) := onRequest_keeps fun r t h => by
  (repeat' split) <;> simp [h]
@[simp] theorem execDirLookup_keeps (qp) : KeepsCanonical s (execDirLookup qp s) := by
  refine onRequest_keeps fun r t h => ?_
  dsimp only
  split
  · simpa using h
  split <;> simp [h]
@[simp] theorem execDirLookupResponse_keeps (qp) : KeepsCanonical s (execDirLookupResponse qp s) := act_keeps fun h => by
  dsimp only
  split
  · exact h
  refine State.ite_keeps h (State.ite_keeps (by simpa using h) ?_)
  split
  · simpa using h
  split <;> simp [h]
@[simp] theorem execDirLookupTimeout_keeps (f) : KeepsCanonical s (execDirLookupTimeout f s) := act_keeps fun h => by
  dsimp only
  split
  · split <;> simp [h]
  · exact h

/-! ### Egress -/

@[simp] theorem execGclCommit_keeps (port v) : KeepsCanonical s (execGclCommit port v s) := by simp [execGclCommit]
@[simp] theorem execGclChangeTime_keeps (port) : KeepsCanonical s (execGclChangeTime port s) := by simp [execGclChangeTime]
@[simp] theorem execGclEntryChange_keeps (port) : KeepsCanonical s (execGclEntryChange port s) := by simp [execGclEntryChange]
@[simp] theorem execMeterTick_keeps : KeepsCanonical s (execMeterTick s) := by simp [execMeterTick]
@[simp] theorem execShaperRefill_keeps : KeepsCanonical s (execShaperRefill s) := by simp [execShaperRefill]
@[simp] theorem execFrameTx_keeps (port) : KeepsCanonical s (execFrameTx port s) := act_keeps fun h => by
  dsimp only
  refine State.ite_keeps h ?_
  split
  · simpa using h
  split
  · simpa using h
  split <;> simp [h]
@[simp] theorem execHistSample_keeps : KeepsCanonical s (execHistSample s) := by simp [execHistSample]
@[simp] theorem execHistCopy_keeps (v) : KeepsCanonical s (execHistCopy v s) := by simp [execHistCopy]

/-! ### Time -/

@[simp] theorem execPtpAnnounce_keeps (m) : KeepsCanonical s (execPtpAnnounce m s) := by simp [execPtpAnnounce]
@[simp] theorem execAnnounceTimeout_keeps : KeepsCanonical s (execAnnounceTimeout s) := by simp [execAnnounceTimeout]
@[simp] theorem execPtpSync_keeps (m) : KeepsCanonical s (execPtpSync m s) := by simp [execPtpSync]
@[simp] theorem execPtpFollowUp_keeps (m) : KeepsCanonical s (execPtpFollowUp m s) := act_keeps fun h => by
  split <;> simp [h]
@[simp] theorem execPtpDelayResp_keeps (m) : KeepsCanonical s (execPtpDelayResp m s) := act_keeps fun h => by
  (repeat' split) <;> simp [h]
@[simp] theorem execSyncTimeout_keeps : KeepsCanonical s (execSyncTimeout s) := by simp [execSyncTimeout]
@[simp] theorem execPtpEnableWrite_keeps (v) : KeepsCanonical s (execPtpEnableWrite v s) := by simp [execPtpEnableWrite]
@[simp] theorem execPtpTimeSecRead_keeps : KeepsCanonical s (execPtpTimeSecRead s) := by simp [execPtpTimeSecRead]
@[simp] theorem execPpsEdge_keeps : KeepsCanonical s (execPpsEdge s) := by simp [execPpsEdge]

/-! ### Network registers -/

@[simp] theorem execQpRead_keeps (bar fn qp) : KeepsCanonical s (execQpRead bar fn qp s) := by simp [execQpRead]
@[simp] theorem execQpWrite_keeps (bar fn qp) : KeepsCanonical s (execQpWrite bar fn qp s) := by simp [execQpWrite]
@[simp] theorem execToInit_keeps (bar fn qp) : KeepsCanonical s (execToInit bar fn qp s) := by simp [execToInit]
@[simp] theorem execToRtr_keeps (bar fn qp) : KeepsCanonical s (execToRtr bar fn qp s) := by simp [execToRtr]
@[simp] theorem execToRts_keeps (bar fn qp) : KeepsCanonical s (execToRts bar fn qp s) := by simp [execToRts]
@[simp] theorem execToReset_keeps (bar fn qp) : KeepsCanonical s (execToReset bar fn qp s) := qpCommand_keeps fun q h => by
  (repeat' split) <;> simp [h]
@[simp] theorem execToError_keeps (bar fn qp) : KeepsCanonical s (execToError bar fn qp s) := qpCommand_keeps fun q h => by
  (repeat' split) <;> simp [h]
@[simp] theorem execCreate_keeps (bar fn) : KeepsCanonical s (execCreate bar fn s) := act_keeps fun h => by
  dsimp only
  refine State.ite_keeps h (State.ite_keeps (by simpa using h) (State.ite_keeps (by simpa using h) ?_))
  split <;> simp [h]
@[simp] theorem execRevoke_keeps (bar fn reg) : KeepsCanonical s (execRevoke bar fn reg s) := by simp [execRevoke]
@[simp] theorem execRevocationEnd_keeps (reg) : KeepsCanonical s (execRevocationEnd reg s) := by simp [execRevocationEnd]
@[simp] theorem execExtentRevoke_keeps (bar fn e) : KeepsCanonical s (execExtentRevoke bar fn e s) := by simp [execExtentRevoke]
@[simp] theorem execNetModeWrite_keeps (v) : KeepsCanonical s (execNetModeWrite v s) := by simp [execNetModeWrite]
@[simp] theorem execDirRoleWrite_keeps (v) : KeepsCanonical s (execDirRoleWrite v s) := by simp [execDirRoleWrite]
@[simp] theorem execEthernetLinkChange_keeps (port up) : KeepsCanonical s (execEthernetLinkChange port up s) := by simp [execEthernetLinkChange]

/-! ### Contexts -/

@[simp] theorem execHeartbeat_keeps (fn bytes) : KeepsCanonical s (execHeartbeat fn bytes s) := by simp [execHeartbeat]
@[simp] theorem execContextReset_keeps (ctx) : KeepsCanonical s (execContextReset ctx s) :=
  act_keeps fun h => by simp [h]
@[simp] theorem execContextResetFinished_keeps (ctx) : KeepsCanonical s (execContextResetFinished ctx s) := act_keeps fun h => by
  dsimp only
  refine State.ite_keeps h (State.ite_keeps (by simpa using h) ?_)
  split <;> simp [h]

/-! ### The layout -/

@[simp] theorem execCommit_keeps (v) : KeepsCanonical s (execCommit v s) := by simp [execCommit]
@[simp] theorem execLayoutInitDone_keeps : KeepsCanonical s (execLayoutInitDone s) := by simp [execLayoutInitDone]
@[simp] theorem execGovernorInterval_keeps (power temp) : KeepsCanonical s (execGovernorInterval power temp s) := by simp [execGovernorInterval]
@[simp] theorem execLoadInterval_keeps (folio read written) : KeepsCanonical s (execLoadInterval folio read written s) := by simp [execLoadInterval]

/-! ### Security -/

@[simp] theorem execSpdmGetMeasurements_keeps (transport msg) : KeepsCanonical s (execSpdmGetMeasurements transport msg s) := by
  simp [execSpdmGetMeasurements]
@[simp] theorem execSpdmChallenge_keeps (transport msg) : KeepsCanonical s (execSpdmChallenge transport msg s) := by simp [execSpdmChallenge]
@[simp] theorem execSpdmKeyExchange_keeps (transport msg) : KeepsCanonical s (execSpdmKeyExchange transport msg s) := by simp [execSpdmKeyExchange]
@[simp] theorem execSpdmRequest_keeps (transport session msg) : KeepsCanonical s (execSpdmRequest transport session msg s) := by
  simp [execSpdmRequest]
@[simp] theorem execGetPqSignature_keeps (transport msg) : KeepsCanonical s (execGetPqSignature transport msg s) := by simp [execGetPqSignature]
@[simp] theorem execKeyRelease_keeps (session msg) : KeepsCanonical s (execKeyRelease session msg s) := by simp [execKeyRelease]
@[simp] theorem execKeyErase_keeps (session msg) : KeepsCanonical s (execKeyErase session msg s) := by simp [execKeyErase]
@[simp] theorem execGetContextKey_keeps (session msg) : KeepsCanonical s (execGetContextKey session msg s) := by simp [execGetContextKey]
@[simp] theorem execSlotLoaded_keeps (slot) : KeepsCanonical s (execSlotLoaded slot s) := by simp [execSlotLoaded]
@[simp] theorem execSpdmSessionTimeout_keeps (session) : KeepsCanonical s (execSpdmSessionTimeout session s) := by simp [execSpdmSessionTimeout]
@[simp] theorem execAuthSlot_keeps (slot session fn) : KeepsCanonical s (execAuthSlot slot session fn s) := by simp [execAuthSlot]
@[simp] theorem execAuthCtx_keeps (ctx session) : KeepsCanonical s (execAuthCtx ctx session s) := by simp [execAuthCtx]
@[simp] theorem execEraseSlot_keeps (slot) : KeepsCanonical s (execEraseSlot slot s) := by simp [execEraseSlot]
@[simp] theorem execDebug1_keeps : KeepsCanonical s (execDebug1 s) := by simp [execDebug1]
@[simp] theorem execDebug2_keeps : KeepsCanonical s (execDebug2 s) := by simp [execDebug2]
@[simp] theorem execColophonActivationEnd_keeps : KeepsCanonical s (execColophonActivationEnd s) := by simp [execColophonActivationEnd]
@[simp] theorem execDrbgReseed_keeps (ok) : KeepsCanonical s (execDrbgReseed ok s) := by simp [execDrbgReseed]
@[simp] theorem execIdeKm_keeps (session msg) : KeepsCanonical s (execIdeKm session msg s) := by simp [execIdeKm]

/-! ### Power -/

@[simp] theorem execOperatingPointChange_keeps (avsOk) : KeepsCanonical s (execOperatingPointChange avsOk s) := by simp [execOperatingPointChange]
@[simp] theorem execVoltageInRegulation_keeps : KeepsCanonical s (execVoltageInRegulation s) := act_keeps fun h => by
  split <;> simp [h]
@[simp] theorem execRegulationTimeout_keeps : KeepsCanonical s (execRegulationTimeout s) := act_keeps fun h => by
  split <;> simp [h]
@[simp] theorem execPmCtlWrite_keeps (v) : KeepsCanonical s (execPmCtlWrite v s) := by simp [execPmCtlWrite]
@[simp] theorem execIdleEntry_keeps : KeepsCanonical s (execIdleEntry s) := by simp [execIdleEntry]
@[simp] theorem execSensorSample_keeps (die temps currents) : KeepsCanonical s (execSensorSample die temps currents s) := by simp [execSensorSample]

/-! ### Functions -/

@[simp] theorem execVfConfigWrite_keeps (enable num) : KeepsCanonical s (execVfConfigWrite enable num s) :=
  act_keeps (State.onConfig_keeps 0 (s.vfConfig_canonical enable num))
@[simp] theorem execFunctionLevelReset_keeps (fn) : KeepsCanonical s (execFunctionLevelReset fn s) :=
  act_keeps (State.onConfig_keeps _ (s.flr_canonical fn))
@[simp] theorem execUpstreamReadCompletion_keeps (swap ctx ring page result data) :
    KeepsCanonical s (execUpstreamReadCompletion swap ctx ring page result data s) :=
  act_keeps fun h => by simp [h]

/-! ### Downstream ports -/

@[simp] theorem execPortReset_keeps (port) : KeepsCanonical s (execPortReset port s) := by simp [execPortReset]
@[simp] theorem execDownstreamLinkEvent_keeps (port up) : KeepsCanonical s (execDownstreamLinkEvent port up s) := by simp [execDownstreamLinkEvent]
@[simp] theorem execEnumerationDone_keeps (port kind width found vendor serial capacity) :
    KeepsCanonical s (execEnumerationDone port kind width found vendor serial capacity s) := by
  simp [execEnumerationDone]
@[simp] theorem execPchFailed_keeps (pch) : KeepsCanonical s (execPchFailed pch s) := by simp [execPchFailed]
@[simp] theorem execUnitMarkedUnavailable_keeps (kind index) : KeepsCanonical s (execUnitMarkedUnavailable kind index s) := by
  simp [execUnitMarkedUnavailable]

/-! ### Firmware -/

@[simp] theorem execWatchdogExpiry_keeps (n) : KeepsCanonical s (execWatchdogExpiry n s) := by simp [execWatchdogExpiry]
@[simp] theorem execSpRestartWrite_keeps (n v) : KeepsCanonical s (execSpRestartWrite n v s) := by simp [execSpRestartWrite]
@[simp] theorem execWatchdogCountRestart_keeps (n) : KeepsCanonical s (execWatchdogCountRestart n s) := by simp [execWatchdogCountRestart]
@[simp] theorem execHello_keeps (src msg) : KeepsCanonical s (execHello src msg s) := by simp [execHello]
@[simp] theorem execGetInfo_keeps (src msg) : KeepsCanonical s (execGetInfo src msg s) := by simp [execGetInfo]
@[simp] theorem execFwStage_keeps (src msg) : KeepsCanonical s (execFwStage src msg s) := by simp [execFwStage]
@[simp] theorem execFwVerify_keeps (src msg) : KeepsCanonical s (execFwVerify src msg s) := by simp [execFwVerify]
@[simp] theorem execFwActivate_keeps (src msg) : KeepsCanonical s (execFwActivate src msg s) := by simp [execFwActivate]
@[simp] theorem execPortInfo_keeps (src msg) : KeepsCanonical s (execPortInfo src msg s) := by simp [execPortInfo]
@[simp] theorem execTraceSet_keeps (src msg) : KeepsCanonical s (execTraceSet src msg s) := by simp [execTraceSet]
@[simp] theorem execSensors_keeps (src msg) : KeepsCanonical s (execSensors src msg s) := by simp [execSensors]
@[simp] theorem execMailboxTimeout_keeps : KeepsCanonical s (execMailboxTimeout s) := by simp [execMailboxTimeout]
@[simp] theorem execSpReady_keeps (n) : KeepsCanonical s (execSpReady n s) := act_keeps fun h => by
  dsimp only
  refine State.ite_keeps h ?_
  split_ifs <;> simp [h]
@[simp] theorem execMctpControl_keeps (binding msg) : KeepsCanonical s (execMctpControl binding msg s) := by simp [execMctpControl]
@[simp] theorem execPldmRequest_keeps (binding msg) : KeepsCanonical s (execPldmRequest binding msg s) := by simp [execPldmRequest]

/-! ### Resets and starts -/

@[simp] theorem execResetNAssert_keeps : KeepsCanonical s (execResetNAssert s) := next_keeps fun _ => s.outlive_canonical
@[simp] theorem execColdStart_keeps (bifPin clkMode smb i3c keys certs record puf entropy) :
    KeepsCanonical s (execColdStart bifPin clkMode smb i3c keys certs record puf entropy s) := by
  unfold execColdStart
  split
  · exact next_keeps id
  intro t e _
  exact act_keeps (fun _ => by simp) t e s.outlive_canonical
@[simp] theorem execDevReset_keeps (v) : KeepsCanonical s (execDevReset v s) := by simp [execDevReset]
@[simp] theorem execWarmStart_keeps (puf entropy) : KeepsCanonical s (execWarmStart puf entropy s) :=
  act_keeps fun h => by simp [h]
@[simp] theorem execUpstreamLinkDown_keeps (link) : KeepsCanonical s (execUpstreamLinkDown link s) :=
  act_keeps fun h => by simp [h]
@[simp] theorem execPerstNChange_keeps (link asserted) : KeepsCanonical s (execPerstNChange link asserted s) := by
  unfold execPerstNChange
  split
  · exact next_keeps id
  intro t e h
  exact act_keeps (fun h => State.ite_keeps (State.linkDown_canonical _ _ h) h) t e h
@[simp] theorem execConfigurationReady_keeps (link) : KeepsCanonical s (execConfigurationReady link s) := by simp [execConfigurationReady]
@[simp] theorem execHbmTrainingDone_keeps (failed) : KeepsCanonical s (execHbmTrainingDone failed s) := by simp [execHbmTrainingDone]
@[simp] theorem execT0ZeroingDone_keeps : KeepsCanonical s (execT0ZeroingDone s) :=
  act_keeps fun h => State.ite_keeps ((State.startServing_canonical _).mpr rfl) h
@[simp] theorem execImageVerified_keeps (image ok hash version) : KeepsCanonical s (execImageVerified image ok hash version s) := by
  simp [execImageVerified]
@[simp] theorem execBrownOut_keeps : KeepsCanonical s (execBrownOut s) := next_keeps fun h => State.ite_keeps h s.brown_canonical

/-! ### Registers -/

@[simp] theorem State.awlCmd_canonical (v) (h : s.t0Canonical) : (s.awlCmd v).t0Canonical := by
  unfold State.awlCmd
  split
  · exact h
  dsimp only
  split <;> simp [h]
@[simp] theorem State.writeTable_canonical (o v) (h : s.t0Canonical) : (s.writeTable o v).t0Canonical := by
  simp only [State.writeTable]
  (repeat' split) <;> simp [h]
@[simp] theorem State.writeSpine_canonical (o v) (h : s.t0Canonical) : (s.writeSpine o v).t0Canonical := by
  simp only [State.writeSpine]
  (repeat' split) <;> simp [h]
@[simp] theorem State.qpCmd_canonical (bar fn v) (h : s.t0Canonical) : (s.qpCmd bar fn v).t0Canonical := by
  unfold State.qpCmd
  dsimp only
  split <;> simp [h]
@[simp] theorem State.regCmd_canonical (bar fn v) (h : s.t0Canonical) : (s.regCmd bar fn v).t0Canonical := by
  unfold State.regCmd
  split <;> simp [h]
@[simp] theorem State.extCmd_canonical (bar fn v) (h : s.t0Canonical) : (s.extCmd bar fn v).t0Canonical := by
  unfold State.extCmd
  split <;> simp [h]
@[simp] theorem State.writeSet_canonical (bar fn o v) (h : s.t0Canonical) : (s.writeSet bar fn o v).t0Canonical := by simp [State.writeSet, h]
@[simp] theorem State.writeNet_canonical (o w) (h : s.t0Canonical) : (s.writeNet o w).t0Canonical := by simp [State.writeNet, h]
@[simp] theorem State.writeEgLow_canonical (o w) (h : s.t0Canonical) : (s.writeEgLow o w).t0Canonical := by
  simp only [State.writeEgLow]
  (repeat' split) <;> simp [h]
@[simp] theorem State.writeEg_canonical (o w) (h : s.t0Canonical) : (s.writeEg o w).t0Canonical := by simp [State.writeEg, h]
@[simp] theorem State.writeBar0_canonical (off v) (h : s.t0Canonical) : (s.writeBar0 off v).t0Canonical := by
  unfold State.writeBar0
  dsimp only
  split
  case h_12 => split <;> simp [h]
  all_goals simp [h]
@[simp] theorem State.writeBar2_canonical (f off v) (h : s.t0Canonical) : (s.writeBar2 f off v).t0Canonical := by simp [State.writeBar2, h]
theorem writeWords_canonical {one : State → Nat → BitVec 64 → State} (one_keeps : ∀ t o v, t.t0Canonical → (one t o v).t0Canonical) (k off v) {t : State}
    (h : t.t0Canonical) : (writeWords one k off v t).t0Canonical := by
  induction k generalizing off v t with
  | zero => exact h
  | succ k ih => exact ih _ _ (one_keeps _ _ _ h)
@[simp] theorem execRegisterWrite_keeps (bar fn offset v bytes) : KeepsCanonical s (execRegisterWrite bar fn offset v bytes s) := act_keeps fun h => by
  have bar0 (k off v) : (writeWords State.writeBar0 k off v s).t0Canonical := writeWords_canonical (fun t o v ht => t.writeBar0_canonical o v ht) k off v h
  have bar2 (k off v) : (writeWords (fun s => s.writeBar2 fn) k off v s).t0Canonical :=
    writeWords_canonical (fun t o v ht => t.writeBar2_canonical fn o v ht) k off v h
  have config (l off v bytes) : (s.onConfig l fun s => s.writeCfg fn off v bytes).t0Canonical :=
    State.onConfig_keeps l (s.writeCfg_canonical fn off v bytes) h
  simp [bar0, bar2, config, h]
@[simp] theorem execBufferWindowAccess_keeps (fn offset write data) : KeepsCanonical s (execBufferWindowAccess fn offset write data s) :=
  act_keeps fun h => by
  dsimp only
  refine State.ite_keeps h ?_
  split
  · split <;> simp [h]
  split
  · split <;> simp [h]
  · split <;> simp [h]

end

/-! ### Every command -/

/-- A command of the families control and context whose row does not list T0 leaves T0 as it was (O8). -/
theorem exec_keeps_of_framed {i : Instr} (s : State) (family : i.family ∈ ([.control, .context] : List Family)) (untouched : .t0 ∉ i.touches) :
    KeepsCanonical s (exec i s) := fun t e =>
  ((frameControlAndContexts i s t family e).1.canonical untouched).mpr
/-- Every command keeps the canonical form: by its frame, or by its own lemma above. -/
theorem exec_keeps (i : Instr) (s : State) : KeepsCanonical s (exec i s) := by
  by_cases framed : i.family ∈ ([.control, .context] : List Family) ∧ .t0 ∉ i.touches
  · obtain ⟨family, untouched⟩ := framed
    exact exec_keeps_of_framed s family untouched
  · cases i <;> simp [exec, Instr.family, Instr.touches] at framed ⊢
theorem State.idle_canonical (s : State) : s.idle.t0Canonical ↔ s.t0Canonical := by
  simp [State.idle]

/-- Settles O7: the command at the front keeps the form of the state without it, whose T0 is the same; an idle cycle does not touch T0. -/
theorem t0StaysCanonical : Obligations.T0StaysCanonical := by
  intro s t hs e
  unfold step at e
  split at e
  · cases e
    exact s.idle_canonical.mpr hs
  · exact exec_keeps _ _ t e hs

end Sys2Proof.Machine
end

section
-- One proof after another: so many at once would not fit beside the model in memory.
set_option Elab.async false
/-! Device counters; moves, pages and auxiliary records as a move ends. -/
namespace Sys2Proof.Machine
open Sys2Proof

/-! ## Device counters (13 R421, R422) -/

/-- Adding to a counter changes no other device counter. -/
theorem State.addCount_device_ne (s : State) (fn : Option Nat) (j n : Nat) {i : Nat} (h : ¬ (fn = none ∧ j = i)) :
    (s.addCount fn j n).1.err.cnt.get i 0 = s.err.cnt.get i 0 := by
  cases fn with
  | none => exact Tbl.get_set_ne _ _ _ fun e => h ⟨rfl, e.symm⟩
  | some f => rfl
/-- The sum of a device counter, which saturates. -/
theorem State.addCount_device_same (s : State) (i n : Nat) : (s.addCount none i n).1.err.cnt.get i 0 = min (s.err.cnt.get i 0 + n) cntMax :=
  Tbl.get_set_same _ _ _ _
/-- Writing a record changes no counter. -/
theorem State.putRecord_cnt (s : State) (r : ErrRec) : (s.putRecord r).1.err.cnt = s.err.cnt := by
  have copied (t : State) (q : ErrRec) : (t.copyRecord q).err = t.err := OnlyChanges.copyRecord t q .err (by decide)
  have marked (t : State) : (t.aerMark r).err.cnt = t.err.cnt := by
    unfold State.aerMark
    split_ifs <;> rfl
  unfold State.putRecord
  dsimp only
  generalize (if r.cls = 3 then 1024 else 1008) = limit
  split
  · rfl
  · exact (marked _).trans ((congrArg Err.cnt (copied _ _)).trans rfl)

/-- Of the device counters only that of lost records (10) follows from other events. -/
theorem emitEv_device (k : Nat) (e : Ev) (s : State) {i : Nat} (hi : i ≠ 10) (he : ∀ n, e ≠ .count none i n) :
    (emitEv k e s).err.cnt.get i 0 = s.err.cnt.get i 0 := by
  induction k generalizing e s with
  | zero => cases e <;> rfl
  | succ k ih =>
    have count (f j n : Nat) (s : State) := ih (.count (some f) j n) s (fun m h => nomatch h)
    have record (r : ErrRec) (s : State) := ih (.record r) s (fun n h => nomatch h)
    have irq (f j share : Nat) (u : Bool) (s : State) := ih (.irq f j share u) s (fun n h => nomatch h)
    have sent (f j : Nat) (s : State) : (s.sendMsix f j).1.err = s.err := OnlyChanges.sendMsix s f j .err (by decide)
    cases e with
    | count fn j n =>
      have h := s.addCount_device_ne fn j n (i := i) fun k => he n (by rw [k.1, k.2])
      unfold emitEv
      dsimp only
      split_ifs
      · rw [record, h]
      · rw [irq, record, h]
      · exact h
    | record r =>
      have h := congrArg (Tbl.get · i 0) (s.putRecord_cnt r)
      unfold emitEv
      dsimp only
      split
      · cases r.fn with
        | none => exact h
        | some f =>
          dsimp only
          split_ifs
          · exact (irq _ _ _ _ _).trans ((count _ _ _ _).trans h)
          · exact (irq _ _ _ _ _).trans h
      · refine (ih (.count none 10 1) _ fun n k => hi ?_).trans h
        cases k; rfl
    | irq f j share u =>
      unfold emitEv
      dsimp only
      split_ifs
      · exact count f 26 1 s
      · rw [count, sent]
      · rw [sent]
      · rfl

/-- Adding to a device counter that no other event touches. -/
theorem State.countDev_device (s : State) (i n : Nat) (hn : n ≠ 0) (hi : i ≠ 10) :
    (s.countDev i n).err.cnt.get i 0 = min (s.err.cnt.get i 0 + n) cntMax := by
  have record (r : ErrRec) (s : State) := emitEv_device 7 (.record r) s hi fun n h => nomatch h
  have irq (f j share : Nat) (u : Bool) (s : State) := emitEv_device 7 (.irq f j share u) s hi fun n h => nomatch h
  rw [State.countDev, if_neg hn, ← s.addCount_device_same i n]
  unfold emitEv
  dsimp only
  split_ifs
  · exact record _ _
  · exact (irq _ _ _ _ _).trans (record _ _)
  · rfl
theorem State.report_device (s : State) (r : ErrRec) {i : Nat} (hi : i ≠ 10) : (s.report r).err.cnt.get i 0 = s.err.cnt.get i 0 :=
  emitEv_device 8 (.record r) s hi fun _ h => nomatch h

/-! ## Moves -/

theorem moveOf_congr {s t : State} (h : t.tier.moves = s.tier.moves) (p : Nat) : t.moveOf p = s.moveOf p := by rw [State.moveOf, h]; rfl
theorem OnlyChanges.moveOf {l : List Part} {s t : State} (h : OnlyChanges l s t) (p : Nat) (k : .tier ∉ l := by decide) : t.moveOf p = s.moveOf p :=
  moveOf_congr (congrArg Tier.moves (h .tier k)) p
theorem OnlyChanges.page {l : List Part} {s t : State} (h : OnlyChanges l s t) (p : Nat) (k : .ps ∉ l := by decide) : t.page p = s.page p :=
  page_congr (congrArg Ps.pages (h .ps k)) p
theorem auxRec_congr {s t : State} (h : t.ps.aux = s.ps.aux) (i : Nat) : t.auxRec i = s.auxRec i := by rw [State.auxRec, h]; rfl
@[simp] theorem State.framed_moveOf (t s : State) (p : Nat) : (t.framed s).moveOf p = t.moveOf p := rfl
@[simp] theorem State.framed_page (t s : State) (p : Nat) : (t.framed s).page p = t.page p := rfl
@[simp] theorem State.framed_auxRec (t s : State) (i : Nat) : (t.framed s).auxRec i = t.auxRec i := rfl
@[simp] theorem State.framed_port (t s : State) (i : Nat) : (t.framed s).port i = t.port i := rfl

/-- The move that a page has names the page. -/
theorem State.moveOf_page {s : State} {p : Nat} {m : Move} (h : s.moveOf p = some m) : m.page = p :=
  eq_of_beq (List.find?_some (p := fun m : Move => m.page == p) h)

/-- A change of the moves of a page, which stay the page's. -/
theorem State.updMove_moveOf (s : State) (p q : Nat) {g : Move → Move} (hg : ∀ m, (g m).page = m.page := by intro m; rfl) :
    (s.updMove p g).moveOf q = (s.moveOf q).map fun m => if m.page = p then g m else m := by
  have same : ((fun m : Move => m.page == q) ∘ fun m => if m.page = p then g m else m) = fun m => m.page == q := by
    funext m
    simp only [Function.comp]
    split_ifs
    · rw [hg]
    · rfl
  simp only [State.moveOf, State.updMove, List.find?_map, same]

/-- A move's credit is taken, or it waits for one: each page keeps its move. -/
theorem State.moveCredit_moveOf (s : State) (m : Move) {p : Nat} {x : Move} (h : s.moveOf p = some x) :
    ∃ c, (s.moveCredit m).1.moveOf p = some { x with credit := c } := by
  unfold State.moveCredit
  dsimp only
  split_ifs
  · exact ⟨x.credit, h⟩
  · rw [State.updMove_moveOf, (OnlyChanges.takeCredits s _ 1).moveOf p, h]
    by_cases hp : x.page = m.page
    · exact ⟨m.kind.pool + 1, congrArg some (if_pos hp)⟩
    · exact ⟨x.credit, congrArg some (if_neg hp)⟩
  · exact ⟨x.credit, h⟩
theorem State.askCredit_moveOf (s : State) (q : Nat) {p : Nat} {x : Move} (h : s.moveOf p = some x) :
    ∃ c, (s.askCredit q).moveOf p = some { x with credit := c } := by
  unfold State.askCredit
  split
  · split_ifs
    · exact ⟨x.credit, h⟩
    · exact s.moveCredit_moveOf _ h
  · exact ⟨x.credit, h⟩
/-- A page without a move has the one that is asked for. -/
theorem State.askMove_moveOf {s : State} {p : Nat} (h : s.moveOf p = none) (k : MoveKind) (c pos g : Nat) :
    ∃ m, (s.askMove k p c pos g).moveOf p = some m ∧ m.kind = k ∧ m.started = false := by
  unfold State.askMove
  rw [h]
  extract_lets m _ t
  have ht : t.moveOf p = some m := by
    refine (List.find?_append ..).trans ?_
    rw [show s.tier.moves.find? (fun m => m.page == p) = none from h]
    simp [m]
  obtain ⟨cr, hc⟩ := t.askCredit_moveOf p ht
  exact ⟨_, hc, rfl, rfl⟩

/-! ## The end of a move -/

/-- The moves that a move leaves when it ends: those of other pages. -/
theorem State.endMove_moves (s : State) (m : Move) : (s.endMove m).tier.moves = s.tier.moves.filter fun x => x.page != m.page := by
  have credits : (if m.started ∧ portCredits m.tier (s.page m.page).sheets ≠ 0 then
      s.freeCredits (12 + m.port) (portCredits m.tier (s.page m.page).sheets) else s).tier = s.tier := by split_ifs <;> rfl
  unfold State.endMove
  extract_lets n s1 s2 s3 s4
  have h1 : s1.tier = s.tier := credits
  have h2 : s2.tier = s.tier := by
    unfold s2
    split_ifs
    · exact h1
    · exact h1
  have h4 : s4.tier = s.tier := by
    unfold s4 s3
    split
    · exact h2
    · exact h2
  show s4.tier.moves.filter _ = _
  rw [h4]
/-- A move that has ended is its page's no more. -/
theorem State.endMove_moveOf (s : State) (m : Move) : (s.endMove m).moveOf m.page = none := by
  rw [State.moveOf, s.endMove_moves m]
  exact List.find?_eq_none.mpr fun x hx => by simpa using (List.mem_filter.mp hx).2
/-- The end of a move writes only MOVING into the page's descriptor. -/
theorem State.endMove_pages (s : State) (m : Move) : ∃ u : State, u.ps.pages = s.ps.pages ∧ u.ps.aux = s.ps.aux ∧
    (s.endMove m).ps = (u.updPage m.page fun g => { g with moving := false }).ps := by
  unfold State.endMove
  extract_lets n s1 s2 s3 s4
  have h1 : s1.ps = s.ps := by unfold s1; split_ifs <;> rfl
  have h2 : s2.ps = s.ps := by unfold s2; split_ifs <;> exact h1
  have h3 : s3.ps.pages = s2.ps.pages ∧ s3.ps.aux = s2.ps.aux := by
    unfold s3
    split <;> exact ⟨rfl, rfl⟩
  exact ⟨s3, h2 ▸ h3.1, h2 ▸ h3.2, rfl⟩
theorem State.endMove_page (s : State) (m : Move) (q : Nat) : ∃ b, (s.endMove m).page q = { s.page q with moving := b } := by
  obtain ⟨u, hp, -, e⟩ := s.endMove_pages m
  rw [page_congr (congrArg Ps.pages e)]
  by_cases hq : q = m.page
  · subst hq
    by_cases lost : u.granuleLost (u.descAddr m.page) = true
    · exact ⟨(s.page m.page).moving, by rw [u.updPage_lost m.page _ lost, page_congr hp]⟩
    · exact ⟨false, by rw [u.updPage_page m.page _ (Bool.eq_false_iff.mpr lost), page_congr hp]⟩
  · exact ⟨(s.page q).moving, by rw [u.updPage_page_ne _ hq, page_congr hp]⟩
theorem State.endMove_auxRec (s : State) (m : Move) (i : Nat) : (s.endMove m).auxRec i = s.auxRec i := by
  obtain ⟨u, -, ha, e⟩ := s.endMove_pages m
  exact (auxRec_congr (congrArg Ps.aux e) i).trans (auxRec_congr ha i)
end Sys2Proof.Machine
end

section
-- One proof after another: so many at once would not fit beside the model in memory.
set_option Elab.async false
/-! The ends of outward moves and the reclaim pass (05 R161, R165, R166, R181). -/
namespace Sys2Proof.Machine
open Sys2Proof

/-! ## Copies -/

/-- The home tier of a page that is in T0 is that of its auxiliary record. -/
theorem State.homeTier_here {s : State} {p : Nat} (ht : (s.page p).tier = 0) (ha : (s.page p).aux ≠ 0) :
    s.homeTier p = (s.auxRec (s.page p).aux).homeTier := by
  rw [State.homeTier, if_neg (not_not_intro ht), if_neg ha]
/-- A T0 copy that has a home copy is dropped: the descriptor names the home copy. -/
theorem State.dropCopy_page {s : State} (hd : s.dev.pchDown = []) {p : Nat} (ht : (s.page p).tier = 0) (ha : (s.page p).aux ≠ 0)
    (hh : (s.auxRec (s.page p).aux).homeTier ≠ 0) : (s.dropCopy p).page p =
      { s.page p with tier := (s.auxRec (s.page p).aux).homeTier, location := (s.auxRec (s.page p).aux).homeLoc } := by
  rw [State.dropCopy, if_pos ⟨ht, ha, hh⟩]
  exact s.updPage_page p _ (s.granuleLost_none _ hd)
/-- A drop changes the tier and the location of its page at most. -/
theorem State.dropCopy_frame (s : State) (p q : Nat) : ∃ t l, (s.dropCopy p).page q = { s.page q with tier := t, location := l } := by
  unfold State.dropCopy
  dsimp only
  split
  · by_cases h : q = p
    · subst h
      by_cases lost : s.granuleLost (s.descAddr q) = true
      · rw [s.updPage_lost q _ lost]; exact ⟨_, _, rfl⟩
      · exact ⟨_, _, s.updPage_page q _ (Bool.eq_false_iff.mpr lost)⟩
    · exact ⟨_, _, s.updPage_page_ne _ h⟩
  · exact ⟨_, _, rfl⟩
theorem State.dropCopy_page_ne (s : State) {p q : Nat} (h : q ≠ p) : (s.dropCopy p).page q = s.page q := by
  unfold State.dropCopy
  dsimp only
  split
  · exact s.updPage_page_ne _ h
  · rfl
theorem State.dropCopy_auxRec (s : State) (p i : Nat) : (s.dropCopy p).auxRec i = s.auxRec i := by
  unfold State.dropCopy
  dsimp only
  split <;> rfl
theorem State.dropCold_auxRec (s : State) (p i : Nat) : (s.dropCold p).auxRec i = s.auxRec i := by
  unfold State.dropCold
  split
  · exact s.dropCopy_auxRec p i
  · rfl

/-! ## Outward moves that have been written -/

/-- The home copy of a page recorded as its outward move ends. -/
def State.homed (s : State) (m : Move) : State :=
  (s.endMove m).updAux (s.page m.page).aux fun a => { a with homeTier := m.tier, homeLoc := m.loc }
/-- What becomes of the T0 copy once the home copy is recorded, by what the page and its move were. -/
def State.copyAfter (t : State) (g : Page) (m : Move) : State :=
  if g.state = .retiring then t
  else if g.cls = 0 then t.retireHome m.page
  else if m.kind ≠ .placement ∧ m.keep = false then t.dropCopy m.page
  else t.dropCold m.page

theorem exec_outwardMoveDone {s : State} (hs : s.stopped = false) (hd : s.dev.pchDown = []) {page : Nat} {m : Move} (hm : s.moveOf page = some m)
    (hst : m.started = true) (hi : m.kind.inward = false) (hab : m.abandoned = false) :
    exec (.outwardMoveDone page) s = .next ((((s.homed m).copyAfter (s.page page) m).demoteEnded page true).framed s) := by
  obtain rfl := s.moveOf_page hm
  rw [show exec (.outwardMoveDone m.page) s = execOutwardMoveDone m.page s from rfl, execOutwardMoveDone, act_running hs]
  simp only [hm, hst, hi, hab, s.granuleLost_none _ hd, Bool.not_false, Bool.and_self, if_true, Bool.false_eq_true, if_false]
  rfl

theorem OnlyChanges.copyAfter (t : State) (g : Page) (m : Move) : OnlyChanges [.ps] t (t.copyAfter g m) :=
  .ite (fun _ => .refl _ t) fun _ => .ite (fun _ => .retireHome t _) fun _ => .ite (fun _ => .dropCopy t _) fun _ => .dropCold t _
theorem OnlyChanges.homed (s : State) (m : Move) : OnlyChanges pageParts s (s.homed m) := (OnlyChanges.updAux _ _ _).seq (OnlyChanges.endMove s m)
theorem State.homed_moveOf (s : State) (m : Move) : (s.homed m).moveOf m.page = none := s.endMove_moveOf m
theorem State.homed_page (s : State) (m : Move) (q : Nat) : ∃ b, (s.homed m).page q = { s.page q with moving := b } := s.endMove_page m q
theorem State.homed_auxRec {s : State} (hd : s.dev.pchDown = []) (m : Move) : (s.homed m).auxRec (s.page m.page).aux =
    { s.auxRec (s.page m.page).aux with homeTier := m.tier, homeLoc := m.loc } := by
  have down : (s.endMove m).dev.pchDown = [] := pchDown_kept (OnlyChanges.endMove s m) hd
  rw [State.homed, State.updAux_auxRec _ _ _ ((s.endMove m).granuleLost_none _ down), s.endMove_auxRec]
/-- Unless the page is T0-pinned its home copy stays as it was recorded. -/
theorem State.copyAfter_auxRec (t : State) {g : Page} (hc : g.cls ≠ 0) (m : Move) (i : Nat) : (t.copyAfter g m).auxRec i = t.auxRec i := by
  unfold State.copyAfter
  rw [if_neg hc]
  split_ifs
  · rfl
  · exact t.dropCopy_auxRec _ i
  · exact t.dropCold_auxRec _ i

/-- The end of an outward move: its home copy is recorded, and a spill or demotion not asked back leaves the page at its home. -/
theorem outward_done {s : State} (hs : s.stopped = false) (hd : s.dev.pchDown = []) {page : Nat} {m : Move} (hm : s.moveOf page = some m)
    (hst : m.started = true) (hi : m.kind.inward = false) (hab : m.abandoned = false) :
    ∃ t, exec (.outwardMoveDone page) s = .next t ∧ t.moveOf page = none ∧
      ((s.page page).cls ≠ 0 → (s.page page).aux ≠ 0 →
        (t.auxRec (s.page page).aux).homeTier = m.tier ∧ (t.auxRec (s.page page).aux).homeLoc = m.loc ∧
        ((s.page page).state ≠ .retiring → m.kind ≠ .placement → m.keep = false → (s.page page).tier = 0 → m.tier ≠ 0 →
          (t.page page).tier = m.tier ∧ (t.page page).location = m.loc)) := by
  refine ⟨_, exec_outwardMoveDone hs hd hm hst hi hab, ?_, fun hc ha => ?_⟩
  all_goals obtain rfl := s.moveOf_page hm
  · exact ((OnlyChanges.copyAfter (s.homed m) _ m).moveOf _).trans (s.homed_moveOf m)
  · have home := s.homed_auxRec hd m
    have kept : (((s.homed m).copyAfter (s.page m.page) m).demoteEnded m.page true).auxRec (s.page m.page).aux = _ :=
      ((s.homed m).copyAfter_auxRec hc m _).trans home
    rw [State.framed_auxRec, State.framed_page, kept]
    refine ⟨rfl, rfl, fun hr hk hkeep ht htier => ?_⟩
    obtain ⟨b, hp⟩ := s.homed_page m m.page
    have down : (s.homed m).dev.pchDown = [] := pchDown_kept (OnlyChanges.homed s m) hd
    have dropped : (s.homed m).copyAfter (s.page m.page) m = (s.homed m).dropCopy m.page := by
      rw [State.copyAfter, if_neg hr, if_neg hc, if_pos ⟨hk, hkeep⟩]
    have aux : ((s.homed m).page m.page).aux = (s.page m.page).aux := by rw [hp]
    have at_home := State.dropCopy_page down (p := m.page) (by rw [hp]; exact ht) (by rw [aux]; exact ha) (by rw [aux, home]; exact htier)
    rw [dropped, show (((s.homed m).dropCopy m.page).demoteEnded m.page true).page m.page = ((s.homed m).dropCopy m.page).page m.page from rfl,
      at_home, aux, home]
    exact ⟨rfl, rfl⟩

/-! ## Outward writes that have failed -/

/-- A write that was no placement of a page whose class has come to ask for one (05 R159). -/
def asksPlacement (g : Page) (m : Move) : Prop := m.kind ≠ .placement ∧ 2 ≤ g.cls ∧ g.state = .sealed ∧ g.tier = 0 ∧ g.poison = false

/-- The move of a failed write is over, its run is free, its port marked. -/
def State.unwritten (s : State) (m : Move) : State :=
  let t := (s.endMove m).freeHome m.tier m.loc (s.page m.page).sheets
  if m.tier = 3 then t else t.updPort m.port fun u => { u with writeErr := true }
/-- The failure counted and recorded. -/
def State.writeFailed (s : State) (m : Move) : State :=
  ((s.unwritten m).countDev 14 1).report { cls := 2, source := 5, code := 0x11, object := m.page, detail := m.port }
theorem State.failOutward_eq (s : State) (m : Move) : s.failOutward m = ((s.writeFailed m).placeInstead m).demoteEnded m.page false := rfl

theorem State.freeHome_moves (s : State) (tier loc n : Nat) : (s.freeHome tier loc n).tier.moves = s.tier.moves := by
  unfold State.freeHome
  dsimp only
  split_ifs <;> rfl
theorem OnlyChanges.unwritten (s : State) (m : Move) : OnlyChanges [.tier, .out] (s.endMove m) (s.unwritten m) :=
  .trans (OnlyChanges.freeHome _ _ _ _) (.ite (fun _ => .refl _ _) fun _ => (OnlyChanges.updPort _ _ _).mono)
theorem State.unwritten_moveOf (s : State) (m : Move) : (s.unwritten m).moveOf m.page = none := by
  refine (moveOf_congr (t := s.unwritten m) (s := s.endMove m) ?_ _).trans (s.endMove_moveOf m)
  refine Eq.trans ?_ ((s.endMove m).freeHome_moves m.tier m.loc (s.page m.page).sheets)
  unfold State.unwritten
  dsimp only
  split_ifs <;> rfl
theorem State.unwritten_port (s : State) {m : Move} (h : m.tier ≠ 3) : ((s.unwritten m).port m.port).writeErr = true := by
  rw [State.unwritten, if_neg h]
  simp
/-- A failed write leaves the moves, ports and pages of the state in which its move is over. -/
theorem OnlyChanges.writeFailed (s : State) (m : Move) : OnlyChanges evParts (s.unwritten m) (s.writeFailed m) :=
  .trans (OnlyChanges.countDev _ _ _) (OnlyChanges.report _ _)
theorem State.writeFailed_page (s : State) (m : Move) (q : Nat) : ∃ b, (s.writeFailed m).page q = { s.page q with moving := b } := by
  rw [(OnlyChanges.writeFailed s m).page, (OnlyChanges.unwritten s m).page]
  exact s.endMove_page m q
theorem State.writeFailed_count (s : State) (m : Move) : (s.writeFailed m).err.cnt.get 14 0 = min (s.err.cnt.get 14 0 + 1) 0xFFFFFFFFFFFFFFFF := by
  have before : (s.unwritten m).err = s.err :=
    (OnlyChanges.unwritten s m .err (by decide)).trans (OnlyChanges.endMove s m .err (by decide))
  rw [State.writeFailed, State.report_device _ _ (by decide), State.countDev_device _ _ _ (by decide) (by decide), before]

theorem State.placeInstead_asks {s : State} {m : Move} {g : Page} (hg : ∃ b, s.page m.page = { g with moving := b }) (h : asksPlacement g m) :
    s.placeInstead m = s.askMove .placement m.page m.ctx 0 0 := by
  obtain ⟨b, hb⟩ := hg
  rw [State.placeInstead, hb]
  exact if_pos h
theorem State.placeInstead_not {s : State} {m : Move} {g : Page} (hg : ∃ b, s.page m.page = { g with moving := b }) (h : ¬ asksPlacement g m) :
    s.placeInstead m = s := by
  obtain ⟨b, hb⟩ := hg
  rw [State.placeInstead, hb]
  exact if_neg h
theorem OnlyChanges.placeInstead (s : State) (m : Move) : OnlyChanges [.pools, .tier] s (s.placeInstead m) :=
  .ite (fun _ => .askMove s _ _ _ _ _) fun _ => .refl _ s

theorem State.askCredit_ports (s : State) (p : Nat) : (s.askCredit p).tier.ports = s.tier.ports := by
  unfold State.askCredit
  split
  · unfold State.moveCredit
    dsimp only
    split_ifs <;> rfl
  · rfl
theorem State.placeInstead_ports {s : State} {m : Move} (h : s.moveOf m.page = none) : (s.placeInstead m).tier.ports = s.tier.ports := by
  unfold State.placeInstead
  dsimp only
  split
  · unfold State.askMove
    rw [h]
    exact State.askCredit_ports _ _
  · rfl

/-- What a failed outward write leaves (05 R159, R166). -/
theorem failOutward_leaves (s : State) (m : Move) :
    let g := s.page m.page
    let t := s.failOutward m
    (¬ asksPlacement g m → t.moveOf m.page = none) ∧ (asksPlacement g m → ∃ m', t.moveOf m.page = some m' ∧ m'.kind = .placement ∧ m'.started = false) ∧
      (t.page m.page).tier = g.tier ∧ (t.page m.page).location = g.location ∧ (m.tier ≠ 3 → (t.port m.port).writeErr = true) ∧
      t.err.cnt.get 14 0 = min (s.err.cnt.get 14 0 + 1) 0xFFFFFFFFFFFFFFFF := by
  extract_lets g t
  have ended : (s.writeFailed m).moveOf m.page = none := ((OnlyChanges.writeFailed s m).moveOf _).trans (s.unwritten_moveOf m)
  have placed := OnlyChanges.placeInstead (s.writeFailed m) m
  obtain ⟨b, hb⟩ := s.writeFailed_page m m.page
  have page_t : t.page m.page = { g with moving := b } := (placed.page m.page).trans hb
  refine ⟨fun h => ?_, fun h => ?_, by rw [page_t], by rw [page_t], fun h => ?_, ?_⟩
  · exact (congrArg (State.moveOf · m.page) (State.placeInstead_not ⟨b, hb⟩ h)).trans ended
  · obtain ⟨m', hm, hk, hs⟩ := State.askMove_moveOf ended .placement m.ctx 0 0
    exact ⟨m', (congrArg (State.moveOf · m.page) (State.placeInstead_asks ⟨b, hb⟩ h)).trans hm, hk, hs⟩
  · have ports : t.tier.ports = (s.unwritten m).tier.ports :=
      (State.placeInstead_ports ended).trans (congrArg Tier.ports (OnlyChanges.writeFailed s m .tier (by decide)))
    rw [show t.port m.port = (s.unwritten m).port m.port by rw [State.port, ports]; rfl]
    exact s.unwritten_port h
  · have err : t.err = (s.writeFailed m).err := placed .err (by decide)
    rw [err]
    exact s.writeFailed_count m

theorem exec_outwardWriteFail {s : State} (hs : s.stopped = false) {page : Nat} {m : Move} (hm : s.moveOf page = some m)
    (hst : m.started = true) (hi : m.kind.inward = false) : exec (.outwardWriteFail page) s = .next ((s.failOutward m).framed s) := by
  rw [show exec (.outwardWriteFail page) s = execOutwardWriteFail page s from rfl, execOutwardWriteFail, act_running hs]
  simp [hm, hst, hi]
theorem exec_tierWriteTimeout {s : State} (hs : s.stopped = false) {page : Nat} {m : Move} (hm : s.moveOf page = some m)
    (hst : m.started = true) (hi : m.kind.inward = false) (ht : m.tier = 2) : exec (.tierWriteTimeout page) s =
      .next ((if m.since + s.tier.t2us * 1050 ≤ s.now then s.failOutward m else s).framed s) := by
  rw [show exec (.tierWriteTimeout page) s = execTierWriteTimeout page s from rfl, execTierWriteTimeout, act_running hs]
  simp [hm, hst, hi, ht, State.tierTimeout]

/-! ## The reclaim pass (05 R161) -/

/-- The step of a pass that goes on: a copy is dropped, or a page or a victim sequence is asked to spill, or the pass ends. -/
def State.passStep (s : State) : State :=
  match s.nextDrop with
  | some p => s.dropCopy p
  | none =>
    if !s.tier.spillEn then s.setPassing false
    else if s.small then s.preempt
    else
      match s.nextSpill with
      | some p => s.askMove .spill p (s.page p).origin.ctx 0 0
      | none => s.setPassing false

theorem exec_reclaimPass {s : State} (hs : s.stopped = false) : exec .reclaimPass s = .next ((if s.passDone then s.setPassing false
    else if !s.tier.passing && decide (s.tier.low ≤ s.freeSheets) then s else (s.setPassing true).passStep).framed s) := by
  rw [show exec .reclaimPass s = execReclaimPass s from rfl, execReclaimPass, act_running hs]
  rfl

theorem State.passStep_drops {s : State} {p : Nat} (h : s.nextDrop = some p) : s.passStep = s.dropCopy p := by rw [State.passStep, h]
/-- Without a copy to drop, the next page that a port can take is asked to spill. -/
theorem State.passStep_spills {s : State} (h : s.nextDrop = none) (he : s.tier.spillEn = true) (hs : s.small = false) {p : Nat} (hp : s.nextSpill = some p) :
    s.passStep = s.askMove .spill p (s.page p).origin.ctx 0 0 := by
  rw [State.passStep, h]
  simp [he, hs, hp]

/-- A sorted list has the elements of the list. -/
theorem mem_insertBy {α : Type} (lt : α → α → Bool) (x a : α) (l : List α) : a ∈ insertBy lt x l ↔ a = x ∨ a ∈ l := by
  induction l with
  | nil => simp [insertBy]
  | cons y r ih =>
    unfold insertBy
    split_ifs
    · simp
    · simp only [List.mem_cons, ih]; tauto
theorem mem_sortBy {α : Type} (lt : α → α → Bool) (a : α) (l : List α) : a ∈ sortBy lt l ↔ a ∈ l := by
  unfold sortBy
  induction l with
  | nil => exact Iff.rfl
  | cons x r ih => rw [List.foldr_cons, mem_insertBy, ih, List.mem_cons]

theorem State.nextDrop_canDrop {s : State} {p : Nat} (h : s.nextDrop = some p) : s.canDrop p = true := by
  obtain ⟨q, hq, rfl⟩ := List.mem_map.mp ((mem_sortBy _ _ _).mp (List.mem_of_mem_head? h))
  exact (List.mem_filter.mp hq).2
/-- A copy that may be dropped is in T0 and has a home copy. -/
theorem State.canDrop_home {s : State} {p : Nat} (h : s.canDrop p = true) :
    (s.page p).tier = 0 ∧ (s.page p).aux ≠ 0 ∧ (s.auxRec (s.page p).aux).homeTier ≠ 0 := by
  simp only [State.canDrop, Bool.and_eq_true, beq_iff_eq, bne_iff_ne] at h
  obtain ⟨⟨⟨⟨⟨⟨⟨-, ht⟩, -⟩, -⟩, -⟩, hh⟩, -⟩, -⟩ := h
  have ha : (s.page p).aux ≠ 0 := fun e => hh (by rw [State.homeTier, if_neg (not_not_intro ht), if_pos e])
  exact ⟨ht, ha, s.homeTier_here ht ha ▸ hh⟩

/-- The pages stay. -/
theorem OnlyChanges.spillVictim (s : State) (t : Tbl Nat) (ps : List Nat) : OnlyChanges [.pools, .tier] s (s.spillVictim t ps).1 := by
  induction ps generalizing s t with
  | nil => exact .refl _ s
  | cons p r ih =>
    unfold State.spillVictim
    split
    · exact .refl _ s
    · exact (ih _ _).trans' (OnlyChanges.askMove s _ _ _ _ _)
theorem OnlyChanges.setPassing (s : State) (b : Bool) : OnlyChanges [.tier] s (s.setPassing b) := .setTier s _
theorem State.preempt_page (s : State) (p : Nat) : s.preempt.page p = s.page p := by
  unfold State.preempt
  split
  · rfl
  · next q _ =>
    extract_lets ps
    have h := (OnlyChanges.spillVictim s s.swapAhead ps).page p
    generalize s.spillVictim s.swapAhead ps = r at h ⊢
    dsimp only
    split_ifs <;> exact h
/-- A step of a pass changes a page only by dropping the copy that comes first. -/
theorem State.passStep_page (s : State) (p : Nat) : s.passStep.page p = s.page p ∨ s.nextDrop = some p ∧ s.passStep = s.dropCopy p := by
  cases h : s.nextDrop with
  | some q =>
    rw [s.passStep_drops h]
    by_cases hq : p = q
    · exact .inr ⟨by rw [hq], by rw [hq]⟩
    · exact .inl (s.dropCopy_page_ne hq)
  | none =>
    refine .inl ?_
    rw [State.passStep, h]
    dsimp only
    split_ifs
    · rfl
    · exact s.preempt_page p
    · split
      · exact (OnlyChanges.askMove s _ _ _ _ _).page p
      · rfl

/-- What the step of a pass that goes on does. -/
theorem passStep_does (s : State) :
    (∀ p, (s.passStep.page p).state = (s.page p).state) ∧ (∀ p, (s.passStep.page p).tier ≠ (s.page p).tier → s.canDrop p = true) ∧
      (s.dev.pchDown = [] → ∀ p, s.nextDrop = some p → (s.passStep.page p).tier = s.homeTier p) ∧
      (s.nextDrop = none → s.tier.spillEn = true → s.small = false → ∀ p, s.nextSpill = some p → (s.passStep.moveOf p).isSome = true) := by
  refine ⟨fun p => ?_, fun p hp => ?_, fun hd p hp => ?_, fun hn he hs p hp => ?_⟩
  · rcases s.passStep_page p with h | ⟨-, h⟩
    · rw [h]
    · obtain ⟨t, l, e⟩ := s.dropCopy_frame p p
      rw [h, e]
  · rcases s.passStep_page p with h | ⟨h, -⟩
    · exact absurd (congrArg Page.tier h) hp
    · exact s.nextDrop_canDrop h
  · obtain ⟨ht, ha, hh⟩ := s.canDrop_home (s.nextDrop_canDrop hp)
    rw [s.passStep_drops hp, State.dropCopy_page hd ht ha hh, s.homeTier_here ht ha]
  · rw [s.passStep_spills hn he hs hp, State.moveOf_isSome, State.askMove_movePages]
    split_ifs with h
    · exact h
    · exact List.mem_append_right _ (List.mem_singleton_self p)

/-- Settles O45: an outward move's end, its failure and the pass by the lemma of each. -/
theorem outwardMoves : Obligations.OutwardMoves := by
  intro s page hs g
  refine ⟨fun m hm hst hi => ?_, fun h => ?_, fun h hp hl => ?_, fun h hb => ?_⟩
  · have failed := failOutward_leaves s m
    rw [s.moveOf_page hm] at failed
    refine ⟨fun hab hd => outward_done hs hd hm hst hi hab, ⟨_, exec_outwardWriteFail hs hm hst hi, failed⟩, fun ht => ⟨fun hle => ?_, fun hlt => ?_⟩⟩
    · exact ⟨_, exec_tierWriteTimeout hs hm hst hi ht, by rw [if_pos hle]; exact failed⟩
    · rw [exec_tierWriteTimeout hs hm hst hi ht, if_neg (Nat.not_le.mpr hlt), State.framed_self]
  · rw [exec_reclaimPass hs, if_pos h]; rfl
  · rw [exec_reclaimPass hs, if_neg (Bool.eq_false_iff.mp h), hp, decide_eq_true hl]; rfl
  · have goes : (!s.tier.passing && decide (s.tier.low ≤ s.freeSheets)) = false := by
      rcases hb with hb | hb
      · rw [hb]; rfl
      · rw [decide_eq_false (Nat.not_le.mpr hb), Bool.and_false]
    obtain ⟨states, tiers, first, spills⟩ := passStep_does (s.setPassing true)
    have run : exec .reclaimPass s = .next ((s.setPassing true).passStep.framed s) := by
      rw [exec_reclaimPass hs, if_neg (Bool.eq_false_iff.mp h), goes]; rfl
    refine ⟨_, run, states, tiers, fun hd p r hp => first hd p ?_, fun hn => spills ?_⟩
    · exact congrArg List.head? hp
    · exact congrArg List.head? hn

end Sys2Proof.Machine
end

section
-- One proof after another: so many at once would not fit beside the model in memory.
set_option Elab.async false
/-! Inward moves that fail, and the instructions that wait for their pages (05 R164, R166, R167; 13 R416). -/
namespace Sys2Proof.Machine
open Sys2Proof

/-! ## An instruction that ends with a failure -/

/-- A failed instruction's record: ended with the status, RESULT 0, with no work left; no other instruction's changes. -/
theorem State.fail_flight? (s : State) (f : Nat) (st : BitVec 16) :
    ∃ z : Flight, (z.phase = .ended ∧ z.status = st ∧ z.result = 0 ∧ z.job = .none) ∧ ∀ g, (s.fail f st).flight? g = if g = f then some z else s.flight? g := by
  have zero : resultOf st 0 = 0 := ite_self 0
  refine ⟨_, ?_, fun g => s.finish_flight? rfl st 0 none g⟩
  have done : ((s.flight f).done st 0 none).phase = .ended ∧ ((s.flight f).done st 0 none).status = st ∧
      ((s.flight f).done st 0 none).result = 0 ∧ ((s.flight f).done st 0 none).job = .none := ⟨rfl, rfl, zero, rfl⟩
  split_ifs
  · unfold Flight.stopped
    split_ifs
    · split <;> exact done
    · exact done
  · exact done

/-- A record whose work waits for a page holds no page that its ending retires. -/
theorem State.dropJob_waiting (s : State) {j : Job} {p : Nat} (h : p ∈ j.waits) (ok : Bool) : s.dropJob j ok = s := by
  cases j <;> first | rfl | exact absurd h List.not_mem_nil
theorem State.dropHolds_pages (s : State) (f : Nat) : (s.dropHolds f).ps.pages = s.ps.pages := by
  have freed : ((s.flight f).holds.foldl (fun s i => s.freeCredits i 1) s).ps = s.ps :=
    OnlyChanges.foldl (l := [.pools]) (fun (s : State) i => s.freeCredits i 1) (fun s i => OnlyChanges.freeCredits s i 1) _ s .ps (by decide)
  unfold State.dropHolds
  dsimp only
  generalize (s.flight f).holds.foldl (fun s i => s.freeCredits i 1) s = u at freed ⊢
  split <;> (show u.ps.pages = s.ps.pages; rw [freed])
/-- The ending of an instruction that waits for a page writes no descriptor. -/
theorem State.fail_pages (s : State) {f p : Nat} (h : p ∈ (s.flight f).job.waits) (st : BitVec 16) : (s.fail f st).ps.pages = s.ps.pages := by
  unfold State.fail State.finish
  extract_lets x e s1 s2 s3 s4 s5
  have h1 : s1 = s := s.dropJob_waiting h _
  have h5 : s5.ps = s3.ps := OnlyChanges.endCounts s3 x e st .ps (by decide)
  have last : (if x.mirror.isSome then s5 else s5.endCtx f st 0).ps = s5.ps :=
    OnlyChanges.ite (l := endParts) (fun _ => .refl _ s5) (fun _ => OnlyChanges.endCtx s5 f st 0) .ps (by decide)
  calc (if x.mirror.isSome then s5 else s5.endCtx f st 0).ps.pages = s3.ps.pages := congrArg Ps.pages (last.trans h5)
    _ = s1.ps.pages := s1.dropHolds_pages f
    _ = s.ps.pages := by rw [h1]

/-! ## The readers of a page -/

/-- The status with which an instruction that waits for a page ends (03 R109). -/
def readerStatus (w : BitVec 64) (st : BitVec 16) : BitVec 16 := if wOpcode w = 0x12 then stPoisoned else st
/-- An instruction that waits for page `p` ends with its status; any other goes on. -/
def State.failReader (p tier : Nat) (st : BitVec 16) (s : State) (x : Nat × Flight) : State :=
  if (s.flight x.1).job.waits.contains p then
    (s.updFlight x.1 fun y => { y with stalls := failStalls y.stalls y.waitBase tier, waited := failStalls y.waited y.waitedBase tier }).fail x.1
      (readerStatus x.2.word st)
  else s
theorem State.failReaders_eq (s : State) (p tier : Nat) (st : BitVec 16) : s.failReaders p tier st = s.flights.foldl (State.failReader p tier st) s := rfl

theorem State.failReader_pages (p tier : Nat) (st : BitVec 16) (s : State) (x : Nat × Flight) :
    (State.failReader p tier st s x).ps.pages = s.ps.pages := by
  unfold State.failReader
  split_ifs with h
  · refine State.fail_pages _ (p := p) ?_ _
    rw [State.flight_of_flight? (State.updFlight_flight?_self s x.1 _)]
    exact List.contains_iff_mem.mp h
  · rfl
theorem State.failReaders_pages (s : State) (p tier : Nat) (st : BitVec 16) : (s.failReaders p tier st).ps.pages = s.ps.pages := by
  rw [State.failReaders_eq]
  induction s.flights generalizing s with
  | nil => rfl
  | cons x r ih => exact (ih _).trans (State.failReader_pages p tier st s x)

theorem State.failReader_other (p tier : Nat) (st : BitVec 16) (s : State) (x : Nat × Flight) {f : Nat} (h : f ≠ x.1) :
    (State.failReader p tier st s x).flight? f = s.flight? f := by
  unfold State.failReader
  split_ifs
  · obtain ⟨z, -, hz⟩ := State.fail_flight? (s.updFlight x.1 fun y =>
      { y with stalls := failStalls y.stalls y.waitBase tier, waited := failStalls y.waited y.waitedBase tier }) x.1 (readerStatus x.2.word st)
    rw [hz, if_neg h, State.updFlight_flight?_ne s _ h]
  · rfl
/-- An instruction that waits for the page is ended by its own turn. -/
theorem State.failReader_waiting {p tier : Nat} {st : BitVec 16} {s : State} {f : Nat} {y : Flight} (hf : s.flight? f = some y) (hw : p ∈ y.job.waits) :
    ∃ z : Flight, (State.failReader p tier st s (f, y)).flight? f = some z ∧
      z.phase = .ended ∧ z.status = readerStatus y.word st ∧ z.result = 0 ∧ z.job = .none := by
  have hc : (s.flight f).job.waits.contains p = true := by rw [State.flight_of_flight? hf]; exact List.contains_iff_mem.mpr hw
  obtain ⟨z, hz, e⟩ := State.fail_flight? (s.updFlight f fun y =>
    { y with stalls := failStalls y.stalls y.waitBase tier, waited := failStalls y.waited y.waitedBase tier }) f (readerStatus y.word st)
  refine ⟨z, ?_, hz⟩
  rw [State.failReader, if_pos hc]
  exact (e f).trans (if_pos rfl)
/-- An instruction that has no work left keeps its record. -/
theorem State.failReader_idle {p tier : Nat} {st : BitVec 16} {s : State} {f : Nat} {z : Flight} (hf : s.flight? f = some z) (hj : z.job = .none) (y : Flight) :
    State.failReader p tier st s (f, y) = s := by
  rw [State.failReader, State.flight_of_flight? hf, hj]; rfl

/-- An instruction that waits for the page, at its first place in the list, ends; and its record stays. -/
theorem failReader_fold_ends {p tier : Nat} {st : BitVec 16} {f : Nat} {y : Flight} (hw : p ∈ y.job.waits) (l : List (Nat × Flight)) (s : State)
    (h : s.flight? f = some y ∧ l.find? (fun x => x.1 == f) = some (f, y) ∨
      ∃ z, s.flight? f = some z ∧ z.phase = .ended ∧ z.status = readerStatus y.word st ∧ z.result = 0 ∧ z.job = .none) :
    Ends (l.foldl (State.failReader p tier st) s) f (readerStatus y.word st) 0 := by
  induction l generalizing s with
  | nil =>
    rcases h with ⟨-, h⟩ | ⟨z, hf, hp, hs, hr, -⟩
    · cases h
    · exact ⟨z, hf, hp, hs, hr⟩
  | cons x r ih =>
    refine ih _ ?_
    by_cases hx : f = x.1
    · rcases h with ⟨hf, hl⟩ | ⟨z, hf, hz⟩
      · obtain rfl : x = (f, y) := by simpa [hx] using hl
        exact .inr (State.failReader_waiting hf hw)
      · obtain ⟨g, y'⟩ := x
        obtain rfl : f = g := hx
        exact .inr ⟨z, by rw [State.failReader_idle hf hz.2.2.2]; exact hf, hz⟩
    · have kept := State.failReader_other p tier st s x hx
      rcases h with ⟨hf, hl⟩ | ⟨z, hf, hz⟩
      · exact .inl ⟨kept.trans hf, by simpa [List.find?_cons, Ne.symm hx] using hl⟩
      · exact .inr ⟨z, kept.trans hf, hz⟩
theorem State.failReaders_ends {s : State} {f : Nat} {y : Flight} (hf : s.flight? f = some y) {p : Nat} (hw : p ∈ y.job.waits) (tier : Nat) (st : BitVec 16) :
    Ends (s.failReaders p tier st) f (readerStatus y.word st) 0 := by
  refine failReader_fold_ends hw s.flights s (.inl ⟨hf, ?_⟩)
  obtain ⟨x, hx, rfl⟩ := Option.map_eq_some_iff.mp (show (s.flights.find? fun x => x.1 == f).map (·.2) = some y from hf)
  obtain rfl : x.1 = f := by simpa using List.find?_some hx
  exact hx

/-! ## Inward moves that fail -/

/-- Page `page`'s move has failed: it is over, the page is where it was, and what waits for the page has ended with the status (05 R167). -/
def FailedMove (s t : State) (page : Nat) (st : BitVec 16) : Prop :=
  t.moveOf page = none ∧ (t.page page).tier = (s.page page).tier ∧ (t.page page).location = (s.page page).location ∧
    ∀ f y, s.flight? f = some y → page ∈ y.job.waits → Ends t f (readerStatus y.word st) 0

/-- When the move is over and the page where it was, ending its readers completes the failure. -/
theorem FailedMove.of_readers {s u : State} {page : Nat} (hm : u.moveOf page = none) {v p : Bool}
    (hp : u.page page = { s.page page with moving := v, poison := p }) (hf : u.flights = s.flights) (tier : Nat) (st : BitVec 16) :
    FailedMove s (u.failReaders page tier st) page st ∧ ((u.failReaders page tier st).page page).poison = p := by
  have pages : (u.failReaders page tier st).page page = { s.page page with moving := v, poison := p } :=
    (page_congr (u.failReaders_pages page tier st) page).trans hp
  refine ⟨⟨((OnlyChanges.failReaders u page tier st).moveOf page).trans hm, by rw [pages], by rw [pages], fun f y hy hw => ?_⟩, by rw [pages]⟩
  exact State.failReaders_ends ((flight?_congr hf f).trans hy) hw tier st

/-- A failed inward move over: counted, its landing run free, its failure noted for its gathering. -/
def State.inwardOver (s : State) (m : Move) : State :=
  let t := if m.tier = 2 then (s.endMove m).countDev 13 1 else (s.endMove m).countDev 12 1
  let t := if m.started ∧ m.landing ≠ 0 then t.freePool [m.landing] else t
  if m.byKettle then t.updGath m.gath fun g => if g.live then { g with failed := (m.page, m.pos) :: g.failed } else g else t
/-- The move over and, unless the read only failed, the page poisoned. -/
def State.inwardLost (s : State) (m : Move) (cause : Nat) : State :=
  if cause = 0 ∨ cause = 3 then s.inwardOver m else (s.inwardOver m).poisonPage m.page

/-- A failure is recorded, and the readers of the page end. -/
theorem State.failInward_eq (s : State) (m : Move) (cause : Nat) : ∃ u, OnlyChanges evParts (s.inwardLost m cause) u ∧
    s.failInward m cause = u.failReaders m.page m.tier (if cause = 0 ∨ cause = 3 then stTierFail else stPoisoned) := by
  unfold State.failInward
  extract_lets p s1 s2 s3 u r r1 r2
  have gone : s.inwardLost m cause = if cause = 0 ∨ cause = 3 then u else u.poisonPage p := rfl
  rw [gone]
  clear_value u
  split_ifs
  · exact ⟨u.report (u.nameWaiter p stTierFail r), .report _ _, rfl⟩
  · exact ⟨(u.poisonPage p).report (u.nameWaiter p stPoisoned r), .report _ _, rfl⟩
  · exact ⟨(u.poisonPage p).badGranule 0x0B (m.loc * 4096) r1.fn r1.ctx r1.status r1.tag, .badGranule _ _ _ _ _ _ _, rfl⟩
  · exact ⟨(u.poisonPage p).report (u.nameWaiter p stPoisoned r2), .report _ _, rfl⟩

theorem State.inwardOver_facts (s : State) (m : Move) : (s.inwardOver m).moveOf m.page = none ∧ (s.inwardOver m).flights = s.flights ∧
    (s.inwardOver m).dev = s.dev ∧ (s.inwardOver m).ps.pages = (s.endMove m).ps.pages := by
  have e0 : OnlyChanges pageParts s (s.endMove m) := .endMove s m
  unfold State.inwardOver
  extract_lets t1 t2
  have h1 : OnlyChanges evParts (s.endMove m) t1 := .ite (fun _ => .countDev _ _ _) fun _ => .countDev _ _ _
  have h2 : OnlyChanges [.ps] t1 t2 := .ite (fun _ => .freePool t1 _) fun _ => .refl _ t1
  have p2 : t2.ps.pages = t1.ps.pages := by unfold t2; split_ifs <;> rfl
  have h3 : OnlyChanges [.gaths] t2 (if m.byKettle then t2.updGath m.gath fun g =>
      if g.live then { g with failed := (m.page, m.pos) :: g.failed } else g else t2) := .ite (fun _ => .updGath t2 _ _) fun _ => .refl _ t2
  refine ⟨?_, ?_, ?_, ?_⟩
  · exact (h3.moveOf _).trans ((h2.moveOf _).trans ((h1.moveOf _).trans (s.endMove_moveOf m)))
  · exact (h3 .flights (by decide)).trans ((h2 .flights (by decide)).trans ((h1 .flights (by decide)).trans (e0 .flights (by decide))))
  · exact (h3 .dev (by decide)).trans ((h2 .dev (by decide)).trans ((h1 .dev (by decide)).trans (e0 .dev (by decide))))
  · exact (congrArg Ps.pages (h3 .ps (by decide))).trans (p2.trans (congrArg Ps.pages (h1 .ps (by decide))))

theorem State.poisonPage_page {s : State} (hd : s.dev.pchDown = []) (p : Nat) : (s.poisonPage p).page p = { s.page p with poison := true } := by
  have h := s.updPage_page p (fun g => { g with poison := true }) (s.granuleLost_none _ hd)
  unfold State.poisonPage
  dsimp only
  split
  · split_ifs <;> exact h
  · exact h
theorem State.poisonPage_moveOf {s : State} {p : Nat} (h : s.moveOf p = none) : (s.poisonPage p).moveOf p = none := by
  have h' : (s.updPage p fun g => { g with poison := true }).moveOf p = none := h
  unfold State.poisonPage
  dsimp only
  rw [h']
  exact h'

/-- An inward move that fails, by its cause (05 R167). -/
theorem failInward_failed {s : State} (hd : s.dev.pchDown = []) (m : Move) (cause : Nat) :
    FailedMove s (s.failInward m cause) m.page (if cause = 0 ∨ cause = 3 then stTierFail else stPoisoned) ∧
      ((s.failInward m cause).page m.page).poison = if cause = 0 ∨ cause = 3 then (s.page m.page).poison else true := by
  obtain ⟨u, hu, e⟩ := s.failInward_eq m cause
  obtain ⟨ended, flights, dev, pages⟩ := s.inwardOver_facts m
  obtain ⟨v, hv⟩ := s.endMove_page m m.page
  have page : (s.inwardOver m).page m.page = { s.page m.page with moving := v } := (page_congr pages _).trans hv
  rw [e]
  unfold State.inwardLost at hu
  by_cases h : cause = 0 ∨ cause = 3
  · simp only [if_pos h] at hu ⊢
    exact FailedMove.of_readers (v := v) ((hu.moveOf _).trans ended) ((hu.page _).trans page) ((hu .flights (by decide)).trans flights) _ _
  · simp only [if_neg h] at hu ⊢
    refine FailedMove.of_readers (v := v) ((hu.moveOf _).trans (State.poisonPage_moveOf ended)) ?_ ?_ _ _
    · rw [hu.page, State.poisonPage_page (by rw [dev]; exact hd), page]
    · exact (hu .flights (by decide)).trans ((OnlyChanges.poisonPage _ _ .flights (by decide)).trans flights)

theorem exec_inwardMoveFailed {s : State} (hs : s.stopped = false) {page : Nat} {m : Move} (hm : s.moveOf page = some m) (hst : m.started = true)
    (hi : m.kind.inward = true) (cause : Nat) :
    exec (.inwardMoveFailed page cause) s = .next ((s.failInward m (if cause = 1 ∧ m.tier ≠ 2 then 1 else 0)).framed s) := by
  rw [show exec (.inwardMoveFailed page cause) s = execInwardMoveFailed page cause s from rfl, execInwardMoveFailed, act_running hs]
  simp [hm, hst, hi]
theorem exec_tierReadTimeout {s : State} (hs : s.stopped = false) {page : Nat} {m : Move} (hm : s.moveOf page = some m) (hst : m.started = true)
    (hi : m.kind.inward = true) :
    exec (.tierReadTimeout page) s = .next ((if m.since + s.tierTimeout m.tier ≤ s.now then s.failInward m 3 else s).framed s) := by
  rw [show exec (.tierReadTimeout page) s = execTierReadTimeout page s from rfl, execTierReadTimeout, act_running hs]
  simp [hm, hst, hi]
theorem exec_demandLandingTimeout {s : State} (hs : s.stopped = false) {page : Nat} {m : Move} (hm : s.moveOf page = some m) (hst : m.started = false)
    (hk : m.kind = .demand) (ht : (s.page page).tier ≠ 0) :
    exec (.demandLandingTimeout page) s = .next ((if m.asked + s.tierTimeout (s.page page).tier ≤ s.now ∧ s.takePool (s.page page).sheets false = none then
      (s.endMove m).failReaders page (s.page page).tier stTimeout else s).framed s) := by
  rw [show exec (.demandLandingTimeout page) s = execDemandLandingTimeout page s from rfl, execDemandLandingTimeout, act_running hs]
  simp [hm, hst, hk, ht]

end Sys2Proof.Machine
end

section
-- One proof after another: so many at once would not fit beside the model in memory.
set_option Elab.async false
/-! Inward moves that land (05 R165, R166; 12 R372, R373). -/
namespace Sys2Proof.Machine
open Sys2Proof

/-! ## What a tier returned -/

/-- Verifying a run reads the page's descriptor, its auxiliary record and the session secret. -/
theorem State.openRun_congr {s t : State} (hp : t.ps = s.ps) (hs : t.sec = s.sec) (m : Move) (data : Bytes) : t.openRun m data = s.openRun m data := by
  obtain ⟨⟩ := s
  obtain ⟨⟩ := t
  cases hp
  cases hs
  rfl

theorem exec_inwardMoveLanded {s : State} (hs : s.stopped = false) (hd : s.dev.pchDown = []) {page : Nat} {m : Move} (hm : s.moveOf page = some m)
    (hst : m.started = true) (hi : m.kind.inward = true) {data c b : Bytes} (hl : data.length = runBytes m.tier (s.page page).sheets)
    (hc : (s.tierRead m data).2 = some c) (hb : s.openRun m c = some b) :
    exec (.inwardMoveLanded page data) s = .next (((s.tierRead m data).1.land m b).framed s) := by
  have ht := OnlyChanges.tierRead s m data
  have opened : (s.tierRead m data).1.openRun m c = some b := (State.openRun_congr (ht .ps (by decide)) (ht .sec (by decide)) m c).trans hb
  have read : s.runRead m data = (s.tierRead m data).1.land m b := by
    rw [State.runRead, if_neg (by rw [s.granuleLost_none _ hd]; exact Bool.false_ne_true)]
    generalize s.tierRead m data = r at hc opened ⊢
    obtain ⟨u, o⟩ := r
    obtain rfl : o = some c := hc
    dsimp only at opened ⊢
    rw [opened]
  rw [show exec (.inwardMoveLanded page data) s = execInwardMoveLanded page data s from rfl, execInwardMoveLanded, act_running hs]
  simp [hm, hst, hi, hl, read]

/-! ## The landing of a page that the Kettle did not ask for -/

/-- The run written and the move over; the descriptor names T0. -/
def State.arrived (s : State) (m : Move) (b : Bytes) : State :=
  (((s.sampleLat m).t0Write (m.landing * 4096) b).endMove m).updPage m.page fun g => { g with tier := 0, location := m.landing }
/-- The home copy of a T0-pinned page retires. -/
def State.arrivedHome (s : State) (m : Move) (b : Bytes) : State :=
  if ((s.arrived m b).page m.page).cls = 0 then (s.arrived m b).retireHome m.page else s.arrived m b

/-- What arriving changes beside T0. -/
theorem OnlyChanges.arrived (s : State) (m : Move) (b : Bytes) : OnlyChanges (.t0 :: pageParts) s (s.arrived m b) :=
  (OnlyChanges.updPage _ _ _).seq ((OnlyChanges.endMove _ m).seq ((OnlyChanges.t0Write _ _ b).seq (OnlyChanges.sampleLat s m).mono))
theorem OnlyChanges.arrivedHome (s : State) (m : Move) (b : Bytes) : OnlyChanges [.ps] (s.arrived m b) (s.arrivedHome m b) :=
  .ite (fun _ => .retireHome _ _) fun _ => .refl _ _

theorem State.retireHome_page (s : State) (p q : Nat) : (s.retireHome p).page q = s.page q := by
  unfold State.retireHome
  dsimp only
  split <;> rfl
theorem State.arrived_page {s : State} (hd : s.dev.pchDown = []) (m : Move) (b : Bytes) :
    ∃ v, (s.arrived m b).page m.page = { s.page m.page with moving := v, tier := 0, location := m.landing } := by
  have h0 : OnlyChanges [.t0, .tier] s ((s.sampleLat m).t0Write (m.landing * 4096) b) :=
    (OnlyChanges.t0Write _ _ b).seq (OnlyChanges.sampleLat s m).mono
  have down : (((s.sampleLat m).t0Write (m.landing * 4096) b).endMove m).dev.pchDown = [] := pchDown_kept ((OnlyChanges.endMove _ m).seq h0.mono (l := .t0 :: pageParts)) hd
  obtain ⟨v, hv⟩ := ((s.sampleLat m).t0Write (m.landing * 4096) b).endMove_page m m.page
  refine ⟨v, ?_⟩
  rw [State.arrived, State.updPage_page _ _ _ (State.granuleLost_none _ _ down), hv, h0.page]
theorem State.arrivedHome_page {s : State} (hd : s.dev.pchDown = []) (m : Move) (b : Bytes) :
    ∃ v, (s.arrivedHome m b).page m.page = { s.page m.page with moving := v, tier := 0, location := m.landing } := by
  obtain ⟨v, hv⟩ := State.arrived_page hd m b
  refine ⟨v, ?_⟩
  unfold State.arrivedHome
  split_ifs
  · exact (State.retireHome_page _ _ _).trans hv
  · exact hv
theorem State.arrivedHome_moveOf (s : State) (m : Move) (b : Bytes) : (s.arrivedHome m b).moveOf m.page = none :=
  ((OnlyChanges.arrivedHome s m b).moveOf _).trans (State.endMove_moveOf _ m)
theorem State.arrivedHome_flights (s : State) (m : Move) (b : Bytes) : (s.arrivedHome m b).flights = s.flights :=
  (OnlyChanges.arrivedHome s m b .flights (by decide)).trans (OnlyChanges.arrived s m b .flights (by decide))
theorem State.arrivedHome_t0 {s : State} (hd : s.dev.pchDown = []) (m : Move) (b : Bytes) :
    (s.arrivedHome m b).t0 = memWrite s.t0 (m.landing * 4096) b := by
  have sampled := OnlyChanges.sampleLat s m
  have h1 : (s.arrivedHome m b).t0 = (s.arrived m b).t0 := OnlyChanges.arrivedHome s m b .t0 (by decide)
  have h2 : (s.arrived m b).t0 = ((s.sampleLat m).t0Write (m.landing * 4096) b).t0 := OnlyChanges.endMove _ m .t0 (by decide)
  rw [h1, h2, t0Write_t0 (pchDown_kept sampled hd), sampled .t0 (by decide)]

/-- A page that is not cold, or that a reader demanded, stays where it landed, and its readers go on. -/
theorem State.land_eq {s : State} (hd : s.dev.pchDown = []) {m : Move} (hk : m.byKettle = false) (b : Bytes)
    (hh : (s.page m.page).hint ≠ 2 ∨ (m.kind = .demand ∧ s.awaited m.page = true)) :
    s.land m b = (s.arrivedHome m b).resumeReaders m.page := by
  have awaited : (s.arrivedHome m b).awaited m.page = s.awaited m.page := by rw [State.awaited, s.arrivedHome_flights]; rfl
  have stays : (if m.kind = .demand ∧ (s.arrivedHome m b).awaited m.page then s.arrivedHome m b else (s.arrivedHome m b).dropCold m.page) =
      s.arrivedHome m b := by
    rcases hh with hh | ⟨hk, ha⟩
    · obtain ⟨v, hv⟩ := State.arrivedHome_page hd m b
      have warm : (s.arrivedHome m b).dropCold m.page = s.arrivedHome m b := if_neg fun h => hh (by simpa [hv] using h.1)
      rw [warm, ite_self]
    · exact if_pos ⟨hk, awaited.trans ha⟩
  have shape : s.land m b = ((if m.kind = .demand ∧ (s.arrivedHome m b).awaited m.page then s.arrivedHome m b
      else (s.arrivedHome m b).dropCold m.page).resumeReaders m.page) := by
    unfold State.land
    simp only [hk, Bool.false_and, Bool.false_eq_true, if_false]
    rfl
  rw [shape, stays]

/-- The record of an instruction when page `p` has come. -/
def Flight.resumed (p now : Nat) (x : Flight) : Flight :=
  if x.job.waits.contains p then
    { x with job := x.job.without p, progress := now, stallOn := if (x.job.without p).waits.isEmpty then none else x.stallOn }
  else x
theorem State.resumeReaders_flight? (s : State) (p f : Nat) : (s.resumeReaders p).flight? f = (s.flight? f).map (Flight.resumed p s.now) := by
  have each : (s.resumeReaders p).flights = s.flights.map fun x => (x.1, x.2.resumed p s.now) := by
    refine List.map_congr_left fun x _ => ?_
    unfold Flight.resumed
    by_cases h : x.2.job.waits.contains p = true
    · rw [if_pos h, if_pos h]
    · rw [if_neg h, if_neg h]
  simp only [State.flight?, each, List.find?_map, Option.map_map]
  rfl
theorem Job.without_waits (j : Job) (p : Nat) : (j.without p).waits = j.waits.erase p := by
  cases j <;> rfl

/-- A move that lands: the page is in T0, the run holds its bytes, and its readers wait for one page fewer (05 R165, R166). -/
theorem land_lands {s : State} (hd : s.dev.pchDown = []) {m : Move} (hk : m.byKettle = false) (b : Bytes)
    (hh : (s.page m.page).hint ≠ 2 ∨ (m.kind = .demand ∧ s.awaited m.page = true)) :
    let t := s.land m b
    (t.page m.page).tier = 0 ∧ (t.page m.page).location = m.landing ∧ t.moveOf m.page = none ∧
      (∀ i < b.length, memRead t.t0 (m.landing * 4096 + i) = b.getD i 0) ∧ SameT0But (m.landing * 4096) b.length s t ∧
      ∀ f y, s.flight? f = some y → m.page ∈ y.job.waits →
        ∃ z, t.flight? f = some z ∧ z.job = y.job.without m.page ∧ z.job.waits = y.job.waits.erase m.page := by
  intro t
  have ht : t = (s.arrivedHome m b).resumeReaders m.page := State.land_eq hd hk b hh
  have t0 : t.t0 = memWrite s.t0 (m.landing * 4096) b := by rw [ht]; exact State.arrivedHome_t0 hd m b
  obtain ⟨v, hv⟩ := State.arrivedHome_page hd m b
  have page : t.page m.page = { s.page m.page with moving := v, tier := 0, location := m.landing } := by rw [ht]; exact hv
  refine ⟨by rw [page], by rw [page], by rw [ht]; exact s.arrivedHome_moveOf m b, fun i h => ?_, fun a h => ?_, fun f y hf hw => ?_⟩
  · rw [t0, memRead_write_in _ _ _ _ h, List.getD_eq_getElem b 0 h]
  · rw [t0, memRead_write_out _ _ _ _ h]
  · refine ⟨_, by rw [ht, State.resumeReaders_flight?, flight?_congr (s.arrivedHome_flights m b), hf]; rfl, ?_⟩
    have job : (y.resumed m.page (s.arrivedHome m b).now).job = y.job.without m.page := by
      rw [Flight.resumed, if_pos (List.contains_iff_mem.mpr hw)]
    exact ⟨job, by rw [job, Job.without_waits]⟩

end Sys2Proof.Machine
end

section
-- One proof after another: so many at once would not fit beside the model in memory.
set_option Elab.async false
/-! The start of an inward move (05 R164, R165; 13 R397), and with it O44. -/
namespace Sys2Proof.Machine
open Sys2Proof

/-! ## Granting credits of the move queues -/

/-- A move with another credit. -/
def Move.withCredit (c : Move → Nat) (m : Move) : Move := { m with credit := c m }
/-- The state with other credit pools and moves. -/
def State.regranted (s : State) (pools : Tbl Pool) (moves : List Move) : State := { s with pools := pools, tier := { s.tier with moves := moves } }
/-- From `s` to `t`, waiting moves have been granted credits: only the pools of the move queues and the moves' credits differ, and no move has lost
its credit. -/
def Regrants (s t : State) : Prop :=
  ∃ pools c, t = s.regranted pools (s.tier.moves.map (Move.withCredit c)) ∧ (∀ i, 12 ≤ i → pools.get i {} = s.pools.get i {}) ∧
    ∀ m : Move, m.credit ≠ 0 → c m ≠ 0

theorem Regrants.refl (s : State) : Regrants s s := by
  refine ⟨s.pools, Move.credit, ?_, fun _ _ => rfl, fun _ h => h⟩
  rw [show Move.withCredit Move.credit = id from rfl, List.map_id]
  rfl
theorem Regrants.trans {s t u : State} (h : Regrants s t) (k : Regrants t u) : Regrants s u := by
  obtain ⟨p, c, rfl, hp, hc⟩ := h
  obtain ⟨q, d, rfl, hq, hd⟩ := k
  refine ⟨q, fun m => d (m.withCredit c), ?_, fun i hi => (hq i hi).trans (hp i hi), fun m h => hd _ (hc m h)⟩
  show s.regranted q ((s.tier.moves.map (Move.withCredit c)).map (Move.withCredit d)) = _
  rw [List.map_map]
  rfl
theorem State.takeCredits_pool_ne (s : State) (k n : Nat) {i : Nat} (h : i ≠ k) : (s.takeCredits k n).pools.get i {} = s.pools.get i {} := by
  simp [State.takeCredits, Tbl.get_upd_ne _ _ _ h]
theorem Regrants.moveCredit (s : State) (m : Move) : Regrants s (s.moveCredit m).1 := by
  unfold State.moveCredit
  dsimp only
  split_ifs
  · exact .refl s
  · refine ⟨(s.takeCredits m.kind.pool 1).pools, fun x => if x.page = m.page then m.kind.pool + 1 else x.credit, ?_, fun i hi => ?_, fun x hx => ?_⟩
    · have each : (fun x : Move => if x.page = m.page then { x with credit := m.kind.pool + 1 } else x) =
          Move.withCredit fun x => if x.page = m.page then m.kind.pool + 1 else x.credit := by
        funext x
        by_cases h : x.page = m.page
        · exact (if_pos h).trans (congrArg (fun c => { x with credit := c }) (if_pos h).symm)
        · exact (if_neg h).trans (congrArg (fun c => { x with credit := c }) (if_neg h).symm)
      rw [← each]
      rfl
    · have low : m.kind.pool < 12 := by cases m.kind <;> decide
      exact s.takeCredits_pool_ne _ _ (by omega)
    · show (if x.page = m.page then m.kind.pool + 1 else x.credit) ≠ 0
      split_ifs
      · exact Nat.succ_ne_zero _
      · exact hx
  · exact .refl s
theorem Regrants.grantMoves (s : State) : Regrants s s.grantMoves := by
  unfold State.grantMoves
  generalize sortBy s.grantBefore (s.tier.moves.filter fun m => !m.started && m.credit == 0) = l
  induction l generalizing s with
  | nil => exact .refl s
  | cons m r ih => exact (Regrants.moveCredit s m).trans (ih _)

/-! ## The first waiting move -/

theorem insertBy_map {α : Type} {lt : α → α → Bool} {g : α → α} (h : ∀ a b, lt (g a) (g b) = lt a b) (x : α) (l : List α) :
    insertBy lt (g x) (l.map g) = (insertBy lt x l).map g := by
  induction l with
  | nil => rfl
  | cons y r ih =>
    simp only [List.map_cons, insertBy, h]
    split_ifs
    · rfl
    · rw [ih, List.map_cons]
/-- A change that leaves the order of the elements leaves their places. -/
theorem sortBy_map {α : Type} {lt : α → α → Bool} {g : α → α} (h : ∀ a b, lt (g a) (g b) = lt a b) (l : List α) :
    sortBy lt (l.map g) = (sortBy lt l).map g := by
  unfold sortBy
  induction l with
  | nil => rfl
  | cons x r ih => rw [List.map_cons, List.foldr_cons, ih, insertBy_map h, List.foldr_cons]

/-- Moves that wait to start, in the order in which they do (05 R165). -/
def State.waitingMoves (s : State) : List Move := sortBy Move.before (s.tier.moves.filter fun m => !m.started)
theorem State.regranted_waitingMoves (s : State) (pools : Tbl Pool) (c : Move → Nat) :
    (s.regranted pools (s.tier.moves.map (Move.withCredit c))).waitingMoves = s.waitingMoves.map (Move.withCredit c) := by
  show sortBy Move.before ((s.tier.moves.map (Move.withCredit c)).filter fun m => !m.started) = _
  rw [List.filter_map]
  exact sortBy_map (g := Move.withCredit c) (fun _ _ => rfl) _
theorem State.regranted_moveOf (s : State) (pools : Tbl Pool) (c : Move → Nat) (p : Nat) :
    (s.regranted pools (s.tier.moves.map (Move.withCredit c))).moveOf p = (s.moveOf p).map (Move.withCredit c) := by
  show (s.tier.moves.map (Move.withCredit c)).find? (fun m => m.page == p) = _
  rw [List.find?_map]
  rfl

theorem exec_gathererMoveStart {s t : State} (hs : s.stopped = false) (he : s.dev.engineDown.get 4 false = false) {m : Move} {r : List Move}
    (hw : s.grantMoves.waitingMoves = m :: r) (ht : s.grantMoves.tryStart m = some t) : exec .gathererMoveStart s = .next (t.framed s) := by
  have first : (s.grantMoves.waitingMoves.findSome? s.grantMoves.tryStart).getD s.grantMoves = t := by
    rw [hw, List.findSome?_cons, ht]; rfl
  rw [show exec .gathererMoveStart s = execGathererMoveStart s from rfl, execGathererMoveStart, act_running hs]
  dsimp only
  rw [if_neg (by rw [he]; exact Bool.false_ne_true)]
  exact congrArg (fun u : State => Host.Outcome.next (u.framed s)) first

/-! ## An inward move that finds what it needs -/

/-- Whether a run of POOL can be taken (05 R164). -/
theorem State.takePool_isSome (s : State) (n : Nat) : (s.takePool n false).isSome = (decide (n ≤ s.freeSheets) &&
    (pickRun s.ps.poolRuns (s.regBase 6) (s.regSize 6) n (Config.freeValue s.free).toNat).isSome) := by
  have drawn : s.draw.2.freeSheets = s.freeSheets := rfl
  unfold State.takePool
  simp only [Bool.false_eq_true, if_false, drawn]
  by_cases h : n ≤ s.freeSheets
  · simp only [decide_eq_true h, if_true, Bool.true_and]
    show Option.isSome (match pickRun s.ps.poolRuns (s.regBase 6) (s.regSize 6) n (Config.freeValue s.free).toNat with
      | some a => some (a, _) | none => none) = _
    cases pickRun s.ps.poolRuns (s.regBase 6) (s.regSize 6) n (Config.freeValue s.free).toNat <;> rfl
  · simp only [decide_eq_false h, Bool.false_eq_true, if_false, Bool.false_and]
    rfl
theorem State.takePool_pages {s : State} {n : Nat} {press : Bool} {r : Nat × State} (h : s.takePool n press = some r) : r.2.ps.pages = s.ps.pages := by
  unfold State.takePool at h
  simp -zeta only at h
  extract_lets at h
  obtain ⟨-, h⟩ := Option.ite_none_right_eq_some.mp h
  split at h
  · rw [← Option.some.inj h]
    rfl
  · cases h
/-- A landing run for a move: a STAGE's leaves the landing reserve alone. -/
def State.landingRun (s : State) (m : Move) : Option (Nat × State) :=
  if m.kind = .stage then s.takeRun (s.page m.page).sheets else s.takePool (s.page m.page).sheets false
theorem State.landingRun_of_pool {s : State} {m : Move} (hl : m.kind = .stage → s.tier.landing < s.freeSheets) :
    s.landingRun m = s.takePool (s.page m.page).sheets false := by
  unfold State.landingRun
  split_ifs with hk
  · exact if_pos (hl hk)
  · rfl
/-- The read that a started inward move submits. -/
def State.submitRead (s : State) (g : Page) (port : Nat) : State :=
  s.emitOut (if g.tier = 3 then .upRead 0 ((s.tier.swapBase + g.location) * 4096) (g.sheets * 4096) else .portRead port g.location g.sheets)

/-- The state with walker slot `w` taken. -/
def State.withWalker (s : State) (w : Nat) : State := { s with ps := { s.ps with walkers := s.ps.walkers.put w (s.ps.epoch + 1) } }
theorem State.takeWalker_eq {s : State} {w : Nat} (h : s.freeWalker = some w) : s.takeWalker = some (w, s.withWalker w) := by
  rw [State.takeWalker, h]; rfl

/-- An inward move of a page below T0 that may move, and that finds its port, its Press pipeline, a walker slot and a landing run, starts. -/
theorem startInward_starts {u : State} {x : Move}
    (hst : (u.page x.page).state = .sealed ∨ ((u.page x.page).state = .retiring ∧ u.awaited x.page = true)) (ht : (u.page x.page).tier ≠ 0)
    (hp : (u.page x.page).tier = 3 ∨ (u.port (u.locPort (u.page x.page).tier (u.page x.page).location)).avail = true)
    (hr : u.portReady (u.page x.page).tier (u.locPort (u.page x.page).tier (u.page x.page).location) (u.page x.page).sheets = true)
    (hb : (u.page x.page).tier = 1 ∨ (u.bounceFree = true ∧ u.passesFirst = false)) (hw : u.freeWalker.isSome = true)
    (hl : x.kind = .stage → u.tier.landing < u.freeSheets) (hk : (u.takePool (u.page x.page).sheets false).isSome = true) :
    ∃ v w run, u.startInward x = some ((v.startMove x (u.page x.page).tier (u.locPort (u.page x.page).tier (u.page x.page).location)
      (u.page x.page).location run w).submitRead (u.page x.page) (u.locPort (u.page x.page).tier (u.page x.page).location)) ∧
      OnlyChanges [.free, .ps] u v ∧ v.ps.pages = u.ps.pages := by
  obtain ⟨w, hw⟩ := Option.isSome_iff_exists.mp hw
  have pool : ((u.withWalker w).takePool (u.page x.page).sheets false).isSome = true := by
    rw [State.takePool_isSome] at hk ⊢; exact hk
  obtain ⟨⟨run, v⟩, hv⟩ := Option.isSome_iff_exists.mp pool
  have landing : (u.withWalker w).landingRun x = some (run, v) := (State.landingRun_of_pool (s := u.withWalker w) hl).trans hv
  refine ⟨v, w, run, ?_, (OnlyChanges.takePool hv).trans' (OnlyChanges.setPs u _).mono, State.takePool_pages hv⟩
  generalize hg : u.page x.page = g at *
  have moves : (!(g.state == .sealed || (g.state == .retiring && u.awaited x.page)) || g.tier == 0) = false := by
    rcases hst with h | ⟨h, ha⟩
    · simp [h, ht]
    · simp [h, ha, ht]
  have there : ¬ (g.tier ≠ 3 ∧ (u.port (u.locPort g.tier g.location)).avail = false) := by
    rintro ⟨h3, h⟩
    rcases hp with hp | hp
    · exact h3 hp
    · rw [h] at hp; cases hp
  have ready : (!u.portReady g.tier (u.locPort g.tier g.location) g.sheets || (g.tier != 1 && (!u.bounceFree || u.passesFirst))) = false := by
    rw [hr]
    rcases hb with h | ⟨h, h'⟩
    · simp [h]
    · simp [h, h']
  unfold State.startInward
  simp only [hg, moves, if_neg there, ready, Bool.false_eq_true, if_false, State.takeWalker_eq hw]
  have run_eq : (if x.kind = .stage then (u.withWalker w).takeRun g.sheets else (u.withWalker w).takePool g.sheets false) = some (run, v) := by
    rw [← landing, State.landingRun, show (u.withWalker w).page x.page = g from hg]
  rw [run_eq]
  rfl

/-- A started move names where it reads; its page is MOVING. -/
theorem State.startMove_moveOf (v : State) {x : Move} (h : v.moveOf x.page = some x) (tier port loc landing w : Nat) :
    ∃ y, (v.startMove x tier port loc landing w).moveOf x.page = some y ∧ y.started = true ∧ y.kind = x.kind ∧ y.tier = tier ∧ y.loc = loc := by
  unfold State.startMove
  extract_lets n u
  have hu : (u.updPage x.page fun g => { g with moving := true }).moveOf x.page = some x := by
    refine Eq.trans ?_ h
    unfold u
    split_ifs <;> rfl
  rw [State.updMove_moveOf, hu]
  exact ⟨_, congrArg some (if_pos rfl), rfl, rfl, rfl, rfl⟩
theorem State.startMove_page {v : State} (hd : v.dev.pchDown = []) (x : Move) (tier port loc landing w : Nat) :
    (v.startMove x tier port loc landing w).page x.page = { v.page x.page with moving := true } := by
  unfold State.startMove
  extract_lets n u
  have hu : OnlyChanges [.pools] v u := .ite (fun _ => .refl _ v) fun _ => .takeCredits v _ _
  show (u.updPage x.page fun g => { g with moving := true }).page x.page = _
  rw [u.updPage_page _ _ (u.granuleLost_none _ (pchDown_kept hu hd)), hu.page]

/-- GATHERER_MOVE_START when the first waiting move finds what it needs (05 R164, R165). -/
theorem gatherer_starts {s : State} (hs : s.stopped = false) (hd : s.dev.pchDown = []) (he : s.dev.engineDown.get 4 false = false) {page : Nat} {m : Move}
    (hm : s.moveOf page = some m) {r : List Move} (hw : s.waitingMoves = m :: r) (hi : m.kind.inward = true) (hc : m.credit ≠ 0)
    (hst : (s.page page).state = .sealed ∨ ((s.page page).state = .retiring ∧ s.awaited page = true)) (ht : (s.page page).tier ≠ 0)
    (hp : (s.page page).tier = 3 ∨ (s.port (s.locPort (s.page page).tier (s.page page).location)).avail = true)
    (hr : s.portReady (s.page page).tier (s.locPort (s.page page).tier (s.page page).location) (s.page page).sheets = true)
    (hb : (s.page page).tier = 1 ∨ (s.bounceFree = true ∧ s.passesFirst = false)) (hwalk : s.freeWalker.isSome = true)
    (hl : m.kind = .stage → s.tier.landing < s.freeSheets) (hk : (s.takePool (s.page page).sheets false).isSome = true) :
    ∃ t m', exec .gathererMoveStart s = .next t ∧ t.moveOf page = some m' ∧ m'.started = true ∧ m'.kind = m.kind ∧ m'.tier = (s.page page).tier ∧
      m'.loc = (s.page page).location ∧ (t.page page).moving = true ∧ (t.page page).tier = (s.page page).tier := by
  obtain rfl := s.moveOf_page hm
  obtain ⟨pools, c, hu, hpools, hcredit⟩ := Regrants.grantMoves s
  have waiting : s.grantMoves.waitingMoves = m.withCredit c :: r.map (Move.withCredit c) := by
    rw [hu, s.regranted_waitingMoves, hw]; rfl
  have move : s.grantMoves.moveOf m.page = some (m.withCredit c) := by rw [hu, s.regranted_moveOf, hm]; rfl
  have bounce : s.grantMoves.bounceFree = s.bounceFree := by
    rw [hu]
    show decide (((s.tier.moves.map (Move.withCredit c)).filter fun m => m.started && m.tier != 1).length < 4096) = _
    rw [List.filter_map, List.length_map]
    rfl
  have ready (tier port n : Nat) : s.grantMoves.portReady tier port n = s.portReady tier port n := by
    rw [hu]
    show (tier == 3 || decide (portCredits tier n ≤ poolLimit (12 + port) - (pools.get (12 + port) {}).used)) = _
    rw [hpools _ (Nat.le_add_right ..)]
    rfl
  have pool (n : Nat) : (s.grantMoves.takePool n false).isSome = (s.takePool n false).isSome := by
    rw [hu, State.takePool_isSome, State.takePool_isSome]; rfl
  obtain ⟨v, w, run, start, frame, pages⟩ := startInward_starts (u := s.grantMoves) (x := m.withCredit c) (by rw [hu]; exact hst)
    (by rw [hu]; exact ht) (by rw [hu]; exact hp) (by rw [ready]; rw [hu]; exact hr) (by rw [bounce]; rw [hu]; exact hb) (by rw [hu]; exact hwalk)
    (by rw [hu]; exact hl) (by rw [pool]; rw [hu]; exact hk)
  have page : s.grantMoves.page m.page = s.page m.page := by rw [hu]; rfl
  have lost : s.grantMoves.granuleLost (s.grantMoves.descAddr (m.withCredit c).page) = false := State.granuleLost_none _ _ (by rw [hu]; exact hd)
  have try_eq : s.grantMoves.tryStart (m.withCredit c) = s.grantMoves.startInward (m.withCredit c) := by
    rw [State.tryStart, if_neg (show (m.withCredit c).credit ≠ 0 from hcredit m hc), if_neg (Bool.eq_false_iff.mp lost),
      if_pos (show (m.withCredit c).kind.inward = true from hi)]
  have down : v.dev.pchDown = [] := pchDown_kept frame (by rw [hu]; exact hd)
  obtain ⟨y, hy, started, kind, tier, loc⟩ := State.startMove_moveOf v (x := m.withCredit c) ((frame.moveOf _).trans move) (s.grantMoves.page m.page).tier
    (s.grantMoves.locPort (s.grantMoves.page m.page).tier (s.grantMoves.page m.page).location) (s.grantMoves.page m.page).location run w
  have moving := State.startMove_page down (m.withCredit c) (s.grantMoves.page m.page).tier
    (s.grantMoves.locPort (s.grantMoves.page m.page).tier (s.grantMoves.page m.page).location) (s.grantMoves.page m.page).location run w
  rw [show v.page (m.withCredit c).page = s.page m.page from (page_congr pages _).trans page] at moving
  refine ⟨_, y, exec_gathererMoveStart hs he waiting (try_eq.trans start), hy, started, kind, page ▸ tier, page ▸ loc, ?_, ?_⟩
  · exact congrArg Page.moving moving
  · exact (congrArg Page.tier moving).trans rfl

/-- Settles O44: the start, the landing, the two failures and the two timeouts of an inward move, each by its own lemma. -/
theorem inwardMoves : Obligations.InwardMoves := by
  intro s page m hs hd hm g failed due
  obtain rfl := s.moveOf_page hm
  refine ⟨fun he hw hi hc hst ht hp hr hb hwalk hl hk => ?_, fun data c b hst hi hk hh hl hc hb => ?_, fun cause hst hi => ?_,
    fun hst hi => ⟨fun hle => ?_, fun hlt => ?_⟩, fun hst hk ht => ⟨fun hle hn => ?_, fun hlt => ?_⟩⟩
  · obtain ⟨r, hw⟩ := hw
    exact gatherer_starts hs hd he hm hw hi hc hst ht hp hr hb hwalk hl hk
  · have read := OnlyChanges.tierRead s m data
    have lands := land_lands (s := (s.tierRead m data).1) (pchDown_kept read hd) hk b
      (by rw [read.page, State.awaited, read .flights (by decide)]; exact hh)
    obtain ⟨tier, loc, move, bytes, others, readers⟩ := lands
    refine ⟨_, exec_inwardMoveLanded hs hd hm hst hi hl hc hb, tier, loc, move, bytes, fun a ha => ?_, fun f y hf hw => ?_⟩
    · exact (others a ha).trans (by rw [read .t0 (by decide)])
    · exact readers f y ((flight?_congr (read .flights (by decide)) f).trans hf) hw
  · have fails (k : Nat) := failInward_failed hd m k
    refine ⟨_, exec_inwardMoveFailed hs hm hst hi cause, ?_⟩
    by_cases h : cause = 1 ∧ m.tier ≠ 2
    · rw [if_pos h, if_pos h]
      exact fails 1
    · rw [if_neg h, if_neg h]
      exact fails 0
  · refine ⟨_, exec_tierReadTimeout hs hm hst hi, ?_⟩
    rw [if_pos hle]
    exact (failInward_failed hd m 3).1
  · rw [exec_tierReadTimeout hs hm hst hi, if_neg (Nat.not_le.mpr hlt), State.framed_self]
  · refine ⟨_, exec_demandLandingTimeout hs hm hst hk ht, ?_⟩
    rw [if_pos ⟨hle, hn⟩]
    obtain ⟨v, hv⟩ := s.endMove_page m m.page
    exact (FailedMove.of_readers (v := v) (p := g.poison) (s.endMove_moveOf m) hv (OnlyChanges.endMove s m .flights (by decide)) _ _).1
  · rw [exec_demandLandingTimeout hs hm hst hk ht, if_neg fun h => Nat.not_le.mpr hlt h.1, State.framed_self]

end Sys2Proof.Machine
end

section
-- One proof after another: so many at once would not fit beside the model in memory.
set_option Elab.async false
/-! What the Colophon's messages and commands, and the service processors' requests and restarts, leave unchanged. -/
namespace Sys2Proof.Machine
open Sys2Proof

/-! ## Answers -/

/-- The state beside an answer, when a condition decides between two answers. -/
theorem OnlyChanges.iteSnd {α : Type} {l : List Part} {s : State} {c : Prop} [Decidable c] {x y : α × State} (h : c → OnlyChanges l s x.2)
    (k : ¬c → OnlyChanges l s y.2) : OnlyChanges l s (if c then x else y).2 := by
  split
  · exact h ‹_›
  · exact k ‹_›
/-- The same of an answer of three parts. -/
theorem OnlyChanges.iteThird {α β : Type} {l : List Part} {s : State} {c : Prop} [Decidable c] {x y : α × β × State} (h : c → OnlyChanges l s x.2.2)
    (k : ¬c → OnlyChanges l s y.2.2) : OnlyChanges l s (if c then x else y).2.2 := by
  split
  · exact h ‹_›
  · exact k ‹_›

/-! ## Two parts set at once -/

theorem OnlyChanges.setDevSec (s : State) (d : Dev) (x : Sec) : OnlyChanges [.dev, .sec] s { s with dev := d, sec := x } :=
  (OnlyChanges.setSec { s with dev := d } x).seq (OnlyChanges.setDev s d).mono
theorem OnlyChanges.setDevFw (s : State) (d : Dev) (w : Fw) : OnlyChanges [.dev, .fw] s { s with dev := d, fw := w } :=
  (OnlyChanges.setFw { s with dev := d } w).seq (OnlyChanges.setDev s d).mono

/-! ## SPDM (12 R378 to R382) -/

theorem OnlyChanges.keepM (s : State) (t : Nat) (m : Bytes) : OnlyChanges [.sec] s (s.keepM t m) := .setSec s _
theorem OnlyChanges.dropM (s : State) (t : Nat) : OnlyChanges [.sec] s (s.dropM t) := .setSec s _
theorem OnlyChanges.signed (s : State) (t : Nat) (req unsigned : Bytes) : OnlyChanges [.sec] s (s.signed t req unsigned).2 := .keepM s t _
theorem OnlyChanges.nonce32 (s : State) : OnlyChanges [.sec] s s.nonce32.2 := .drbg s 4
theorem OnlyChanges.getMeasurements (s : State) (t : Nat) (m : Bytes) : OnlyChanges [.sec] s (s.getMeasurements t m).2 :=
  .iteSnd (fun _ => .refl _ s) fun _ => .iteSnd (fun _ => .refl _ s) fun _ =>
    .iteSnd (fun _ => (OnlyChanges.signed _ t m _).seq (.nonce32 s)) fun _ => .nonce32 s
theorem OnlyChanges.challenge (s : State) (t : Nat) (m : Bytes) : OnlyChanges [.sec] s (s.challenge t m).2 :=
  .iteSnd (fun _ => .refl _ s) fun _ => .iteSnd (fun _ => .refl _ s) fun _ => (OnlyChanges.signed _ t m _).seq (.nonce32 s)
theorem OnlyChanges.newSession (s : State) (reqId : Nat) : OnlyChanges [.free] s (s.newSession reqId).2 := .draw s

/-- What an SPDM request changes beside its response: the Colophon's state, and a free value for a session's number. -/
abbrev spdmParts : List Part := [.free, .sec]
theorem OnlyChanges.keyExchange (s : State) (t : Nat) (m : Bytes) : OnlyChanges spdmParts s (s.keyExchange t m).2 := by
  refine .iteSnd (fun _ => .refl _ s) fun _ => ?_
  split
  · exact .refl _ s
  · refine .iteSnd (fun _ => .refl _ s) fun _ => .iteSnd (fun _ => .refl _ s) fun _ => ?_
    exact (OnlyChanges.setSec _ _).seq ((OnlyChanges.signed _ t m _).seq ((OnlyChanges.nonce32 _).seq ((OnlyChanges.nonce32 _).seq
      (OnlyChanges.newSession s _).mono)))
theorem OnlyChanges.endSession (s : State) (id : Nat) : OnlyChanges [.sec] s (s.endSession id) := .setSec s _
theorem OnlyChanges.endSessions (s : State) : OnlyChanges [.sec] s s.endSessions :=
  .foldl (α := Nat × Session) _ (fun u p => .endSession u p.1) s.sec.sessions s
theorem OnlyChanges.pqSignature (s : State) (t : Nat) : OnlyChanges [.sec] s (s.pqSignature t).2 := by
  refine .iteSnd (fun _ => .refl _ s) fun _ => ?_
  split <;> exact .refl _ s
theorem OnlyChanges.keyRelease (s : State) (sid : Nat) (p : Bytes) : OnlyChanges [.sec] s (s.keyRelease sid p).2 :=
  .iteSnd (fun _ => .refl _ s) fun _ => .iteSnd (fun _ => .refl _ s) fun _ => .iteSnd (fun _ => .refl _ s) fun _ => .updSlot s _ _
theorem OnlyChanges.keyErase (s : State) (sid : Nat) (p : Bytes) : OnlyChanges [.sec] s (s.keyErase sid p).2 :=
  .iteSnd (fun _ => .refl _ s) fun _ => .iteSnd (fun _ => .refl _ s) fun _ => .updSlot s _ _
theorem OnlyChanges.contextKey (s : State) (sid : Nat) (p : Bytes) : OnlyChanges [.sec] s (s.contextKey sid p).2 :=
  .iteSnd (fun _ => .refl _ s) fun _ => .iteSnd (fun _ => .refl _ s) fun _ => .iteSnd (fun _ => .refl _ s) fun _ =>
    .iteSnd (fun _ => .refl _ s) fun _ => .updCoCtx s _ _
theorem OnlyChanges.vendor (s : State) (t sid : Nat) (m : Bytes) : OnlyChanges [.sec] s (s.vendor t sid m).2 := by
  unfold State.vendor
  split
  · exact .refl _ s
  · exact .iteSnd (fun _ => .pqSignature s t) fun _ => .iteSnd (fun _ => .refl _ s) fun _ => .iteSnd (fun _ => .refl _ s) fun _ =>
      .iteSnd (fun _ => .keyRelease s sid _) fun _ => .iteSnd (fun _ => .keyErase s sid _) fun _ => .contextKey s sid _
theorem OnlyChanges.capabilities (s : State) (t : Nat) (m : Bytes) : OnlyChanges [.sec] s (s.capabilities t m).2 :=
  .iteSnd (fun _ => .refl _ s) fun _ => .updConn s t _
theorem OnlyChanges.finishSession (s : State) (sid : Nat) (m : Bytes) : OnlyChanges [.sec] s (s.finishSession sid m).2 :=
  .iteSnd (fun _ => .refl _ s) fun _ => .iteSnd (fun _ => .endSession s sid) fun _ => .updSession s sid _
theorem OnlyChanges.keyUpdate (s : State) (sid : Nat) (m : Bytes) : OnlyChanges [.sec] s (s.keyUpdate sid m).2 :=
  .iteSnd (fun _ => .refl _ s) fun _ => .updSession s sid _
theorem OnlyChanges.inSession (s : State) (sid code : Nat) (m : Bytes) : OnlyChanges [.sec] s (s.inSession sid code m).2 :=
  .iteSnd (fun _ => .refl _ s) fun _ => .iteSnd (fun _ => .finishSession s sid m) fun _ => .iteSnd (fun _ => .refl _ s) fun _ =>
    .iteSnd (fun _ => .keyUpdate s sid m) fun _ => .endSession s sid
theorem OnlyChanges.spdmWhole (s : State) (t sid : Nat) (m : Bytes) : OnlyChanges spdmParts s (s.spdmWhole t sid m).2 := by
  have forget : OnlyChanges spdmParts s (s.dropM t) := (OnlyChanges.dropM s t).mono
  refine .iteSnd (fun _ => forget) fun _ => .iteSnd (fun _ => forget) fun _ => .iteSnd (fun _ => forget) fun _ => .iteSnd (fun _ => forget) fun _ =>
    .iteSnd (fun _ => (OnlyChanges.dropM _ t).seq (OnlyChanges.vendor s t sid m).mono) fun _ => ?_
  exact .iteSnd (fun _ => (OnlyChanges.getMeasurements _ t m).seq forget) fun _ => .iteSnd (fun _ => (OnlyChanges.challenge _ t m).seq forget) fun _ =>
    .iteSnd (fun _ => forget.trans (.keyExchange _ t m)) fun _ => .iteSnd (fun _ => forget) fun _ =>
      .iteSnd (fun _ => (OnlyChanges.capabilities _ t m).seq forget) fun _ => .iteSnd (fun _ => forget) fun _ => .iteSnd (fun _ => forget) fun _ =>
        .iteSnd (fun _ => forget) fun _ => (OnlyChanges.inSession _ sid _ m).seq forget
theorem OnlyChanges.sized (s : State) (t sid : Nat) (r : Bytes) : OnlyChanges [.sec] s (s.sized t sid r).2 :=
  .iteSnd (fun _ => .refl _ s) fun _ => .updConn s t _
theorem OnlyChanges.spdmSized (s : State) (t sid : Nat) (m : Bytes) : OnlyChanges spdmParts s (s.spdmSized t sid m).2 :=
  (OnlyChanges.sized _ t sid _).seq ((OnlyChanges.spdmWhole _ t sid m).trans' (.ite (fun _ => .refl _ s) fun _ => (OnlyChanges.updConn s t _).mono))
theorem OnlyChanges.chunkSend (s : State) (t sid : Nat) (m : Bytes) : OnlyChanges spdmParts s (s.chunkSend t sid m).2 := by
  unfold State.chunkSend
  extract_lets c last h seq n head total got clear fits
  have hc : OnlyChanges spdmParts s clear := (OnlyChanges.updConn s t _).mono
  have hd : OnlyChanges spdmParts s (clear.dropM t) := (OnlyChanges.dropM clear t).seq hc
  refine .iteSnd (fun _ => hd) fun _ => .iteSnd (fun _ => ?_) fun _ => (OnlyChanges.updConn _ t _).seq (OnlyChanges.dropM s t).mono
  exact OnlyChanges.iteSnd (fun _ => hd) fun _ => hc.trans (.spdmSized clear t sid got)
theorem OnlyChanges.chunkGet (s : State) (t sid : Nat) (m : Bytes) : OnlyChanges [.sec] s (s.chunkGet t sid m).2 :=
  .iteSnd (fun _ => .dropM s t) fun _ => (OnlyChanges.updConn _ t _).seq (.dropM s t)
theorem OnlyChanges.spdmAnswer (s : State) (t sid : Nat) (m : Bytes) : OnlyChanges spdmParts s (s.spdmAnswer t sid m).2 :=
  .iteSnd (fun _ => .iteSnd (fun _ => (OnlyChanges.dropM s t).mono) fun _ => .iteSnd (fun _ => .chunkSend s t sid m) fun _ =>
    (OnlyChanges.chunkGet s t sid m).mono) fun _ => .spdmSized s t sid m
theorem OnlyChanges.spdmReply (s : State) (t sid : Nat) (k : BitVec 256 × Nat) (r : Bytes) : OnlyChanges [.sec, .out] s (s.spdmReply t sid k r) :=
  .ite (fun _ => (OnlyChanges.setSec s _).mono) fun _ => (OnlyChanges.emitOut s _).mono
/-- What an SPDM request changes, its response among it. -/
abbrev spdmRow : List Part := [.free, .sec, .out]
theorem OnlyChanges.spdm (s : State) (t sid : Nat) (m : Bytes) : OnlyChanges spdmRow s (s.spdm t sid m) := by
  refine .ite (fun _ => .refl _ s) fun _ => ?_
  split
  · exact .refl _ s
  · exact .ite (fun _ => (OnlyChanges.spdmReply s t 0 _ _).mono) fun _ => .refl _ s
  · exact (OnlyChanges.spdmReply _ t 0 _ _).seq (OnlyChanges.dropM s t).mono
  · refine .ite (fun _ => .refl _ s) fun _ => ?_
    exact (OnlyChanges.spdmReply _ t sid _ _).seq ((OnlyChanges.spdmAnswer _ t sid m).seq
      (.ite (fun _ => .refl _ s) fun _ => (OnlyChanges.updSession s sid _).mono))

/-! ## CO_CMD and the Colophon mailbox (12 R391) -/

theorem OnlyChanges.coCmd (s : State) {f : State → BitVec 16 × State} (h : OnlyChanges [.sec] s (f s).2) : OnlyChanges [.sec] s (s.coCmd f) := by
  refine .ite (fun _ => .refl _ s) fun _ => ?_
  split
  · exact (OnlyChanges.setSec _ _).seq h
  · exact .setSec s _
  · exact .refl _ s
theorem OnlyChanges.coCmdWrite (s : State) (v : Nat) : OnlyChanges [.sec] s (s.coCmdWrite v) := by
  unfold State.coCmdWrite
  dsimp only
  split
  · exact .coCmd s (.iteSnd (fun _ => .refl _ s) fun _ => .updSlot s _ _)
  · exact .coCmd s (.iteSnd (fun _ => .refl _ s) fun _ => .updCoCtx s _ _)
  · exact .coCmd s (.iteSnd (fun _ => .refl _ s) fun _ => .updSlot s _ _)
  · exact .coCmd s (.setSec s _)
  · exact .coCmd s (.iteSnd (fun _ => .setSec s _) fun _ => .refl _ s)
  · exact .coCmd s (.refl _ s)
theorem OnlyChanges.coSecured (s : State) (m : Bytes) : OnlyChanges spdmRow s (s.coSecured m) := by
  refine .ite (fun _ => .spdm s 3 0 m) fun _ => .ite (fun _ => .refl _ s) fun _ => ?_
  split
  · exact .spdm s 3 _ _
  · exact (OnlyChanges.spdmReply _ 3 _ _ _).seq (OnlyChanges.updSession s _ _).mono
theorem OnlyChanges.coMbox (s : State) (v : Nat) : OnlyChanges spdmRow s (s.coMbox v) := by
  have go (b : Bool) (m : Bytes) : OnlyChanges spdmRow s (if b then { s with sec := { s.sec with mboxDone := false } }.coSecured m else
      { s with sec := { s.sec with mboxDone := false } }.spdm 3 0 m) :=
    .ite (fun _ => (OnlyChanges.coSecured _ m).trans' (OnlyChanges.setSec s _).mono) fun _ =>
      (OnlyChanges.spdm _ 3 0 m).trans' (OnlyChanges.setSec s _).mono
  exact .ite (fun _ => .refl _ s) fun _ => go _ _
theorem OnlyChanges.setMeas (s : State) (i : Nat) (d : BitVec 384) : OnlyChanges [.sec] s (s.setMeas i d) := .setSec s _

/-! ## Restarts and the mailbox (14 R426 to R438) -/

theorem OnlyChanges.fwDone (s : State) (st : BitVec 16) (p : Bytes) : OnlyChanges [.fw] s (s.fwDone st p) := .setFw s _
theorem OnlyChanges.spRestart (s : State) (n : Nat) (activation : Bool) : OnlyChanges [.sec, .fw] s (s.spRestart n activation) := by
  refine .ite (fun _ => (OnlyChanges.fwDone _ _ _).seq ?_) fun _ => ?_ <;>
    exact (OnlyChanges.fwEvent _ 1 _).seq ((OnlyChanges.setSec _ _).seq ((OnlyChanges.updSp _ n _).seq ((OnlyChanges.setMeas _ _ _).seq
      (OnlyChanges.trace s 2 _).mono)))
theorem OnlyChanges.spWrite (s : State) (n v : Nat) : OnlyChanges [.sec, .fw] s (s.spWrite n v) := by
  refine .ite (fun _ => .refl _ s) fun _ => ?_
  extract_lets u
  have hu : OnlyChanges [.sec, .fw] s u := .ite (fun _ => (OnlyChanges.updSp s n _).mono) fun _ => .refl _ s
  exact .ite (fun _ => hu.trans (.spRestart u n false)) fun _ => hu

/-- What the answer to a firmware request changes. -/
abbrev answerParts : List Part := [.dev, .sec, .fw]
theorem OnlyChanges.hello (s : State) (major minor : Nat) : OnlyChanges answerParts s (s.hello major minor).2.2 := by
  unfold State.hello
  extract_lets ok st _ _ u w
  have hu : OnlyChanges answerParts s u := .ite (fun _ => (OnlyChanges.setDevSec s _ _).mono) fun _ => .refl _ s
  exact (OnlyChanges.fwEvent u _ _).seq hu
theorem OnlyChanges.fwStage (s : State) (p : Bytes) : OnlyChanges [.fw] s (s.fwStage p).2.2 :=
  .iteThird (fun _ => .refl _ s) fun _ => .iteThird (fun _ => .refl _ s) fun _ => .iteThird (fun _ => .refl _ s) fun _ =>
    (OnlyChanges.setFw _ _).seq (.updImage s _ _)
theorem OnlyChanges.fwVerify (s : State) (p : Bytes) : OnlyChanges [.fw] s (s.fwVerify p).2.2 := by
  refine .iteThird (fun _ => .refl _ s) fun _ => .iteThird (fun _ => .refl _ s) fun _ => .iteThird (fun _ => .refl _ s) fun _ => ?_
  have h : OnlyChanges [.fw] s (if s.fw.staging = msgByte p 0 + 1 then
      { s with fw := { s.fw with staging := 0, stageTop := 0, stageShort := false } } else s) := .ite (fun _ => .setFw s _) fun _ => .refl _ s
  exact OnlyChanges.iteThird (fun _ => (OnlyChanges.updImage _ _ _).seq h) fun _ => h
theorem OnlyChanges.fwActivate (s : State) (p : Bytes) : OnlyChanges answerParts s (s.fwActivate p).2.2 := by
  unfold State.fwActivate
  extract_lets i u w x
  have hw : OnlyChanges answerParts s w := (OnlyChanges.fwEvent _ 2 _).seq (OnlyChanges.updImage s i _).mono
  exact .iteThird (fun _ => .refl _ s) fun _ => .iteThird (fun _ => .refl _ s) fun _ => .iteThird (fun _ => .refl _ s) fun _ =>
    .iteThird (fun _ => .refl _ s) fun _ => .iteThird (fun _ => (OnlyChanges.spRestart w _ true).seq hw) fun _ =>
      .iteThird (fun _ => (OnlyChanges.setDev w _).seq hw) fun _ => (OnlyChanges.setSec _ _).seq ((OnlyChanges.endSessions w).seq hw)
theorem OnlyChanges.fwAnswer (s : State) (bus recovery : Bool) (m : Bytes) : OnlyChanges answerParts s (s.fwAnswer bus recovery m).2.2 := by
  refine .iteThird (fun _ => .refl _ s) fun _ => .iteThird (fun _ => .refl _ s) fun _ => ?_
  split
  · exact .refl _ s
  · refine .iteThird (fun _ => .refl _ s) fun _ => .iteThird (fun _ => .refl _ s) fun _ => .iteThird (fun _ => .refl _ s) fun _ => ?_
    split
    · exact .hello s _ _
    · exact .refl _ s
    · exact (OnlyChanges.fwStage s _).mono
    · exact (OnlyChanges.fwVerify s _).mono
    · exact .fwActivate s _
    · exact .iteThird (fun _ => .refl _ s) fun _ => .refl _ s
    · exact (OnlyChanges.setFw s _).mono
    · exact .refl _ s
theorem OnlyChanges.fwRun (s : State) (recovery : Bool) : OnlyChanges answerParts s (s.fwRun recovery) :=
  (OnlyChanges.fwDone _ _ _).seq (.fwAnswer s false recovery s.fw.request)
theorem OnlyChanges.fwServe (s : State) : OnlyChanges answerParts s s.fwServe := by
  have hold : OnlyChanges answerParts s { s with fw := { s.fw with mboxHeld := true } } := (OnlyChanges.setFw s _).mono
  refine .ite (fun _ => .refl _ s) fun _ => .ite (fun _ => hold) fun _ => ?_
  split
  · exact .fwRun s false
  · exact .fwRun s true
  · exact .fwRun s true
  · exact hold
theorem OnlyChanges.startServing (s : State) : OnlyChanges answerParts s s.startServing := by
  unfold State.startServing
  extract_lets sp due _ _ u
  have hu : OnlyChanges answerParts s u := .ite (fun _ => (OnlyChanges.setDevFw s _ _).mono) fun _ => .refl _ s
  exact hu.trans (.fwServe u)
/-- What a firmware request of any source changes: the row of every command that submits one. -/
abbrev requestParts : List Part := [.dev, .sec, .fw, .out]
theorem OnlyChanges.fwSubmit (s : State) (src : Nat) (m : Bytes) : OnlyChanges requestParts s (s.fwSubmit src m) :=
  .ite (fun _ => .ite (fun _ => .refl _ s) fun _ => (OnlyChanges.fwServe _).seq (OnlyChanges.setFw s _).mono) fun _ =>
    .ite (fun _ => (OnlyChanges.emitOut _ _).seq (OnlyChanges.fwAnswer s true false m).mono) fun _ => .refl _ s
theorem OnlyChanges.fwMbox (s : State) (v : Nat) : OnlyChanges requestParts s (s.fwMbox v) :=
  .ite (fun _ => .refl _ s) fun _ => .fwSubmit s 3 _
theorem OnlyChanges.copyLogs (s : State) : OnlyChanges [.fw] s s.copyLogs := by
  unfold State.copyLogs
  extract_lets n u w
  have hu : OnlyChanges [.fw] s u := by
    refine .foldl (α := Nat) _ (fun x i => ?_) _ s
    dsimp only
    split
    · exact .logEntry x _ _ _ _
    · exact .refl _ x
  have hw : OnlyChanges [.fw] s w := hu.trans (.foldl _ (fun x e => (OnlyChanges.setFw _ _).seq (.logEntry x e.kind e.point e.data none)) _ u)
  exact (OnlyChanges.setFw w _).seq hw

end Sys2Proof.Machine
end

section
-- One proof after another: so many at once would not fit beside the model in memory.
set_option Elab.async false
/-! O10: every command of the family tier leaves what its row of `Instr.touches` does not name. -/
namespace Sys2Proof.Machine
open Sys2Proof

/-! ## Moves that fail leave T0 as it was -/

/-- What the end of a move without its page changes: what its readers end with, and the tiers. -/
abbrev lostParts : List Part := .tier :: finishParts
/-- The same of a move that a gathering may have asked for. -/
abbrev failParts : List Part := .gaths :: lostParts

theorem OnlyChanges.inwardOver (s : State) (m : Move) : OnlyChanges failParts s (s.inwardOver m) := by
  unfold State.inwardOver
  extract_lets t u
  have h1 : OnlyChanges failParts s (s.endMove m) := (OnlyChanges.endMove s m).mono
  have ht : OnlyChanges failParts s t := .ite (fun _ => (OnlyChanges.countDev _ 13 1).seq h1) fun _ => (OnlyChanges.countDev _ 12 1).seq h1
  have hu : OnlyChanges failParts s u := .ite (fun _ => (OnlyChanges.freePool t _).seq ht) fun _ => ht
  exact .ite (fun _ => (OnlyChanges.updGath u m.gath _).seq hu) fun _ => hu
theorem OnlyChanges.inwardLost (s : State) (m : Move) (cause : Nat) : OnlyChanges failParts s (s.inwardLost m cause) :=
  .ite (fun _ => .inwardOver s m) fun _ => (OnlyChanges.poisonPage _ m.page).seq (.inwardOver s m)
/-- A failed inward move writes no byte of T0. -/
theorem OnlyChanges.failedInward (s : State) (m : Move) (cause : Nat) : OnlyChanges failParts s (s.failInward m cause) := by
  obtain ⟨u, hu, e⟩ := s.failInward_eq m cause
  rw [e]
  exact (OnlyChanges.failReaders u m.page m.tier _).seq (hu.seq (.inwardLost s m cause))
/-- A move whose page's descriptor is lost writes no byte of T0. -/
theorem OnlyChanges.lostDescriptor (s : State) (m : Move) : OnlyChanges lostParts s (s.lostMove m) := by
  unfold State.lostMove
  extract_lets p tier r s1 s2 s3 s4
  have h1 : OnlyChanges lostParts s s1 := (OnlyChanges.endMove s m).mono
  have h2 : OnlyChanges lostParts s s2 := .ite (fun _ => (OnlyChanges.freePool s1 _).seq h1) fun _ => h1
  have h3 : OnlyChanges lostParts s s3 := .ite (fun _ => (OnlyChanges.freeHome s2 _ _ _).seq h2) fun _ => h2
  have h4 : OnlyChanges lostParts s s4 := (OnlyChanges.badGranule s3 _ _ _ _ _ _).seq h3
  exact .ite (fun _ => (OnlyChanges.failReaders s4 p tier stPoisoned).seq h4) fun _ => (OnlyChanges.demoteEnded s4 p false).seq h4

/-! ## Moves that start (05 R162 to R165) -/

theorem OnlyChanges.takeWalker {s : State} {r : Nat × State} (h : s.takeWalker = some r) : OnlyChanges [.ps] s r.2 := by
  unfold State.takeWalker at h
  exact .of_map h fun i => .setPs s _
theorem OnlyChanges.takeHome (s : State) (tier loc n : Nat) : OnlyChanges [.tier] s (s.takeHome tier loc n) :=
  .ite (fun _ => (OnlyChanges.updPort _ _ _).seq (.setTier s _)) fun _ =>
    .ite (fun _ => (OnlyChanges.updPort _ _ _).seq (.setTier s _)) fun _ => .setTier s _
theorem OnlyChanges.startMove (s : State) (m : Move) (tier port loc landing walker : Nat) :
    OnlyChanges pageParts s (s.startMove m tier port loc landing walker) := by
  unfold State.startMove
  extract_lets n u
  have hu : OnlyChanges pageParts s u := .ite (fun _ => .refl _ s) fun _ => (OnlyChanges.takeCredits s _ n).mono
  exact (OnlyChanges.updMove _ m.page _).seq ((OnlyChanges.updPage u m.page _).seq hu)

/-- What the Gatherer changes when it starts a move: the row of the command. -/
abbrev gathererParts : List Part := [.free, .ctxs, .flights, .pools, .fns, .vms, .ps, .tier, .gaths, .fq, .net, .err, .fw, .pwr, .out]
theorem OnlyChanges.startInward {s t : State} {m : Move} (h : s.startInward m = some t) : OnlyChanges gathererParts s t := by
  unfold State.startInward at h
  dsimp only at h
  split at h
  · cases h
    exact (OnlyChanges.resumeReaders _ m.page).seq (OnlyChanges.endMove s m).mono
  split at h
  · cases h
    exact (OnlyChanges.failedInward s _ 0).mono
  split at h
  · cases h
  split at h
  · cases h
  · next w u hw =>
    have hu : OnlyChanges gathererParts s u := (OnlyChanges.takeWalker hw).mono
    split at h
    · cases h
    · next run v hv =>
      cases h
      have hv : OnlyChanges [.free, .ps] u v := by
        split at hv
        · exact .takeRun hv
        · exact .takePool hv
      exact (OnlyChanges.emitOut _ _).seq ((OnlyChanges.startMove v m _ _ _ _ _).seq (hv.seq hu))

theorem OnlyChanges.reclaimT2 (s : State) (n : Nat) (ps : List Nat) : OnlyChanges [.ps] s (s.reclaimT2 n ps) := by
  induction ps generalizing s with
  | nil => exact .refl _ s
  | cons p r ih => exact .ite (fun _ => .refl _ s) fun _ => (ih _).trans' (.retireHome s p)
/-- What an outward move changes that cannot go. -/
abbrev stayParts : List Part := [.flights, .pools, .ps, .tier] ++ evParts
theorem OnlyChanges.noOutward (s : State) (m : Move) (tier : Nat) : OnlyChanges stayParts s (s.noOutward m tier) := by
  unfold State.noOutward
  extract_lets u v
  have hu : OnlyChanges stayParts s u := (OnlyChanges.endMove s m).mono
  have hv : OnlyChanges stayParts s v := (OnlyChanges.demoteEnded _ m.page false).seq ((OnlyChanges.report u _).seq hu)
  exact .ite (fun _ => .ite (fun _ => (OnlyChanges.askMove v _ _ _ _ _).seq hv) fun _ => hv) fun _ => hu
/-- An outward move's write, submitted for a run that it has taken. -/
def State.writeOut (s : State) (m : Move) (g : Page) (t port loc w : Nat) : State :=
  let s := s.takeHome t loc g.sheets
  let (c, tag) := s.sealRun m.page t
  let s := s.updAux (s.page m.page).aux fun a => { a with keyScope := g.scope, tag := tag }
  let s := s.startMove m t port loc 0 w
  let s := s.emitOut (if t = 3 then .upWrite 0 ((s.tier.swapBase + loc) * 4096) c else .portWrite port loc g.sheets c)
  if t = 1 then s.emitOut (.portCheck port (s.checkAddr port loc) (checkBytes c)) else s
theorem OnlyChanges.writeOut (s : State) (m : Move) (g : Page) (t port loc w : Nat) : OnlyChanges (.out :: pageParts) s (s.writeOut m g t port loc w) := by
  unfold State.writeOut
  extract_lets u
  have hu : OnlyChanges (.out :: pageParts) s u := (OnlyChanges.takeHome s t loc _).mono
  generalize u.sealRun m.page t = c
  refine .ite (fun _ => (OnlyChanges.emitOut _ _).seq ?_) fun _ => ?_ <;>
    exact (OnlyChanges.emitOut _ _).seq ((OnlyChanges.startMove _ m t port loc 0 w).seq ((OnlyChanges.updAux u _ _).seq hu))
theorem OnlyChanges.startOutward {s t : State} {m : Move} (h : s.startOutward m = some t) : OnlyChanges gathererParts s t := by
  unfold State.startOutward at h
  extract_lets p g still tiers at h
  clear_value still tiers
  have ended : OnlyChanges gathererParts s (s.endMove m) := (OnlyChanges.endMove s m).mono
  split at h
  · cases h
    exact (OnlyChanges.demoteEnded _ m.page false).seq ended
  split at h
  · cases h
    exact (OnlyChanges.demoteEnded _ m.page false).seq ((OnlyChanges.badGranule _ _ _ _ _ _ _).seq ((OnlyChanges.poisonPage _ m.page).seq ended))
  have drawn : OnlyChanges gathererParts s s.draw.2 := (OnlyChanges.draw s).mono
  generalize s.draw = d at h drawn
  obtain ⟨pick, d⟩ := d
  dsimp only at h drawn
  split at h
  · split at h <;> cases h
    exact (OnlyChanges.noOutward d m _).seq drawn
  · next u hu =>
    have hu : OnlyChanges gathererParts s u := (OnlyChanges.needAux hu).seq drawn
    split at h
    · split at h
      · cases h
        exact (OnlyChanges.noOutward u m _).seq hu
      · have hv : OnlyChanges gathererParts s (if tiers.contains 2 then u.reclaimT2 g.sheets u.t2Cached else u) :=
          .ite (fun _ => (OnlyChanges.reclaimT2 u _ _).seq hu) fun _ => hu
        generalize (if tiers.contains 2 then u.reclaimT2 g.sheets u.t2Cached else u) = v at h hv
        split at h
        · cases h
          exact hv
        split at h <;> cases h
        exact (OnlyChanges.noOutward u m _).seq hu
    · split at h
      · cases h
      split at h
      · cases h
      · next w v hw =>
        have hv : OnlyChanges gathererParts s v := (OnlyChanges.takeWalker hw).seq hu
        cases h
        exact (OnlyChanges.writeOut v m (s.page m.page) _ _ _ _).seq hv

theorem OnlyChanges.grantMoves (s : State) : OnlyChanges [.pools, .tier] s s.grantMoves :=
  .foldl (α := Move) (fun (u : State) m => (u.moveCredit m).1) (fun u m => .moveCredit u m) _ s
theorem OnlyChanges.tryStart {s t : State} {m : Move} (h : s.tryStart m = some t) : OnlyChanges gathererParts s t := by
  unfold State.tryStart at h
  split at h
  · cases h
  split at h
  · cases h
    exact (OnlyChanges.lostDescriptor s m).mono
  split at h
  · exact .startInward h
  · exact .startOutward h
theorem OnlyChanges.execGathererMoveStart {s t : State} (e : execGathererMoveStart s = .next t) : OnlyChanges gathererParts s t := by
  refine .act e (.ite (fun _ => .refl _ s) fun _ => ?_)
  have granted : OnlyChanges gathererParts s s.grantMoves := (OnlyChanges.grantMoves s).mono
  dsimp only
  generalize s.grantMoves = u at granted ⊢
  cases hf : (sortBy Move.before (u.tier.moves.filter fun m => !m.started)).findSome? u.tryStart with
  | none => exact granted
  | some v =>
    obtain ⟨m, -, hm⟩ := List.exists_of_findSome?_eq_some hf
    exact granted.trans (.tryStart hm)

/-! ## Moves that end -/

/-- The row of a landing. -/
abbrev landedRow : List Part := [.free, .t0, .ctxs, .flights, .pools, .fns, .vms, .ps, .tier, .gaths, .fq, .net, .err, .fw, .pwr, .out]
/-- The row of a move that ends beside the gatherings. -/
abbrev moveEndRow : List Part := [.free, .ctxs, .flights, .pools, .fns, .vms, .ps, .tier, .fq, .net, .err, .fw, .pwr, .out]
/-- The row of an outward write that fails. -/
abbrev writeFailRow : List Part := [.flights, .pools, .fns, .vms, .ps, .tier, .err, .fw, .out]

theorem OnlyChanges.execInwardMoveLanded {s t : State} {page : Nat} {data : List (BitVec 8)} (e : execInwardMoveLanded page data s = .next t) :
    OnlyChanges landedRow s t := by
  refine .act e ?_
  split
  · exact .ite (fun _ => (OnlyChanges.runRead s _ data).mono) fun _ => .refl _ s
  · exact .refl _ s
theorem OnlyChanges.execInwardMoveFailed {s t : State} {page cause : Nat} (e : execInwardMoveFailed page cause s = .next t) :
    OnlyChanges gathererParts s t := by
  refine .act e ?_
  split
  · exact .ite (fun _ => (OnlyChanges.failedInward s _ _).mono) fun _ => .refl _ s
  · exact .refl _ s
theorem OnlyChanges.execTierReadTimeout {s t : State} {page : Nat} (e : execTierReadTimeout page s = .next t) : OnlyChanges gathererParts s t := by
  refine .act e ?_
  split
  · exact .ite (fun _ => (OnlyChanges.failedInward s _ _).mono) fun _ => .refl _ s
  · exact .refl _ s
theorem OnlyChanges.execDemandLandingTimeout {s t : State} {page : Nat} (e : execDemandLandingTimeout page s = .next t) :
    OnlyChanges moveEndRow s t := by
  refine .act e ?_
  split
  · exact .ite (fun _ => (OnlyChanges.failReaders _ page _ stTimeout).seq (OnlyChanges.endMove s _).mono) fun _ => .refl _ s
  · exact .refl _ s
theorem OnlyChanges.execOutwardMoveDone {s t : State} {page : Nat} (e : execOutwardMoveDone page s = .next t) : OnlyChanges moveEndRow s t := by
  refine .act e ?_
  split
  · next m _ =>
    refine .ite (fun _ => .ite (fun _ => (OnlyChanges.lostDescriptor s m).mono) fun _ => ?_) fun _ => .refl _ s
    have ended : OnlyChanges moveEndRow s (s.endMove m) := (OnlyChanges.endMove s m).mono
    refine .ite (fun _ => (OnlyChanges.demoteEnded _ page false).seq ((OnlyChanges.retire _ _).seq ended)) fun _ =>
      (OnlyChanges.demoteEnded _ page true).seq ?_
    have h := (OnlyChanges.updAux (s.endMove m) (s.page page).aux fun a => { a with homeTier := m.tier, homeLoc := m.loc }).seq ended
    exact .ite (fun _ => h) fun _ => .ite (fun _ => (OnlyChanges.retireHome _ page).seq h) fun _ =>
      .ite (fun _ => (OnlyChanges.dropCopy _ page).seq h) fun _ => (OnlyChanges.dropCold _ page).seq h
  · exact .refl _ s
theorem OnlyChanges.failOutward (s : State) (m : Move) : OnlyChanges stayParts s (s.failOutward m) :=
  s.failOutward_eq m ▸ (OnlyChanges.demoteEnded _ m.page false).seq ((OnlyChanges.placeInstead _ m).seq ((OnlyChanges.writeFailed s m).seq
    ((OnlyChanges.unwritten s m).seq (OnlyChanges.endMove s m).mono)))
theorem OnlyChanges.execOutwardWriteFail {s t : State} {page : Nat} (e : execOutwardWriteFail page s = .next t) : OnlyChanges writeFailRow s t := by
  refine .act e ?_
  split
  · exact .ite (fun _ => (OnlyChanges.failOutward s _).mono) fun _ => .refl _ s
  · exact .refl _ s
theorem OnlyChanges.execTierWriteTimeout {s t : State} {page : Nat} (e : execTierWriteTimeout page s = .next t) : OnlyChanges writeFailRow s t := by
  refine .act e ?_
  split
  · exact .ite (fun _ => (OnlyChanges.failOutward s _).mono) fun _ => .refl _ s
  · exact .refl _ s

/-! ## Reclamation (05 R161, R175) -/

theorem OnlyChanges.preempt (s : State) : OnlyChanges pageParts s s.preempt := by
  unfold State.preempt
  split
  · exact (OnlyChanges.setPassing s false).mono
  · next q _ =>
    extract_lets ps
    have asked : OnlyChanges pageParts s (s.spillVictim s.swapAhead ps).1 := (OnlyChanges.spillVictim s _ ps).mono
    generalize s.spillVictim s.swapAhead ps = r at asked ⊢
    have h : OnlyChanges pageParts s (if r.1.tier.moves.length = s.tier.moves.length then r.1 else r.1.updSeq q fun y => { y with preempted := true }) :=
      .ite (fun _ => asked) fun _ => (OnlyChanges.updSeq r.1 q _).seq asked
    exact .ite (fun _ => h) fun _ => (OnlyChanges.setPassing _ false).seq h
theorem OnlyChanges.passStep (s : State) : OnlyChanges pageParts s s.passStep := by
  unfold State.passStep
  split
  · exact (OnlyChanges.dropCopy s _).mono
  · refine .ite (fun _ => (OnlyChanges.setPassing s false).mono) fun _ => .ite (fun _ => .preempt s) fun _ => ?_
    split
    · exact (OnlyChanges.askMove s _ _ _ _ _).mono
    · exact (OnlyChanges.setPassing s false).mono
theorem OnlyChanges.execReclaimPass {s t : State} (e : execReclaimPass s = .next t) : OnlyChanges [.pools, .ps, .tier] s t :=
  .act e (.ite (fun _ => (OnlyChanges.setPassing s false).mono) fun _ => .ite (fun _ => .refl _ s) fun _ =>
    (OnlyChanges.passStep (s.setPassing true)).seq (OnlyChanges.setPassing s true).mono)

/-- What a command of the family tier leaves, its row of `Instr.touches` says. -/
theorem OnlyChanges.tier {i : Instr} {s t : State} (hi : i.family = .tier) (e : exec i s = .next t) : OnlyChanges i.touches s t := by
  cases i
  case gathererMoveStart => exact .execGathererMoveStart e
  case inwardMoveLanded => exact .execInwardMoveLanded e
  case inwardMoveFailed => exact .execInwardMoveFailed e
  case tierReadTimeout => exact .execTierReadTimeout e
  case demandLandingTimeout => exact .execDemandLandingTimeout e
  case outwardMoveDone => exact .execOutwardMoveDone e
  case outwardWriteFail => exact .execOutwardWriteFail e
  case tierWriteTimeout => exact .execTierWriteTimeout e
  case reclaimPass => exact .execReclaimPass e
  all_goals cases hi

end Sys2Proof.Machine
end

section
-- One proof after another: so many at once would not fit beside the model in memory.
set_option Elab.async false
/-! What the Awl, the layout, power, sensors, resets, starts and the buffer window leave unchanged, and with it every command of the family fence. -/
namespace Sys2Proof.Machine
open Sys2Proof

/-! ## The Awl (07 R219 to R232) -/

theorem OnlyChanges.updAuto (s : State) (a : Nat) (f : Auto → Auto) : OnlyChanges [.awl] s (s.updAuto a f) := .setAwl s _
theorem OnlyChanges.awlEnd (s : State) (st : BitVec 16) : OnlyChanges [.awl] s (s.awlEnd st) := .setAwl s _
/-- The row of AWL_LOAD. -/
abbrev awlLoadRow : List Part := [.free, .t0, .fns, .vms, .ps, .awl, .err, .fw, .out]
theorem OnlyChanges.awlLoad (s : State) (c a off : Nat) : OnlyChanges awlLoadRow s (s.awlLoad c a off) := by
  have ends (st : BitVec 16) : OnlyChanges awlLoadRow s (s.awlEnd st) := (OnlyChanges.awlEnd s st).mono
  have bad (addr : Nat) (fn ctx : Option Nat) : OnlyChanges awlLoadRow s ((s.badGranule 8 addr fn ctx stPoisoned 0).awlEnd stPoisoned) :=
    (OnlyChanges.awlEnd _ _).seq (OnlyChanges.badGranule s 8 addr fn ctx stPoisoned 0).mono
  refine .ite (fun _ => ends _) fun _ => .ite (fun _ => ends _) fun _ => .ite (fun _ => ends _) fun _ => .ite (fun _ => bad _ _ _) fun _ =>
    .ite (fun _ => ends _) fun _ => .ite (fun _ => bad _ _ _) fun _ => .ite (fun _ => ends _) fun _ => ?_
  split
  · next run u hu =>
    exact (OnlyChanges.awlEnd _ _).seq ((OnlyChanges.updAuto _ a _).seq ((OnlyChanges.t0Write u _ _).seq (OnlyChanges.takeRun hu).mono))
  · exact .ite (fun _ => (OnlyChanges.setAwl s _).mono) fun _ => ends _
theorem OnlyChanges.execAwlLoad {s t : State} {c a off : Nat} (e : execAwlLoad c a off s = .next t) : OnlyChanges awlLoadRow s t := by
  refine .act e ?_
  split
  · exact .ite (fun _ => .awlLoad s c a off) fun _ => .refl _ s
  · exact .awlLoad s c a off
/-- A command of a policy context changes what its work does, or the status of the Awl. -/
theorem OnlyChanges.onAwl {l : List Part} {s t : State} {c : Nat} {k : State → State} (e : Machine.onAwl c s k = .next t) (h : OnlyChanges l s (k s))
    (hl : [.awl] ⊆ l := by decide) : OnlyChanges l s t :=
  .act e (.ite (fun _ => .refl _ s) fun _ => .ite (fun _ => h) fun _ => (OnlyChanges.awlEnd s _).mono hl)
theorem OnlyChanges.execAwlUnload {s t : State} {c a : Nat} (e : execAwlUnload c a s = .next t) : OnlyChanges [.ps, .awl] s t :=
  .onAwl e (.ite (fun _ => (OnlyChanges.awlEnd s _).mono) fun _ => .ite (fun _ => (OnlyChanges.awlEnd s _).mono) fun _ =>
    (OnlyChanges.awlEnd _ _).seq ((OnlyChanges.retire _ _).seq (OnlyChanges.updAuto s a _).mono))
theorem OnlyChanges.execAwlBind {s t : State} {c a target entry : Nat} (e : execAwlBind c a target entry s = .next t) : OnlyChanges [.awl] s t :=
  .onAwl e (.ite (fun _ => .awlEnd s _) fun _ => .ite (fun _ => .awlEnd s _) fun _ => (OnlyChanges.awlEnd _ _).seq (.setAwl s _))
theorem OnlyChanges.execAwlUnbind {s t : State} {c a target entry : Nat} (e : execAwlUnbind c a target entry s = .next t) : OnlyChanges [.awl] s t :=
  .onAwl e ((OnlyChanges.awlEnd _ _).seq (.setAwl s _))

theorem OnlyChanges.scanEntry (s : State) (t : Token) (k : Nat) : OnlyChanges screenParts s (s.scanEntry t k) := by
  unfold State.scanEntry
  extract_lets r ai q here a st
  refine .ite (fun _ => .refl _ s) fun _ => .ite (fun _ => .fenceClosed s _ _ 2) fun _ => .ite (fun _ => ?_) fun _ => ?_
  · exact (OnlyChanges.fenceClosed _ _ _ 2).seq ((OnlyChanges.badGranule _ _ _ _ _ _ _).seq (OnlyChanges.updAuto s _ _).mono)
  · generalize s.autoStep a st t.id = n
    have h := (OnlyChanges.updStream s t.seq fun r => { r with states := r.states.set k n.1 0 }).mono (m := screenParts)
    exact .ite (fun _ => (OnlyChanges.countFn _ _ 3 1).seq ((OnlyChanges.updStream _ t.seq _).seq ((OnlyChanges.fence _ t.seq _).seq h))) fun _ => h
theorem OnlyChanges.scanToken (s : State) (t : Token) : OnlyChanges screenParts s (s.scanToken t) := by
  unfold State.scanToken
  refine .ite (fun _ => .refl _ s) fun _ => (OnlyChanges.updStream _ t.seq _).seq ?_
  refine .ite (fun _ => (OnlyChanges.fenceClosed _ t.seq _ 3).trans' ?_) fun _ => .foldl (α := Nat) (fun u k => u.scanEntry t k) (fun u k => .scanEntry u t k) _ s
  exact .ite (fun _ => .refl _ s) fun _ => (OnlyChanges.badGranule s _ _ _ _ _ _).mono
theorem OnlyChanges.execAwlTokenScan {s t : State} {engine : Nat} (e : execAwlTokenScan engine s = .next t) :
    OnlyChanges [.pools, .fns, .vms, .ps, .gaths, .awl, .err, .fw, .out] s t := by
  refine .act e ?_
  split
  · exact .refl _ s
  · exact .ite (fun _ => .refl _ s) fun _ =>
      (OnlyChanges.freeCredits _ _ 1).seq ((OnlyChanges.scanToken _ _).seq (OnlyChanges.setAwl s _).mono)

/-- What a command of the family fence leaves, its row of `Instr.touches` says. -/
theorem OnlyChanges.fenceFamily {i : Instr} {s t : State} (hi : i.family = .fence) (e : exec i s = .next t) : OnlyChanges i.touches s t := by
  cases i
  case awlTokenScan => exact .execAwlTokenScan e
  case awlLoad => exact .execAwlLoad e
  case awlUnload => exact .execAwlUnload e
  case awlBind => exact .execAwlBind e
  case awlUnbind c a target entry => exact OnlyChanges.execAwlUnbind (a := a) e
  all_goals cases hi

/-! ## The layout, the governor and the gauges (04 R119, 08 R261, 10 R320) -/

theorem OnlyChanges.commit (s : State) (v : Nat) : OnlyChanges [.ps] s (s.commit v) := by
  unfold State.commit
  extract_lets _ u bad
  have hu : OnlyChanges [.ps] s u := .ite (fun _ => .setPs s _) fun _ => .refl _ s
  clear_value bad
  refine .ite (fun _ => hu) fun _ => ?_
  cases bad with
  | none => exact (OnlyChanges.setPs u _).seq hu
  | some r => exact (OnlyChanges.setPs u _).seq hu
theorem OnlyChanges.execCommit {s t : State} {v : BitVec 64} (e : execCommit v s = .next t) : OnlyChanges [.ps] s t := .act e (.commit s _)
theorem OnlyChanges.execLayoutInitDone {s t : State} (e : execLayoutInitDone s = .next t) : OnlyChanges [.ps] s t :=
  .act e (.ite (fun _ => .setPs s _) fun _ => .refl _ s)
theorem OnlyChanges.setFqPwr (s : State) (q : Fq) (p : Pwr) : OnlyChanges [.fq, .pwr] s { s with fq := q, pwr := p } :=
  (OnlyChanges.setPwr { s with fq := q } p).seq (OnlyChanges.setFq s q).mono
theorem OnlyChanges.execGovernorInterval {s t : State} {power temp : Nat} (e : execGovernorInterval power temp s = .next t) :
    OnlyChanges [.fq, .fw, .pwr] s t :=
  .act e (.ite (fun _ => .refl _ s) fun _ => .ite (fun _ => (OnlyChanges.setFqPwr s _ _).mono) fun _ =>
    (OnlyChanges.trace _ 4 _).seq (OnlyChanges.setFqPwr s _ _).mono)
theorem OnlyChanges.execLoadInterval {s t : State} {folio read written : Nat} (e : execLoadInterval folio read written s = .next t) :
    OnlyChanges [.net] s t := .act e (.ite (fun _ => .refl _ s) fun _ => .setNet s _)

/-! ## Power and sensors (15 R454 to R457, R470 to R472) -/

theorem OnlyChanges.changePwr (s : State) (p : Pwr) : OnlyChanges [.fw, .pwr] s (s.setPwr p) :=
  .ite (fun _ => (OnlyChanges.setPwr s _).mono) fun _ => (OnlyChanges.trace _ 3 _).seq (OnlyChanges.setPwr s _).mono
theorem OnlyChanges.pmCtl (s : State) (v : Nat) : OnlyChanges [.fw, .pwr] s (s.pmCtl v) :=
  .ite (fun _ => .changePwr s _) fun _ => .changePwr s _
theorem OnlyChanges.execPmCtlWrite {s t : State} {v : BitVec 64} (e : execPmCtlWrite v s = .next t) : OnlyChanges [.fw, .pwr] s t :=
  .act e (.pmCtl s _)
theorem OnlyChanges.execIdleEntry {s t : State} (e : execIdleEntry s = .next t) : OnlyChanges [.fw, .pwr] s t :=
  .act e (.ite (fun _ => .changePwr s _) fun _ => .refl _ s)
theorem OnlyChanges.execOperatingPointChange {s t : State} {avsOk : Bool} (e : execOperatingPointChange avsOk s = .next t) :
    OnlyChanges [.fw, .pwr, .out] s t :=
  .act e (.ite (fun _ => .refl _ s) fun _ => .ite (fun _ => (OnlyChanges.changePwr _ _).seq (OnlyChanges.emitOut s _).mono) fun _ =>
    (OnlyChanges.changePwr _ _).seq (OnlyChanges.emitOut s _).mono)
theorem OnlyChanges.execVoltageInRegulation {s t : State} (e : execVoltageInRegulation s = .next t) : OnlyChanges [.fw, .pwr] s t := by
  refine .act e ?_
  split
  · exact .ite (fun _ => .changePwr s _) fun _ => .refl _ s
  · exact .refl _ s
theorem OnlyChanges.execRegulationTimeout {s t : State} (e : execRegulationTimeout s = .next t) : OnlyChanges [.free, .pwr, .out] s t := by
  refine .act e ?_
  split
  · exact .ite (fun _ => (OnlyChanges.emitOut _ _).seq ((OnlyChanges.setPwr _ _).seq (OnlyChanges.draw s).mono)) fun _ => .refl _ s
  · exact .refl _ s
theorem OnlyChanges.setPwrDev (s : State) (p : Pwr) (d : Dev) : OnlyChanges [.dev, .pwr] s { s with pwr := p, dev := d } :=
  (OnlyChanges.setDev { s with pwr := p } d).seq (OnlyChanges.setPwr s p).mono
theorem OnlyChanges.execSensorSample {s t : State} {die : Int} {temps : List Int} {currents : List (Option Nat)}
    (e : execSensorSample die temps currents s = .next t) : OnlyChanges [.free, .dev, .pwr] s t := by
  refine .act e ?_
  have drawn : OnlyChanges [.free, .dev, .pwr] s s.draw.2 := (OnlyChanges.draw s).mono
  have sampled (p q : Pwr) : OnlyChanges [.free, .dev, .pwr] s { ({ s.draw.2 with pwr := p } : State) with pwr := q } :=
    (OnlyChanges.setPwr _ q).seq ((OnlyChanges.setPwr _ p).seq drawn)
  exact .ite (fun _ => (OnlyChanges.setPwrDev _ _ _).seq (sampled _ _)) fun _ => sampled _ _

/-! ## Resets and starts (13 R404 to R409; 15 R458 to R460) -/

/-- The row of a start: everything but the waiting commands. -/
abbrev startRow : List Part :=
  [.free, .now, .t0, .dev, .ctxs, .flights, .nextFlight, .slice, .lockUs, .pools, .fns, .vms, .ps, .tier, .margin, .leadMax, .gaths, .spine, .awl, .press,
   .fq, .net, .eg, .ptp, .sec, .err, .fw, .pwr, .out]
theorem OnlyChanges.of_pending {s t : State} (h : t.pending = s.pending) : OnlyChanges startRow s t := by
  intro p hp
  cases p
  case pending => exact h
  all_goals exact absurd hp (by decide)
theorem OnlyChanges.outlive (s : State) : OnlyChanges [.now, .t0, .dev, .ctxs, .flights, .nextFlight, .slice, .lockUs, .pools, .fns, .vms, .ps, .tier,
    .margin, .leadMax, .gaths, .spine, .awl, .press, .fq, .net, .eg, .ptp, .sec, .err, .fw, .pwr] s s.outlive := by
  intro p hp; cases p <;> first | rfl | exact absurd hp (by decide)
theorem OnlyChanges.execResetNAssert {s t : State} (e : execResetNAssert s = .next t) : OnlyChanges (Instr.touches .resetNAssert) s t := by
  cases e
  exact .outlive s
theorem OnlyChanges.execBrownOut {s t : State} (e : execBrownOut s = .next t) : OnlyChanges startRow s t := by
  cases e
  exact .ite (fun _ => .refl _ s) fun _ => .of_pending rfl

theorem OnlyChanges.drawBits (s : State) (n : Nat) : OnlyChanges [.free] s (s.drawBits n).2 := by
  induction n generalizing s with
  | zero => exact .refl _ s
  | succ n ih => exact (OnlyChanges.draw s).trans (ih _)
theorem OnlyChanges.stirDrbg (s : State) : OnlyChanges [.free, .sec] s s.stirDrbg := (OnlyChanges.setSec _ _).seq (OnlyChanges.drawBits s 6).mono
theorem OnlyChanges.romChecks (s : State) (keys : Option (Bytes × Bytes)) (ok entropy : Bool) :
    OnlyChanges startRow s (s.romChecks keys ok entropy) := by
  unfold State.romChecks
  extract_lets r identity variant _ u _ v _ w x
  have hv : OnlyChanges startRow s v := .ite (fun _ => .of_pending rfl) fun _ => .of_pending rfl
  have drawn : OnlyChanges startRow s (x.stirDrbg.drbg 6).2 := (OnlyChanges.drbg _ 6).seq ((OnlyChanges.stirDrbg x).seq
    ((OnlyChanges.setMeas w 3 _).seq ((OnlyChanges.setSec v _).seq hv)))
  generalize x.stirDrbg.drbg 6 = secret at drawn ⊢
  have both := (OnlyChanges.drbg secret.2 6).seq drawn
  dsimp only
  generalize secret.2.drbg 6 = nonce at both ⊢
  have kept (x : Sec) : OnlyChanges startRow s { nonce.2 with sec := x } := (OnlyChanges.setSec nonce.2 x).seq both
  have told (c : Prop) [Decidable c] (x : Sec) (r : ErrRec) :
      OnlyChanges startRow s (if c then { nonce.2 with sec := x } else { nonce.2 with sec := x }.report r) :=
    .ite (fun _ => kept x) fun _ => (OnlyChanges.report _ r).seq (kept x)
  exact .ite (fun _ => told _ _ _) fun _ => (OnlyChanges.report _ _).seq (told _ _ _)
theorem OnlyChanges.romStart (s : State) (puf : Bytes) (entropy : Bool) : OnlyChanges startRow s (s.romStart puf entropy) := .romChecks s _ _ entropy
theorem OnlyChanges.execColdStart {s t : State} {bifPin : Bool} {clkMode smb : Nat} {i3c : Bool} {keys : WrappedKeys} {certs : CertChains}
    {record : SignedRecord} {puf : List (BitVec 8)} {entropy : Bool} (e : execColdStart bifPin clkMode smb i3c keys certs record puf entropy s = .next t) :
    OnlyChanges startRow s t := by
  unfold Machine.execColdStart at e
  split at e
  · cases e
    exact .refl _ s
  · exact (OnlyChanges.act e ((OnlyChanges.trace _ 2 _).seq (.romStart _ puf entropy))).trans' (.of_pending rfl)
theorem OnlyChanges.execWarmStart {s t : State} {puf : List (BitVec 8)} {entropy : Bool} (e : execWarmStart puf entropy s = .next t) :
    OnlyChanges startRow s t :=
  .act e (.ite (fun _ => (OnlyChanges.trace _ 2 _).seq ((OnlyChanges.romStart s.outliveWarm puf entropy).trans' (.of_pending rfl))) fun _ => .refl _ s)

theorem OnlyChanges.warmReset (s : State) : OnlyChanges [.dev, .fw] s s.warmReset := (OnlyChanges.trace _ 2 _).seq (OnlyChanges.setDev s _).mono
theorem OnlyChanges.devReset (s : State) (v : Nat) : OnlyChanges [.dev, .fw] s (s.devReset v) := .ite (fun _ => .warmReset s) fun _ => .refl _ s
theorem OnlyChanges.execDevReset {s t : State} {v : BitVec 64} (e : execDevReset v s = .next t) : OnlyChanges [.dev, .fw] s t := .act e (.devReset s _)
theorem OnlyChanges.linkDown (s : State) (link : Nat) : OnlyChanges flrParts s (s.linkDown link) := by
  have insecure (d : Dev) (x : Sec) : OnlyChanges flrParts s { s with dev := d, sec := x } := (OnlyChanges.setDevSec s d x).mono
  exact .ite (fun _ => (OnlyChanges.warmReset _).seq (insecure _ _)) fun _ =>
    .ite (fun _ => (insecure _ _).trans (.foldl _ OnlyChanges.flr _ _)) fun _ => .refl _ s
theorem OnlyChanges.execUpstreamLinkDown {s t : State} {link : Nat} (e : execUpstreamLinkDown link s = .next t) : OnlyChanges flrRow s t :=
  .act e (.ite (fun _ => (OnlyChanges.linkDown s link).mono) fun _ => .refl _ s)
theorem OnlyChanges.execPerstNChange {s t : State} {link : Nat} {asserted : Bool} (e : execPerstNChange link asserted s = .next t) :
    OnlyChanges flrRow s t := by
  unfold Machine.execPerstNChange at e
  split at e
  · cases e
    exact .refl _ s
  · exact (OnlyChanges.act e (.ite (fun _ => (OnlyChanges.linkDown _ link).mono) fun _ => .refl _ _)).trans' (OnlyChanges.setDev s _).mono
theorem OnlyChanges.execConfigurationReady {s t : State} {link : Nat} (e : execConfigurationReady link s = .next t) : OnlyChanges [.dev] s t :=
  .act e (.ite (fun _ => .setDev s _) fun _ => .refl _ s)
theorem OnlyChanges.scaleLayout (s : State) : OnlyChanges [.ps] s s.scaleLayout := .ite (fun _ => .refl _ s) fun _ => .setPs s _
theorem OnlyChanges.execHbmTrainingDone {s t : State} {failed : List Nat} (e : execHbmTrainingDone failed s = .next t) :
    OnlyChanges [.dev, .fns, .vms, .ps, .err, .fw, .out] s t := by
  refine .act e (.ite (fun _ => .refl _ s) fun _ => ?_)
  have scaled (d : Dev) : OnlyChanges [.dev, .fns, .vms, .ps, .err, .fw, .out] s { s with dev := d }.scaleLayout :=
    (OnlyChanges.scaleLayout _).seq (OnlyChanges.setDev s d).mono
  exact (scaled _).trans (.foldl (α := Nat) _ (fun u i => (OnlyChanges.report u _).mono) _ _)
theorem OnlyChanges.setT0Dev (s : State) (m : List Host.Cell) (d : Dev) : OnlyChanges [.t0, .dev] s { s with t0 := m, dev := d } := by
  intro p hp; cases p <;> first | rfl | exact absurd hp (by decide)
theorem OnlyChanges.execT0ZeroingDone {s t : State} (e : execT0ZeroingDone s = .next t) : OnlyChanges [.t0, .dev, .sec, .fw] s t :=
  .act e (.ite (fun _ => (OnlyChanges.startServing _).seq (OnlyChanges.setT0Dev s _ _).mono) fun _ => .refl _ s)

/-- The row of an image's verification. -/
abbrev imageRow : List Part := [.dev, .fns, .vms, .sec, .err, .fw, .out]
theorem OnlyChanges.imageFails (s : State) (i : Nat) : OnlyChanges imageRow s (s.imageFails i) := by
  unfold State.imageFails
  extract_lets u _ v
  have hu : OnlyChanges imageRow s u := (OnlyChanges.setMeas s _ 0).mono
  have hv : OnlyChanges imageRow s v := .ite (fun _ => (OnlyChanges.setSec u _).seq hu) fun _ => (OnlyChanges.updSp u _ _).seq hu
  exact (OnlyChanges.report v _).seq hv
theorem OnlyChanges.imageStarts (s : State) (i : Nat) (d : BitVec 384) (v : Nat) : OnlyChanges imageRow s (s.imageStarts i d v) := by
  unfold State.imageStarts
  extract_lets u
  have hu : OnlyChanges imageRow s u := (OnlyChanges.updImage _ i _).seq (OnlyChanges.setMeas s _ d).mono
  exact .ite (fun _ => (OnlyChanges.setSec u _).seq hu) fun _ => (OnlyChanges.updSp u _ _).seq hu
theorem OnlyChanges.execImageVerified {s t : State} {image : Nat} {ok : Bool} {hash : BitVec 384} {version : Nat}
    (e : execImageVerified image ok hash version s = .next t) : OnlyChanges imageRow s t := by
  refine .act e (.ite (fun _ => .refl _ s) fun _ => (OnlyChanges.startServing _).seq ?_)
  have read (d : Dev) : OnlyChanges imageRow s { s with dev := d } := (OnlyChanges.setDev s d).mono
  have found (c : Prop) [Decidable c] (d : Dev) (f : Image → Image) : OnlyChanges imageRow s (if c then { s with dev := d }.updImage image f else
      { s with dev := d }) := .ite (fun _ => (OnlyChanges.updImage _ image f).seq (read d)) fun _ => read d
  exact .ite (fun _ => (found _ _ _).trans (.imageStarts _ image _ _)) fun _ => (found _ _ _).trans (.imageFails _ image)

/-! ## The buffer window (16 R479) -/

theorem OnlyChanges.hostWrote (s old : State) : OnlyChanges [.flights] s (s.hostWrote old) := .setFlights s _
theorem OnlyChanges.windowWrite (s : State) (f o : Nat) (data : List (Option (BitVec 8))) : OnlyChanges [.t0] s (s.windowWrite f o data) := by
  induction data generalizing s o with
  | nil => exact .refl _ s
  | cons b r ih =>
    cases b with
    | none => exact ih s _
    | some b => exact (ih _ _).trans' (.ite (fun _ => .t0Write1 s _ b) fun _ => .refl _ s)
theorem OnlyChanges.windowRead (s : State) (served : Nat → Bool) (l : List Nat) : OnlyChanges [.free] s (s.windowRead served l).2 := by
  induction l generalizing s with
  | nil => exact .refl _ s
  | cons o l ih => exact (ih _).trans' (.iteSnd (fun _ => .refl _ s) fun _ => .iteSnd (fun _ => .draw s) fun _ => .refl _ s)
/-- The row of an access to the buffer window. -/
abbrev accessRow : List Part := [.free, .t0, .flights, .fns, .vms, .err, .fw, .out]
theorem OnlyChanges.execBufferWindowAccess {s t : State} {fn offset : Nat} {write : Bool} {data : List (Option (BitVec 8))}
    (e : execBufferWindowAccess fn offset write data s = .next t) : OnlyChanges accessRow s t := by
  refine .act e ?_
  refine .ite (fun _ => .refl _ s) fun _ => .ite (fun _ => .ite (fun _ => .refl _ s) fun _ => (OnlyChanges.emitOut s _).mono) fun _ => ?_
  extract_lets at_ need open_ allowed u
  have hu : OnlyChanges accessRow s u := .ite (fun _ => (OnlyChanges.countFn s fn 30 1).mono) fun _ => .refl _ s
  refine .ite (fun _ => .ite (fun _ => ?_) fun _ => hu) fun _ => (OnlyChanges.emitOut _ _).seq ?_
  · exact (OnlyChanges.hostWrote _ u).seq ((OnlyChanges.windowWrite u fn offset data).seq hu)
  · have read := (OnlyChanges.windowRead u (fun o => open_ && u.windowMaps o && allowed o) at_).seq hu
    generalize u.windowRead (fun o => open_ && u.windowMaps o && allowed o) at_ = b at read ⊢
    split
    · exact read
    · exact (OnlyChanges.badGranule b.2 _ _ _ _ _ _).seq read

end Sys2Proof.Machine
end

section
-- One proof after another: so many at once would not fit beside the model in memory.
set_option Elab.async false
/-! O10: every command of the family management leaves what its row of `Instr.touches` does not name. -/
namespace Sys2Proof.Machine
open Sys2Proof

/-! ## Downstream ports (13 R404, R408; 14 R439) -/

theorem OnlyChanges.tracePort (s : State) (p : Nat) (e : EnumState) (outcome : Nat) : OnlyChanges [.fw] s (s.tracePort p e outcome) := .trace s 5 _
theorem OnlyChanges.failPortMoves (s : State) (p : Nat) : OnlyChanges failParts s (s.failPortMoves p) :=
  .foldl (α := Move) _ (fun u m => .ite (fun _ => .failedInward u m 0) fun _ => (OnlyChanges.failOutward u m).mono) _ s
/-- The row of what a port's link and its reset change: what failing moves do. -/
abbrev portRow : List Part := gathererParts
theorem OnlyChanges.portOff (s : State) (p : Nat) (e : EnumState) : OnlyChanges portRow s (s.portOff p e) :=
  (OnlyChanges.tracePort _ p e 0).seq ((OnlyChanges.failPortMoves _ p).seq (OnlyChanges.updPort s p _).mono)
theorem OnlyChanges.portReset (s : State) (p : Nat) : OnlyChanges portRow s (s.portReset p) :=
  (OnlyChanges.portOff _ p .training).trans' (OnlyChanges.trace s 2 _).mono
theorem OnlyChanges.portResetWrite (s : State) (p : Nat) : OnlyChanges portRow s (s.portResetWrite p) :=
  .ite (fun _ => .refl _ s) fun _ => .ite (fun _ => .portReset s p) fun _ => (OnlyChanges.updPort s p _).mono
theorem OnlyChanges.execPortReset {s t : State} {p : Nat} (e : execPortReset p s = .next t) : OnlyChanges portRow s t := .act e (.portResetWrite s p)
theorem OnlyChanges.linkSeen (s : State) (p : Nat) : OnlyChanges portRow s (s.linkSeen p) := by
  unfold State.linkSeen
  extract_lets x u v
  have hu : OnlyChanges portRow s u := .ite (fun _ => (OnlyChanges.trace s 2 _).mono) fun _ => .refl _ s
  have hv : OnlyChanges portRow s v := .ite (fun _ => (OnlyChanges.report u _).seq hu) fun _ => hu
  exact .ite (fun _ => (OnlyChanges.tracePort _ p _ 0).seq ((OnlyChanges.updPort u p _).seq hu)) fun _ => hv.trans (.portOff v p .linkDown)
theorem OnlyChanges.execDownstreamLinkEvent {s t : State} {p : Nat} {up : Bool} (e : execDownstreamLinkEvent p up s = .next t) :
    OnlyChanges portRow s t := by
  have seen : OnlyChanges portRow s (s.updPort p fun x => { x with linkUp := up }) := (OnlyChanges.updPort s p _).mono
  exact .act e (.ite (fun _ => .refl _ s) fun _ => .ite (fun _ => seen.trans (.linkSeen _ p)) fun _ => (OnlyChanges.updPort _ p _).seq seen)
theorem OnlyChanges.portsResume (s : State) : OnlyChanges portRow s s.portsResume := by
  refine .foldl (α := Nat) _ (fun u p => ?_) _ s
  have cleared : OnlyChanges portRow u (u.updPort p fun x => { x with latched := false, resetWaits := false }) := (OnlyChanges.updPort u p _).mono
  exact .ite (fun _ => cleared.trans (.portReset _ p)) fun _ => .ite (fun _ => cleared.trans (.linkSeen _ p)) fun _ => cleared
theorem OnlyChanges.execEnumerationDone {s t : State} {port kind width : Nat} {found : PortFound} {vendor : Nat} {serial : BitVec 160} {capacity : Nat}
    (e : execEnumerationDone port kind width found vendor serial capacity s = .next t) : OnlyChanges [.fns, .vms, .tier, .err, .fw, .out] s t := by
  refine .act e (.ite (fun _ => .refl _ s) fun _ => ?_)
  have asked : OnlyChanges [.fns, .vms, .tier, .err, .fw, .out] s ((enumSteps kind capacity found).foldl (fun s c => s.emitOut (.portCommand port c)) s) :=
    .foldl (α := Nat) _ (fun u c => (OnlyChanges.emitOut u _).mono) _ s
  exact .ite (fun _ => (OnlyChanges.tracePort _ port _ _).seq ((OnlyChanges.report _ _).seq ((OnlyChanges.updPort _ port _).seq asked))) fun _ =>
    (OnlyChanges.tracePort _ port _ _).seq ((OnlyChanges.updPort _ port _).seq asked)

/-! ## Failing units (04 R117, 07 R229, 13 R412) -/

theorem OnlyChanges.execPchFailed {s t : State} {pch : Nat} (e : execPchFailed pch s = .next t) :
    OnlyChanges [.dev, .fns, .vms, .err, .fw, .out] s t :=
  .act e (.ite (fun _ => .refl _ s) fun _ => (OnlyChanges.report _ _).seq (OnlyChanges.setDev s _).mono)
theorem OnlyChanges.setAwlFlights (s : State) (a : Awl) (f : Tbl Flight) : OnlyChanges [.awl, .flights] s { s with awl := a, flights := f } :=
  (OnlyChanges.setFlights { s with awl := a } f).seq (OnlyChanges.setAwl s a).mono
/-- What the failure of an Awl engine changes. -/
abbrev engineParts : List Part := [.flights, .pools] ++ screenParts
theorem OnlyChanges.awlFails (s : State) (e : Nat) : OnlyChanges engineParts s (s.awlFails e) := by
  refine (OnlyChanges.freeCredits _ _ _).seq (OnlyChanges.trans (OnlyChanges.setAwlFlights s _ _).mono (.foldl (α := Token) _ (fun u t => ?_) _ _))
  exact (OnlyChanges.updStream _ t.seq _).seq (.ite (fun _ => (OnlyChanges.fence u t.seq _).mono) fun _ => (OnlyChanges.fenceClosed u t.seq _ 1).mono)
theorem OnlyChanges.engineLost (s : State) (i : Nat) : OnlyChanges stopParts s (s.engineLost i) :=
  .foldl (α := Nat × Flight) _ (fun u p => .stopFlight u p.1 stUnavailable) _ s
/-- The row of a unit that is marked unavailable. -/
abbrev unitRow : List Part := [.free, .dev, .ctxs, .flights, .pools, .fns, .vms, .ps, .tier, .gaths, .spine, .awl, .fq, .net, .err, .fw, .pwr, .out]
theorem OnlyChanges.markDown (s : State) (kind i : Nat) : OnlyChanges unitRow s (s.markDown kind i) := by
  have drawn : OnlyChanges unitRow s s.draw.2 := (OnlyChanges.draw s).mono
  have marked (d : Dev) (r : ErrRec) : OnlyChanges unitRow s ({ s.draw.2 with dev := d }.report r) :=
    (OnlyChanges.report _ r).seq ((OnlyChanges.setDev _ d).seq drawn)
  unfold State.markDown
  dsimp only
  split
  · exact .ite (fun _ => drawn) fun _ => marked _ _
  · exact .ite (fun _ => drawn) fun _ => marked _ _
  · exact .ite (fun _ => drawn) fun _ => (OnlyChanges.awlFails _ i).seq (marked _ _)
  · exact .ite (fun _ => drawn) fun _ => marked _ _
  · exact .ite (fun _ => drawn) fun _ => (OnlyChanges.engineLost _ i).seq (marked _ _)
  · exact .ite (fun _ => drawn) fun _ => marked _ _
  · exact .ite (fun _ => drawn) fun _ => (OnlyChanges.report _ _).seq ((OnlyChanges.updBank _ i _).seq drawn)
  · exact drawn
theorem OnlyChanges.execUnitMarkedUnavailable {s t : State} {kind index : Nat} (e : execUnitMarkedUnavailable kind index s = .next t) :
    OnlyChanges unitRow s t := .act e (.markDown s kind index)

/-! ## Service processors (14 R426 to R433) -/

/-- The row of a restart that a record tells of. -/
abbrev restartRow : List Part := [.fns, .vms, .sec, .err, .fw, .out]
theorem OnlyChanges.execWatchdogExpiry {s t : State} {n : Nat} (e : execWatchdogExpiry n s = .next t) : OnlyChanges restartRow s t :=
  .act e (.ite (fun _ => .refl _ s) fun _ => (OnlyChanges.spRestart _ n false).seq (OnlyChanges.report s _).mono)
theorem OnlyChanges.execMailboxTimeout {s t : State} (e : execMailboxTimeout s = .next t) : OnlyChanges restartRow s t := by
  have told : OnlyChanges restartRow s (s.fwDone stTimeout []) := (OnlyChanges.fwDone s _ _).mono
  exact .act e (.ite (fun _ => .refl _ s) fun _ => .ite (fun _ => told) fun _ =>
    (OnlyChanges.spRestart _ 2 false).seq ((OnlyChanges.report _ _).seq told))
theorem OnlyChanges.execSpRestartWrite {s t : State} {n : Nat} {v : BitVec 64} (e : execSpRestartWrite n v s = .next t) : OnlyChanges [.sec, .fw] s t :=
  .act e (.spWrite s n _)
theorem OnlyChanges.execWatchdogCountRestart {s t : State} {n : Nat} (e : execWatchdogCountRestart n s = .next t) : OnlyChanges [.fw] s t :=
  .act e (.ite (fun _ => .updSp s n _) fun _ => .refl _ s)
/-- The row of a processor that reports ready. -/
abbrev readyRow : List Part := [.free, .dev, .ctxs, .flights, .pools, .fns, .vms, .ps, .tier, .gaths, .fq, .net, .sec, .err, .fw, .pwr, .out]
theorem OnlyChanges.execSpReady {s t : State} {n : Nat} (e : execSpReady n s = .next t) : OnlyChanges readyRow s t := by
  refine .act e ?_
  dsimp only
  refine .ite (fun _ => .refl _ s) fun _ => ?_
  have ready (f : Sp → Sp) (x : Sec) : OnlyChanges readyRow s { s.updSp n f with sec := x } :=
    (OnlyChanges.setSec _ x).seq (OnlyChanges.updSp s n f).mono
  have traced (c : Prop) [Decidable c] (f : Sp → Sp) (x : Sec) :
      OnlyChanges readyRow s (if c then { s.updSp n f with sec := x }.trace 2 [4, n] else { s.updSp n f with sec := x }) :=
    .ite (fun _ => (OnlyChanges.trace _ 2 _).seq (ready f x)) fun _ => ready f x
  exact .ite (fun _ => (OnlyChanges.copyLogs _).seq (traced _ _ _)) fun _ =>
    .ite (fun _ => (OnlyChanges.startServing _).seq ((OnlyChanges.portsResume _).seq (traced _ _ _))) fun _ => traced _ _ _

/-! ## Requests (14 R429 to R432, R443) -/

/-- A row's request changes what its submission does. -/
theorem OnlyChanges.fwRow {s t : State} {op src : Nat} {m : Bytes} (e : Machine.fwRow op src m s = .next t) : OnlyChanges requestParts s t :=
  .act e (.ite (fun _ => .fwSubmit s src m) fun _ => .refl _ s)
theorem OnlyChanges.execMctpControl {s t : State} {binding : Nat} {msg : List (BitVec 8)} (e : execMctpControl binding msg s = .next t) :
    OnlyChanges [.fw, .out] s t :=
  .act e (.ite (fun _ => .refl _ s) fun _ => (OnlyChanges.emitOut _ _).seq (.ite (fun _ => (OnlyChanges.setFw s _).mono) fun _ => .refl _ s))
theorem OnlyChanges.execPldmRequest {s t : State} {binding : Nat} {msg : List (BitVec 8)} (e : execPldmRequest binding msg s = .next t) :
    OnlyChanges [.out] s t := .act e (.ite (fun _ => .refl _ s) fun _ => .emitOut s _)

/-- What a command of the family management leaves, its row of `Instr.touches` says. -/
theorem OnlyChanges.management {i : Instr} {s t : State} (hi : i.family = .management) (e : exec i s = .next t) : OnlyChanges i.touches s t := by
  cases i
  case portReset => exact .execPortReset e
  case downstreamLinkEvent => exact .execDownstreamLinkEvent e
  case enumerationDone => exact .execEnumerationDone e
  case pchFailed => exact .execPchFailed e
  case unitMarkedUnavailable => exact .execUnitMarkedUnavailable e
  case watchdogExpiry => exact .execWatchdogExpiry e
  case mailboxTimeout => exact .execMailboxTimeout e
  case spRestartWrite => exact .execSpRestartWrite e
  case watchdogCountRestart => exact .execWatchdogCountRestart e
  case spReady => exact .execSpReady e
  case hello => exact .fwRow e
  case getInfo => exact .fwRow e
  case fwStage => exact .fwRow e
  case fwVerify => exact .fwRow e
  case fwActivate => exact .fwRow e
  case portInfo => exact .fwRow e
  case traceSet => exact .fwRow e
  case sensors => exact .fwRow e
  case mctpControl => exact .execMctpControl e
  case pldmRequest => exact .execPldmRequest e
  all_goals cases hi

end Sys2Proof.Machine
end

section
-- One proof after another: so many at once would not fit beside the model in memory.
set_option Elab.async false
/-! What the commands behind the registers leave unchanged: the Kettle, the Spine, the network, egress and time. -/
namespace Sys2Proof.Machine
open Sys2Proof

/-! ## The Kettle's doorbell (05 R168) -/

theorem OnlyChanges.takeSnap (s : State) (gi : Nat) : OnlyChanges kettleParts s (s.takeSnap gi) := by
  unfold State.takeSnap
  extract_lets u snap v need
  have hu : OnlyChanges kettleParts s u := (OnlyChanges.endHold s gi).mono
  have hv : OnlyChanges kettleParts s v := (OnlyChanges.updGath u gi _).seq hu
  exact (OnlyChanges.kettle _ gi).seq ((OnlyChanges.updGath v gi _).seq hv)
theorem OnlyChanges.stepBoundary (s : State) (gi : Nat) : OnlyChanges dissolveParts s (s.stepBoundary gi) :=
  (OnlyChanges.takeSnap _ gi).seq ((OnlyChanges.applyBoundaries _ gi).seq (OnlyChanges.passBoundary s gi).mono)
theorem OnlyChanges.setPosition (s : State) (gi step layer : Nat) : OnlyChanges dissolveParts s (s.setPosition gi step layer) := by
  unfold State.setPosition
  extract_lets old u
  have hu : OnlyChanges dissolveParts s u := (OnlyChanges.updGath s gi _).mono
  exact (OnlyChanges.noteWants _).seq (.ite (fun _ => (OnlyChanges.kettle u gi).seq hu) fun _ => (OnlyChanges.stepBoundary u gi).seq hu)
theorem OnlyChanges.kettleBell (s : State) (fn v : Nat) : OnlyChanges dissolveParts s (s.kettleBell fn v).2 :=
  .iteSnd (fun _ => .setPosition s _ _ _) fun _ => (OnlyChanges.countFn s fn 1 1).mono
theorem OnlyChanges.execKettleDoorbell {s t : State} {fn bytes : Nat} {v : BitVec 64} (e : execKettleDoorbell fn v bytes s = .next t) :
    OnlyChanges [.free, .t0, .ctxs, .flights, .pools, .fns, .vms, .ps, .tier, .gaths, .awl, .press, .fq, .net, .err, .fw, .pwr, .out] s t :=
  .act e (.ite (fun _ => (OnlyChanges.kettleBell s fn _).mono) fun _ => (OnlyChanges.countFn s fn 1 1).mono)

/-! ## The Spine's registers (06 R215 to R217) -/

theorem OnlyChanges.execProbeSearch {s t : State} {v : BitVec 64} (e : execProbeSearch v s = .next t) : OnlyChanges [.spine] s t :=
  .act e (.ite (fun _ => .setSpine s _) fun _ => (OnlyChanges.setSpine _ _).seq (.setSpine s _))
theorem OnlyChanges.execSpBankWrite {s t : State} {bank : Nat} {v : BitVec 64} (e : execSpBankWrite bank v s = .next t) : OnlyChanges [.spine] s t :=
  .act e (.ite (fun _ => .refl _ s) fun _ => .ite (fun _ => .updBank s bank _) fun _ => .ite (fun _ => .updBank s bank _) fun _ => .updBank s bank _)
theorem OnlyChanges.execSpOvfWrite {s t : State} {v : BitVec 64} (e : execSpOvfWrite v s = .next t) : OnlyChanges [.spine] s t :=
  .act e (.ite (fun _ => .refl _ s) fun _ => .setSpine s _)

/-! ## Queue pairs (10 R302 to R305) -/

theorem OnlyChanges.qpEnd (s : State) (k : Nat) (st : BitVec 16) : OnlyChanges [.net] s (s.qpEnd k st) := .updSet s k _
/-- A command on a queue pair changes what its work does, or the status of its command set. -/
theorem OnlyChanges.qpCommand {l : List Part} {s t : State} {bar fn qp : Nat} {k : Nat → State → State}
    (e : Machine.qpCommand bar fn qp s k = .next t) (h : ∀ q, OnlyChanges l s (k q s)) (hl : [.net] ⊆ l := by decide) : OnlyChanges l s t :=
  .act e (.ite (fun _ => h _) fun _ => (OnlyChanges.qpEnd s _ _).mono hl)
theorem OnlyChanges.qpTo (s : State) (q : Nat) (st : QpState) : OnlyChanges [.net, .fw] s (s.qpTo q st) :=
  (OnlyChanges.trace _ 1 _).seq (OnlyChanges.updQp s q _).mono
theorem OnlyChanges.qpError (s : State) (q cause : Nat) : OnlyChanges qpParts s (s.qpError q cause) := by
  refine .ite (fun _ => ?_) fun _ => .refl _ s
  refine (OnlyChanges.flushQp _ q _).trans' ((OnlyChanges.report _ _).seq ((OnlyChanges.trace _ 1 _).seq ((OnlyChanges.updQp _ q _).seq ?_)))
  exact .ite (fun _ => (OnlyChanges.sendBypass s _ _).mono) fun _ => .ite (fun _ => (OnlyChanges.sendBypass s _ _).mono) fun _ => .refl _ s
theorem OnlyChanges.execQpRead {s t : State} {bar fn qp : Nat} (e : execQpRead bar fn qp s = .next t) : OnlyChanges [.net] s t :=
  .qpCommand e fun _ => .updSet s _ _
theorem OnlyChanges.execQpWrite {s t : State} {bar fn qp : Nat} (e : execQpWrite bar fn qp s = .next t) : OnlyChanges [.net] s t :=
  .qpCommand e fun q => .ite (fun _ => (OnlyChanges.qpEnd _ _ _).seq (.updQp s q _)) fun _ => .qpEnd s _ _
theorem OnlyChanges.execToInit {s t : State} {bar fn qp : Nat} (e : execToInit bar fn qp s = .next t) : OnlyChanges [.net, .fw] s t :=
  .qpCommand e fun q => .ite (fun _ => (OnlyChanges.qpEnd s _ _).mono) fun _ => .ite (fun _ => (OnlyChanges.qpEnd s _ _).mono) fun _ =>
    (OnlyChanges.qpEnd _ _ _).seq ((OnlyChanges.qpTo _ q _).seq (OnlyChanges.updQp s q _).mono)
theorem OnlyChanges.execToRtr {s t : State} {bar fn qp : Nat} (e : execToRtr bar fn qp s = .next t) : OnlyChanges [.net, .fw] s t :=
  .qpCommand e fun q => .ite (fun _ => (OnlyChanges.qpEnd _ _ _).seq (.qpTo s q _)) fun _ => (OnlyChanges.qpEnd s _ _).mono
theorem OnlyChanges.execToRts {s t : State} {bar fn qp : Nat} (e : execToRts bar fn qp s = .next t) : OnlyChanges [.net, .fw] s t :=
  .qpCommand e fun q => .ite (fun _ => (OnlyChanges.qpEnd _ _ _).seq ((OnlyChanges.qpTo _ q _).seq (OnlyChanges.updQp s q _).mono)) fun _ =>
    (OnlyChanges.qpEnd s _ _).mono
/-- The row of the commands that end what a queue pair has outstanding. -/
abbrev qpEndRow : List Part := [.free, .ctxs, .flights, .pools, .fns, .vms, .ps, .fq, .net, .eg, .err, .fw, .pwr, .out]
theorem OnlyChanges.execToReset {s t : State} {bar fn qp : Nat} (e : execToReset bar fn qp s = .next t) : OnlyChanges qpEndRow s t := by
  refine .qpCommand e fun q => ?_
  dsimp only
  split
  · exact (OnlyChanges.qpEnd _ _ _).seq (OnlyChanges.qpReset s q).mono
  · exact (OnlyChanges.qpEnd _ _ _).seq (OnlyChanges.qpReset s q).mono
  · exact (OnlyChanges.qpEnd s _ _).mono
theorem OnlyChanges.execToError {s t : State} {bar fn qp : Nat} (e : execToError bar fn qp s = .next t) : OnlyChanges qpEndRow s t := by
  refine .qpCommand e fun q => ?_
  dsimp only
  split
  · exact (OnlyChanges.qpEnd _ _ _).seq (OnlyChanges.qpError s q 8).mono
  · exact (OnlyChanges.qpEnd _ _ _).seq (OnlyChanges.qpError s q 8).mono
  · exact (OnlyChanges.qpEnd s _ _).mono

/-! ## Registrations, extents, the port mode and the directory role (10 R299, R315, R327, R329) -/

theorem OnlyChanges.regEnd (s : State) (k : Nat) (st : BitVec 16) : OnlyChanges [.net] s (s.regEnd k st) := .updSet s k _
theorem OnlyChanges.execCreate {s t : State} {bar fn : Nat} (e : execCreate bar fn s = .next t) : OnlyChanges [.free, .net] s t := by
  refine .act e ?_
  have ends (st : BitVec 16) : OnlyChanges [.free, .net] s (s.regEnd (setKey bar fn) st) := (OnlyChanges.regEnd s _ st).mono
  refine .ite (fun _ => .refl _ s) fun _ => .ite (fun _ => ends _) fun _ => .ite (fun _ => ends _) fun _ => ?_
  have drawn : OnlyChanges [.free, .net] s s.draw.2 := (OnlyChanges.draw s).mono
  generalize s.draw = d at drawn ⊢
  dsimp only
  split
  · exact (OnlyChanges.regEnd _ _ _).seq drawn
  · next i _ => exact (OnlyChanges.updSet _ _ _).seq ((OnlyChanges.updReg d.2 i _).seq drawn)
theorem OnlyChanges.execRevoke {s t : State} {bar fn reg : Nat} (e : execRevoke bar fn reg s = .next t) : OnlyChanges [.net] s t :=
  .act e (.ite (fun _ => .refl _ s) fun _ => .ite (fun _ => .regEnd s _ _) fun _ => .ite (fun _ => .regEnd s _ _) fun _ =>
    (OnlyChanges.updSet _ _ _).seq (.updReg s _ _))
theorem OnlyChanges.execExtentRevoke {s t : State} {bar fn x : Nat} (e : execExtentRevoke bar fn x s = .next t) : OnlyChanges [.net] s t :=
  .act e (.ite (fun _ => .refl _ s) fun _ => .ite (fun _ => .updSet s _ _) fun _ => .ite (fun _ => .updSet s _ _) fun _ =>
    .ite (fun _ => .updSet s _ _) fun _ => (OnlyChanges.updSet _ _ _).seq (.updExt s _ _))
theorem OnlyChanges.dropLinks (s : State) : OnlyChanges [.net] s s.dropLinks :=
  .foldl (α := Nat) _ (fun u p => .ite (fun _ => .refl _ u) fun _ => .updNetPort u p _) _ s
theorem OnlyChanges.netControl (s : State) (v : Nat) : OnlyChanges [.net] s (s.netControl v) := by
  unfold State.netControl
  extract_lets m _ u _ w
  have hu : OnlyChanges [.net] s u := .setNet s _
  have hw : OnlyChanges [.net] s w := .ite (fun _ => hu) fun _ => .ite (fun _ => (OnlyChanges.setNet u _).seq hu) fun _ => (OnlyChanges.setNet u _).seq hu
  exact (OnlyChanges.dropLinks _).seq ((OnlyChanges.setNet w _).seq hw)
theorem OnlyChanges.dirControl (s : State) (v : Nat) : OnlyChanges [.net] s (s.dirControl v) := .setNet s _

/-! ## Egress and network time (11 R342 to R358) -/

theorem OnlyChanges.refreshGates (s : State) (p : Nat) : OnlyChanges [.eg] s (s.refreshGates p) := (OnlyChanges.updGcl _ p _).seq (.setEg s _)
theorem OnlyChanges.gclCommit (s : State) (p : Nat) (rsv : Bool) : OnlyChanges [.eg] s (s.gclCommit p rsv) :=
  .ite (fun _ => .updGcl s p _) fun _ => .updGcl s p _
theorem OnlyChanges.gclWrite (s : State) (p v : Nat) : OnlyChanges [.eg] s (s.gclWrite p v) := by
  unfold State.gclWrite
  extract_lets rsv u
  have hu : OnlyChanges [.eg] s u := .updGcl s p _
  exact (OnlyChanges.refreshGates _ p).seq (.ite (fun _ => (OnlyChanges.gclCommit u p rsv).seq hu) fun _ => hu)
theorem OnlyChanges.execHistCopy {s t : State} {v : BitVec 64} (e : execHistCopy v s = .next t) : OnlyChanges [.eg] s t := .act e (.setEg s _)
theorem OnlyChanges.ptpTo (s : State) (x : PtpState) : OnlyChanges [.ptp, .fw] s (s.ptpTo x) :=
  .ite (fun _ => .refl _ s) fun _ => (OnlyChanges.trace _ 6 _).seq (OnlyChanges.updPtp s _).mono
theorem OnlyChanges.ptpWrite (s : State) (v : Nat) : OnlyChanges [.ptp, .fw] s (s.ptpWrite v) := by
  unfold State.ptpWrite
  extract_lets u
  have hu : OnlyChanges [.ptp, .fw] s u := (OnlyChanges.updPtp s _).mono
  exact .ite (fun _ => (OnlyChanges.updPtp _ _).seq ((OnlyChanges.ptpTo u _).seq hu)) fun _ => .ite (fun _ => hu.trans (.ptpTo u _)) fun _ => hu

/-! ## Doorbells (02 R41) -/

theorem OnlyChanges.doorbell (s : State) (fn c v : Nat) : OnlyChanges bellParts s (s.doorbell fn c v) :=
  .ite (fun _ => .tailBell s fn c _ _ _) fun _ => .headBell s fn c _ _ _

end Sys2Proof.Machine
end

section
-- One proof after another: so many at once would not fit beside the model in memory.
set_option Elab.async false
/-! What a write of a register leaves unchanged, block by block (16 R475 to R490). -/
namespace Sys2Proof.Machine
open Sys2Proof

/-! ## The row of a register write -/

/-- The row of REGISTER_WRITE: everything but the waiting commands, the cycle and the next instruction's number. -/
abbrev registerRow : List Part :=
  [.free, .t0, .dev, .ctxs, .flights, .slice, .lockUs, .pools, .fns, .vms, .ps, .tier, .margin, .leadMax, .gaths, .spine, .awl, .press, .fq, .net, .eg,
   .ptp, .sec, .err, .fw, .pwr, .out]
theorem OnlyChanges.of_kept {s t : State} (hp : t.pending = s.pending) (hn : t.now = s.now) (hf : t.nextFlight = s.nextFlight) :
    OnlyChanges registerRow s t := by
  intro p h
  cases p
  case pending => exact hp
  case now => exact hn
  case nextFlight => exact hf
  all_goals exact absurd h (by decide)
/-- What a command's own row leaves, a write that means the command leaves. -/
theorem OnlyChanges.after {l : List Part} {s : State} {o : Host.Outcome State Fault Refusal} (h : ∀ t, o = .next t → OnlyChanges l s t)
    (hl : l ⊆ registerRow := by decide) : OnlyChanges registerRow s (Machine.after s o) := by
  unfold Machine.after
  split
  · exact (h _ rfl).mono hl
  · exact .refl _ s

/-! ## The blocks of BAR0 -/

theorem OnlyChanges.writeId (s : State) (o v : Nat) : OnlyChanges registerRow s (s.writeId o v) :=
  .ite (fun _ => (OnlyChanges.setDev s _).mono) fun _ => .refl _ s
theorem OnlyChanges.writeCtx (s : State) (c i : Nat) (v : BitVec 64) : OnlyChanges registerRow s (s.writeCtx c i v) := by
  unfold State.writeCtx
  extract_lets u w
  have hu : OnlyChanges registerRow s u := (OnlyChanges.updCtx s c _).mono
  have hw : OnlyChanges registerRow s w := .ite (fun _ => (OnlyChanges.enableCtx u c).seq hu) fun _ => (OnlyChanges.startReset u c).seq hu
  exact .ite (fun _ => hu) fun _ => .ite (fun _ => (OnlyChanges.resume w c).seq hw) fun _ => hw
theorem OnlyChanges.awlCmd (s : State) (v : Nat) : OnlyChanges registerRow s (s.awlCmd v) := by
  refine .ite (fun _ => .refl _ s) fun _ => ?_
  split
  · exact .after fun _ e => OnlyChanges.execAwlLoad e
  · exact .after fun _ e => OnlyChanges.execAwlUnload e
  · exact .after fun _ e => OnlyChanges.execAwlBind e
  · exact .after fun _ e => OnlyChanges.execAwlUnbind (a := fld v 4 6) e
  · exact (OnlyChanges.awlEnd s _).mono
theorem OnlyChanges.writeVm (s : State) (m v : Nat) : OnlyChanges registerRow s (s.writeVm m v) := (OnlyChanges.setVms s _).mono
theorem OnlyChanges.writeTable (s : State) (o : Nat) (v : BitVec 64) : OnlyChanges registerRow s (s.writeTable o v) := by
  refine .ite (fun _ => .writeCtx s _ _ v) fun _ => .ite (fun _ => (OnlyChanges.updCtx s _ _).mono) fun _ => .ite (fun _ => .awlCmd s _) fun _ =>
    .ite (fun _ => .ite (fun _ => (OnlyChanges.updFn s _ _).mono) fun _ => .ite (fun _ => (OnlyChanges.fnVec s _ _).mono) fun _ => .refl _ s) fun _ =>
    .ite (fun _ => .of_kept rfl rfl rfl) fun _ => .ite (fun _ => .of_kept rfl rfl rfl) fun _ =>
    .ite (fun _ => (OnlyChanges.devReset s _).mono) fun _ => ?_
  split
  · exact .writeVm s _ _
  · exact .refl _ s
theorem OnlyChanges.writeSpine (s : State) (o : Nat) (v : BitVec 64) : OnlyChanges registerRow s (s.writeSpine o v) := by
  have set (x : Spine) : OnlyChanges registerRow s { s with spine := x } := (OnlyChanges.setSpine s x).mono
  refine .ite (fun _ => set _) fun _ => .ite (fun _ => .after fun _ e => OnlyChanges.execSpOvfWrite e) fun _ =>
    .ite (fun _ => .after fun _ e => OnlyChanges.execProbeSearch e) fun _ => .ite (fun _ => set _) fun _ => .ite (fun _ => set _) fun _ =>
    .ite (fun _ => set _) fun _ => .ite (fun _ => set _) fun _ => ?_
  split
  · exact .after fun _ e => OnlyChanges.execSpBankWrite e
  · exact .refl _ s
theorem OnlyChanges.writeTier (s : State) (o v : Nat) : OnlyChanges [.tier] s (s.writeTier o v) := by
  refine .ite (fun _ => .setTier s _) fun _ => .ite (fun _ => .setTier s _) fun _ => .ite (fun _ => .setTier s _) fun _ =>
    .ite (fun _ => .setTier s _) fun _ => .ite (fun _ => .ite (fun _ => .setTier s _) fun _ => .refl _ s) fun _ =>
    .ite (fun _ => .ite (fun _ => .setTier s _) fun _ => .refl _ s) fun _ => ?_
  split
  · exact .ite (fun _ => .refl _ s) fun _ => .updPort s _ _
  · exact .refl _ s
theorem OnlyChanges.writePages (s : State) (o v : Nat) : OnlyChanges registerRow s (s.writePages o v) := by
  refine .ite (fun _ => (OnlyChanges.commit s v).mono) fun _ => .ite (fun _ => (OnlyChanges.setPs s _).mono) fun _ =>
    .ite (fun _ => (OnlyChanges.setPs s _).mono) fun _ => .ite (fun _ => (OnlyChanges.writeTier s _ v).mono) fun _ => ?_
  split
  · exact (OnlyChanges.setPs s _).mono
  · exact .refl _ s
theorem OnlyChanges.writeKettle (s : State) (o v : Nat) : OnlyChanges registerRow s (s.writeKettle o v) :=
  .ite (fun _ => .refl _ s) fun _ => .of_kept rfl rfl rfl
theorem OnlyChanges.writeFq (s : State) (o : Nat) (v : BitVec 64) : OnlyChanges registerRow s (s.writeFq o v) :=
  .ite (fun _ => (OnlyChanges.setFq s _).mono) fun _ => .ite (fun _ => (OnlyChanges.setFq s _).mono) fun _ =>
    .ite (fun _ => (OnlyChanges.setPress s _).mono) fun _ => .refl _ s

/-! ## Network registers (10 R334, 16 R487) -/

theorem OnlyChanges.qpCmd (s : State) (bar fn v : Nat) : OnlyChanges registerRow s (s.qpCmd bar fn v) := by
  unfold State.qpCmd
  dsimp only
  split
  · exact .after fun _ e => OnlyChanges.execQpRead e
  · exact .after fun _ e => OnlyChanges.execQpWrite e
  · exact .after fun _ e => OnlyChanges.execToInit e
  · exact .after fun _ e => OnlyChanges.execToRtr e
  · exact .after fun _ e => OnlyChanges.execToRts e
  · exact .after fun _ e => OnlyChanges.execToReset e
  · exact .after fun _ e => OnlyChanges.execToError e
  · exact (OnlyChanges.qpEnd s _ _).mono
theorem OnlyChanges.regCmd (s : State) (bar fn v : Nat) : OnlyChanges registerRow s (s.regCmd bar fn v) := by
  unfold State.regCmd
  split
  · exact .after fun _ e => OnlyChanges.execCreate e
  · exact .after fun _ e => OnlyChanges.execRevoke e
  · exact .ite (fun _ => .refl _ s) fun _ => (OnlyChanges.regEnd s _ _).mono
theorem OnlyChanges.extCmd (s : State) (bar fn v : Nat) : OnlyChanges registerRow s (s.extCmd bar fn v) := by
  unfold State.extCmd
  split
  · exact .after fun _ e => OnlyChanges.execExtentRevoke e
  · exact .ite (fun _ => .refl _ s) fun _ => (OnlyChanges.updSet s _ _).mono
theorem OnlyChanges.writeSet (s : State) (bar fn o : Nat) (v : BitVec 64) : OnlyChanges registerRow s (s.writeSet bar fn o v) := by
  have set (f : CmdSet → CmdSet) : OnlyChanges registerRow s (s.updSet (setKey bar fn) f) := (OnlyChanges.updSet s _ f).mono
  exact .ite (fun _ => .qpCmd s bar fn _) fun _ => .ite (fun _ => set _) fun _ => .ite (fun _ => .regCmd s bar fn _) fun _ =>
    .ite (fun _ => set _) fun _ => .ite (fun _ => set _) fun _ => .ite (fun _ => .extCmd s bar fn _) fun _ => .refl _ s
theorem OnlyChanges.writeNet (s : State) (o : Nat) (w : BitVec 64) : OnlyChanges registerRow s (s.writeNet o w) := by
  have set (x : Net) : OnlyChanges registerRow s { s with net := x } := (OnlyChanges.setNet s x).mono
  exact .ite (fun _ => (OnlyChanges.netControl s _).mono) fun _ => .ite (fun _ => set _) fun _ => .ite (fun _ => set _) fun _ =>
    .ite (fun _ => set _) fun _ => .ite (fun _ => .writeSet s 0 0 _ w) fun _ => .ite (fun _ => (OnlyChanges.dirControl s _).mono) fun _ =>
    .ite (fun _ => set _) fun _ => .ite (fun _ => (OnlyChanges.updSub s _ _).mono) fun _ => .ite (fun _ => set _) fun _ => .refl _ s

/-! ## Egress and network time registers (11 R342, R347, R358) -/

theorem OnlyChanges.writeGate (s : State) (p o : Nat) (v : BitVec 64) : OnlyChanges [.eg] s (s.writeGate p o v) := by
  refine .ite (fun _ => .gclWrite s p _) fun _ => .ite (fun _ => .updGcl s p _) fun _ => .ite (fun _ => .updGcl s p _) fun _ => ?_
  split
  · exact .updGcl s p _
  · exact .refl _ s
theorem OnlyChanges.writeEgLow (s : State) (o : Nat) (w : BitVec 64) : OnlyChanges registerRow s (s.writeEgLow o w) := by
  have set (x : Eg) : OnlyChanges registerRow s { s with eg := x } := (OnlyChanges.setEg s x).mono
  refine .ite (fun _ => set _) fun _ => .ite (fun _ => set _) fun _ => .ite (fun _ => set _) fun _ =>
    .ite (fun _ => .ite (fun _ => set _) fun _ => .refl _ s) fun _ => .ite (fun _ => .after fun _ e => OnlyChanges.execHistCopy e) fun _ =>
    .ite (fun _ => set _) fun _ => .ite (fun _ => (OnlyChanges.ptpWrite s _).mono) fun _ => .ite (fun _ => (OnlyChanges.updPtp s _).mono) fun _ => ?_
  split
  · exact set _
  · exact .refl _ s
theorem OnlyChanges.writeEg (s : State) (o : Nat) (w : BitVec 64) : OnlyChanges registerRow s (s.writeEg o w) := by
  have set (x : Eg) : OnlyChanges registerRow s { s with eg := x } := (OnlyChanges.setEg s x).mono
  exact .ite (fun _ => .writeEgLow s o w) fun _ => .ite (fun _ => .ite (fun _ => set _) fun _ => set _) fun _ => .ite (fun _ => set _) fun _ =>
    .ite (fun _ => (OnlyChanges.writeGate s _ _ w).mono) fun _ => .refl _ s

/-! ## Colophon, errors, power, credits and firmware registers (12 R391; 13 R424; 15 R474; 01 R19; 14 R446) -/

theorem OnlyChanges.writeCo (s : State) (o : Nat) (w : BitVec 64) (bytes : Nat) : OnlyChanges registerRow s (s.writeCo o w bytes) :=
  .ite (fun _ => (OnlyChanges.setSec s _).mono) fun _ => .ite (fun _ => (OnlyChanges.coMbox s _).mono) fun _ =>
    .ite (fun _ => (OnlyChanges.coCmdWrite s _).mono) fun _ => .ite (fun _ => .ite (fun _ => (OnlyChanges.updCoCtx s _ _).mono) fun _ => .refl _ s)
      fun _ => .refl _ s
theorem OnlyChanges.writePm (s : State) (o v : Nat) : OnlyChanges [.fw, .pwr] s (s.writePm o v) := by
  have set (x : Pwr) : OnlyChanges [.fw, .pwr] s { s with pwr := x } := (OnlyChanges.setPwr s x).mono
  exact .ite (fun _ => .pmCtl s v) fun _ => .ite (fun _ => set _) fun _ => .ite (fun _ => .ite (fun _ => .refl _ s) fun _ => set _) fun _ =>
    .ite (fun _ => set _) fun _ => .refl _ s
theorem OnlyChanges.writeCredit (s : State) (i v : Nat) : OnlyChanges [.pools] s (s.writeCredit i v) :=
  .ite (fun _ => .setPools s _) fun _ => .refl _ s
theorem OnlyChanges.writeErr (s : State) (o v : Nat) : OnlyChanges registerRow s (s.writeErr o v) := by
  refine .ite (fun _ => (OnlyChanges.errHead s v).mono) fun _ => .ite (fun _ => (OnlyChanges.setErr s _).mono) fun _ =>
    .ite (fun _ => (OnlyChanges.cntCmd s v).mono) fun _ => .ite (fun _ => (OnlyChanges.writePm s _ v).mono) fun _ => ?_
  split
  · exact (OnlyChanges.writeCredit s _ v).mono
  · exact .refl _ s
theorem OnlyChanges.writeFw (s : State) (o : Nat) (w : BitVec 64) (bytes : Nat) : OnlyChanges registerRow s (s.writeFw o w bytes) := by
  refine .ite (fun _ => (OnlyChanges.setFw s _).mono) fun _ => .ite (fun _ => (OnlyChanges.fwMbox s _).mono) fun _ =>
    .ite (fun _ => (OnlyChanges.setFw s _).mono) fun _ => ?_
  split
  · exact (OnlyChanges.spWrite s _ _).mono
  · exact .refl _ s

/-! ## The windows -/

theorem OnlyChanges.writeBar0 (s : State) (off : Nat) (v : BitVec 64) : OnlyChanges registerRow s (s.writeBar0 off v) := by
  unfold State.writeBar0
  dsimp only
  split
  · exact .writeId s _ _
  · exact .writeTable s _ v
  · exact .writeSpine s _ v
  · exact .writePages s _ _
  · exact .writeKettle s _ _
  · exact .writeFq s _ v
  · exact .writeNet s _ v
  · exact .writeEg s _ v
  · exact .writeCo s _ v 8
  · exact .writeErr s _ _
  · exact .writeFw s _ v 8
  · split
    · exact .ite (fun _ => (OnlyChanges.portResetWrite s _).mono) fun _ => .refl _ s
    · exact .refl _ s
  · exact .refl _ s
theorem OnlyChanges.writeMsix (s : State) (f i w : Nat) (v : BitVec 64) : OnlyChanges evParts s (s.writeMsix f i w v) :=
  (OnlyChanges.release _ f i).trans' (OnlyChanges.updFn s f _).mono
theorem OnlyChanges.writeBar2 (s : State) (f off : Nat) (v : BitVec 64) : OnlyChanges registerRow s (s.writeBar2 f off v) :=
  .ite (fun _ => .after fun _ e => OnlyChanges.execHeartbeat e) fun _ => .ite (fun _ => .after fun _ e => OnlyChanges.execKettleDoorbell e) fun _ =>
    .ite (fun _ => (OnlyChanges.sigClear s f v).mono) fun _ => .ite (fun _ => .writeSet s 2 f _ v) fun _ =>
    .ite (fun _ => .ite (fun _ => .writeVm s _ _) fun _ => .refl _ s) fun _ => .ite (fun _ => (OnlyChanges.writeMsix s f _ _ v).mono) fun _ =>
    .ite (fun _ => .ite (fun _ => (OnlyChanges.doorbell s f _ _).mono) fun _ => .ite (fun _ => (OnlyChanges.resume s _).mono) fun _ => .refl _ s) fun _ =>
      .refl _ s
theorem OnlyChanges.writeMsixControl (s : State) (f v : Nat) : OnlyChanges evParts s (s.writeMsixControl f v) :=
  (OnlyChanges.updFn s f _).mono.trans (.foldl (α := Nat × Msix) _ (fun u e => .release u f e.1) _ _)
theorem OnlyChanges.writeAer (s : State) (f o : Nat) (v : BitVec 32) : OnlyChanges [.err] s (s.writeAer f o v) :=
  .ite (fun _ => .setErr s _) fun _ => .ite (fun _ => .setErr s _) fun _ => .ite (fun _ => .setErr s _) fun _ => .refl _ s
theorem OnlyChanges.writeSriov (s : State) (o v : Nat) : OnlyChanges flrParts s (s.writeSriov o v) := by
  have set (d : Dev) : OnlyChanges flrParts s { s with dev := d } := (OnlyChanges.setDev s d).mono
  exact .ite (fun _ => (set _).trans (.vfConfig _ _ _)) fun _ => .ite (fun _ => .ite (fun _ => .refl _ s) fun _ => .vfConfig s _ _) fun _ =>
    .ite (fun _ => set _) fun _ => .ite (fun _ => set _) fun _ => .refl _ s
theorem OnlyChanges.writeCfg (s : State) (f o v bytes : Nat) : OnlyChanges registerRow s (s.writeCfg f o v bytes) := by
  have set (i : Nat) (g : Fn → Fn) : OnlyChanges registerRow s (s.updFn i g) := (OnlyChanges.updFn s i g).mono
  have msix (v : Nat) : OnlyChanges registerRow s (s.writeMsixControl f v) := (OnlyChanges.writeMsixControl s f v).mono
  have own (c : Prop) [Decidable c] (i : Nat) (g : Fn → Fn) : OnlyChanges registerRow s (if c then s.updFn i g else s) :=
    .ite (fun _ => set i g) fun _ => .refl _ s
  exact .ite (fun _ => own _ _ _) fun _ => .ite (fun _ => msix _) fun _ => .ite (fun _ => .refl _ s) fun _ => .ite (fun _ => msix _) fun _ =>
    .ite (fun _ => own _ _ _) fun _ => .ite (fun _ => own _ _ _) fun _ => .ite (fun _ => own _ _ _) fun _ =>
    .ite (fun _ => (OnlyChanges.writeAer s f _ _).mono) fun _ => .ite (fun _ => (OnlyChanges.writeSriov s _ v).mono) fun _ => .refl _ s
/-- What each write of a request leaves, the request leaves. -/
theorem OnlyChanges.writeWords {l : List Part} {one : State → Nat → BitVec 64 → State} (h : ∀ s o v, OnlyChanges l s (one s o v)) (k off : Nat)
    (v : List (BitVec 64)) (s : State) : OnlyChanges l s (Machine.writeWords one k off v s) := by
  induction k generalizing off v s with
  | zero => exact .refl _ s
  | succ k ih => exact (h s _ _).trans (ih _ _ _)
theorem OnlyChanges.execRegisterWrite {s t : State} {bar fn offset : Nat} {v : List (BitVec 64)} {bytes : Nat}
    (e : execRegisterWrite bar fn offset v bytes s = .next t) : OnlyChanges registerRow s t := by
  refine .act e (.ite (fun _ => ?_) fun _ => .ite (fun _ => .ite (fun _ => ?_) fun _ => .ite (fun _ => ?_) fun _ => .refl _ s) fun _ => .refl _ s)
  · exact .ite (fun _ => .refl _ s) fun _ => .ite (fun _ => .writeWords (fun s o v => .writeBar0 s o v) _ _ v s) fun _ =>
      .ite (fun _ => .writeCo s _ _ 4) fun _ => .ite (fun _ => .writeFw s _ _ 4) fun _ => .refl _ s
  · exact .ite (fun _ => .refl _ s) fun _ => .ite (fun _ => .writeWords (fun s o v => .writeBar2 s fn o v) _ _ v s) fun _ =>
      .ite (fun _ => .after fun _ e => OnlyChanges.execKettleDoorbell e) fun _ => .refl _ s
  · exact .onConfig (OnlyChanges.writeCfg s fn offset _ bytes)

end Sys2Proof.Machine
end

section
-- One proof after another: so many at once would not fit beside the model in memory.
set_option Elab.async false
/-! O10: every command of the families tier, fence, management and device leaves what its row of `Instr.touches` does not name. -/
namespace Sys2Proof.Machine
open Sys2Proof

/-- What a command of the family device leaves, its row of `Instr.touches` says. -/
theorem OnlyChanges.device {i : Instr} {s t : State} (hi : i.family = .device) (e : exec i s = .next t) : OnlyChanges i.touches s t := by
  cases i
  case commit => exact .execCommit e
  case layoutInitDone => exact .execLayoutInitDone e
  case governorInterval power temp => exact OnlyChanges.execGovernorInterval (power := power) (temp := temp) e
  case loadInterval => exact .execLoadInterval e
  case devReset => exact .execDevReset e
  case upstreamLinkDown => exact .execUpstreamLinkDown e
  case warmStart => exact .execWarmStart e
  case resetNAssert => exact .execResetNAssert e
  case coldStart => exact .execColdStart e
  case perstNChange => exact .execPerstNChange e
  case hbmTrainingDone => exact .execHbmTrainingDone e
  case t0ZeroingDone => exact .execT0ZeroingDone e
  case imageVerified => exact .execImageVerified e
  case configurationReady => exact .execConfigurationReady e
  case brownOut => exact .execBrownOut e
  case sensorSample => exact .execSensorSample e
  case operatingPointChange => exact .execOperatingPointChange e
  case voltageInRegulation => exact .execVoltageInRegulation e
  case regulationTimeout => exact .execRegulationTimeout e
  case pmCtlWrite => exact .execPmCtlWrite e
  case idleEntry => exact .execIdleEntry e
  case bufferWindowAccess => exact .execBufferWindowAccess e
  case registerWrite => exact .execRegisterWrite e
  all_goals cases hi

/-- Settles O10: each command's own lemma on what its meaning changes, family by family, and T0 reads as before where it is not among that. -/
theorem frameTiersFenceDevice : Obligations.FrameTiersFenceDevice := by
  intro i s t hi e
  have h : OnlyChanges i.touches s t := by
    simp only [List.mem_cons, List.not_mem_nil, or_false] at hi
    rcases hi with hi | hi | hi | hi
    · exact .tier hi e
    · exact .fenceFamily hi e
    · exact .management hi e
    · exact .device hi e
  exact ⟨h, fun h0 => h.sameT0 h0⟩

end Sys2Proof.Machine
end
